-- ==== Sys2Proof/Word.lean ====
section
/-!
DEFINITION. The plain word types of the G9256: a register is 32 bits wide (R14), a byte is 8, and a field is a pair of
bit positions written [hi:lo] (R13).
-/
namespace Sys2Proof.Machine

/-- A register word (R14). -/
abbrev Word := BitVec 32

/-- One byte of memory or payload. -/
abbrev Byte := BitVec 8

/-- A bit field, [hi:lo] as R13 writes it. -/
structure Fld where
  hi : Nat
  lo : Nat
  deriving DecidableEq, Repr

end Sys2Proof.Machine
end

