-- ==== Sys2Proof/Machine/Wire.lean ====
section
/-!
DEFINITION. What crosses the boundary of the module, as the commands carry it: TLPs, Kaund flits, frames and signal
messages, Beacon marks and messages, training outcomes, Relay descriptors, register agents. What comes from outside is an
operand of a command; what the module decides itself is not.
-/
namespace Sys2Proof.Machine

/-- The agents of R516. -/
inductive Agent where
  | vsi (v : Nat)
  | keeper
  | mgmt (port : Nat)
  | lampRoom
  deriving DecidableEq, Repr

/-! ## PCI Express -/

/-- The kinds of TLP that the rules tell apart (R3, R80, R183, R250, R334). -/
inductive TlpKind where
  | mrd | mwr | fetchAdd | swap | cas | cfgRd | cfgWr | msg | cpl | mrdLk | dmwr
  deriving DecidableEq, Repr

/-- A Relay message header (Table 9.11). -/
structure RelayMsg where
  reply : Bool := false
  status : Nat := 0
  destSlice : Nat := 0
  srcSlice : Nat := 0
  ref : Nat := 0
  key : Nat := 0
  len : Nat := 0
  /-- the sender's TAG (Table 9.9), for which Table 9.11 gives no bits -/
  tag : Nat := 0
  deriving DecidableEq, Repr

/-- A TLP, by what the rules of the manual read of it. `hdr` counts its header, prefix and OHC bytes, and what trails the
data. `len` is the data a request asks for or carries (0 for a zero-length read), or the data bytes of a completion. `data`
is the payload, `ext` the prefix and OHC bytes, and `trail` what follows the data, an ECRC digest or the code of a selective
IDE stream: no rule of the module looks at them (R4). -/
structure Tlp where
  kind : TlpKind := .mwr
  hdr : Nat := 16
  addr : Nat := 0
  len : Nat := 0
  rid : Nat := 0
  tag : Nat := 0
  tc : Nat := 0
  attr : Nat := 0
  tee : Bool := false
  pasid : Option Nat := none
  ext : List Byte := []
  trail : List Byte := []
  /-- the byte enables of the first and of the last DW -/
  fbe : Nat := 15
  lbe : Nat := 15
  /-- the address type: 0 untranslated, 1 a translation request, 2 translated -/
  at_ : Nat := 0
  /-- the completer ID of a completion -/
  cid : Nat := 0
  /-- bus, device and function a configuration request or a routed message names -/
  dest : Nat := 0
  /-- the PCIe multicast group whose range the address falls in -/
  mcGroup : Option Nat := none
  malformed : Bool := false
  /-- a configuration write that initiates a Function Level Reset (R262) -/
  initFlr : Bool := false
  status : Nat := 0
  byteCount : Nat := 0
  lower : Nat := 0
  data : List Byte := []
  poison : Bool := false
  /-- a Vendor-Defined Message of Vomeon that carries a Relay message (R302) -/
  rmsg : Option RelayMsg := none
  deriving DecidableEq, Repr

/-- What one flit carries of one TLP: its start (the header arrives with it), its bytes, and whether it ends here. -/
structure TlpSeg where
  start : Option Tlp := none
  bytes : Nat := 0
  last : Bool := false
  deriving DecidableEq, Repr

/-! ## Kaund -/

/-- The Kaund header of Table 6.1, without KH_CRC, which the frame that carries it holds. -/
structure KHdr where
  destFa : Nat := 0
  mc : Bool := false
  tc : Nat := 0
  guarded : Bool := false
  cong : Bool := false
  world : Bool := false
  srcFa : Nat := 0
  srcVsi : Nat := 0
  desc : Bool := false
  /-- EPOCH [23:16] and N [15:0] (Table 7.1) -/
  epoch : Nat := 0
  n : Nat := 0
  hops : Nat := 0
  alt : Nat := 0
  wgen : Nat := 0
  deriving DecidableEq, Repr

/-- A Kaund frame. `crc` is its KH_CRC, as received or as written (R170, R172). -/
structure Frame where
  kh : KHdr := {}
  tlp : Tlp := {}
  crc : Nat := 0
  deriving DecidableEq, Repr

/-- A frame delimiter (Table 5.3) with the frame it opens. -/
structure FrameStart where
  start : Nat := 0x5A
  vc : Nat := 0
  otype : Nat := 0
  len : Nat := 0
  frame : Frame := {}
  deriving DecidableEq, Repr

/-- What one DATA flit carries of one frame: the delimiter that is complete in it, the frame bytes after the delimiter, and
the bytes themselves as they lie in the payload. The frame ends when LEN bytes are complete; a START of 0 marks the rest of
the payload as padding (R133). -/
structure FrameSeg where
  start : Option FrameStart := none
  bytes : Nat := 0
  wire : List Nat := []
  deriving DecidableEq, Repr

/-- A whole Signal-channel message that is routed (Table 5.6, R158). -/
inductive SigMsg where
  | castOff (destFa tc originFa epoch n : Nat) (resend : Bool)
  | notice (destFa tc originFa depthPct : Nat)
  | refuse (destFa tc originFa epoch n cause : Nat)
  | farErr (destFa tc status addr vsi ser originFa : Nat)
  | mgmt (destFa originFa msgId : Nat) (bytes : List Nat)
  deriving DecidableEq, Repr

/-- One signal slot (Table 5.6). -/
inductive Slot where
  | null
  | castOff (destFa tc originFa epoch n : Nat) (resend : Bool)
  | notice (destFa tc originFa depthPct : Nat)
  | refuse (destFa tc originFa epoch n cause : Nat)
  | farErr0 (destFa tc status addr vsi ser : Nat)
  | farErr1 (destFa tc originFa ser : Nat)
  | mgmtHead (destFa originFa len msgId : Nat)
  | mgmtData (sub : Nat) (bytes : List Nat)
  | echo (reply : Bool) (tSend residence : Nat)
  | reserved (stype : Nat)
  deriving DecidableEq, Repr

/-- The INIT flit payload (Table 5.11). -/
structure InitParams where
  ownFa : Nat := 0
  facing : Bool := false
  vcEn : Nat := 1
  major : Nat := 1
  minor : Nat := 0
  peerSeen : Bool := false
  deriving DecidableEq, Repr

/-- FLIT_TYPE (Table 5.2). -/
inductive FlitType where
  | data | signal | init | reserved
  deriving DecidableEq, Repr

/-- A Kaund flit (Tables 5.1 and 5.2). `good` is the outcome of FEC and the flit CRC (R127). -/
structure Flit where
  good : Bool := true
  ftype : FlitType := .data
  seq : Nat := 0
  ackSeq : Nat := 0xFFFF
  nak : Bool := false
  null : Bool := false
  fcSel : Bool := false
  fcBits : Nat := 0
  payload : List FrameSeg := []
  slots : List Slot := []
  slot : Slot := .null
  init : InitParams := {}
  deriving DecidableEq, Repr

/-! ## Lanes and the Beacon Ring -/

/-- The end of a port's PHY training (R109 to R117). -/
inductive TrainResult where
  /-- the port did not reach L0 and returns to Detect -/
  | fail
  /-- L0; `flit` mode; partner offers Kaund version 1 and answers with Vomeon's identifier; partner's role bit (1
  proposing) when it sent Vomeon's identifier; lanes; rate code; equalization fell back; reversed; inverted lanes;
  preset and CTLE code of each lane -/
  | l0 (rate lanes : Nat) (flit kaund : Bool) (role : Option Bool) (eqFallback reversed : Bool) (inverted : Nat)
      (lanes : List (Nat × Nat))
  deriving DecidableEq, Repr

/-- What a port offers in TS1 and TS2 (R110, R114): flit mode, the highest rate code, the transmitter presets of its lanes at
8 to 128 GT/s with their CTLE codes and DFE taps, whether equalization is left out, and, where Kaund is allowed, Vomeon's
identifier with usage value, version and role bit (1 proposing). -/
structure TrainOffer where
  flit : Bool := true
  maxRate : Nat := 0
  width : Nat := 0
  lanes : List (List Nat × Nat × List Int) := []
  noEq : Bool := false
  kaund : Option (Nat × Nat × Nat × Bool) := none
  deriving DecidableEq, Repr

/-- A Beacon frame mark (Table 4.2): whether its symbols are without a code error and lie 625 ± 1 symbols after the mark
before, its fields, and its CRC as received or as sent. -/
structure BeaconMark where
  codeOk : Bool := true
  spacingOk : Bool := true
  fsn : Nat := 0
  time : Nat := 0
  master : Nat := 0
  crc : Nat := 0
  deriving DecidableEq, Repr

/-- A Beacon message slot (Table 4.3): whether its symbols are without a code or disparity error, its fields, and its CRC as
received or as sent. Table 4.3 has no field for the hops it has passed: `hops` is the model's own count (DESIGN CHOICE, log 74). -/
structure BeaconMsg where
  codeOk : Bool := true
  type : Nat := 1
  dest : Nat := 0
  bcast : Bool := false
  src : Nat := 0
  seq : Nat := 0
  payload : List Nat := []
  crc : Nat := 0
  hops : Nat := 0
  deriving DecidableEq, Repr

/-! ## The Relay engine -/

/-- A descriptor as fetched (Table 9.6); `rsvd` says that some reserved bit is nonzero. -/
structure Desc where
  opcode : Nat := 0
  intr : Bool := false
  tag : Nat := 0
  len : Nat := 0
  tc : Nat := 0
  src : Nat := 0
  dst : Nat := 0
  operand : List Nat := []
  rsvd : Bool := false
  deriving DecidableEq, Repr

/-! ## The Keeper -/

/-- Why a PCIe link left DL_Active, where no other command says so (R537). -/
inductive LinkLoss where
  | cable | signal | partner | retrain | ownerReset
  deriving DecidableEq, Repr

/-- A capability bit or field of PCI Express whose value Tables 3.1 and 8.1 and R267 give: ECRC generation and checking, DMWr
Request Routing Supported, ASPM L0s, L1, L1.1 and L1.2, P2P Egress Control, Max_Payload_Size Supported, ARI Forwarding, link IDE,
L0p, whether a VC, an MSI and an MSI-X capability are there, the last group of multicast. -/
inductive FixedCap where
  | ecrcGen | ecrcCheck | dmwrRouting | aspmL0s | aspmL1 | l11 | l12 | egressControl | maxPayload | ariForwarding | linkIde | l0p
  | vc | msi | msix | mcGroups
  deriving DecidableEq, Repr

/-- A register of a function in the host's configuration view, as the rules of chapter 8 tell them apart. -/
inductive CfgReg where
  /-- Memory Space Enable and Bus Master Enable of the Command register -/
  | mse | bme
  /-- the multicast capability of the upstream bridge: its control word, a half of its base address -/
  | mcCtl | mcBase (hi : Bool)
  /-- a half of a memory BAR: number, true for the upper half -/
  | bar (i : Nat) (hi : Bool)
  /-- `romBar`: the Expansion ROM BAR -/
  | vendorDevice | headerType | intDisable | romBar | srIov
  /-- the Interrupt Pin; the Capabilities Pointer; the next pointer of the extended capability at an offset; a capability bit -/
  | intPin | capPtr
  | capNext (off : Nat)
  | fixed (f : FixedCap)
  /-- Slot Capabilities, Slot Status; Link Capabilities, Link Control, Link Status -/
  | slotCap | slotStatus | linkCap | linkCtl | linkStatus
  /-- AER: Uncorrectable and Correctable Error Status; Uncorrectable Error Severity -/
  | aerUnc | aerCor | aerSev
  /-- ACS Control -/
  | acs
  /-- Max_Payload_Size and Max_Read_Request_Size of Device Control -/
  | mps | mrrs
  /-- secondary and subordinate bus numbers of a bridge -/
  | secBus | subBus
  /-- Bridge Control: Secondary Bus Reset -/
  | sbr
  /-- memory range n of a bridge: base or limit -/
  | range (n : Nat) (limit : Bool)
  /-- DPC Trigger Enable, DPC Completion Control, DPC Trigger Status, the software trigger -/
  | dpcEn | dpcCplCtl | dpcStatus | dpcSoft
  /-- Initiate Function Level Reset -/
  | flr
  /-- of a physical function: VF Enable, NumVFs, a VF BAR -/
  | vfEnable | numVfs | vfBar (i : Nat)
  | other (off : Nat)
  deriving DecidableEq, Repr

/-- Where a Keeper command came from, and what its record needs (Table 13.6). -/
structure KHead where
  tag : Nat := 0
  intr : Bool := false
  /-- an MCTP message on the primary I3C port (R387) -/
  mctp : Bool := false
  deriving DecidableEq, Repr

/-- What the module reads of a physical function as it binds it: for a VF its PF, and the PF's Vendor ID with the VF Device ID of
its SR-IOV capability, as one dword; the function's extended capabilities in list order, each by its offset and whether it is
SR-IOV (R246, R249). -/
structure FnInfo where
  pf : Option Nat := none
  vfIds : Option Nat := none
  caps : List (Nat × Bool) := []
  deriving DecidableEq, Repr

/-- A Keeper command with its parameters (Tables 13.7 and 13.23). What a command reads from outside comes with it: the BARs
of a function (number, address, size) and what else it reads of it, the bytes that a read of host memory returns. -/
inductive KCmd where
  | nop
  | bind (v vbr kind target prid devfn peer : Nat) (wins : List (Nat × Nat)) (bars : List (Nat × Nat × Nat))
      (fn : FnInfo)
  | bindPeer (port prid ownerFa ownerVsi proxy : Nat) (bars : List (Nat × Nat)) (pf : Option Nat)
  | unbindVbr (v vbr : Nat)
  | unbindFn (v vbr devfn : Nat)
  | unbindPeer (port prid : Nat)
  | setProxy (v : Nat) (enable : Bool)
  | setVbrCount (v n : Nat)
  | queryVbr (v vbr devfn : Nat)
  | queryPeer (port prid : Nat)
  | sliceGrant (v first count : Nat)
  | sliceRevoke (first count : Nat)
  | imageBegin (kind len : Nat)
  | imageWrite (kind off len addr : Nat) (data : List Byte)
  | imageVerify (kind : Nat)
  | imageCommit (mask : Nat)
  | imageActivate
  | imageAccept
  | imageAbort (kind : Nat)
  | opKeyEnroll (kind addr : Nat) (key : List Byte)
  | keyRevoke (k : Nat)
  | setCert (addr len : Nat) (cert : List Byte)
  /-- an entry that ends with an error status as it is decoded: its CODE, the status, and the PARAM byte of the field that fails -/
  | bad (code status field : Nat)
  deriving DecidableEq, Repr

/-! ## Power entry -/

/-- What the power-entry controller measures in one period of 10 µs, before calibration (R405, R456): drain-source voltage in
mV and current in mA of the hot-swap FET, diode and inlet temperature in 0.01 °C, and each feed's voltage in mV and current
in mA. -/
structure PweMeas where
  vds : Nat := 0
  ids : Nat := 0
  diode : Int := 0
  inlet : Int := 0
  va : Nat := 0
  ca : Nat := 0
  vb : Nat := 0
  cb : Nat := 0
  deriving DecidableEq, Repr


/-- A bit error that a background pass finds (R363, R338): an entry of a table in one pipeline's copy that differs from what
was written (`b`: pipeline B's copy), an entry of the sector table in one of the two copies of a checking island (a station, 16
the Relay engine); a SECDED code with an error in an ORT entry, a stream's
metadata, an egress context, an output-buffer link word of a station, or Keeper SRAM, `hard` when it cannot be corrected; a
register-bus transfer that the next access at an offset meets with wrong parity (R518, log 189); `late`, an error of a SECDED
code that strikes after the pass has read the word and waits for its next use or the next pass (R359). -/
inductive Upset where
  | table (b : Bool) (off : Nat) (w : Word)
  | sector (isl : Nat) (b : Bool) (off : Nat) (w : Word)
  | ort (port tag : Nat) (hard : Bool)
  | metadata (srcFa tc destFa : Nat) (hard : Bool)
  | ctx (srcFa tc port : Nat) (hard : Bool)
  | link (st : Nat) (hard : Bool)
  | sram (hard : Bool)
  | bus (off : Nat)
  | late (u : Upset)
  deriving DecidableEq, Repr

/-- An SPDM request (R390, R391), by what the rules tell apart. `offers`: the requester offers both extended algorithms. -/
inductive SpdmReq where
  | getVersion | getCapabilities | negotiateAlgorithms (offers : Bool) | getDigests | getCertificate (slot off len : Nat)
  | challenge (slot : Nat) | getMeasurements (index : Nat) (signed : Bool) | chunkGet | setCertificate (slot : Nat) (chain : List Byte)
  | other
  deriving DecidableEq, Repr

/-- What CAPABILITIES offers (R390). -/
structure SpdmCaps where
  cert : Bool
  chal : Bool
  measure : Bool
  chunk : Bool
  setCert : Bool
  session : Bool
  psk : Bool
  mutAuth : Bool
  csr : Bool
  deriving DecidableEq, Repr

/-- What ALGORITHMS selects (R391): base algorithms, extended ones as (vendor, algorithm) of the PCI-SIG registry, whether the
measurement specification is DMTF and the measurement hash raw bit stream only. -/
structure SpdmAlgs where
  baseAsym : Nat
  baseHash : Nat
  extAsym : List (Nat × Nat)
  extHash : List (Nat × Nat)
  dmtf : Bool
  raw : Bool
  deriving DecidableEq, Repr

/-- What the responder answers: the response of the request's kind with the content the rules give it, or an ERROR. A signature is
the 1,462 bytes of its field, or none. -/
inductive SpdmAns where
  | version (major minor : Nat) | capabilities (caps : SpdmCaps) | algorithms (algs : SpdmAlgs)
  | digests (slots : List (Nat × List Nat)) | certificate (bytes : List Byte)
  | challengeAuth (slot : Nat) (digest signature : List Nat) | measurements (values : List (Nat × List Nat)) (signature : List Nat)
  | chunk (data : Nat) | setCertificate | busy | unexpected | refused
  deriving DecidableEq, Repr

/-- What a boot meets: the self-tests of the cores and of the comparators, the two FOG_N paths, and the islands that do not
start. -/
structure BootOutcome where
  lockOk : Bool
  cmpFail : List Nat
  keeperPath : Bool
  lampPath : Bool
  outside : Bool
  missing : List Nat
  deriving DecidableEq, Repr

end Sys2Proof.Machine
end

