-- ==== Sys2Proof/Syntax.lean ====
section
/-!
DEFINITION. The commands of the G9256: one constructor of `Instr` per row of spec/opcode_table.json, in the table's order.
An operand is what comes from outside with the command; a command whose condition the state decides has none.
-/
namespace Sys2Proof
open Sys2Proof.Machine

inductive Instr where
  /-- REGISTER_WRITE (R15): A register write to a register that has no row of its own updates its writable fields and ignores
  reserved bits. -/
  | registerWrite (ag : Agent) (off value : Nat)
  /-- REG_ACCESS_BAD_SIZE (R14): A register access of a size other than 32 bits completes without effect and logs ACCESS_SIZE. -/
  | regAccessBadSize (ag : Agent) (off size : Nat) (write : Bool)
  /-- LO_READ_LATCH (R19): A read of a _LO half latches the matching _HI half for the next read by the same agent. -/
  | loReadLatch (ag : Agent) (off : Nat)
  /-- PCIE_FLIT_RECEIVED (R66): A flit arrives on a PCIe port and is checked after FEC; its TLP bytes go to the receive pool. -/
  | pcieFlitReceived (p : Nat) (good : Bool) (segs : List TlpSeg) (fc : List Nat)
  /-- PCIE_TLP_RECEIVED (R183): A whole TLP received on a PCIe port is parsed, assigned a VSI, looked up in windows and routes,
  and sector-checked. -/
  | pcieTlpReceived (p : Nat)
  /-- PACKET_STAGED (R43): A looked-up packet leaves the receive pool into cells of its VOQ once its port is not stopped, its
  queue has room and its policer is eligible. -/
  | packetStaged (st : Nat)
  /-- GUARDED_COPY_ALLOCATED (R209): The Mooring store allocates granules and a metadata entry for a guarded packet, which may
  then be staged. -/
  | guardedCopyAllocated (st src : Nat)
  /-- COPY_HELD (R209): The last cell of a custody copy is written; the copy is HELD and the host acknowledgement may be returned.
  -/
  | copyHeld (id : Nat)
  /-- SPILL_DONE (R211): A copy finishes moving to the overflow region and becomes SPILLED. -/
  | spillDone
  /-- SPILLED_READBACK (R213): A spilled copy read back from LPDDR6 becomes available for its waiting replay. -/
  | spilledReadback (id : Nat)
  /-- TOWER_MATCH_CYCLE (R52): In each CT each plane runs request, grant and accept iterations for the next CT and matched inputs
  send head cells. -/
  | towerMatchCycle (stalled : List Nat)
  /-- CELL_ARRIVAL_OB (R61): A cell arrives in the output buffer of its station and is linked into its packet and port queue. -/
  | cellArrivalOb (st : Nat) (tagOk : Bool)
  /-- SCHEDULER_CHOICE (R315): When a port's previous packet has been handed over, the two-level WFQ chooses the next eligible
  candidate. -/
  | schedulerChoice (p : Nat)
  /-- PACKET_TRANSMITTED (R313): The last cell of a packet is handed to the egress link layer and leaves the port queue. -/
  | packetTransmitted (p : Nat)
  /-- EGRESS_UNDERRUN (R69): The next cell of a packet in transmission has not arrived when needed; the packet is nullified and
  kept for retransmission. -/
  | egressUnderrun (p : Nat)
  /-- PCIE_TLP_ACKED (R216): The link partner's data link layer acknowledges a transmitted TLP. -/
  | pcieTlpAcked (p : Nat)
  /-- ORT_ENTRY_ALLOCATE (R86): A waiting non-posted request gets an entry, tag and credit reservation and is transmitted with
  remapped ID and tag. -/
  | ortEntryAllocate (p tag : Nat)
  /-- COMPLETION_RECEIVED (R89): A checked completion is matched against ORT entries, restored and forwarded, and its entry
  advanced or ended. -/
  | completionReceived (p : Nat)
  /-- CTO_EXPIRY (R93): An ORT entry's timer reaches the completion timeout; the module answers it and quarantines its tag. -/
  | ctoExpiry (p tag : Nat)
  /-- QUARANTINE_END (R93): A quarantined tag's 2 x CTO runs out and the tag returns to the pool. -/
  | quarantineEnd (p tag : Nat)
  /-- PCIE_LINK_DOWN (R537): A PCIe port leaves DL_Active; requests are answered, queued traffic discarded and Surprise Down
  reported when unrequested. -/
  | pcieLinkDown (p : Nat) (why : LinkLoss)
  /-- PCIE_LINK_UP (R82): A PCIe port reaches DL_Up and advertises the committed credits and ORT_RID. -/
  | pcieLinkUp (p : Nat) (credits : List Nat)
  /-- DPC_RELEASE (R99): The owner clears DPC Trigger Status and the downstream link retrains. -/
  | dpcRelease (p : Nat)
  /-- PRSNT_CHANGE (R471): A cable site's PRSNT_N changes and presence of its ports is updated. -/
  | prsntChange (site : Nat) (low : Bool) (ident : Option (List Nat))
  /-- CABLE_MISMATCH (R471): The two PRSNT_N of an x16 port differ for 100 ms; the port is reported absent and CABLE_MISMATCH
  logged. -/
  | cableMismatch (p : Nat)
  /-- PERST_ASSERT (R101): Setting PRT_CTRL.PERST_ASSERT asserts PERST_N on the downstream cable site. -/
  | perstAssert (ag : Agent) (p : Nat)
  /-- LINK_DISABLE_SET (R167): Setting LINK_DISABLE holds the link down, triggers R92, and for a span port runs a full link reset
  into HELD. -/
  | linkDisableSet (ag : Agent) (p : Nat)
  /-- LINK_DISABLE_CLEAR (R167): Clearing LINK_DISABLE releases the link; a HELD span port leaves through a full link reset. -/
  | linkDisableClear (ag : Agent) (p : Nat)
  /-- PLL_LOCK_LOST (R105): A lane quad's PLL loses lock; its lanes stop, PCIe ports go down and span ports start a full link
  reset. -/
  | pllLockLost (q : Nat)
  /-- PLL_RELOCKED (R105): The lane quad's PLL locks again and its ports retrain. -/
  | pllRelocked (q : Nat)
  /-- LINK_TRAINING_DONE (R109): A port's PHY training ends, reaching L0 as PCIe or span port or failing back to Detect. -/
  | linkTrainingDone (p : Nat) (r : TrainResult)
  /-- JOINT_TRAINING_TIMEOUT (R113): A shared-quad port finds no partner for 24 ms and leaves joint training. -/
  | jointTrainingTimeout (p : Nat)
  /-- DIM_RECEIVER_DETECT (R443): In DIM a standby lane quad runs receiver detection every 12 ms and leaves standby on a partner. -/
  | dimReceiverDetect (q : Nat) (partner : Bool)
  /-- BEACON_FRAME_TIMER (R120): Every 1 us the Beacon sends a frame mark and queued message slots on each ring. -/
  | beaconFrameTimer
  /-- BEACON_MARK_RECEIVED (R122): A frame mark arrives; it is judged good or not, aligns the frame timer and loads fabric time. -/
  | beaconMarkReceived (r : Nat) (m : BeaconMark)
  /-- BEACON_MESSAGE_RECEIVED (R121): A Beacon message slot is received, checked, filtered for duplicates, consumed or forwarded. -/
  | beaconMessageReceived (r : Nat) (m : BeaconMsg)
  /-- HOLDOVER (R124): No good mark on either ring for 8 frames; the Watch free-runs and HOLDOVER is set. -/
  | holdover
  /-- MASTER_TAKEOVER (R124): A MASTER_CAND module in holdover waits its delay and becomes time master. -/
  | masterTakeover
  /-- BEACON_WAKE_PATTERN (R126): The DARK listen receiver detects the wake pattern and raises the Beacon wake source. -/
  | beaconWakePattern (ring : Nat)
  /-- SPAN_FLIT_RECEIVED (R138): A span port receives a flit and acts on its sequence number, link header and signal slot. -/
  | spanFlitReceived (p : Nat) (f : Flit)
  /-- SPAN_FRAME_RECEIVED (R172): A whole frame on a span port is CRC-checked, routed by DEST_FA and turn-checked, or delivered at
  its egress edge. -/
  | spanFrameReceived (p : Nat)
  /-- SIGNAL_MESSAGE_ROUTED (R158): A whole Signal-channel message is routed by DEST_FA, turn-checked and queued or delivered. -/
  | signalMessageRouted (p : Nat)
  /-- SPAN_FLIT_TRANSMIT (R131): A span port sends its next DATA, SIGNAL or INIT flit with the current link header and signal
  slot. -/
  | spanFlitTransmit (p : Nat)
  /-- REPLAY_TIMER_EXPIRY (R143): The replay timer reaches REPLAY_TMO and the transmitter resends from the oldest unacknowledged
  flit. -/
  | replayTimerExpiry (p : Nat)
  /-- FC_STALENESS (R148): No good flit for 64 flit times; both flow-control maps are treated as set. -/
  | fcStaleness (p : Nat)
  /-- KINIT_TIMEOUT (R163): KINIT does not complete within 1 ms and a full link reset starts. -/
  | kinitTimeout (p : Nat)
  /-- RECOVERY_ENTRY (R162): The PHY enters LTSSM Recovery and the span port goes to RECOVERY keeping link-layer state. -/
  | recoveryEntry (p : Nat)
  /-- RECOVERY_EXIT (R164): The PHY leaves Recovery; same width and rate return to UP, otherwise a full link reset starts. -/
  | recoveryExit (p : Nat) (l0 : Option (Nat × Nat))
  /-- RECOVERY_TIMEOUT (R164): The PHY stays in Recovery for 100 us and a full link reset starts. -/
  | recoveryTimeout (p : Nat)
  /-- PHY_DETECT_ENTERED (R162): During a full link reset the PHY enters Detect and the port goes to DOWN. -/
  | phyDetectEntered (p : Nat)
  /-- ECHO_REQUEST_TIMER (R157): A span port sends an ECHO request every 2 us in KINIT and every 1 ms in UP. -/
  | echoRequestTimer (p : Nat)
  /-- HOLD_RETRY_EXPIRY (R167): HOLD_RETRY passes after KAUND_RATE_FAIL and the HELD port starts a full link reset. -/
  | holdRetryExpiry (p : Nat)
  /-- RETRAIN (R166): Writing SPAN_CTRL.RETRAIN starts a full link reset on a span port. -/
  | retrain (ag : Agent) (p : Nat)
  /-- REVERT_HOLD_EXPIRY (R177): REVERT_HOLD passes after a port enters UP and it becomes a usable candidate again. -/
  | revertHoldExpiry (p : Nat)
  /-- FAR_ERR_SECOND_COPY (R161): At least 4 flit times after the first, the generating module sends the second FAR_ERR copy. -/
  | farErrSecondCopy (id : Nat)
  /-- FAR_ERR_RECEIVED (R200): A FAR_ERR reaches its VSI, passes the duplicate filter, and is logged with MSI-X and a log record. -/
  | farErrReceived
  /-- FAR_ERR_FILTER_EXPIRY (R161): A duplicate-filter entry leaves after 1 ms. -/
  | farErrFilterExpiry (v origin ser addr : Nat)
  /-- QUOTA_COMMIT (R62): A QUOTA_COMMIT write checks and switches OB_RESERVE, PORT_QUOTA and PORT_CFG, or rejects them. -/
  | quotaCommit (ag : Agent) (st gen : Nat)
  /-- STN_MC_COMMIT (R193): A station MC_COMMIT write switches MC_PORT_MASK indices 0-63 to a new generation. -/
  | stnMcCommit (ag : Agent) (st gen : Nat)
  /-- TWR_MC_COMMIT (R193): A Tower MC_COMMIT write switches MC_STATION_MASK indices 0-63 to a new generation. -/
  | twrMcCommit (ag : Agent) (gen : Nat)
  /-- POOL_COMMIT (R82): A POOL_COMMIT write checks and commits credits, ORT_LIMIT, NP_WAIT_QUOTA and VC buffers, or rejects them.
  -/
  | poolCommit (ag : Agent) (p gen : Nat)
  /-- RT_COMMIT (R180): An RT_COMMIT write checks and switches the reach, module and TC-to-VC tables. -/
  | rtCommit (ag : Agent) (gen : Nat)
  /-- WIN_COMMIT (R182): A WIN_COMMIT write checks and switches every window of the module. -/
  | winCommit (ag : Agent) (gen : Nat)
  /-- FMC_COMMIT (R181): An FMC_COMMIT write switches FMC_MASK and derives the fabric multicast Tower tables. -/
  | fmcCommit (ag : Agent) (gen : Nat)
  /-- SEC_COMMIT (R340): A SEC_COMMIT write checks and switches the sector table and defaults. -/
  | secCommit (ag : Agent) (gen : Nat)
  /-- SCH_COMMIT (R318): A SCH_COMMIT write checks and switches all scheduler shadows. -/
  | schCommit (ag : Agent) (gen : Nat)
  /-- FENCE_REQ (R197): A FENCE_REQ write starts a drain fence for a generation and VSI. -/
  | fenceReq (ag : Agent) (gen v : Nat) (all : Bool)
  /-- FENCE_DONE (R197): The fence count reaches 0 and DONE and FENCE_DONE are set. -/
  | fenceDone
  /-- SEC_DRAINED (R342): No item checked under an older sector generation remains and DRAINED is set. -/
  | secDrained
  /-- FEL_RD_WRITE (R200): A write of FEL_PTR.RD frees Far Error Log entries when in range. -/
  | felRdWrite (ag : Agent) (v rd : Nat)
  /-- KND_FAB_RID_WRITE (R188): A KND_FAB_RID write changes BASE, or is ignored with RID_BUSY while fabric entries exist. -/
  | kndFabRidWrite (ag : Agent) (base : Nat)
  /-- GUARD_MAP_WRITE (R202): A GUARD_MAP write acts on packets looked up after it. -/
  | guardMapWrite (ag : Agent) (v mask : Nat)
  /-- CAST_OFF_RECEIVED (R220): A CAST_OFF reaches the ingress store and frees copies up to its N. -/
  | castOffReceived
  /-- RESEND_RECEIVED (R221): A RESEND reaches the ingress store and starts a replay, is ignored or fails the stream. -/
  | resendReceived
  /-- REFUSE_RECEIVED (R222): A REFUSE stops new frames of the stream until a back-off replay. -/
  | refuseReceived
  /-- NOTICE_RECEIVED (R324): A congestion notice reaches its port and acts on policers and slice pacing, or is counted. -/
  | noticeReceived
  /-- MGMT_RECEIVED (R395): The Keeper receives an MGMT message, acts on it once and returns ACK when asked. -/
  | mgmtReceived
  /-- MGMT_REPEAT_TIMER (R395): An unacknowledged MGMT message is repeated every 1 ms up to 8 sends, then MGMT_LOST. -/
  | mgmtRepeatTimer (id : Nat)
  /-- CAST_GAP_EXPIRY (R217): CAST_GAP passes and a due cast-off of the stream is sent with the current C. -/
  | castGapExpiry (srcFa tc port : Nat)
  /-- CUSTODY_TIMER_EXPIRY (R223): A stream's custody timer expires; ALT advances, the stream replays from LOW and the timer
  doubles. -/
  | custodyTimerExpiry (srcFa tc destFa : Nat)
  /-- REFUSE_BACKOFF_EXPIRY (R222): The refusal back-off ends and the store replays the stream from LOW. -/
  | refuseBackoffExpiry (srcFa tc destFa : Nat)
  /-- CUSTODY_LIMIT_EXPIRY (R226): No cast-off has freed a copy for CUSTODY_LIMIT and the stream fails with LIMIT. -/
  | custodyLimitExpiry (srcFa tc destFa : Nat)
  /-- EPOCH_GAP_EXPIRY (R226): EPOCH_GAP passes after a failure and the stream's waiting next frame opens the next epoch. -/
  | epochGapExpiry (srcFa tc destFa : Nat)
  /-- EGRESS_CTX_AGE_CLOSE (R219): An egress context idle for CTX_AGE is closed. -/
  | egressCtxAgeClose (srcFa tc port : Nat)
  /-- DORMANT_RECORD_EXPIRY (R228): A dormant record's DORMANT_AGE runs out and the record is forgotten. -/
  | dormantRecordExpiry (srcFa tc destFa : Nat)
  /-- GUARD_RESIDENCE_DROP (R230): A guarded frame in one module for GUARD_RESIDENCE is discarded and counted in AGED_DROP. -/
  | guardResidenceDrop (uid : Nat)
  /-- BOOT_HOLD_END (R231): BOOT_HOLD ends and the store may open guarded streams. -/
  | bootHoldEnd
  /-- CONFIG_REQUEST_RECEIVED (R241): A configuration request on an upstream port is decided by the VSI configuration view. -/
  | configRequestReceived (p : Nat) (type0 : Bool) (reg : CfgReg)
  /-- EMULATED_BAR_WRITE (R247): A host BAR write to a bound function updates its bound window between two lookups. -/
  | emulatedBarWrite (v vbr devfn bar : Nat) (hi : Bool) (value : Nat)
  /-- EMULATED_MSE_WRITE (R247): A Memory Space Enable write enables or disables the bound windows of a function. -/
  | emulatedMseWrite (v vbr devfn : Nat) (on : Bool)
  /-- BIND (R254): Command 0x10 binds a vBridge as PORT, REMOTE or FUNCTION. -/
  | bind (h : KHead) (v vbr kind target prid devfn peer : Nat) (wins : List (Nat × Nat)) (bars : List (Nat × Nat × Nat)) (fn : FnInfo)
  /-- BIND_PEER (R253): Command 0x11 writes a PEER binding at the function's module. -/
  | bindPeer (h : KHead) (port prid ownerFa ownerVsi proxy : Nat) (bars : List (Nat × Nat)) (pf : Option Nat)
  /-- UNBIND (R255): Command 0x12 removes a binding after quiescing its functions and returning its windows. -/
  | unbind (h : KHead) (form v vbr devfn port prid : Nat)
  /-- SET_PROXY (R240): Command 0x13 makes an unowned VSI a proxy VSI or releases it. -/
  | setProxy (h : KHead) (v : Nat) (enable : Bool)
  /-- SET_VBR_COUNT (R242): Command 0x14 changes a VSI's vBridge count while the VSI is in reset. -/
  | setVbrCount (h : KHead) (v n : Nat)
  /-- QUERY_BIND (R253): Command 0x15 returns a binding. -/
  | queryBind (h : KHead) (form v vbr devfn port prid : Nat)
  /-- BIND_PROBE_RETRY (R254): Every 1 ms the remote Vendor ID probe repeats until answered or PROBE_LIMIT, then PROBE_FAIL. -/
  | bindProbeRetry (v vbr devfn : Nat)
  /-- UPSTREAM_PERST (R260): PERST_N asserted on an upstream site or loss of the upstream link puts the VSI in reset. -/
  | upstreamPerst (site : Nat) (low : Bool)
  /-- HOT_RESET_RECEIVED (R260): A hot reset on the upstream port puts the VSI in reset. -/
  | hotResetReceived (p : Nat)
  /-- SBR_UPSTREAM_BRIDGE (R260): Secondary Bus Reset in the upstream bridge resets all vBridges and functions below. -/
  | sbrUpstreamBridge (v : Nat)
  /-- SBR_VBRIDGE (R260): Secondary Bus Reset in a vBridge resets its exclusive link or translates FLRs of its functions. -/
  | sbrVbridge (v vbr : Nat)
  /-- EMULATED_FLR (R262): A host FLR write to an emulated function starts the translated FLR quiesce. -/
  | emulatedFlr (v vbr devfn : Nat)
  /-- FLR_QUIESCE_DONE (R262): Requests and custody of the function have drained and the function's module ends entries and writes
  the physical FLR. -/
  | flrQuiesceDone (v vbr devfn : Nat)
  /-- QUIESCE_TIMEOUT (R262): QUIESCE_TMO passes; remaining requests are answered and the FLR proceeds. -/
  | quiesceTimeout (v vbr devfn : Nat)
  /-- FLR_FRS_RECEIVED (R262): The function's FRS arrives and the owner clears FLR_BUSY and sends FRS. -/
  | flrFrsReceived (v vbr devfn : Nat)
  /-- FLR_FRS_TIMEOUT (R262): 100 ms pass without the function's FRS and the FLR completes. -/
  | flrFrsTimeout (v vbr devfn : Nat)
  /-- VSI_READY (R257): A VSI's station, Relay island and default bindings are ready and it sends DRS when its link is up. -/
  | vsiReady (v : Nat)
  /-- VSI_LEAVE_RESET (R261): PERST_N high, link up and FLRs done; the VSI leaves reset. -/
  | vsiLeaveReset (v : Nat)
  /-- SLICE_GRANT (R268): Command 0x20 grants a range of slices to a VSI. -/
  | sliceGrant (h : KHead) (v first count : Nat)
  /-- SLICE_REVOKE (R268): Command 0x21 revokes a range of drained slices. -/
  | sliceRevoke (h : KHead) (first count : Nat)
  /-- SLICE_ENABLE (R273): SLC_CTRL.CMD ENABLE checks the rings and makes a STOPPED slice ACTIVE. -/
  | sliceEnable (ag : Agent) (slice : Nat)
  /-- SLICE_DRAIN (R274): SLC_CTRL.CMD DRAIN stops fetching and lets fetched descriptors complete. -/
  | sliceDrain (ag : Agent) (slice : Nat)
  /-- SLICE_RESET (R275): SLC_CTRL.CMD RESET clears a slice's counts, advances RING_GEN and returns it to STOPPED. -/
  | sliceReset (ag : Agent) (slice : Nat)
  /-- SQ_DB (R280): An SQ_DB doorbell write raises SEEN when in range and generation. -/
  | sqDb (v slice off size count gen : Nat)
  /-- CQ_DB (R280): A CQ_DB doorbell write reports completion records consumed. -/
  | cqDb (v slice off size count gen : Nat)
  /-- IB_DB (R280): An IB_DB doorbell write returns inbox entries. -/
  | ibDb (v slice off size count gen : Nat)
  /-- DESCRIPTOR_FETCH (R282): An active slice fetches up to 8 descriptors when run-ahead, ring room and the ceiling allow. -/
  | descriptorFetch (slice : Nat)
  /-- DESCRIPTOR_START (R286): A fetched descriptor starts when the scheduler serves its slice and no FENCE is pending. -/
  | descriptorStart (slice : Nat)
  /-- PIECE_ISSUE (R288): The Relay engine checks, routes and issues one read or write piece through the VSI's station. -/
  | pieceIssue (slice idx : Nat) (write : Bool)
  /-- RELAY_READ_COMPLETION (R289): Completion data for a Relay read piece arrives into its reserved read-buffer room. -/
  | relayReadCompletion
  /-- DESCRIPTOR_COMPLETE (R297): A descriptor reaches its completion point and its record is written. -/
  | descriptorComplete (slice idx : Nat)
  /-- INT_UNMASK (R300): Clearing INT_CTRL.MASK with PENDING set sends one interrupt. -/
  | intUnmask (ag : Agent) (slice : Nat)
  /-- SEND_RECEIVED (R303): A SEND frame reaches the receiving Relay engine, is checked, written to the inbox and answered. -/
  | sendReceived
  /-- SEND_REPLY_RECEIVED (R304): A REPLY completes the sender's SEND descriptor with its status. -/
  | sendReplyReceived
  /-- SEND_TIMEOUT (R304): No reply arrives within SEND_TMO and the SEND completes with SEND_TIMEOUT. -/
  | sendTimeout (id : Nat)
  /-- RELAY_BME_CLEAR (R305): Clearing Bus Master Enable of a Relay function stops all requests of its slices and holds records. -/
  | relayBmeClear (v : Nat)
  /-- RELAY_BME_SET (R306): Setting Bus Master Enable writes held records, sends one interrupt and resumes fetching. -/
  | relayBmeSet (v : Nat)
  /-- RELAY_FUNCTION_FLR (R307): An FLR of the Relay function halts and resets every granted slice of the VSI. -/
  | relayFunctionFlr (v : Nat)
  /-- RELAY_ISLAND_RESET (R308): A Relay island reset ends every operation and halts active slices with ISLAND_RESET. -/
  | relayIslandReset
  /-- BUCKET_REFILL (R320): Every 32 ns each token bucket gains rate tokens up to its burst. -/
  | bucketRefill
  /-- POLICER_RECOVER (R323): Every RECOVER_US without a decrease, a policer rises toward its base rate. -/
  | policerRecover
  /-- DBG_ACCESS (R343): A debug master access from the TAP is decided by LOCKED, unlock, DEBUG_VIS and rights. -/
  | dbgAccess (kind target addr len : Nat) (write : Bool) (data : List Byte)
  /-- SECTOR_BACKGROUND_COMPARE (R338): A background pass compares the two sector-table copies entry by entry. -/
  | sectorBackgroundCompare (found : List Upset)
  /-- FOG_CMD_PORT_FOG (R350): FOG_CMD OP 1 places a port in Fog with cause SOFTWARE. -/
  | fogCmdPortFog (ag : Agent) (p : Nat)
  /-- FOG_CMD_CLEAR (R357): FOG_CMD OP 2 clears port Fog unless the module is in Fog or a trigger coincides. -/
  | fogCmdClear (ag : Agent) (p : Nat) (trigger : Bool)
  /-- FOG_CMD_MODULE_FOG (R351): FOG_CMD OP 3 places the module in Fog with cause SOFTWARE. -/
  | fogCmdModuleFog (ag : Agent)
  /-- FOG_RELEASE (R358): The Lamp Room FOG_RELEASE command requests a Keeper reset to leave module Fog. -/
  | fogRelease (params : List Nat) (pecOk : Bool)
  /-- LOCKSTEP_MISMATCH (R360): The Keeper cores differ; the clock stops, module Fog is entered and the Keeper resets. -/
  | lockstepMismatch
  /-- CLOCK_LOST (R361): A clock monitor finds an island clock stopped or off frequency for 2 us and acts per island kind. -/
  | clockLost (island : Nat)
  /-- POWER_DOUBT (R362): Two measurements of a feed or rail disagree for 1 ms; module Fog, Keep write and latch-off follow. -/
  | powerDoubt
  /-- FEED_LOSS (R362): Both feeds stay below their thresholds for 1 us and the module enters Fog with FEED_LOSS. -/
  | feedLoss
  /-- SCRUB_PASS (R363): A background scrub pass corrects single-bit errors and compares pipeline table copies. -/
  | scrubPass (found : List Upset) (t : Nat)
  /-- COMPARATOR_SELFTEST (R364): Every 10 ms the Lamp Room tests each comparator and reacts to a failure. -/
  | comparatorSelftest (failed : List Nat)
  /-- INJECT_GO (R366): Writing INJECT.GO arms one fault of the chosen class for its selecting event. -/
  | injectGo (ag : Agent) (cls p : Nat)
  /-- FOG_N_STUCK (R354): FOG_N reads high for 1 ms while driven low; module Fog with FOG_N_STUCK. -/
  | fogNStuck
  /-- THERMAL_SAMPLE (R531): Every 100 ms the Keeper reads the junction sensor and logs it. -/
  | thermalSample (junction inlet feedA feedB : Int) (watts : Nat)
  /-- THERMAL_FOG (R531): The junction exceeds 105 degrees C for 1 ms; module Fog with THERMAL and stations to P2. -/
  | thermalFog (junction : Int)
  /-- KEEPER_BOOT (R376): The Keeper leaves reset and its ROM verifies and runs firmware, then the Light List, then starts
  islands. -/
  | keeperBoot (o : BootOutcome)
  /-- CR_ENABLE (R380): Setting CR_CTRL.EN starts the Keeper command ring. -/
  | crEnable (ag : Agent)
  /-- CR_DISABLE (R383): Clearing EN or a manager VSI reset stops fetching and loads LAST_CMD. -/
  | crDisable (ag : Agent)
  /-- CR_DB (R380): A CR_DB write reports entries written and records consumed, or sets DB_RANGE. -/
  | crDb (ag : Agent) (sq cq : Nat)
  /-- KEEPER_COMMAND_FETCH (R381): The Keeper fetches the next command entry when its completion slot is free and dispatches it. -/
  | keeperCommandFetch (entry : Option (List Byte)) (bars : List (Nat × Nat × Nat)) (fn : FnInfo) (data : List Byte)
  /-- NOP (R384): Command 0x01 does nothing and completes. -/
  | nop (h : KHead)
  /-- IMAGE_BEGIN (R385): Command 0x30 erases the inactive slot of a KIND and enters WRITING. -/
  | imageBegin (h : KHead) (kind len : Nat)
  /-- IMAGE_WRITE (R385): Command 0x31 programs a chunk into the inactive slot. -/
  | imageWrite (h : KHead) (kind off len addr : Nat) (data : List Byte)
  /-- IMAGE_VERIFY (R373): Command 0x32 verifies the inactive slot and enters VERIFIED or reports the failure. -/
  | imageVerify (h : KHead) (kind : Nat)
  /-- IMAGE_COMMIT (R375): Command 0x33 writes a new commit record naming the verified slots. -/
  | imageCommit (h : KHead) (mask : Nat)
  /-- IMAGE_ACTIVATE (R376): Command 0x34 writes its record and resets the Keeper. -/
  | imageActivate (h : KHead)
  /-- IMAGE_ACCEPT (R386): Command 0x35 blows SVN fuses up to the running image's SVN. -/
  | imageAccept (h : KHead)
  /-- IMAGE_ABORT (R385): Command 0x36 returns a KIND to IDLE. -/
  | imageAbort (h : KHead) (kind : Nat)
  /-- OP_KEY_ENROLL (R371): Command 0x40 enrols an operator key digest in the next free fuse slot. -/
  | opKeyEnroll (h : KHead) (kind addr : Nat) (key : List Byte)
  /-- KEY_REVOKE (R370): Command 0x41 blows a KEY_REVOKE fuse unless it would revoke the running key. -/
  | keyRevoke (h : KHead) (k : Nat)
  /-- SET_CERT (R389): Command 0x42 writes SPDM certificate slot 1 after checking its leaf key. -/
  | setCert (h : KHead) (addr len : Nat) (cert : List Byte)
  /-- MCTP_COMMAND_RECEIVED (R387): An image or key command arrives as an MCTP message on the primary I3C port and joins the
  command queue. -/
  | mctpCommandReceived (entry data : List Byte)
  /-- REG_READ (R477): An MCTP REG_READ message reads 1 to 16 Keeper-map registers. -/
  | regRead (port addr count : Nat)
  /-- REG_WRITE (R477): An MCTP REG_WRITE message writes 1 to 16 Keeper-map registers. -/
  | regWrite (port addr : Nat) (data : List Nat)
  /-- SPDM_REQUEST (R390): An SPDM 1.3 request is answered by the Keeper responder. -/
  | spdmRequest (via who : Nat) (r : SpdmReq)
  /-- DBG_NONCE (R393): The DBG_NONCE instruction returns a fresh 32-byte nonce. -/
  | dbgNonce
  /-- DBG_UNLOCK (R393): The DBG_UNLOCK instruction loads a token that the Keeper accepts or refuses. -/
  | dbgUnlock (token : List Byte)
  /-- DBG_LOCK (R394): The DBG_LOCK instruction ends the debug unlock. -/
  | dbgLock
  /-- UNLOCK_LIFETIME_EXPIRY (R394): A debug unlock reaches its LIFETIME and ends. -/
  | unlockLifetimeExpiry
  /-- KEEPER_DEBUG (R394): The KEEPER_DEBUG instruction, under its scope, enters module Fog and halts the Keeper cores. -/
  | keeperDebug (halt : Bool)
  /-- EXTEST (R483): EXTEST drives boundary scan only while RESET_N is held low, else acts as BYPASS and is logged. -/
  | extest (bits : List Nat)
  /-- POWER_ON (R408): The first feed after both were absent starts the standby converter and the power-up sequence. -/
  | powerOn (feed : Nat) (diode inlet : Int)
  /-- CRYSTAL_QUALIFIED (R426): The crystal passes 4,096 cycles in band and the Lamp Room and PLLs move to it. -/
  | crystalQualified
  /-- CRYSTAL_QUALIFY_TIMEOUT (R427): The crystal has not qualified within 10 ms; XTAL_FAIL and the CKG uses the PCIe reference. -/
  | crystalQualifyTimeout
  /-- CRYSTAL_LOST (R428): A running crystal has no edge for 2 us; Lamp Room and Watch move to the IRO. -/
  | crystalLost
  /-- STATION_STARTED (R107): A station leaves reset, reads its port map, assigns VSIs and begins training, or fails to start. -/
  | stationStarted (st : Nat)
  /-- ISLAND_START_TIMEOUT (R409): An island fails to start within 50 ms of step 9; the module stays in Fog with BOOT. -/
  | islandStartTimeout
  /-- BOOT_END (R411): All start conditions hold; BOOT ends, FOG_N is released and the Tower moves cells. -/
  | bootEnd
  /-- STN_RESET (R418): Writing STN_RESET bit s runs the station reset procedure of station s. -/
  | stnReset (ag : Agent) (mask : Nat)
  /-- STATION_RESET_RESUME (R417): When the Keeper reaches step 7 of boot, waiting station resets resume from step 5. -/
  | stationResetResume
  /-- RESET_N_FALL (R422): RESET_N held low for 10 us resets every island except the Lamp Room and asserts FOG_N. -/
  | resetNFall
  /-- RESET_N_RISE (R422): RESET_N rises; the Watch restarts and power-up continues from step 6. -/
  | resetNRise
  /-- IRO_TRIM_WINDOW (R429): Each 1 ms window the IRO trim code moves toward the reference. -/
  | iroTrimWindow (err : Int)
  /-- OPP_REGULATOR_READY (R437): A station regulator reports ready and the sequencer switches frequency or finishes the change. -/
  | oppRegulatorReady (st : Nat)
  /-- OPP_REGULATOR_TIMEOUT (R438): A regulator is not ready within 100 us; the station keeps the lower frequency and OPP_FAIL is
  set. -/
  | oppRegulatorTimeout (st : Nat)
  /-- PWR_TARGET_LIT (R443): GLB_PWR_CTRL.TARGET LIT moves every station toward its OPP_LIT point. -/
  | pwrTargetLit (ag : Agent)
  /-- PWR_TARGET_DIM (R443): GLB_PWR_CTRL.TARGET DIM moves every station toward its OPP_DIM point. -/
  | pwrTargetDim (ag : Agent)
  /-- PWR_TARGET_DARK (R444): A DARK request runs the DARK entry sequence or aborts it. -/
  | pwrTargetDark (ag : Agent)
  /-- WATCH_ALARM (R432): WATCH_TIME reaches the armed alarm value; the alarm fires once. -/
  | watchAlarm
  /-- GATE_REQUEST (R439): The gate controller requests a gate for an island whose gating case holds. -/
  | gateRequest (island : Nat)
  /-- GATE_ACK (R439): The island acknowledges and its gate closes. -/
  | gateAck (island : Nat)
  /-- GATE_ABANDON (R439): No acknowledgement within 4,096 cycles; gating is abandoned and logged. -/
  | gateAbandon (island : Nat)
  /-- WAKE_ADDRESS_MATCH (R445): An SCL-clocked address match in DARK NACKs and raises the wake. -/
  | wakeAddressMatch
  /-- COMPARATOR_TRIP (R445): A Lamp Room comparator trips; it wakes the module in DARK and drives power-entry protection. -/
  | comparatorTrip (k : Nat) (tripped : Bool)
  /-- RESTORE_STEP_READY (R446): A restore step's ready signal arrives and the next restore step begins. -/
  | restoreStepReady
  /-- RESTORE_TIMEOUT (R447): A restore step passes its limit; WAKE_FAIL and the module starts as after RESET_N. -/
  | restoreTimeout
  /-- RAMP_START (R451): The controller starts the gate ramp once its conditions hold. -/
  | rampStart
  /-- GATE_FULLY_ENHANCED (R452): The FET is fully enhanced and power-good goes to the regulators. -/
  | gateFullyEnhanced
  /-- RAMP_TIMEOUT (R453): The gate is not fully enhanced 20 ms after the ramp began; trip RAMP_TMO. -/
  | rampTimeout
  /-- CURVE_TRIP (R455): A breaker-curve timer reaches its T_i and the hot-swap FET opens. -/
  | curveTrip (point ma t : Nat)
  /-- SHORT_TRIP (R454): Rail current above 40 A opens the FET within 2 us. -/
  | shortTrip (ma : Nat)
  /-- SOA_MODEL_UPDATE (R456): Every 10 us the thermal model is updated from FET voltage and current. -/
  | soaModelUpdate (m : PweMeas)
  /-- OV_TRIP (R454): The rail is above 63 V for 10 us and the FET opens uncounted. -/
  | ovTrip (mv ma : Nat)
  /-- OV_RECOVER (R454): The rail stays below 61 V for 100 ms and the ramp may restart. -/
  | ovRecover
  /-- RETRY_DELAY_EXPIRY (R458): The retry delay ends and the controller ramps again. -/
  | retryDelayExpiry
  /-- TRIP_COUNT_DECAY (R458): The gate stays fully enhanced 60 s without a trip and TRIP_COUNT returns to 0. -/
  | tripCountDecay
  /-- PWE_LATCH_CLEAR (R460): Writing 0x5A to PWE_LATCH.CLEAR clears the latch and count and ramps again. -/
  | pweLatchClear (ag : Agent) (v : Nat)
  /-- PWE_APPLY (R405): Writing 0xA5 to PWE_APPLY checks and stores the breaker, retry, warning and thermal settings. -/
  | pweApply (ag : Agent) (v : Nat)
  /-- REVERSE_CURRENT (R450): An ideal diode turns off on reverse current and FEED_WARN_N is asserted. -/
  | reverseCurrent (feed : Nat)
  /-- FEED_BELOW_WARNING (R462): An armed feed falls below its threshold; FEED_WARN_N is asserted and the Keeper and store warned.
  -/
  | feedBelowWarning (feed : Nat)
  /-- FEED_ARMED (R462): A feed above its threshold for 100 ms becomes armed. -/
  | feedArmed (feed : Nat)
  /-- FEED_WARN_RELEASE (R462): Every armed feed is 1 V above threshold for 1 ms and FEED_WARN_N is released. -/
  | feedWarnRelease
  /-- FEED_DISARM (R462): A feed below its threshold for 10 s is disarmed and logged. -/
  | feedDisarm (feed : Nat)
  /-- MATE_LATCH (R474): MATE_N low for 10 ms latches ADDR_SEL and both endpoints answer. -/
  | mateLatch (sel : Nat)
  /-- MATE_LOST (R488): MATE_N high for 100 us while LIT or DIM logs MATE_LOST and starts a Keep write. -/
  | mateLost
  /-- LR_STATUS (R480): Lamp Room command 0x01 returns power, Fog and trip status. -/
  | lrStatus (params : List Nat) (pecOk : Bool)
  /-- LR_PWE_READ (R480): Lamp Room command 0x02 reads one PWE register. -/
  | lrPweRead (params : List Nat) (pecOk : Bool)
  /-- LR_PWE_WRITE (R480): Lamp Room command 0x03 writes one PWE register. -/
  | lrPweWrite (params : List Nat) (pecOk : Bool)
  /-- LR_POWER (R481): Lamp Room command 0x04 writes GLB_PWR_CTRL.TARGET, or ends with LR_STATE in DARK. -/
  | lrPower (params : List Nat) (pecOk : Bool)
  /-- I3C_DYNAMIC_ADDRESS (R475): SETDASA or ENTDAA assigns a dynamic address to an endpoint. -/
  | i3cDynamicAddress (port ep addr : Nat)
  /-- RSTDAA (R476): RSTDAA clears the dynamic address of both endpoints. -/
  | rstdaa (port : Nat)
  /-- COL_ENABLE (R493): Setting COL_CTRL.EN starts periodic snapshots from that instant. -/
  | colEnable (ag : Agent)
  /-- SNAPSHOT (R493): At each PERIOD the Collector latches the selected counters and writes a dump entry or counts a miss. -/
  | snapshot
  /-- SNAP_NOW (R493): Writing SNAP_NOW takes one extra snapshot at once. -/
  | snapNow (ag : Agent)
  /-- DUMP_RD_WRITE (R496): A DUMP_RD write reports host ring entries consumed. -/
  | dumpRdWrite (ag : Agent) (n : Nat)
  /-- STAGED_DUMP_MOVE (R496): The Collector moves the oldest staged entry to the host ring when a slot is free. -/
  | stagedDumpMove
  /-- SND_POP (R503): Writing SND_POP removes the head sounding result. -/
  | sndPop (ag : Agent)
  /-- LOG_SUMMARY (R507): Every SUM_PERIOD the Keeper writes HISTOGRAM and EXTREME records and restarts each quantity. -/
  | logSummary
  /-- KEEP_AREA_PROGRAM (R509): 1 ms after one of the first 256 records is made, it is programmed into the Keep area. -/
  | keepAreaProgram
  /-- LOG_FREEZE (R511): Writing LOG_CTRL.FREEZE stops or resumes record making. -/
  | logFreeze (ag : Agent) (on : Bool)
  /-- FREEZE_TIMEOUT (R511): FREEZE clears 60 s after it was set and due summaries are written. -/
  | freezeTimeout
  /-- LOG_RD_SEL (R512): A LOG_RD_SEL write loads the named record into LOG_RD_DATA within 2 us. -/
  | logRdSel (ag : Agent) (area index : Nat)
  /-- STANDBY_CONVERTER_STOP (R449): With both feeds gone and hold-up spent, the rail falls below 27 V and then 20 V; the
  regulators and the standby converter stop and all volatile state is lost. -/
  | standbyConverterStop
  /-- REFCLK_QUALIFIED (R427): The 100 MHz PCIe reference passes the qualification test and the CKG locks to it when the crystal
  has not qualified or has been lost. -/
  | refclkQualified
  /-- PCIE_REPLAY_TIMEOUT (R102): The data link layer replay timer of a PCIe port expires; the port replays unacknowledged TLPs
  and reports Replay Timer Timeout or REPLAY_NUM Rollover. -/
  | pcieReplayTimeout (p : Nat) (rollover : Bool)
  deriving DecidableEq, Repr

end Sys2Proof
end

