-- ==== Sys2Proof/Config.lean ====
section
/-!
DEFINITION. What an implementation fixes, and the free values. An `opaque` constant has no body: nothing can prove a value
of it, so every statement holds for every value.
-/
namespace Sys2Proof.Machine

/-- A value the specification leaves open, drawn by a step that needs one: the argument is the counter the step advances. -/
opaque Config.free : Nat → Nat

/-- The number that the CODE field of a log record gives to an event (Table 19.7 assigns none). -/
opaque Config.logCode : Nat → Nat

/-- The bytes of the key (0 to 7) and the details (8 to 31) of an event record: the manual names what they hold and gives no
layout (Table 19.7). Arguments: what the key names, the details, the byte. -/
opaque Config.logData : List Nat → List Nat → Nat → Nat

/-- The 64 bytes of the header of a final-words slot, from what R510 says it holds. -/
opaque Config.wordsHeader : List Nat → Nat → Nat

/-- SHAKE256 with 64 bytes of output, over a list of bytes (R396, R373). The function is a published standard that the
specification does not restate. -/
opaque Config.shake256 : List Byte → List Nat

/-- The flit CRC of PCIe flit mode over the bytes it covers, and the FEC bytes over those and the CRC: byte i (R127, R128). The
published standard gives them; the specification does not restate it. -/
opaque Config.flitCrc : List Nat → Nat → Nat
opaque Config.flitFec : List Nat → Nat → Nat

/-- Whether a Falcon-1024 signature of a digest verifies under a public key: key, digest, signature (R373). -/
opaque Config.falconVerify : List Byte → List Nat → List Byte → Bool

/-- The digests that the Keeper's ROM holds (R370): of Vomeon firmware key k, and of the Vomeon debug key. -/
opaque Config.romFwDigest : Nat → List Nat
opaque Config.romDbgDigest : List Nat

/-- The digest of the ROM itself (measurement 1, Table 13.11). -/
opaque Config.romDigest : List Nat

/-- The public key of the module's identity key pair, derived from ID_SEED (R389). -/
opaque Config.identityKey : Nat → List Byte

/-- The public key that the leaf of a chain of X.509 certificates carries (R389). -/
opaque Config.leafKey : List Byte → List Byte

/-- The chain of certificate slot 0, written at manufacture for the identity that ID_SEED gives (R389). -/
opaque Config.madeChain : Nat → List Byte

/-- The digest of a certificate chain from the bytes of its slot: the manual does not say how a slot holds the chain's length. -/
opaque Config.chainDigest : List Byte → List Nat

/-- A Falcon-1024 signature with the identity key that ID_SEED gives; the manual does not restate what it signs: the second argument
stands for it. -/
opaque Config.falconSign : Nat → Nat → List Nat

/-- The raw 64-byte digest of a measurement whose content has no byte layout in the manual: index, content (Table 13.11). -/
opaque Config.measure : Nat → List Nat → List Nat

/-- Vomeon's PCIe vendor identifier and the Kaund usage value of alternate-protocol negotiation (R114 names them and gives no
number). -/
opaque Config.vomeonId : Nat
opaque Config.kaundUsage : Nat

/-- How many packets the Relay port of a station holds before it is full (Table 2.5 gives no size). -/
opaque Config.relayPortRoom : Nat

/-- The silicon stepping and the module revision (R7): letter and digit codes of GLB_ID. -/
opaque Config.stepping : Nat
opaque Config.revision : Nat

/-- The LPDDR6 capacity strap (R7): true for 64 GiB (-A64), false for 32 GiB (-A32). -/
opaque Config.cap64 : Bool

end Sys2Proof.Machine
end

