-- ==== Sys2Proof/Machine/RegMap.lean ====
section
/-!
DEFINITION. The register directory as data: the BAR0 offset of every register (chapter 20, Table 20.1, and the register
map of each owning chapter), the place of every field (the register tables of each chapter), and one row per register
with its reset value, field types (Table 0.4) and the values a write of a field takes.
The Keeper's map and REG_READ/REG_WRITE use the same offsets (R513).
-/
namespace Sys2Proof.Machine

/-- The access type of one field (Table 0.4). `clr` is an RW1C count: writing 1 to any bit clears the field. `set1` is a
lock bit: writing 1 sets it, writing 0 is ignored (Table 20.4, Table 12.10). `hook` is a field whose write rule needs more
than a range (REPLAY_CFG.TMO, SPILL_CFG); the register bus applies it. -/
inductive FieldKind where
  | ro | rw | w1c | clr | wo | rwl | set1 | hook
  deriving DecidableEq, Repr

/-- One field of a register: its bits, its type, and the range a write must lie in to change it. -/
structure FieldRow where
  hi : Nat
  lo : Nat
  kind : FieldKind
  mn : Nat
  mx : Nat
  deriving DecidableEq, Repr

/-- One register of the directory: the offset of its first instance, the count and stride of each index, its reset word,
what each step of the first index adds to the reset word (STN_ID, PRT_ID, VSI_ID, ORT_RID), whether it is the _LO (1) or
_HI (2) half of a pair of R18 and R19, its RWS bits, and its fields. -/
structure RegRow where
  base : Nat
  dims : List (Nat × Nat)
  reset : Nat
  idxMul : Nat
  pair : Nat
  sticky : Nat
  fields : List FieldRow
  deriving DecidableEq, Repr

namespace Reg

/-- GLB_ID, GLB offset 0x0000. -/
abbrev GLB_ID : Nat := 0x0
/-- GLB_CAP, GLB offset 0x0004. -/
abbrev GLB_CAP : Nat := 0x4
/-- GLB_PWR_CTRL, GLB offset 0x0008. -/
abbrev GLB_PWR_CTRL : Nat := 0x8
/-- GLB_PWR_STATUS, GLB offset 0x000C. -/
abbrev GLB_PWR_STATUS : Nat := 0xc
/-- OPP_LIT, GLB offset 0x0010. -/
abbrev OPP_LIT : Nat := 0x10
/-- OPP_DIM, GLB offset 0x0014. -/
abbrev OPP_DIM : Nat := 0x14
/-- OPP_STATUS, GLB offset 0x0018. -/
abbrev OPP_STATUS : Nat := 0x18
/-- GATE_CTRL, GLB offset 0x001C. -/
abbrev GATE_CTRL : Nat := 0x1c
/-- GATE_STATUS, GLB offset 0x0020. -/
abbrev GATE_STATUS : Nat := 0x20
/-- GLB_LOCK, GLB offset 0x0030. -/
abbrev GLB_LOCK : Nat := 0x30
/-- CLK_STATUS, CLK offset 0x0000. -/
abbrev CLK_STATUS : Nat := 0x10000
/-- CLK_EVENT, CLK offset 0x0004. -/
abbrev CLK_EVENT : Nat := 0x10004
/-- IRO_TRIM, CLK offset 0x0008. -/
abbrev IRO_TRIM : Nat := 0x10008
/-- GATE_LOG, CLK offset 0x000C. -/
abbrev GATE_LOG : Nat := 0x1000c
/-- WATCH_TIME_LO, CLK offset 0x0010. -/
abbrev WATCH_TIME_LO : Nat := 0x10010
/-- WATCH_TIME_HI, CLK offset 0x0014. -/
abbrev WATCH_TIME_HI : Nat := 0x10014
/-- WATCH_UP_LO, CLK offset 0x0018. -/
abbrev WATCH_UP_LO : Nat := 0x10018
/-- WATCH_UP_HI, CLK offset 0x001C. -/
abbrev WATCH_UP_HI : Nat := 0x1001c
/-- WATCH_ALARM_LO, CLK offset 0x0020. -/
abbrev WATCH_ALARM_LO : Nat := 0x10020
/-- WATCH_ALARM_HI, CLK offset 0x0024. -/
abbrev WATCH_ALARM_HI : Nat := 0x10024
/-- WAKE_CTRL, CLK offset 0x0028. -/
abbrev WAKE_CTRL : Nat := 0x10028
/-- WAKE_CAUSE, CLK offset 0x002C. -/
abbrev WAKE_CAUSE : Nat := 0x1002c
/-- RESTORE_TIME, CLK offset 0x0030. -/
abbrev RESTORE_TIME : Nat := 0x10030
/-- PWE_STATUS, PWE offset 0x0000. -/
abbrev PWE_STATUS : Nat := 0x20000
/-- PWE_EVENT, PWE offset 0x0004. -/
abbrev PWE_EVENT : Nat := 0x20004
/-- PWE_LATCH, PWE offset 0x0008. -/
abbrev PWE_LATCH : Nat := 0x20008
/-- LAST_TRIP, PWE offset 0x000C. -/
abbrev LAST_TRIP : Nat := 0x2000c
/-- FEED_A, PWE offset 0x0010. -/
abbrev FEED_A : Nat := 0x20010
/-- FEED_B, PWE offset 0x0014. -/
abbrev FEED_B : Nat := 0x20014
/-- FET_TEMP, PWE offset 0x0018. -/
abbrev FET_TEMP : Nat := 0x20018
/-- RETRY_CFG, PWE offset 0x001C. -/
abbrev RETRY_CFG : Nat := 0x2001c
/-- WARN_THR, PWE offset 0x0020. -/
abbrev WARN_THR : Nat := 0x20020
/-- THERM_CFG, PWE offset 0x0024. -/
abbrev THERM_CFG : Nat := 0x20024
/-- PWE_APPLY, PWE offset 0x0028. -/
abbrev PWE_APPLY : Nat := 0x20028
/-- CURVE_T, PWE offset 0x0040 (8 instances). -/
abbrev CURVE_T (a : Nat) : Nat := 0x20040 + a * 0x8
/-- CURVE_I, PWE offset 0x0044 (8 instances). -/
abbrev CURVE_I (a : Nat) : Nat := 0x20044 + a * 0x8
/-- KPR_STATUS, KPR offset 0x0000. -/
abbrev KPR_STATUS : Nat := 0x40000
/-- KPR_EVENT, KPR offset 0x0004. -/
abbrev KPR_EVENT : Nat := 0x40004
/-- FW_VERSION, KPR offset 0x0008. -/
abbrev FW_VERSION : Nat := 0x40008
/-- FUSE_STATUS, KPR offset 0x000C. -/
abbrev FUSE_STATUS : Nat := 0x4000c
/-- CR_CTRL, KPR offset 0x0010. -/
abbrev CR_CTRL : Nat := 0x40010
/-- CR_SQ_BASE_LO, KPR offset 0x0014. -/
abbrev CR_SQ_BASE_LO : Nat := 0x40014
/-- CR_SQ_BASE_HI, KPR offset 0x0018. -/
abbrev CR_SQ_BASE_HI : Nat := 0x40018
/-- CR_CQ_BASE_LO, KPR offset 0x001C. -/
abbrev CR_CQ_BASE_LO : Nat := 0x4001c
/-- CR_CQ_BASE_HI, KPR offset 0x0020. -/
abbrev CR_CQ_BASE_HI : Nat := 0x40020
/-- CR_DB, KPR offset 0x0024. -/
abbrev CR_DB : Nat := 0x40024
/-- LAST_CMD, KPR offset 0x0028. -/
abbrev LAST_CMD : Nat := 0x40028
/-- DBG_STATUS, KPR offset 0x002C. -/
abbrev DBG_STATUS : Nat := 0x4002c
/-- START_STATUS, KPR offset 0x0040. -/
abbrev START_STATUS : Nat := 0x40040
/-- STN_RESET, KPR offset 0x0044. -/
abbrev STN_RESET : Nat := 0x40044
/-- LAST_RESET, KPR offset 0x0048. -/
abbrev LAST_RESET : Nat := 0x40048
/-- LOG_CTRL, LOG offset 0x0000. -/
abbrev LOG_CTRL : Nat := 0x80000
/-- LOG_STATUS, LOG offset 0x0004. -/
abbrev LOG_STATUS : Nat := 0x80004
/-- LOG_EVENT, LOG offset 0x0008. -/
abbrev LOG_EVENT : Nat := 0x80008
/-- LOG_SEQ, LOG offset 0x000C. -/
abbrev LOG_SEQ : Nat := 0x8000c
/-- LOG_RD_SEL, LOG offset 0x0010. -/
abbrev LOG_RD_SEL : Nat := 0x80010
/-- LOG_RD_STATUS, LOG offset 0x0014. -/
abbrev LOG_RD_STATUS : Nat := 0x80014
/-- LOG_RD_DATA, LOG offset 0x0020 (16 instances). -/
abbrev LOG_RD_DATA (a : Nat) : Nat := 0x80020 + a * 0x4
/-- OP_HOURS, LOG offset 0x0060. -/
abbrev OP_HOURS : Nat := 0x80060
/-- POWER_CYCLES, LOG offset 0x0064. -/
abbrev POWER_CYCLES : Nat := 0x80064
/-- TWR_CTRL, TWR offset 0x0000. -/
abbrev TWR_CTRL : Nat := 0x100000
/-- TWR_STATUS, TWR offset 0x0004. -/
abbrev TWR_STATUS : Nat := 0x100004
/-- TWR_EVENT, TWR offset 0x0008. -/
abbrev TWR_EVENT : Nat := 0x100008
/-- TWR_MC_COMMIT, TWR offset 0x0010. -/
abbrev TWR_MC_COMMIT : Nat := 0x100010
/-- TWR_MC_ACTIVE_GEN, TWR offset 0x0014. -/
abbrev TWR_MC_ACTIVE_GEN : Nat := 0x100014
/-- MC_STATION_MASK, TWR offset 0x1000 (2080 instances). -/
abbrev MC_STATION_MASK (a : Nat) : Nat := 0x101000 + a * 0x4
/-- STN_ID, STN offset 0x0000 (16 instances). -/
abbrev STN_ID (a : Nat) : Nat := 0x200000 + a * 0x10000
/-- STN_CTRL, STN offset 0x0004 (16 instances). -/
abbrev STN_CTRL (a : Nat) : Nat := 0x200004 + a * 0x10000
/-- STN_STATUS, STN offset 0x0008 (16 instances). -/
abbrev STN_STATUS (a : Nat) : Nat := 0x200008 + a * 0x10000
/-- OB_RESERVE, STN offset 0x000C (16 instances). -/
abbrev OB_RESERVE (a : Nat) : Nat := 0x20000c + a * 0x10000
/-- QUOTA_COMMIT, STN offset 0x0010 (16 instances). -/
abbrev QUOTA_COMMIT (a : Nat) : Nat := 0x200010 + a * 0x10000
/-- QUOTA_ACTIVE_GEN, STN offset 0x0014 (16 instances). -/
abbrev QUOTA_ACTIVE_GEN (a : Nat) : Nat := 0x200014 + a * 0x10000
/-- OB_FREE, STN offset 0x0018 (16 instances). -/
abbrev OB_FREE (a : Nat) : Nat := 0x200018 + a * 0x10000
/-- PORT_STOP, STN offset 0x001C (16 instances). -/
abbrev PORT_STOP (a : Nat) : Nat := 0x20001c + a * 0x10000
/-- PORT_QUOTA, STN offset 0x0020 (16 x 8 instances). -/
abbrev PORT_QUOTA (a b : Nat) : Nat := 0x200020 + a * 0x10000 + b * 0x4
/-- PORT_CFG, STN offset 0x0040 (16 x 8 instances). -/
abbrev PORT_CFG (a b : Nat) : Nat := 0x200040 + a * 0x10000 + b * 0x4
/-- NOTICE_CTRL, STN offset 0x0060 (16 instances). -/
abbrev NOTICE_CTRL (a : Nat) : Nat := 0x200060 + a * 0x10000
/-- STN_MC_COMMIT, STN offset 0x0070 (16 instances). -/
abbrev STN_MC_COMMIT (a : Nat) : Nat := 0x200070 + a * 0x10000
/-- STN_MC_ACTIVE_GEN, STN offset 0x0074 (16 instances). -/
abbrev STN_MC_ACTIVE_GEN (a : Nat) : Nat := 0x200074 + a * 0x10000
/-- MC_PORT_MASK, STN offset 0x1000 (16 x 1040 instances). -/
abbrev MC_PORT_MASK (a b : Nat) : Nat := 0x201000 + a * 0x10000 + b * 0x4
/-- PRT_ID, PRT offset 0x0000 (128 instances). -/
abbrev PRT_ID (a : Nat) : Nat := 0x400000 + a * 0x4000
/-- PRT_CTRL, PRT offset 0x0004 (128 instances). -/
abbrev PRT_CTRL (a : Nat) : Nat := 0x400004 + a * 0x4000
/-- PRT_STATUS, PRT offset 0x0008 (128 instances). -/
abbrev PRT_STATUS (a : Nat) : Nat := 0x400008 + a * 0x4000
/-- PRT_EVENT, PRT offset 0x000C (128 instances). -/
abbrev PRT_EVENT (a : Nat) : Nat := 0x40000c + a * 0x4000
/-- CTO_CFG, PRT offset 0x0010 (128 instances). -/
abbrev CTO_CFG (a : Nat) : Nat := 0x400010 + a * 0x4000
/-- ORT_RID, PRT offset 0x0014 (128 instances). -/
abbrev ORT_RID (a : Nat) : Nat := 0x400014 + a * 0x4000
/-- ORT_LIMIT, PRT offset 0x0018 (128 instances). -/
abbrev ORT_LIMIT (a : Nat) : Nat := 0x400018 + a * 0x4000
/-- ORT_USE, PRT offset 0x001C (128 instances). -/
abbrev ORT_USE (a : Nat) : Nat := 0x40001c + a * 0x4000
/-- POOL_PH, PRT offset 0x0020 (128 instances). -/
abbrev POOL_PH (a : Nat) : Nat := 0x400020 + a * 0x4000
/-- POOL_PD, PRT offset 0x0024 (128 instances). -/
abbrev POOL_PD (a : Nat) : Nat := 0x400024 + a * 0x4000
/-- POOL_NPH, PRT offset 0x0028 (128 instances). -/
abbrev POOL_NPH (a : Nat) : Nat := 0x400028 + a * 0x4000
/-- POOL_NPD, PRT offset 0x002C (128 instances). -/
abbrev POOL_NPD (a : Nat) : Nat := 0x40002c + a * 0x4000
/-- POOL_CPLH, PRT offset 0x0030 (128 instances). -/
abbrev POOL_CPLH (a : Nat) : Nat := 0x400030 + a * 0x4000
/-- POOL_CPLD, PRT offset 0x0034 (128 instances). -/
abbrev POOL_CPLD (a : Nat) : Nat := 0x400034 + a * 0x4000
/-- NP_WAIT_QUOTA, PRT offset 0x0038 (128 instances). -/
abbrev NP_WAIT_QUOTA (a : Nat) : Nat := 0x400038 + a * 0x4000
/-- POOL_COMMIT, PRT offset 0x0040 (128 instances). -/
abbrev POOL_COMMIT (a : Nat) : Nat := 0x400040 + a * 0x4000
/-- POOL_ACTIVE_GEN, PRT offset 0x0044 (128 instances). -/
abbrev POOL_ACTIVE_GEN (a : Nat) : Nat := 0x400044 + a * 0x4000
/-- LATE_ADDR_LO, PRT offset 0x0050 (128 instances). -/
abbrev LATE_ADDR_LO (a : Nat) : Nat := 0x400050 + a * 0x4000
/-- LATE_ADDR_HI, PRT offset 0x0054 (128 instances). -/
abbrev LATE_ADDR_HI (a : Nat) : Nat := 0x400054 + a * 0x4000
/-- LATE_TIME_LO, PRT offset 0x0058 (128 instances). -/
abbrev LATE_TIME_LO (a : Nat) : Nat := 0x400058 + a * 0x4000
/-- LATE_TIME_HI, PRT offset 0x005C (128 instances). -/
abbrev LATE_TIME_HI (a : Nat) : Nat := 0x40005c + a * 0x4000
/-- LATE_TAG, PRT offset 0x0060 (128 instances). -/
abbrev LATE_TAG (a : Nat) : Nat := 0x400060 + a * 0x4000
/-- SPAN_CTRL, PRT offset 0x0100 (128 instances). -/
abbrev SPAN_CTRL (a : Nat) : Nat := 0x400100 + a * 0x4000
/-- SPAN_STATUS, PRT offset 0x0104 (128 instances). -/
abbrev SPAN_STATUS (a : Nat) : Nat := 0x400104 + a * 0x4000
/-- SPAN_EVENT, PRT offset 0x0108 (128 instances). -/
abbrev SPAN_EVENT (a : Nat) : Nat := 0x400108 + a * 0x4000
/-- REPLAY_CFG, PRT offset 0x010C (128 instances). -/
abbrev REPLAY_CFG (a : Nat) : Nat := 0x40010c + a * 0x4000
/-- RTT_MEAS, PRT offset 0x0110 (128 instances). -/
abbrev RTT_MEAS (a : Nat) : Nat := 0x400110 + a * 0x4000
/-- HEADROOM, PRT offset 0x0114 (128 instances). -/
abbrev HEADROOM (a : Nat) : Nat := 0x400114 + a * 0x4000
/-- PEER_ID, PRT offset 0x0118 (128 instances). -/
abbrev PEER_ID (a : Nat) : Nat := 0x400118 + a * 0x4000
/-- SIGQ_STATUS, PRT offset 0x011C (128 instances). -/
abbrev SIGQ_STATUS (a : Nat) : Nat := 0x40011c + a * 0x4000
/-- FC_STATE, PRT offset 0x0120 (128 instances). -/
abbrev FC_STATE (a : Nat) : Nat := 0x400120 + a * 0x4000
/-- VC_BUF, PRT offset 0x0140 (128 x 8 instances). -/
abbrev VC_BUF (a b : Nat) : Nat := 0x400140 + a * 0x4000 + b * 0x4
/-- VC_SUBQ, PRT offset 0x0160 (128 x 8 instances). -/
abbrev VC_SUBQ (a b : Nat) : Nat := 0x400160 + a * 0x4000 + b * 0x4
/-- LQ_STATUS, LQ offset 0x0000 (64 instances). -/
abbrev LQ_STATUS (a : Nat) : Nat := 0x600000 + a * 0x1000
/-- LQ_EVENT, LQ offset 0x0004 (64 instances). -/
abbrev LQ_EVENT (a : Nat) : Nat := 0x600004 + a * 0x1000
/-- LANE_EQ, LQ offset 0x0010 (64 x 4 instances). -/
abbrev LANE_EQ (a b : Nat) : Nat := 0x600010 + a * 0x1000 + b * 0x4
/-- BCN_CTRL, BCN offset 0x0000. -/
abbrev BCN_CTRL : Nat := 0x700000
/-- BCN_STATUS, BCN offset 0x0004. -/
abbrev BCN_STATUS : Nat := 0x700004
/-- BCN_FSN, BCN offset 0x0008. -/
abbrev BCN_FSN : Nat := 0x700008
/-- HOP_DELAY, BCN offset 0x000C. -/
abbrev HOP_DELAY : Nat := 0x70000c
/-- BCN_TIME_LO, BCN offset 0x0010. -/
abbrev BCN_TIME_LO : Nat := 0x700010
/-- BCN_TIME_HI, BCN offset 0x0014. -/
abbrev BCN_TIME_HI : Nat := 0x700014
/-- BCN_ERR, BCN offset 0x0018. -/
abbrev BCN_ERR : Nat := 0x700018
/-- KND_ID, KND offset 0x0000. -/
abbrev KND_ID : Nat := 0x800000
/-- KND_CTRL, KND offset 0x0004. -/
abbrev KND_CTRL : Nat := 0x800004
/-- KND_EVENT, KND offset 0x0008. -/
abbrev KND_EVENT : Nat := 0x800008
/-- KND_FAB_RID, KND offset 0x000C. -/
abbrev KND_FAB_RID : Nat := 0x80000c
/-- RT_COMMIT, KND offset 0x0010. -/
abbrev RT_COMMIT : Nat := 0x800010
/-- RT_ACTIVE_GEN, KND offset 0x0014. -/
abbrev RT_ACTIVE_GEN : Nat := 0x800014
/-- KND_TCVC, KND offset 0x0018. -/
abbrev KND_TCVC : Nat := 0x800018
/-- WIN_COMMIT, KND offset 0x0020. -/
abbrev WIN_COMMIT : Nat := 0x800020
/-- WIN_ACTIVE_GEN, KND offset 0x0024. -/
abbrev WIN_ACTIVE_GEN : Nat := 0x800024
/-- FENCE_REQ, KND offset 0x0030. -/
abbrev FENCE_REQ : Nat := 0x800030
/-- FENCE_STATUS, KND offset 0x0034. -/
abbrev FENCE_STATUS : Nat := 0x800034
/-- FMC_COMMIT, KND offset 0x0040. -/
abbrev FMC_COMMIT : Nat := 0x800040
/-- FMC_ACTIVE_GEN, KND offset 0x0044. -/
abbrev FMC_ACTIVE_GEN : Nat := 0x800044
/-- REACH_ENT, KND offset 0x1000 (2048 instances). -/
abbrev REACH_ENT (a : Nat) : Nat := 0x801000 + a * 0x4
/-- MOD_ENT, KND offset 0x3000 (128 instances). -/
abbrev MOD_ENT (a : Nat) : Nat := 0x803000 + a * 0x4
/-- WIN_BASE_LO, KND offset 0x10000 (8192 instances). -/
abbrev WIN_BASE_LO (a : Nat) : Nat := 0x810000 + a * 0x20
/-- WIN_BASE_HI, KND offset 0x10004 (8192 instances). -/
abbrev WIN_BASE_HI (a : Nat) : Nat := 0x810004 + a * 0x20
/-- WIN_SIZE, KND offset 0x10008 (8192 instances). -/
abbrev WIN_SIZE (a : Nat) : Nat := 0x810008 + a * 0x20
/-- WIN_ATTR, KND offset 0x1000C (8192 instances). -/
abbrev WIN_ATTR (a : Nat) : Nat := 0x81000c + a * 0x20
/-- WIN_OFF_LO, KND offset 0x10010 (8192 instances). -/
abbrev WIN_OFF_LO (a : Nat) : Nat := 0x810010 + a * 0x20
/-- WIN_OFF_HI, KND offset 0x10014 (8192 instances). -/
abbrev WIN_OFF_HI (a : Nat) : Nat := 0x810014 + a * 0x20
/-- WIN_DEST, KND offset 0x10018 (8192 instances). -/
abbrev WIN_DEST (a : Nat) : Nat := 0x810018 + a * 0x20
/-- FMC_MASK, KND offset 0x80000 (4096 x 4 instances). -/
abbrev FMC_MASK (a b : Nat) : Nat := 0x880000 + a * 0x10 + b * 0x4
/-- FEL_CTRL, KND offset 0x100000 (64 instances). -/
abbrev FEL_CTRL (a : Nat) : Nat := 0x900000 + a * 0x800
/-- FEL_PTR, KND offset 0x100004 (64 instances). -/
abbrev FEL_PTR (a : Nat) : Nat := 0x900004 + a * 0x800
/-- FEL_ENT_W0, KND offset 0x100400 (64 x 64 instances). -/
abbrev FEL_ENT_W0 (a b : Nat) : Nat := 0x900400 + a * 0x800 + b * 0x10
/-- FEL_ENT_W1, KND offset 0x100404 (64 x 64 instances). -/
abbrev FEL_ENT_W1 (a b : Nat) : Nat := 0x900404 + a * 0x800 + b * 0x10
/-- FEL_ENT_W2, KND offset 0x100408 (64 x 64 instances). -/
abbrev FEL_ENT_W2 (a b : Nat) : Nat := 0x900408 + a * 0x800 + b * 0x10
/-- FEL_ENT_W3, KND offset 0x10040C (64 x 64 instances). -/
abbrev FEL_ENT_W3 (a b : Nat) : Nat := 0x90040c + a * 0x800 + b * 0x10
/-- MOR_CTRL, MOR offset 0x0000. -/
abbrev MOR_CTRL : Nat := 0xc00000
/-- MOR_STATUS, MOR offset 0x0004. -/
abbrev MOR_STATUS : Nat := 0xc00004
/-- MOR_EVENT, MOR offset 0x0008. -/
abbrev MOR_EVENT : Nat := 0xc00008
/-- CUSTODY_CFG, MOR offset 0x000C. -/
abbrev CUSTODY_CFG : Nat := 0xc0000c
/-- CUSTODY_LIMIT, MOR offset 0x0010. -/
abbrev CUSTODY_LIMIT : Nat := 0xc00010
/-- SPILL_CFG, MOR offset 0x0014. -/
abbrev SPILL_CFG : Nat := 0xc00014
/-- REFUSE_CFG, MOR offset 0x0018. -/
abbrev REFUSE_CFG : Nat := 0xc00018
/-- STORE_USE, MOR offset 0x001C. -/
abbrev STORE_USE : Nat := 0xc0001c
/-- META_USE, MOR offset 0x0020. -/
abbrev META_USE : Nat := 0xc00020
/-- OVF_USE, MOR offset 0x0024. -/
abbrev OVF_USE : Nat := 0xc00024
/-- ICTX_USE, MOR offset 0x0028. -/
abbrev ICTX_USE : Nat := 0xc00028
/-- ECTX_USE, MOR offset 0x002C. -/
abbrev ECTX_USE : Nat := 0xc0002c
/-- DORMANT_USE, MOR offset 0x0030. -/
abbrev DORMANT_USE : Nat := 0xc00030
/-- LAST_FAIL_SRC, MOR offset 0x0040. -/
abbrev LAST_FAIL_SRC : Nat := 0xc00040
/-- LAST_FAIL_DEST, MOR offset 0x0044. -/
abbrev LAST_FAIL_DEST : Nat := 0xc00044
/-- MOR_IGNORED, MOR offset 0x0048. -/
abbrev MOR_IGNORED : Nat := 0xc00048
/-- GUARD_MAP, MOR offset 0x0100 (64 instances). -/
abbrev GUARD_MAP (a : Nat) : Nat := 0xc00100 + a * 0x4
/-- VSI_ID, VSI offset 0x0000 (64 instances). -/
abbrev VSI_ID (a : Nat) : Nat := 0x1000000 + a * 0x40000
/-- VSI_CTRL, VSI offset 0x0004 (64 instances). -/
abbrev VSI_CTRL (a : Nat) : Nat := 0x1000004 + a * 0x40000
/-- VSI_STATUS, VSI offset 0x0008 (64 instances). -/
abbrev VSI_STATUS (a : Nat) : Nat := 0x1000008 + a * 0x40000
/-- VSI_EVENT, VSI offset 0x000C (64 instances). -/
abbrev VSI_EVENT (a : Nat) : Nat := 0x100000c + a * 0x40000
/-- VBR_STATE, VSI offset 0x0100 (64 x 256 instances). -/
abbrev VBR_STATE (a b : Nat) : Nat := 0x1000100 + a * 0x40000 + b * 0x4
/-- RLY_CTRL, RLY offset 0x0000. -/
abbrev RLY_CTRL : Nat := 0x2000000
/-- RLY_STATUS, RLY offset 0x0004. -/
abbrev RLY_STATUS : Nat := 0x2000004
/-- RLY_EVENT, RLY offset 0x0008. -/
abbrev RLY_EVENT : Nat := 0x2000008
/-- RF_STATUS, RLY offset 0x0100 (64 instances). -/
abbrev RF_STATUS (a : Nat) : Nat := 0x2000100 + a * 0x4
/-- SLC_CTRL, RLY offset 0x100000 (4096 instances). -/
abbrev SLC_CTRL (a : Nat) : Nat := 0x2100000 + a * 0x100
/-- SLC_STATE, RLY offset 0x100004 (4096 instances). -/
abbrev SLC_STATE (a : Nat) : Nat := 0x2100004 + a * 0x100
/-- SLC_BIND, RLY offset 0x100008 (4096 instances). -/
abbrev SLC_BIND (a : Nat) : Nat := 0x2100008 + a * 0x100
/-- SLC_PASID, RLY offset 0x10000C (4096 instances). -/
abbrev SLC_PASID (a : Nat) : Nat := 0x210000c + a * 0x100
/-- SLC_RID, RLY offset 0x100010 (4096 instances). -/
abbrev SLC_RID (a : Nat) : Nat := 0x2100010 + a * 0x100
/-- RING_CFG, RLY offset 0x100014 (4096 instances). -/
abbrev RING_CFG (a : Nat) : Nat := 0x2100014 + a * 0x100
/-- RING_GEN, RLY offset 0x100018 (4096 instances). -/
abbrev RING_GEN (a : Nat) : Nat := 0x2100018 + a * 0x100
/-- PREFETCH, RLY offset 0x10001C (4096 instances). -/
abbrev PREFETCH (a : Nat) : Nat := 0x210001c + a * 0x100
/-- SQ_BASE_LO, RLY offset 0x100020 (4096 instances). -/
abbrev SQ_BASE_LO (a : Nat) : Nat := 0x2100020 + a * 0x100
/-- SQ_BASE_HI, RLY offset 0x100024 (4096 instances). -/
abbrev SQ_BASE_HI (a : Nat) : Nat := 0x2100024 + a * 0x100
/-- CQ_BASE_LO, RLY offset 0x100028 (4096 instances). -/
abbrev CQ_BASE_LO (a : Nat) : Nat := 0x2100028 + a * 0x100
/-- CQ_BASE_HI, RLY offset 0x10002C (4096 instances). -/
abbrev CQ_BASE_HI (a : Nat) : Nat := 0x210002c + a * 0x100
/-- INT_ADDR_LO, RLY offset 0x100040 (4096 instances). -/
abbrev INT_ADDR_LO (a : Nat) : Nat := 0x2100040 + a * 0x100
/-- INT_ADDR_HI, RLY offset 0x100044 (4096 instances). -/
abbrev INT_ADDR_HI (a : Nat) : Nat := 0x2100044 + a * 0x100
/-- IB_BASE_LO, RLY offset 0x100050 (4096 instances). -/
abbrev IB_BASE_LO (a : Nat) : Nat := 0x2100050 + a * 0x100
/-- IB_BASE_HI, RLY offset 0x100054 (4096 instances). -/
abbrev IB_BASE_HI (a : Nat) : Nat := 0x2100054 + a * 0x100
/-- SQ_SEEN, RLY offset 0x100030 (4096 instances). -/
abbrev SQ_SEEN (a : Nat) : Nat := 0x2100030 + a * 0x100
/-- SQ_FETCHED, RLY offset 0x100034 (4096 instances). -/
abbrev SQ_FETCHED (a : Nat) : Nat := 0x2100034 + a * 0x100
/-- CQ_WRITTEN, RLY offset 0x100038 (4096 instances). -/
abbrev CQ_WRITTEN (a : Nat) : Nat := 0x2100038 + a * 0x100
/-- INT_DATA, RLY offset 0x100048 (4096 instances). -/
abbrev INT_DATA (a : Nat) : Nat := 0x2100048 + a * 0x100
/-- INT_CTRL, RLY offset 0x10004C (4096 instances). -/
abbrev INT_CTRL (a : Nat) : Nat := 0x210004c + a * 0x100
/-- IB_CFG, RLY offset 0x100058 (4096 instances). -/
abbrev IB_CFG (a : Nat) : Nat := 0x2100058 + a * 0x100
/-- IB_KEY, RLY offset 0x10005C (4096 instances). -/
abbrev IB_KEY (a : Nat) : Nat := 0x210005c + a * 0x100
/-- CNT_PERM, RLY offset 0x100060 (4096 instances). -/
abbrev CNT_PERM (a : Nat) : Nat := 0x2100060 + a * 0x100
/-- SLC_EVENT, RLY offset 0x100064 (4096 instances). -/
abbrev SLC_EVENT (a : Nat) : Nat := 0x2100064 + a * 0x100
/-- FAULT_ADDR_LO, RLY offset 0x100068 (4096 instances). -/
abbrev FAULT_ADDR_LO (a : Nat) : Nat := 0x2100068 + a * 0x100
/-- FAULT_ADDR_HI, RLY offset 0x10006C (4096 instances). -/
abbrev FAULT_ADDR_HI (a : Nat) : Nat := 0x210006c + a * 0x100
/-- SEC_EVENT, SEC offset 0x0000. -/
abbrev SEC_EVENT : Nat := 0x3000000
/-- SEC_COMMIT, SEC offset 0x0004. -/
abbrev SEC_COMMIT : Nat := 0x3000004
/-- SEC_ACTIVE_GEN, SEC offset 0x0008. -/
abbrev SEC_ACTIVE_GEN : Nat := 0x3000008
/-- SEC_DRAIN, SEC offset 0x000C. -/
abbrev SEC_DRAIN : Nat := 0x300000c
/-- SEC_DEFAULT_0, SEC offset 0x0010. -/
abbrev SEC_DEFAULT_0 : Nat := 0x3000010
/-- SEC_DEFAULT_1, SEC offset 0x0014. -/
abbrev SEC_DEFAULT_1 : Nat := 0x3000014
/-- DENY_ADDR_LO, SEC offset 0x0020. -/
abbrev DENY_ADDR_LO : Nat := 0x3000020
/-- DENY_ADDR_HI, SEC offset 0x0024. -/
abbrev DENY_ADDR_HI : Nat := 0x3000024
/-- DENY_INFO, SEC offset 0x0028. -/
abbrev DENY_INFO : Nat := 0x3000028
/-- SECTOR_BASE_LO, SEC offset 0x10000 (4096 instances). -/
abbrev SECTOR_BASE_LO (a : Nat) : Nat := 0x3010000 + a * 0x20
/-- SECTOR_BASE_HI, SEC offset 0x10004 (4096 instances). -/
abbrev SECTOR_BASE_HI (a : Nat) : Nat := 0x3010004 + a * 0x20
/-- SECTOR_SIZE, SEC offset 0x10008 (4096 instances). -/
abbrev SECTOR_SIZE (a : Nat) : Nat := 0x3010008 + a * 0x20
/-- SECTOR_TGT, SEC offset 0x1000C (4096 instances). -/
abbrev SECTOR_TGT (a : Nat) : Nat := 0x301000c + a * 0x20
/-- SECTOR_ACC, SEC offset 0x10010 (4096 instances). -/
abbrev SECTOR_ACC (a : Nat) : Nat := 0x3010010 + a * 0x20
/-- SECTOR_PASID, SEC offset 0x10014 (4096 instances). -/
abbrev SECTOR_PASID (a : Nat) : Nat := 0x3010014 + a * 0x20
/-- SCH_CTRL, SCH offset 0x0000. -/
abbrev SCH_CTRL : Nat := 0x3100000
/-- SCH_EVENT, SCH offset 0x0004. -/
abbrev SCH_EVENT : Nat := 0x3100004
/-- SCH_COMMIT, SCH offset 0x0008. -/
abbrev SCH_COMMIT : Nat := 0x3100008
/-- SCH_ACTIVE_GEN, SCH offset 0x000C. -/
abbrev SCH_ACTIVE_GEN : Nat := 0x310000c
/-- REACT_CFG, SCH offset 0x0010. -/
abbrev REACT_CFG : Nat := 0x3100010
/-- RLY_CFG, SCH offset 0x0014. -/
abbrev RLY_CFG : Nat := 0x3100014
/-- PORT_SCH, SCH offset 0x10000 (128 instances). -/
abbrev PORT_SCH (a : Nat) : Nat := 0x3110000 + a * 0x80
/-- CLASS_WT_LO, SCH offset 0x10004 (128 instances). -/
abbrev CLASS_WT_LO (a : Nat) : Nat := 0x3110004 + a * 0x80
/-- CLASS_WT_HI, SCH offset 0x10008 (128 instances). -/
abbrev CLASS_WT_HI (a : Nat) : Nat := 0x3110008 + a * 0x80
/-- PC_RATE, SCH offset 0x10040 (128 x 8 instances). -/
abbrev PC_RATE (a b : Nat) : Nat := 0x3110040 + a * 0x80 + b * 0x8
/-- PC_BURST, SCH offset 0x10044 (128 x 8 instances). -/
abbrev PC_BURST (a b : Nat) : Nat := 0x3110044 + a * 0x80 + b * 0x8
/-- VSI_WT_LO, SCH offset 0x20000 (64 instances). -/
abbrev VSI_WT_LO (a : Nat) : Nat := 0x3120000 + a * 0x80
/-- VSI_WT_HI, SCH offset 0x20004 (64 instances). -/
abbrev VSI_WT_HI (a : Nat) : Nat := 0x3120004 + a * 0x80
/-- VSI_RATE, SCH offset 0x20008 (64 instances). -/
abbrev VSI_RATE (a : Nat) : Nat := 0x3120008 + a * 0x80
/-- VSI_BURST, SCH offset 0x2000C (64 instances). -/
abbrev VSI_BURST (a : Nat) : Nat := 0x312000c + a * 0x80
/-- POL_BURST, SCH offset 0x20010 (64 instances). -/
abbrev POL_BURST (a : Nat) : Nat := 0x3120010 + a * 0x80
/-- POL_RATE, SCH offset 0x20020 (64 x 8 instances). -/
abbrev POL_RATE (a b : Nat) : Nat := 0x3120020 + a * 0x80 + b * 0x4
/-- POL_EFF, SCH offset 0x20040 (64 x 8 instances). -/
abbrev POL_EFF (a b : Nat) : Nat := 0x3120040 + a * 0x80 + b * 0x4
/-- SLICE_WT, SCH offset 0x40000 (4096 instances). -/
abbrev SLICE_WT (a : Nat) : Nat := 0x3140000 + a * 0x10
/-- SLICE_RATE, SCH offset 0x40004 (4096 instances). -/
abbrev SLICE_RATE (a : Nat) : Nat := 0x3140004 + a * 0x10
/-- SLICE_BURST, SCH offset 0x40008 (4096 instances). -/
abbrev SLICE_BURST (a : Nat) : Nat := 0x3140008 + a * 0x10
/-- SLICE_PACE, SCH offset 0x4000C (4096 instances). -/
abbrev SLICE_PACE (a : Nat) : Nat := 0x314000c + a * 0x10
/-- COL_CTRL, TEL offset 0x0000. -/
abbrev COL_CTRL : Nat := 0x3200000
/-- COL_PERIOD, TEL offset 0x0004. -/
abbrev COL_PERIOD : Nat := 0x3200004
/-- COL_SEL, TEL offset 0x0008. -/
abbrev COL_SEL : Nat := 0x3200008
/-- COL_EVENT, TEL offset 0x000C. -/
abbrev COL_EVENT : Nat := 0x320000c
/-- DUMP_BASE_LO, TEL offset 0x0010. -/
abbrev DUMP_BASE_LO : Nat := 0x3200010
/-- DUMP_BASE_HI, TEL offset 0x0014. -/
abbrev DUMP_BASE_HI : Nat := 0x3200014
/-- DUMP_CFG, TEL offset 0x0018. -/
abbrev DUMP_CFG : Nat := 0x3200018
/-- DUMP_WR, TEL offset 0x001C. -/
abbrev DUMP_WR : Nat := 0x320001c
/-- DUMP_RD, TEL offset 0x0020. -/
abbrev DUMP_RD : Nat := 0x3200020
/-- SNAP_NOW, TEL offset 0x0024. -/
abbrev SNAP_NOW : Nat := 0x3200024
/-- CNT_SEL, TEL offset 0x0030. -/
abbrev CNT_SEL : Nat := 0x3200030
/-- CNT_VAL_LO, TEL offset 0x0034. -/
abbrev CNT_VAL_LO : Nat := 0x3200034
/-- CNT_VAL_HI, TEL offset 0x0038. -/
abbrev CNT_VAL_HI : Nat := 0x3200038
/-- SND_CTRL, TEL offset 0x0040. -/
abbrev SND_CTRL : Nat := 0x3200040
/-- SND_STATUS, TEL offset 0x0044. -/
abbrev SND_STATUS : Nat := 0x3200044
/-- SND_POP, TEL offset 0x0048. -/
abbrev SND_POP : Nat := 0x3200048
/-- SND_DATA, TEL offset 0x0060 (8 instances). -/
abbrev SND_DATA (a : Nat) : Nat := 0x3200060 + a * 0x4
/-- SAF_CTRL, SAF offset 0x0000. -/
abbrev SAF_CTRL : Nat := 0x3300000
/-- SAF_STATUS, SAF offset 0x0004. -/
abbrev SAF_STATUS : Nat := 0x3300004
/-- SAF_EVENT, SAF offset 0x0008. -/
abbrev SAF_EVENT : Nat := 0x3300008
/-- MOD_FOG_CAUSE, SAF offset 0x000C. -/
abbrev MOD_FOG_CAUSE : Nat := 0x330000c
/-- FOG_CMD, SAF offset 0x0010. -/
abbrev FOG_CMD : Nat := 0x3300010
/-- CORR_COUNT, SAF offset 0x0014. -/
abbrev CORR_COUNT : Nat := 0x3300014
/-- SCRUB_STATUS, SAF offset 0x0018. -/
abbrev SCRUB_STATUS : Nat := 0x3300018
/-- MON_STATUS, SAF offset 0x001C. -/
abbrev MON_STATUS : Nat := 0x330001c
/-- INJECT, SAF offset 0x0040. -/
abbrev INJECT : Nat := 0x3300040
/-- PORT_FOG, SAF offset 0x0020 (4 instances). -/
abbrev PORT_FOG (a : Nat) : Nat := 0x3300020 + a * 0x4
/-- PORT_FOG_CAUSE, SAF offset 0x0100 (128 instances). -/
abbrev PORT_FOG_CAUSE (a : Nat) : Nat := 0x3300100 + a * 0x4
/-- MEM_STATUS, MEM offset 0x0000. -/
abbrev MEM_STATUS : Nat := 0x3400000

end Reg

/-! Field places: `Bit.<REGISTER>_<FIELD>` is ⟨high bit, low bit⟩. -/
namespace Bit

def GLB_ID_PART : Fld := ⟨15, 0⟩
def GLB_ID_STEP_LETTER : Fld := ⟨19, 16⟩
def GLB_ID_STEP_DIGIT : Fld := ⟨23, 20⟩
def GLB_ID_MOD_LETTER : Fld := ⟨27, 24⟩
def GLB_ID_MOD_DIGIT : Fld := ⟨31, 28⟩
def GLB_CAP_LPDDR6_GIB : Fld := ⟨7, 0⟩
def GLB_PWR_CTRL_TARGET : Fld := ⟨1, 0⟩
def GLB_PWR_STATUS_STATE : Fld := ⟨1, 0⟩
def GLB_PWR_STATUS_BUSY : Fld := ⟨2, 2⟩
def GLB_PWR_STATUS_LAST_REFUSE : Fld := ⟨5, 3⟩
def OPP_LIT_OPP_0 : Fld := ⟨1, 0⟩
def OPP_LIT_OPP_1 : Fld := ⟨3, 2⟩
def OPP_LIT_OPP_2 : Fld := ⟨5, 4⟩
def OPP_LIT_OPP_3 : Fld := ⟨7, 6⟩
def OPP_LIT_OPP_4 : Fld := ⟨9, 8⟩
def OPP_LIT_OPP_5 : Fld := ⟨11, 10⟩
def OPP_LIT_OPP_6 : Fld := ⟨13, 12⟩
def OPP_LIT_OPP_7 : Fld := ⟨15, 14⟩
def OPP_LIT_OPP_8 : Fld := ⟨17, 16⟩
def OPP_LIT_OPP_9 : Fld := ⟨19, 18⟩
def OPP_LIT_OPP_10 : Fld := ⟨21, 20⟩
def OPP_LIT_OPP_11 : Fld := ⟨23, 22⟩
def OPP_LIT_OPP_12 : Fld := ⟨25, 24⟩
def OPP_LIT_OPP_13 : Fld := ⟨27, 26⟩
def OPP_LIT_OPP_14 : Fld := ⟨29, 28⟩
def OPP_LIT_OPP_15 : Fld := ⟨31, 30⟩
def OPP_DIM_OPP_0 : Fld := ⟨1, 0⟩
def OPP_DIM_OPP_1 : Fld := ⟨3, 2⟩
def OPP_DIM_OPP_2 : Fld := ⟨5, 4⟩
def OPP_DIM_OPP_3 : Fld := ⟨7, 6⟩
def OPP_DIM_OPP_4 : Fld := ⟨9, 8⟩
def OPP_DIM_OPP_5 : Fld := ⟨11, 10⟩
def OPP_DIM_OPP_6 : Fld := ⟨13, 12⟩
def OPP_DIM_OPP_7 : Fld := ⟨15, 14⟩
def OPP_DIM_OPP_8 : Fld := ⟨17, 16⟩
def OPP_DIM_OPP_9 : Fld := ⟨19, 18⟩
def OPP_DIM_OPP_10 : Fld := ⟨21, 20⟩
def OPP_DIM_OPP_11 : Fld := ⟨23, 22⟩
def OPP_DIM_OPP_12 : Fld := ⟨25, 24⟩
def OPP_DIM_OPP_13 : Fld := ⟨27, 26⟩
def OPP_DIM_OPP_14 : Fld := ⟨29, 28⟩
def OPP_DIM_OPP_15 : Fld := ⟨31, 30⟩
def OPP_STATUS_BUSY : Fld := ⟨15, 0⟩
def OPP_STATUS_OPP_FAIL : Fld := ⟨31, 16⟩
def GATE_CTRL_STN_GATE_EN : Fld := ⟨15, 0⟩
def GATE_CTRL_RELAY_GATE_EN : Fld := ⟨16, 16⟩
def GATE_STATUS_STATION : Fld := ⟨15, 0⟩
def GATE_STATUS_RELAY : Fld := ⟨16, 16⟩
def GLB_LOCK_BCN : Fld := ⟨0, 0⟩
def GLB_LOCK_MOR : Fld := ⟨1, 1⟩
def GLB_LOCK_SAF : Fld := ⟨2, 2⟩
def CLK_STATUS_XTAL_OK : Fld := ⟨0, 0⟩
def CLK_STATUS_LAMP_ON_XTAL : Fld := ⟨1, 1⟩
def CLK_STATUS_CKG_REF : Fld := ⟨2, 2⟩
def CLK_STATUS_REFCLK_OK : Fld := ⟨3, 3⟩
def CLK_STATUS_TRIM_SRC : Fld := ⟨5, 4⟩
def CLK_STATUS_TRIM_LOCKED : Fld := ⟨6, 6⟩
def CLK_EVENT_XTAL_FAIL : Fld := ⟨0, 0⟩
def CLK_EVENT_XTAL_LOST : Fld := ⟨1, 1⟩
def CLK_EVENT_FORCED_SWITCH : Fld := ⟨2, 2⟩
def CLK_EVENT_GATE_ABANDON : Fld := ⟨3, 3⟩
def CLK_EVENT_GATED_ABORT : Fld := ⟨4, 4⟩
def CLK_EVENT_WAKE_FAIL : Fld := ⟨5, 5⟩
def IRO_TRIM_CODE : Fld := ⟨9, 0⟩
def IRO_TRIM_ERR : Fld := ⟨27, 16⟩
def IRO_TRIM_AUTO : Fld := ⟨31, 31⟩
def GATE_LOG_ISLAND : Fld := ⟨6, 0⟩
def GATE_LOG_FORCED : Fld := ⟨7, 7⟩
def GATE_LOG_TIME : Fld := ⟨31, 8⟩
def WATCH_TIME_LO_VALUE : Fld := ⟨31, 0⟩
def WATCH_TIME_HI_VALUE : Fld := ⟨31, 0⟩
def WATCH_UP_LO_VALUE : Fld := ⟨31, 0⟩
def WATCH_UP_HI_VALUE : Fld := ⟨31, 0⟩
def WATCH_ALARM_LO_VALUE : Fld := ⟨31, 0⟩
def WATCH_ALARM_HI_VALUE : Fld := ⟨31, 0⟩
def WAKE_CTRL_ADDR_EN : Fld := ⟨0, 0⟩
def WAKE_CTRL_ALARM_EN : Fld := ⟨1, 1⟩
def WAKE_CTRL_BEACON_EN : Fld := ⟨2, 2⟩
def WAKE_CTRL_CMP_EN : Fld := ⟨6, 3⟩
def WAKE_CTRL_ALARM_ARMED : Fld := ⟨8, 8⟩
def WAKE_CAUSE_ADDR : Fld := ⟨0, 0⟩
def WAKE_CAUSE_ALARM : Fld := ⟨1, 1⟩
def WAKE_CAUSE_BEACON : Fld := ⟨2, 2⟩
def WAKE_CAUSE_CMP : Fld := ⟨6, 3⟩
def WAKE_CAUSE_LATCHED : Fld := ⟨7, 7⟩
def RESTORE_TIME_US : Fld := ⟨15, 0⟩
def PWE_STATUS_FET_ON : Fld := ⟨0, 0⟩
def PWE_STATUS_RAMPING : Fld := ⟨1, 1⟩
def PWE_STATUS_GATE_FULL : Fld := ⟨2, 2⟩
def PWE_STATUS_RETRY_WAIT : Fld := ⟨3, 3⟩
def PWE_STATUS_LATCHED : Fld := ⟨4, 4⟩
def PWE_STATUS_LATCH_CAUSE : Fld := ⟨7, 5⟩
def PWE_STATUS_TRIP_COUNT : Fld := ⟨11, 8⟩
def PWE_STATUS_ARMED_A : Fld := ⟨12, 12⟩
def PWE_STATUS_ARMED_B : Fld := ⟨13, 13⟩
def PWE_STATUS_WARN : Fld := ⟨14, 14⟩
def PWE_STATUS_INLET_HOLD : Fld := ⟨15, 15⟩
def PWE_EVENT_TRIP : Fld := ⟨0, 0⟩
def PWE_EVENT_REV_A : Fld := ⟨1, 1⟩
def PWE_EVENT_REV_B : Fld := ⟨2, 2⟩
def PWE_EVENT_WARN_A : Fld := ⟨3, 3⟩
def PWE_EVENT_WARN_B : Fld := ⟨4, 4⟩
def PWE_EVENT_OV : Fld := ⟨5, 5⟩
def PWE_EVENT_FEED_DISARMED : Fld := ⟨6, 6⟩
def PWE_EVENT_APPLY_REJECT : Fld := ⟨7, 7⟩
def PWE_LATCH_CLEAR : Fld := ⟨7, 0⟩
def LAST_TRIP_CAUSE : Fld := ⟨2, 0⟩
def LAST_TRIP_POINT : Fld := ⟨5, 3⟩
def LAST_TRIP_CURRENT : Fld := ⟨17, 8⟩
def LAST_TRIP_TEMP : Fld := ⟨27, 18⟩
def FEED_A_VOLT : Fld := ⟨15, 0⟩
def FEED_A_CURR : Fld := ⟨31, 16⟩
def FEED_B_VOLT : Fld := ⟨15, 0⟩
def FEED_B_CURR : Fld := ⟨31, 16⟩
def FET_TEMP_DIODE : Fld := ⟨15, 0⟩
def FET_TEMP_MODEL : Fld := ⟨31, 16⟩
def RETRY_CFG_COUNT : Fld := ⟨3, 0⟩
def RETRY_CFG_DELAY : Fld := ⟨25, 16⟩
def WARN_THR_A : Fld := ⟨9, 0⟩
def WARN_THR_B : Fld := ⟨25, 16⟩
def THERM_CFG_T_TRIP : Fld := ⟨7, 0⟩
def THERM_CFG_T_RETRY : Fld := ⟨15, 8⟩
def PWE_APPLY_GO : Fld := ⟨7, 0⟩
def CURVE_T_US : Fld := ⟨31, 0⟩
def CURVE_I_MA : Fld := ⟨15, 0⟩
def KPR_STATUS_STAGE : Fld := ⟨1, 0⟩
def KPR_STATUS_FW_SLOT : Fld := ⟨2, 2⟩
def KPR_STATUS_LL_SLOT : Fld := ⟨3, 3⟩
def KPR_STATUS_FALLBACK : Fld := ⟨4, 4⟩
def KPR_STATUS_LL_FALLBACK : Fld := ⟨5, 5⟩
def KPR_STATUS_NO_RECORD : Fld := ⟨6, 6⟩
def KPR_STATUS_FW_STAGE : Fld := ⟨8, 7⟩
def KPR_STATUS_LL_STAGE : Fld := ⟨10, 9⟩
def KPR_EVENT_CR_FAULT : Fld := ⟨0, 0⟩
def KPR_EVENT_DB_RANGE : Fld := ⟨1, 1⟩
def KPR_EVENT_MGMT_LOST : Fld := ⟨2, 2⟩
def KPR_EVENT_UNLOCK_REFUSED : Fld := ⟨3, 3⟩
def KPR_EVENT_KEEPER_BUSY_CNT : Fld := ⟨31, 16⟩
def FW_VERSION_VERSION : Fld := ⟨31, 0⟩
def FUSE_STATUS_SVN : Fld := ⟨6, 0⟩
def FUSE_STATUS_KEY_REVOKE : Fld := ⟨9, 8⟩
def FUSE_STATUS_OP_LL_EN : Fld := ⟨11, 10⟩
def FUSE_STATUS_OP_DBG_EN : Fld := ⟨13, 12⟩
def CR_CTRL_EN : Fld := ⟨0, 0⟩
def CR_CTRL_SQ_LOG2 : Fld := ⟨11, 8⟩
def CR_CTRL_CQ_LOG2 : Fld := ⟨15, 12⟩
def CR_CTRL_CR_VEC : Fld := ⟨26, 16⟩
def CR_SQ_BASE_LO_VALUE : Fld := ⟨31, 12⟩
def CR_SQ_BASE_HI_VALUE : Fld := ⟨31, 0⟩
def CR_CQ_BASE_LO_VALUE : Fld := ⟨31, 12⟩
def CR_CQ_BASE_HI_VALUE : Fld := ⟨31, 0⟩
def CR_DB_SQ : Fld := ⟨15, 0⟩
def CR_DB_CQ : Fld := ⟨31, 16⟩
def LAST_CMD_TAG : Fld := ⟨15, 0⟩
def LAST_CMD_CODE : Fld := ⟨23, 16⟩
def LAST_CMD_STATUS : Fld := ⟨31, 24⟩
def DBG_STATUS_DEBUG_MASTER : Fld := ⟨0, 0⟩
def DBG_STATUS_KEEPER_DEBUG : Fld := ⟨1, 1⟩
def DBG_STATUS_KEY : Fld := ⟨2, 2⟩
def DBG_STATUS_MINUTES_LEFT : Fld := ⟨26, 16⟩
def START_STATUS_STATION : Fld := ⟨15, 0⟩
def START_STATUS_TOWER : Fld := ⟨16, 16⟩
def START_STATUS_MOORING : Fld := ⟨17, 17⟩
def START_STATUS_RELAY : Fld := ⟨18, 18⟩
def START_STATUS_BEACON : Fld := ⟨19, 19⟩
def START_STATUS_MC : Fld := ⟨23, 20⟩
def START_STATUS_BOOT_DONE : Fld := ⟨24, 24⟩
def STN_RESET_REQ : Fld := ⟨15, 0⟩
def STN_RESET_BUSY : Fld := ⟨31, 16⟩
def LAST_RESET_CAUSE : Fld := ⟨3, 0⟩
def LAST_RESET_COUNT : Fld := ⟨31, 16⟩
def LOG_CTRL_FREEZE : Fld := ⟨0, 0⟩
def LOG_CTRL_QTY_EN : Fld := ⟨15, 8⟩
def LOG_CTRL_SUM_PERIOD : Fld := ⟨31, 16⟩
def LOG_STATUS_FROZEN : Fld := ⟨0, 0⟩
def LOG_STATUS_KEEP_USED : Fld := ⟨9, 1⟩
def LOG_STATUS_RECENT : Fld := ⟨22, 10⟩
def LOG_STATUS_FW_FREE : Fld := ⟨31, 23⟩
def LOG_EVENT_FROZEN_MISS : Fld := ⟨15, 0⟩
def LOG_EVENT_QUEUE_LOST : Fld := ⟨31, 16⟩
def LOG_SEQ_VALUE : Fld := ⟨31, 0⟩
def LOG_RD_SEL_INDEX : Fld := ⟨13, 0⟩
def LOG_RD_SEL_AREA : Fld := ⟨15, 14⟩
def LOG_RD_STATUS_RD_VALID : Fld := ⟨0, 0⟩
def LOG_RD_STATUS_RD_EMPTY : Fld := ⟨1, 1⟩
def LOG_RD_DATA_VALUE : Fld := ⟨31, 0⟩
def OP_HOURS_HOURS : Fld := ⟨23, 0⟩
def POWER_CYCLES_VALUE : Fld := ⟨31, 0⟩
def TWR_CTRL_ITER : Fld := ⟨1, 0⟩
def TWR_CTRL_PLANE1_EN : Fld := ⟨4, 4⟩
def TWR_CTRL_PLANE1_OFFSET : Fld := ⟨11, 8⟩
def TWR_STATUS_OUT_HOLD : Fld := ⟨15, 0⟩
def TWR_STATUS_STOP_ANY : Fld := ⟨31, 16⟩
def TWR_EVENT_COMMIT_REJECT : Fld := ⟨0, 0⟩
def TWR_MC_COMMIT_GEN : Fld := ⟨15, 0⟩
def TWR_MC_ACTIVE_GEN_GEN : Fld := ⟨15, 0⟩
def MC_STATION_MASK_MASK0 : Fld := ⟨15, 0⟩
def MC_STATION_MASK_MASK1 : Fld := ⟨31, 16⟩
def STN_ID_STATION : Fld := ⟨3, 0⟩
def STN_ID_NPORTS : Fld := ⟨7, 4⟩
def STN_ID_OPP : Fld := ⟨9, 8⟩
def STN_CTRL_MARK_EN : Fld := ⟨0, 0⟩
def STN_CTRL_PACK_EN : Fld := ⟨1, 1⟩
def STN_STATUS_LOOKUP_MISMATCH : Fld := ⟨0, 0⟩
def STN_STATUS_CRC_FAIL : Fld := ⟨1, 1⟩
def STN_STATUS_REFCNT_ERR : Fld := ⟨2, 2⟩
def STN_STATUS_COMMIT_REJECT : Fld := ⟨3, 3⟩
def STN_STATUS_RESERVE_USED : Fld := ⟨4, 4⟩
def STN_STATUS_MC_COMMIT_REJECT : Fld := ⟨5, 5⟩
def OB_RESERVE_CELLS : Fld := ⟨16, 0⟩
def QUOTA_COMMIT_GEN : Fld := ⟨15, 0⟩
def QUOTA_ACTIVE_GEN_GEN : Fld := ⟨15, 0⟩
def OB_FREE_CELLS : Fld := ⟨16, 0⟩
def PORT_STOP_STOP : Fld := ⟨7, 0⟩
def PORT_QUOTA_CELLS : Fld := ⟨16, 0⟩
def PORT_CFG_MARK_PCT : Fld := ⟨6, 0⟩
def PORT_CFG_CUT_EN : Fld := ⟨8, 8⟩
def NOTICE_CTRL_INTERVAL : Fld := ⟨7, 0⟩
def STN_MC_COMMIT_GEN : Fld := ⟨15, 0⟩
def STN_MC_ACTIVE_GEN_GEN : Fld := ⟨15, 0⟩
def MC_PORT_MASK_MASK0 : Fld := ⟨7, 0⟩
def MC_PORT_MASK_MASK1 : Fld := ⟨15, 8⟩
def MC_PORT_MASK_MASK2 : Fld := ⟨23, 16⟩
def MC_PORT_MASK_MASK3 : Fld := ⟨31, 24⟩
def PRT_ID_PORT : Fld := ⟨6, 0⟩
def PRT_ID_DIR : Fld := ⟨7, 7⟩
def PRT_ID_KAUND : Fld := ⟨8, 8⟩
def PRT_ID_CFG_WIDTH : Fld := ⟨11, 9⟩
def PRT_CTRL_SYNTH_UR : Fld := ⟨0, 0⟩
def PRT_CTRL_TAG10 : Fld := ⟨1, 1⟩
def PRT_CTRL_CPL_RCB : Fld := ⟨2, 2⟩
def PRT_CTRL_PERST_ASSERT : Fld := ⟨3, 3⟩
def PRT_CTRL_LINK_DISABLE : Fld := ⟨4, 4⟩
def PRT_STATUS_DL_UP : Fld := ⟨0, 0⟩
def PRT_STATUS_RATE : Fld := ⟨3, 1⟩
def PRT_STATUS_FLIT : Fld := ⟨4, 4⟩
def PRT_STATUS_WIDTH : Fld := ⟨9, 5⟩
def PRT_STATUS_DPC_ACTIVE : Fld := ⟨10, 10⟩
def PRT_STATUS_NP_STOP : Fld := ⟨11, 11⟩
def PRT_EVENT_SURPRISE_DOWN : Fld := ⟨0, 0⟩
def PRT_EVENT_CTO_ANSWER : Fld := ⟨1, 1⟩
def PRT_EVENT_LATE_CPL : Fld := ⟨2, 2⟩
def PRT_EVENT_UNEXP_CPL : Fld := ⟨3, 3⟩
def PRT_EVENT_REFUSED_REQ : Fld := ⟨4, 4⟩
def PRT_EVENT_LINK_ANSWER : Fld := ⟨5, 5⟩
def PRT_EVENT_COMMIT_REJECT : Fld := ⟨6, 6⟩
def PRT_EVENT_REQ_DISCARD : Fld := ⟨7, 7⟩
def PRT_EVENT_ORT_ERR : Fld := ⟨8, 8⟩
def CTO_CFG_RANGE : Fld := ⟨3, 0⟩
def ORT_RID_RID : Fld := ⟨15, 0⟩
def ORT_LIMIT_ENTRIES : Fld := ⟨11, 0⟩
def ORT_USE_IN_USE : Fld := ⟨11, 0⟩
def ORT_USE_QUARANTINED : Fld := ⟨29, 16⟩
def POOL_PH_COUNT : Fld := ⟨16, 0⟩
def POOL_PD_COUNT : Fld := ⟨16, 0⟩
def POOL_NPH_COUNT : Fld := ⟨16, 0⟩
def POOL_NPD_COUNT : Fld := ⟨16, 0⟩
def POOL_CPLH_COUNT : Fld := ⟨16, 0⟩
def POOL_CPLD_COUNT : Fld := ⟨16, 0⟩
def NP_WAIT_QUOTA_CELLS : Fld := ⟨16, 0⟩
def POOL_COMMIT_GEN : Fld := ⟨15, 0⟩
def POOL_ACTIVE_GEN_GEN : Fld := ⟨15, 0⟩
def LATE_ADDR_LO_VALUE : Fld := ⟨31, 0⟩
def LATE_ADDR_HI_VALUE : Fld := ⟨31, 0⟩
def LATE_TIME_LO_VALUE : Fld := ⟨31, 0⟩
def LATE_TIME_HI_VALUE : Fld := ⟨31, 0⟩
def LATE_TAG_TAG : Fld := ⟨13, 0⟩
def LATE_TAG_RID : Fld := ⟨31, 16⟩
def SPAN_CTRL_VC_EN : Fld := ⟨7, 0⟩
def SPAN_CTRL_RETRAIN : Fld := ⟨8, 8⟩
def SPAN_CTRL_RATE_CAP : Fld := ⟨9, 9⟩
def SPAN_CTRL_WIDTH_CAP : Fld := ⟨12, 10⟩
def SPAN_STATUS_STATE : Fld := ⟨2, 0⟩
def SPAN_STATUS_HOLD_CAUSE : Fld := ⟨5, 3⟩
def SPAN_STATUS_RATE : Fld := ⟨6, 6⟩
def SPAN_STATUS_WIDTH : Fld := ⟨11, 7⟩
def SPAN_STATUS_VC_USE : Fld := ⟨19, 12⟩
def SPAN_STATUS_FACING : Fld := ⟨20, 20⟩
def SPAN_STATUS_REPLAY_FULL : Fld := ⟨21, 21⟩
def SPAN_EVENT_LINK_RESET : Fld := ⟨0, 0⟩
def SPAN_EVENT_HEADROOM_FAIL : Fld := ⟨1, 1⟩
def SPAN_EVENT_FC_ERR : Fld := ⟨2, 2⟩
def SPAN_EVENT_FRAMING_ERR : Fld := ⟨3, 3⟩
def SPAN_EVENT_REPLAY_ROLLOVER : Fld := ⟨4, 4⟩
def SPAN_EVENT_FC_STALE : Fld := ⟨5, 5⟩
def SPAN_EVENT_SIG_DROP : Fld := ⟨6, 6⟩
def SPAN_EVENT_KINIT_TMO : Fld := ⟨7, 7⟩
def SPAN_EVENT_RECOVERY_FAIL : Fld := ⟨8, 8⟩
def REPLAY_CFG_TMO : Fld := ⟨9, 0⟩
def REPLAY_CFG_NUM_LIMIT : Fld := ⟨15, 12⟩
def REPLAY_CFG_HOLD_RETRY : Fld := ⟨23, 16⟩
def RTT_MEAS_RTT : Fld := ⟨15, 0⟩
def RTT_MEAS_RTT_FC : Fld := ⟨31, 16⟩
def HEADROOM_BYTES : Fld := ⟨19, 0⟩
def PEER_ID_PEER_FA : Fld := ⟨24, 0⟩
def PEER_ID_PEER_FACING : Fld := ⟨25, 25⟩
def SIGQ_STATUS_DEPTH : Fld := ⟨11, 0⟩
def SIGQ_STATUS_MODE : Fld := ⟨13, 12⟩
def FC_STATE_XOFF_TX : Fld := ⟨7, 0⟩
def FC_STATE_NPX_TX : Fld := ⟨15, 8⟩
def FC_STATE_XOFF_RX : Fld := ⟨23, 16⟩
def FC_STATE_NPX_RX : Fld := ⟨31, 24⟩
def VC_BUF_UNITS : Fld := ⟨16, 0⟩
def VC_SUBQ_QN : Fld := ⟨15, 0⟩
def VC_SUBQ_QC : Fld := ⟨31, 16⟩
def LQ_STATUS_PLL_LOCK : Fld := ⟨0, 0⟩
def LQ_STATUS_SRIS : Fld := ⟨1, 1⟩
def LQ_STATUS_POL_INV : Fld := ⟨5, 2⟩
def LQ_STATUS_REVERSED : Fld := ⟨6, 6⟩
def LQ_STATUS_REVERSED_HI : Fld := ⟨7, 7⟩
def LQ_EVENT_PLL_LOST : Fld := ⟨0, 0⟩
def LQ_EVENT_EQ_FALLBACK : Fld := ⟨1, 1⟩
def LQ_EVENT_ROLE_CONFLICT : Fld := ⟨2, 2⟩
def LQ_EVENT_KAUND_RATE_FAIL : Fld := ⟨3, 3⟩
def LQ_EVENT_TRAIN_FAIL : Fld := ⟨31, 16⟩
def LANE_EQ_TX_PRESET : Fld := ⟨3, 0⟩
def LANE_EQ_CTLE : Fld := ⟨7, 4⟩
def LANE_EQ_RATE : Fld := ⟨10, 8⟩
def BCN_CTRL_MASTER_CAND : Fld := ⟨0, 0⟩
def BCN_STATUS_LOCK0 : Fld := ⟨0, 0⟩
def BCN_STATUS_LOCK1 : Fld := ⟨1, 1⟩
def BCN_STATUS_MASTER : Fld := ⟨2, 2⟩
def BCN_STATUS_HOLDOVER : Fld := ⟨3, 3⟩
def BCN_STATUS_MASTER_MOD : Fld := ⟨10, 4⟩
def BCN_FSN_FSN : Fld := ⟨31, 0⟩
def HOP_DELAY_DELAY0 : Fld := ⟨15, 0⟩
def HOP_DELAY_DELAY1 : Fld := ⟨31, 16⟩
def BCN_TIME_LO_VALUE : Fld := ⟨31, 0⟩
def BCN_TIME_HI_VALUE : Fld := ⟨31, 0⟩
def BCN_ERR_CODE_ERR : Fld := ⟨15, 0⟩
def BCN_ERR_LOCK_LOSS : Fld := ⟨31, 16⟩
def KND_ID_REACH : Fld := ⟨10, 0⟩
def KND_ID_MODULE : Fld := ⟨22, 16⟩
def KND_CTRL_HOP_LIMIT : Fld := ⟨3, 0⟩
def KND_CTRL_REVERT_HOLD : Fld := ⟨15, 8⟩
def KND_CTRL_HASH_SEED : Fld := ⟨31, 16⟩
def KND_EVENT_TURN_VIOL : Fld := ⟨0, 0⟩
def KND_EVENT_HOP_VIOL : Fld := ⟨1, 1⟩
def KND_EVENT_NO_ROUTE : Fld := ⟨2, 2⟩
def KND_EVENT_KH_CRC_ERR : Fld := ⟨3, 3⟩
def KND_EVENT_COMMIT_REJECT : Fld := ⟨4, 4⟩
def KND_EVENT_FENCE_DONE : Fld := ⟨5, 5⟩
def KND_EVENT_RID_BUSY : Fld := ⟨6, 6⟩
def KND_EVENT_TABLE : Fld := ⟨9, 8⟩
def KND_EVENT_CAUSE : Fld := ⟨13, 10⟩
def KND_EVENT_INDEX : Fld := ⟨26, 14⟩
def KND_FAB_RID_BASE : Fld := ⟨15, 7⟩
def RT_COMMIT_GEN : Fld := ⟨15, 0⟩
def RT_ACTIVE_GEN_GEN : Fld := ⟨15, 0⟩
def KND_TCVC_VC_0 : Fld := ⟨2, 0⟩
def KND_TCVC_VC_1 : Fld := ⟨5, 3⟩
def KND_TCVC_VC_2 : Fld := ⟨8, 6⟩
def KND_TCVC_VC_3 : Fld := ⟨11, 9⟩
def KND_TCVC_VC_4 : Fld := ⟨14, 12⟩
def KND_TCVC_VC_5 : Fld := ⟨17, 15⟩
def KND_TCVC_VC_6 : Fld := ⟨20, 18⟩
def KND_TCVC_VC_7 : Fld := ⟨23, 21⟩
def WIN_COMMIT_GEN : Fld := ⟨15, 0⟩
def WIN_ACTIVE_GEN_GEN : Fld := ⟨15, 0⟩
def FENCE_REQ_GEN : Fld := ⟨15, 0⟩
def FENCE_REQ_VSI : Fld := ⟨21, 16⟩
def FENCE_REQ_ALL : Fld := ⟨22, 22⟩
def FENCE_STATUS_BUSY : Fld := ⟨0, 0⟩
def FENCE_STATUS_DONE : Fld := ⟨1, 1⟩
def FENCE_STATUS_COUNT : Fld := ⟨31, 16⟩
def FMC_COMMIT_GEN : Fld := ⟨15, 0⟩
def FMC_ACTIVE_GEN_GEN : Fld := ⟨15, 0⟩
def REACH_ENT_CAND_0 : Fld := ⟨6, 0⟩
def REACH_ENT_CAND_1 : Fld := ⟨14, 8⟩
def REACH_ENT_CAND_2 : Fld := ⟨22, 16⟩
def REACH_ENT_CAND_3 : Fld := ⟨30, 24⟩
def REACH_ENT_VALID_0 : Fld := ⟨7, 7⟩
def REACH_ENT_VALID_1 : Fld := ⟨15, 15⟩
def REACH_ENT_VALID_2 : Fld := ⟨23, 23⟩
def REACH_ENT_VALID_3 : Fld := ⟨31, 31⟩
def MOD_ENT_CAND_0 : Fld := ⟨6, 0⟩
def MOD_ENT_CAND_1 : Fld := ⟨14, 8⟩
def MOD_ENT_CAND_2 : Fld := ⟨22, 16⟩
def MOD_ENT_CAND_3 : Fld := ⟨30, 24⟩
def MOD_ENT_VALID_0 : Fld := ⟨7, 7⟩
def MOD_ENT_VALID_1 : Fld := ⟨15, 15⟩
def MOD_ENT_VALID_2 : Fld := ⟨23, 23⟩
def MOD_ENT_VALID_3 : Fld := ⟨31, 31⟩
def WIN_BASE_LO_VALID : Fld := ⟨0, 0⟩
def WIN_BASE_LO_BASE : Fld := ⟨31, 12⟩
def WIN_BASE_HI_BASE : Fld := ⟨31, 0⟩
def WIN_SIZE_GRANULES : Fld := ⟨31, 0⟩
def WIN_ATTR_VSI : Fld := ⟨5, 0⟩
def WIN_ATTR_MPS : Fld := ⟨8, 6⟩
def WIN_ATTR_MRRS : Fld := ⟨11, 9⟩
def WIN_ATTR_MC : Fld := ⟨12, 12⟩
def WIN_OFF_LO_OFFSET : Fld := ⟨31, 12⟩
def WIN_OFF_HI_OFFSET : Fld := ⟨31, 0⟩
def WIN_DEST_DEST_FA : Fld := ⟨24, 0⟩
def FMC_MASK_PORTS : Fld := ⟨31, 0⟩
def FEL_CTRL_VEC : Fld := ⟨10, 0⟩
def FEL_CTRL_MASK : Fld := ⟨16, 16⟩
def FEL_PTR_WR : Fld := ⟨6, 0⟩
def FEL_PTR_RD : Fld := ⟨14, 8⟩
def FEL_PTR_OVF : Fld := ⟨31, 16⟩
def FEL_ENT_W0_VALUE : Fld := ⟨31, 0⟩
def FEL_ENT_W1_VALUE : Fld := ⟨31, 0⟩
def FEL_ENT_W2_VALUE : Fld := ⟨31, 0⟩
def FEL_ENT_W3_VALUE : Fld := ⟨31, 0⟩
def MOR_CTRL_SPILL_EN : Fld := ⟨0, 0⟩
def MOR_CTRL_OVF_GIB : Fld := ⟨4, 1⟩
def MOR_STATUS_BOOT_HOLD : Fld := ⟨0, 0⟩
def MOR_STATUS_SPILLING : Fld := ⟨1, 1⟩
def MOR_STATUS_HOLD : Fld := ⟨2, 2⟩
def MOR_STATUS_OVF_FULL : Fld := ⟨3, 3⟩
def MOR_STATUS_ECTX_FULL : Fld := ⟨4, 4⟩
def MOR_STATUS_ICTX_FULL : Fld := ⟨5, 5⟩
def MOR_EVENT_HOLD_ENTERED : Fld := ⟨0, 0⟩
def MOR_EVENT_REFUSE_RCVD : Fld := ⟨1, 1⟩
def MOR_EVENT_REFUSE_SENT : Fld := ⟨2, 2⟩
def MOR_EVENT_STREAM_FAILED : Fld := ⟨3, 3⟩
def MOR_EVENT_CASTOFF_ERR : Fld := ⟨4, 4⟩
def MOR_EVENT_META_ECC : Fld := ⟨5, 5⟩
def CUSTODY_CFG_TMO : Fld := ⟨15, 0⟩
def CUSTODY_CFG_BACKOFF_MAX : Fld := ⟨18, 16⟩
def CUSTODY_LIMIT_MS : Fld := ⟨15, 0⟩
def SPILL_CFG_HI : Fld := ⟨6, 0⟩
def SPILL_CFG_LO : Fld := ⟨14, 8⟩
def REFUSE_CFG_BASE : Fld := ⟨7, 0⟩
def REFUSE_CFG_MAX_EXP : Fld := ⟨11, 8⟩
def STORE_USE_GRANULES : Fld := ⟨20, 0⟩
def META_USE_ENTRIES : Fld := ⟨18, 0⟩
def OVF_USE_GRANULES : Fld := ⟨28, 0⟩
def ICTX_USE_COUNT : Fld := ⟨16, 0⟩
def ECTX_USE_COUNT : Fld := ⟨16, 0⟩
def DORMANT_USE_COUNT : Fld := ⟨24, 0⟩
def LAST_FAIL_SRC_SRC_FA : Fld := ⟨24, 0⟩
def LAST_FAIL_SRC_TC : Fld := ⟨27, 25⟩
def LAST_FAIL_SRC_CAUSE : Fld := ⟨31, 28⟩
def LAST_FAIL_DEST_DEST_FA : Fld := ⟨24, 0⟩
def LAST_FAIL_DEST_EPOCH_LO : Fld := ⟨31, 25⟩
def MOR_IGNORED_CAST_IGNORED : Fld := ⟨15, 0⟩
def MOR_IGNORED_RESEND_IGNORED : Fld := ⟨31, 16⟩
def GUARD_MAP_TC_MASK : Fld := ⟨7, 0⟩
def VSI_ID_VSI : Fld := ⟨5, 0⟩
def VSI_ID_MANAGER : Fld := ⟨6, 6⟩
def VSI_ID_PROXY : Fld := ⟨7, 7⟩
def VSI_ID_PORT : Fld := ⟨14, 8⟩
def VSI_ID_OWNED : Fld := ⟨15, 15⟩
def VSI_ID_VBR_COUNT : Fld := ⟨24, 16⟩
def VSI_CTRL_FRS_EN : Fld := ⟨0, 0⟩
def VSI_CTRL_QUIESCE_TMO : Fld := ⟨5, 4⟩
def VSI_CTRL_PROBE_LIMIT : Fld := ⟨11, 8⟩
def VSI_STATUS_READY : Fld := ⟨0, 0⟩
def VSI_STATUS_IN_RESET : Fld := ⟨1, 1⟩
def VSI_STATUS_LINK_UP : Fld := ⟨2, 2⟩
def VSI_STATUS_DRS_SENT : Fld := ⟨3, 3⟩
def VSI_STATUS_HOST_BUS : Fld := ⟨11, 4⟩
def VSI_STATUS_INT_BUS : Fld := ⟨19, 12⟩
def VSI_EVENT_VSI_RESET : Fld := ⟨0, 0⟩
def VSI_EVENT_FLR_TRANSLATED : Fld := ⟨1, 1⟩
def VSI_EVENT_QUIESCE_TMO : Fld := ⟨2, 2⟩
def VSI_EVENT_RID_MISS : Fld := ⟨3, 3⟩
def VSI_EVENT_BAR_OVERLAP : Fld := ⟨4, 4⟩
def VSI_EVENT_PF_GUARD : Fld := ⟨5, 5⟩
def VBR_STATE_KIND : Fld := ⟨1, 0⟩
def VBR_STATE_PRESENT : Fld := ⟨2, 2⟩
def VBR_STATE_FLR_BUSY : Fld := ⟨3, 3⟩
def VBR_STATE_SHARED : Fld := ⟨4, 4⟩
def VBR_STATE_REMOTE_TGT : Fld := ⟨5, 5⟩
def VBR_STATE_SEC_BUS : Fld := ⟨15, 8⟩
def VBR_STATE_SUB_BUS : Fld := ⟨23, 16⟩
def VBR_STATE_PORT : Fld := ⟨30, 24⟩
def RLY_CTRL_SEND_TMO : Fld := ⟨7, 0⟩
def RLY_STATUS_OPS : Fld := ⟨14, 0⟩
def RLY_STATUS_RDBUF_PCT : Fld := ⟨24, 16⟩
def RLY_EVENT_FOREIGN_DB : Fld := ⟨15, 0⟩
def RLY_EVENT_LATE_REPLY : Fld := ⟨31, 16⟩
def RF_STATUS_BME : Fld := ⟨0, 0⟩
def RF_STATUS_IDLE : Fld := ⟨1, 1⟩
def RF_STATUS_HELD : Fld := ⟨2, 2⟩
def SLC_CTRL_CMD : Fld := ⟨2, 0⟩
def SLC_STATE_STATE : Fld := ⟨2, 0⟩
def SLC_STATE_HALT_CAUSE : Fld := ⟨5, 3⟩
def SLC_STATE_CMD_SEQ : Fld := ⟨7, 6⟩
def SLC_STATE_LAST_STATUS : Fld := ⟨11, 8⟩
def SLC_STATE_INFLIGHT : Fld := ⟨30, 16⟩
def SLC_BIND_VSI : Fld := ⟨5, 0⟩
def SLC_BIND_PASID_EN : Fld := ⟨8, 8⟩
def SLC_BIND_WORLD : Fld := ⟨9, 9⟩
def SLC_BIND_TC_MASK : Fld := ⟨23, 16⟩
def SLC_PASID_PASID : Fld := ⟨19, 0⟩
def SLC_RID_REQ_RID : Fld := ⟨15, 0⟩
def RING_CFG_SQ_LOG2 : Fld := ⟨4, 0⟩
def RING_CFG_CQ_LOG2 : Fld := ⟨12, 8⟩
def RING_CFG_RUN_AHEAD : Fld := ⟨22, 16⟩
def RING_GEN_GEN : Fld := ⟨15, 0⟩
def PREFETCH_KIB : Fld := ⟨8, 0⟩
def SQ_BASE_LO_VALUE : Fld := ⟨31, 12⟩
def SQ_BASE_HI_VALUE : Fld := ⟨31, 0⟩
def CQ_BASE_LO_VALUE : Fld := ⟨31, 12⟩
def CQ_BASE_HI_VALUE : Fld := ⟨31, 0⟩
def INT_ADDR_LO_VALUE : Fld := ⟨31, 0⟩
def INT_ADDR_HI_VALUE : Fld := ⟨31, 0⟩
def IB_BASE_LO_VALUE : Fld := ⟨31, 12⟩
def IB_BASE_HI_VALUE : Fld := ⟨31, 0⟩
def SQ_SEEN_COUNT : Fld := ⟨31, 0⟩
def SQ_FETCHED_COUNT : Fld := ⟨31, 0⟩
def CQ_WRITTEN_COUNT : Fld := ⟨31, 0⟩
def INT_DATA_DATA : Fld := ⟨31, 0⟩
def INT_CTRL_MASK : Fld := ⟨0, 0⟩
def INT_CTRL_PENDING : Fld := ⟨1, 1⟩
def IB_CFG_EN : Fld := ⟨0, 0⟩
def IB_CFG_INTR : Fld := ⟨1, 1⟩
def IB_CFG_IB_LOG2 : Fld := ⟨7, 4⟩
def IB_CFG_ESIZE : Fld := ⟨10, 8⟩
def IB_KEY_KEY : Fld := ⟨31, 0⟩
def CNT_PERM_GROUPS : Fld := ⟨15, 0⟩
def SLC_EVENT_DB_STALE : Fld := ⟨0, 0⟩
def SLC_EVENT_DB_RANGE : Fld := ⟨1, 1⟩
def SLC_EVENT_DB_BAD : Fld := ⟨2, 2⟩
def SLC_EVENT_SPEC_SIDE : Fld := ⟨3, 3⟩
def SLC_EVENT_BME_ABORT : Fld := ⟨4, 4⟩
def SLC_EVENT_WRITE_IGNORED : Fld := ⟨5, 5⟩
def FAULT_ADDR_LO_VALUE : Fld := ⟨31, 0⟩
def FAULT_ADDR_HI_VALUE : Fld := ⟨31, 0⟩
def SEC_EVENT_COMMIT_REJECT : Fld := ⟨0, 0⟩
def SEC_EVENT_DOUBLE_MATCH : Fld := ⟨1, 1⟩
def SEC_EVENT_COPY_MISMATCH : Fld := ⟨2, 2⟩
def SEC_EVENT_DENY : Fld := ⟨3, 3⟩
def SEC_EVENT_DEBUG_DENIED : Fld := ⟨4, 4⟩
def SEC_EVENT_CAUSE : Fld := ⟨9, 8⟩
def SEC_EVENT_INDEX : Fld := ⟨23, 12⟩
def SEC_COMMIT_GEN : Fld := ⟨15, 0⟩
def SEC_ACTIVE_GEN_GEN : Fld := ⟨15, 0⟩
def SEC_DRAIN_DRAINED : Fld := ⟨0, 0⟩
def SEC_DRAIN_COUNT : Fld := ⟨31, 16⟩
def SEC_DEFAULT_0_ALLOW : Fld := ⟨31, 0⟩
def SEC_DEFAULT_1_ALLOW : Fld := ⟨31, 0⟩
def DENY_ADDR_LO_VALUE : Fld := ⟨31, 0⟩
def DENY_ADDR_HI_VALUE : Fld := ⟨31, 0⟩
def DENY_INFO_SECTOR : Fld := ⟨11, 0⟩
def DENY_INFO_NO_MATCH : Fld := ⟨12, 12⟩
def DENY_INFO_VSI : Fld := ⟨18, 13⟩
def DENY_INFO_PATH : Fld := ⟨21, 19⟩
def DENY_INFO_WRITE : Fld := ⟨22, 22⟩
def DENY_INFO_WORLD : Fld := ⟨23, 23⟩
def SECTOR_BASE_LO_VALID : Fld := ⟨0, 0⟩
def SECTOR_BASE_LO_BASE : Fld := ⟨31, 12⟩
def SECTOR_BASE_HI_BASE : Fld := ⟨31, 0⟩
def SECTOR_SIZE_GRANULES : Fld := ⟨31, 0⟩
def SECTOR_TGT_KIND : Fld := ⟨1, 0⟩
def SECTOR_TGT_TARGET : Fld := ⟨31, 7⟩
def SECTOR_ACC_R : Fld := ⟨0, 0⟩
def SECTOR_ACC_W : Fld := ⟨1, 1⟩
def SECTOR_ACC_NORMAL : Fld := ⟨2, 2⟩
def SECTOR_ACC_TRUSTED : Fld := ⟨3, 3⟩
def SECTOR_ACC_PREFETCH : Fld := ⟨4, 4⟩
def SECTOR_ACC_LOCKED : Fld := ⟨5, 5⟩
def SECTOR_ACC_DEBUG_VIS : Fld := ⟨6, 6⟩
def SECTOR_ACC_VSI : Fld := ⟨13, 8⟩
def SECTOR_ACC_VSI_EN : Fld := ⟨14, 14⟩
def SECTOR_ACC_PASID_EN : Fld := ⟨15, 15⟩
def SECTOR_PASID_PASID : Fld := ⟨19, 0⟩
def SCH_CTRL_REACT_EN : Fld := ⟨0, 0⟩
def SCH_CTRL_RLY_REACT_EN : Fld := ⟨1, 1⟩
def SCH_EVENT_COMMIT_REJECT : Fld := ⟨0, 0⟩
def SCH_EVENT_CAUSE : Fld := ⟨2, 1⟩
def SCH_EVENT_INDEX : Fld := ⟨24, 8⟩
def SCH_COMMIT_GEN : Fld := ⟨15, 0⟩
def SCH_ACTIVE_GEN_GEN : Fld := ⟨15, 0⟩
def REACT_CFG_DEC_SHIFT : Fld := ⟨3, 0⟩
def REACT_CFG_INC_SHIFT : Fld := ⟨7, 4⟩
def REACT_CFG_RECOVER : Fld := ⟨15, 8⟩
def REACT_CFG_FLOOR_PCT : Fld := ⟨22, 16⟩
def RLY_CFG_RLY_OVH : Fld := ⟨7, 0⟩
def PORT_SCH_OVERHEAD : Fld := ⟨7, 0⟩
def PORT_SCH_STRICT : Fld := ⟨15, 8⟩
def CLASS_WT_LO_W0 : Fld := ⟨7, 0⟩
def CLASS_WT_LO_W1 : Fld := ⟨15, 8⟩
def CLASS_WT_LO_W2 : Fld := ⟨23, 16⟩
def CLASS_WT_LO_W3 : Fld := ⟨31, 24⟩
def CLASS_WT_HI_W0 : Fld := ⟨7, 0⟩
def CLASS_WT_HI_W1 : Fld := ⟨15, 8⟩
def CLASS_WT_HI_W2 : Fld := ⟨23, 16⟩
def CLASS_WT_HI_W3 : Fld := ⟨31, 24⟩
def PC_RATE_MBS : Fld := ⟨19, 0⟩
def PC_BURST_UNITS : Fld := ⟨15, 0⟩
def VSI_WT_LO_W0 : Fld := ⟨7, 0⟩
def VSI_WT_LO_W1 : Fld := ⟨15, 8⟩
def VSI_WT_LO_W2 : Fld := ⟨23, 16⟩
def VSI_WT_LO_W3 : Fld := ⟨31, 24⟩
def VSI_WT_HI_W0 : Fld := ⟨7, 0⟩
def VSI_WT_HI_W1 : Fld := ⟨15, 8⟩
def VSI_WT_HI_W2 : Fld := ⟨23, 16⟩
def VSI_WT_HI_W3 : Fld := ⟨31, 24⟩
def VSI_RATE_MBS : Fld := ⟨19, 0⟩
def VSI_BURST_UNITS : Fld := ⟨15, 0⟩
def POL_BURST_UNITS : Fld := ⟨15, 0⟩
def POL_RATE_MBS : Fld := ⟨19, 0⟩
def POL_EFF_MBS : Fld := ⟨19, 0⟩
def SLICE_WT_WEIGHT : Fld := ⟨7, 0⟩
def SLICE_RATE_MBS : Fld := ⟨19, 0⟩
def SLICE_BURST_UNITS : Fld := ⟨15, 0⟩
def SLICE_PACE_MBS : Fld := ⟨19, 0⟩
def COL_CTRL_EN : Fld := ⟨0, 0⟩
def COL_CTRL_LOC : Fld := ⟨1, 1⟩
def COL_PERIOD_US : Fld := ⟨23, 0⟩
def COL_SEL_STATION : Fld := ⟨15, 0⟩
def COL_SEL_TOWER : Fld := ⟨16, 16⟩
def COL_SEL_RELAY : Fld := ⟨17, 17⟩
def COL_SEL_MOORING : Fld := ⟨18, 18⟩
def COL_SEL_MC : Fld := ⟨22, 19⟩
def COL_EVENT_MISSED : Fld := ⟨15, 0⟩
def COL_EVENT_WRITE_FAIL : Fld := ⟨16, 16⟩
def COL_EVENT_CFG_IGNORED : Fld := ⟨17, 17⟩
def DUMP_BASE_LO_VALUE : Fld := ⟨31, 12⟩
def DUMP_BASE_HI_VALUE : Fld := ⟨31, 0⟩
def DUMP_CFG_LOG2 : Fld := ⟨3, 0⟩
def DUMP_CFG_STAGE_MIB : Fld := ⟨25, 16⟩
def DUMP_WR_VALUE : Fld := ⟨31, 0⟩
def DUMP_RD_VALUE : Fld := ⟨31, 0⟩
def SNAP_NOW_GO : Fld := ⟨0, 0⟩
def CNT_SEL_KIND : Fld := ⟨2, 0⟩
def CNT_SEL_INSTANCE : Fld := ⟨19, 8⟩
def CNT_SEL_INDEX : Fld := ⟨25, 20⟩
def CNT_VAL_LO_VALUE : Fld := ⟨31, 0⟩
def CNT_VAL_HI_VALUE : Fld := ⟨31, 0⟩
def SND_CTRL_N : Fld := ⟨4, 0⟩
def SND_CTRL_STATION_EN : Fld := ⟨31, 16⟩
def SND_STATUS_COUNT : Fld := ⟨8, 0⟩
def SND_STATUS_DROPPED : Fld := ⟨31, 16⟩
def SND_POP_GO : Fld := ⟨0, 0⟩
def SND_DATA_VALUE : Fld := ⟨31, 0⟩
def SAF_CTRL_PORT_FOG_N_EN : Fld := ⟨0, 0⟩
def SAF_CTRL_CORR_REPORT : Fld := ⟨1, 1⟩
def SAF_CTRL_LOCK : Fld := ⟨31, 31⟩
def SAF_STATUS_MODULE_FOG : Fld := ⟨0, 0⟩
def SAF_STATUS_FOG_N_DRIVE : Fld := ⟨1, 1⟩
def SAF_STATUS_FOG_N_SENSE : Fld := ⟨2, 2⟩
def SAF_STATUS_KEEPER_PATH_OK : Fld := ⟨3, 3⟩
def SAF_STATUS_LAMP_PATH_OK : Fld := ⟨4, 4⟩
def SAF_STATUS_POWER_DOUBT : Fld := ⟨5, 5⟩
def SAF_STATUS_PORTS_IN_FOG : Fld := ⟨15, 8⟩
def SAF_EVENT_PORT_FOG_ENTERED : Fld := ⟨0, 0⟩
def SAF_EVENT_MODULE_FOG_ENTERED : Fld := ⟨1, 1⟩
def SAF_EVENT_LOCKSTEP : Fld := ⟨2, 2⟩
def SAF_EVENT_CLOCK_LOSS : Fld := ⟨3, 3⟩
def SAF_EVENT_POWER_DOUBT : Fld := ⟨4, 4⟩
def SAF_EVENT_SELFTEST_FAIL : Fld := ⟨5, 5⟩
def SAF_EVENT_FOG_N_STUCK : Fld := ⟨6, 6⟩
def SAF_EVENT_TABLE_REPAIRED : Fld := ⟨7, 7⟩
def SAF_EVENT_CTX_ECC : Fld := ⟨8, 8⟩
def SAF_EVENT_CORRECTED : Fld := ⟨9, 9⟩
def SAF_EVENT_FOG_CMD_REFUSED : Fld := ⟨10, 10⟩
def SAF_EVENT_THERMAL : Fld := ⟨11, 11⟩
def MOD_FOG_CAUSE_CAUSE : Fld := ⟨7, 0⟩
def MOD_FOG_CAUSE_INDEX : Fld := ⟨15, 8⟩
def MOD_FOG_CAUSE_TIME : Fld := ⟨31, 16⟩
def FOG_CMD_PORT : Fld := ⟨6, 0⟩
def FOG_CMD_OP : Fld := ⟨9, 8⟩
def CORR_COUNT_COUNT : Fld := ⟨31, 0⟩
def SCRUB_STATUS_PASSES : Fld := ⟨15, 0⟩
def SCRUB_STATUS_LAST_MS : Fld := ⟨23, 16⟩
def SCRUB_STATUS_REPAIRS : Fld := ⟨31, 24⟩
def MON_STATUS_STATION : Fld := ⟨15, 0⟩
def MON_STATUS_TOWER : Fld := ⟨16, 16⟩
def MON_STATUS_MOORING : Fld := ⟨17, 17⟩
def MON_STATUS_RELAY : Fld := ⟨18, 18⟩
def MON_STATUS_KEEPER : Fld := ⟨19, 19⟩
def MON_STATUS_XTAL : Fld := ⟨20, 20⟩
def MON_STATUS_BEACON : Fld := ⟨21, 21⟩
def MON_STATUS_MC : Fld := ⟨25, 22⟩
def INJECT_CLASS : Fld := ⟨3, 0⟩
def INJECT_PORT : Fld := ⟨10, 4⟩
def INJECT_GO : Fld := ⟨31, 31⟩
def PORT_FOG_FOG : Fld := ⟨31, 0⟩
def PORT_FOG_CAUSE_CAUSE : Fld := ⟨7, 0⟩
def PORT_FOG_CAUSE_TIME : Fld := ⟨31, 8⟩
def MEM_STATUS_READY : Fld := ⟨3, 0⟩
def MEM_STATUS_SELF_REFRESH : Fld := ⟨7, 4⟩
def MEM_STATUS_CAP_GIB : Fld := ⟨15, 8⟩

end Bit

/-! The rows of each block (Table 20.7). -/
namespace RegTable

def rowsGLB0 : List RegRow :=
  [⟨0x0, [], 0x9256, 0x0, 0, 0x0, [⟨15, 0, .ro, 0, 65535⟩, ⟨19, 16, .ro, 0, 15⟩, ⟨23, 20, .ro, 0, 15⟩, ⟨27, 24, .ro, 0, 15⟩, ⟨31, 28, .ro, 0, 15⟩]⟩,
   ⟨0x4, [], 0x0, 0x0, 0, 0x0, [⟨7, 0, .ro, 0, 255⟩]⟩,
   ⟨0x8, [], 0x0, 0x0, 0, 0x0, [⟨1, 0, .rw, 0, 2⟩]⟩,
   ⟨0xc, [], 0x0, 0x0, 0, 0x0, [⟨1, 0, .ro, 0, 3⟩, ⟨2, 2, .ro, 0, 1⟩, ⟨5, 3, .ro, 0, 7⟩]⟩,
   ⟨0x10, [], 0x0, 0x0, 0, 0x0, [⟨1, 0, .rw, 0, 2⟩, ⟨3, 2, .rw, 0, 2⟩, ⟨5, 4, .rw, 0, 2⟩, ⟨7, 6, .rw, 0, 2⟩, ⟨9, 8, .rw, 0, 2⟩, ⟨11, 10, .rw, 0, 2⟩, ⟨13, 12, .rw, 0, 2⟩, ⟨15, 14, .rw, 0, 2⟩, ⟨17, 16, .rw, 0, 2⟩, ⟨19, 18, .rw, 0, 2⟩, ⟨21, 20, .rw, 0, 2⟩, ⟨23, 22, .rw, 0, 2⟩, ⟨25, 24, .rw, 0, 2⟩, ⟨27, 26, .rw, 0, 2⟩, ⟨29, 28, .rw, 0, 2⟩, ⟨31, 30, .rw, 0, 2⟩]⟩,
   ⟨0x14, [], 0xaaaaaaaa, 0x0, 0, 0x0, [⟨1, 0, .rw, 1, 2⟩, ⟨3, 2, .rw, 1, 2⟩, ⟨5, 4, .rw, 1, 2⟩, ⟨7, 6, .rw, 1, 2⟩, ⟨9, 8, .rw, 1, 2⟩, ⟨11, 10, .rw, 1, 2⟩, ⟨13, 12, .rw, 1, 2⟩, ⟨15, 14, .rw, 1, 2⟩, ⟨17, 16, .rw, 1, 2⟩, ⟨19, 18, .rw, 1, 2⟩, ⟨21, 20, .rw, 1, 2⟩, ⟨23, 22, .rw, 1, 2⟩, ⟨25, 24, .rw, 1, 2⟩, ⟨27, 26, .rw, 1, 2⟩, ⟨29, 28, .rw, 1, 2⟩, ⟨31, 30, .rw, 1, 2⟩]⟩,
   ⟨0x18, [], 0x0, 0x0, 0, 0x0, [⟨15, 0, .ro, 0, 65535⟩, ⟨31, 16, .w1c, 0, 65535⟩]⟩,
   ⟨0x1c, [], 0x1ffff, 0x0, 0, 0x0, [⟨15, 0, .rw, 0, 65535⟩, ⟨16, 16, .rw, 0, 1⟩]⟩]
def rowsGLB1 : List RegRow :=
  [⟨0x20, [], 0x0, 0x0, 0, 0x0, [⟨15, 0, .ro, 0, 65535⟩, ⟨16, 16, .ro, 0, 1⟩]⟩,
   ⟨0x30, [], 0x0, 0x0, 0, 0x3, [⟨0, 0, .set1, 0, 1⟩, ⟨1, 1, .set1, 0, 1⟩, ⟨2, 2, .ro, 0, 1⟩]⟩]
/-- The registers of block GLB. -/
def rowsGLB : List RegRow := rowsGLB0 ++ rowsGLB1
def rowsCLK0 : List RegRow :=
  [⟨0x10000, [], 0x0, 0x0, 0, 0x0, [⟨0, 0, .ro, 0, 1⟩, ⟨1, 1, .ro, 0, 1⟩, ⟨2, 2, .ro, 0, 1⟩, ⟨3, 3, .ro, 0, 1⟩, ⟨5, 4, .ro, 0, 3⟩, ⟨6, 6, .ro, 0, 1⟩]⟩,
   ⟨0x10004, [], 0x0, 0x0, 0, 0x20, [⟨0, 0, .w1c, 0, 1⟩, ⟨1, 1, .w1c, 0, 1⟩, ⟨2, 2, .w1c, 0, 1⟩, ⟨3, 3, .w1c, 0, 1⟩, ⟨4, 4, .w1c, 0, 1⟩, ⟨5, 5, .w1c, 0, 1⟩]⟩,
   ⟨0x10008, [], 0x80000200, 0x0, 0, 0x0, [⟨9, 0, .ro, 0, 1023⟩, ⟨27, 16, .ro, 0, 4095⟩, ⟨31, 31, .rw, 0, 1⟩]⟩,
   ⟨0x1000c, [], 0x0, 0x0, 0, 0x0, [⟨6, 0, .ro, 0, 127⟩, ⟨7, 7, .ro, 0, 1⟩, ⟨31, 8, .ro, 0, 16777215⟩]⟩,
   ⟨0x10010, [], 0x0, 0x0, 1, 0x0, [⟨31, 0, .ro, 0, 4294967295⟩]⟩,
   ⟨0x10014, [], 0x0, 0x0, 2, 0x0, [⟨31, 0, .ro, 0, 4294967295⟩]⟩,
   ⟨0x10018, [], 0x0, 0x0, 1, 0x0, [⟨31, 0, .ro, 0, 4294967295⟩]⟩,
   ⟨0x1001c, [], 0x0, 0x0, 2, 0x0, [⟨31, 0, .ro, 0, 4294967295⟩]⟩]
def rowsCLK1 : List RegRow :=
  [⟨0x10020, [], 0x0, 0x0, 1, 0x0, [⟨31, 0, .rw, 0, 4294967295⟩]⟩,
   ⟨0x10024, [], 0x0, 0x0, 2, 0x0, [⟨31, 0, .rw, 0, 4294967295⟩]⟩,
   ⟨0x10028, [], 0x7f, 0x0, 0, 0x7f, [⟨0, 0, .rw, 0, 1⟩, ⟨1, 1, .rw, 0, 1⟩, ⟨2, 2, .rw, 0, 1⟩, ⟨6, 3, .rw, 0, 15⟩, ⟨8, 8, .rw, 0, 1⟩]⟩,
   ⟨0x1002c, [], 0x0, 0x0, 0, 0x0, [⟨0, 0, .w1c, 0, 1⟩, ⟨1, 1, .w1c, 0, 1⟩, ⟨2, 2, .w1c, 0, 1⟩, ⟨6, 3, .w1c, 0, 15⟩, ⟨7, 7, .w1c, 0, 1⟩]⟩,
   ⟨0x10030, [], 0x0, 0x0, 0, 0x0, [⟨15, 0, .ro, 0, 65535⟩]⟩]
/-- The registers of block CLK. -/
def rowsCLK : List RegRow := rowsCLK0 ++ rowsCLK1
def rowsPWE0 : List RegRow :=
  [⟨0x20000, [], 0x0, 0x0, 0, 0x0, [⟨0, 0, .ro, 0, 1⟩, ⟨1, 1, .ro, 0, 1⟩, ⟨2, 2, .ro, 0, 1⟩, ⟨3, 3, .ro, 0, 1⟩, ⟨4, 4, .ro, 0, 1⟩, ⟨7, 5, .ro, 0, 7⟩, ⟨11, 8, .ro, 0, 15⟩, ⟨12, 12, .ro, 0, 1⟩, ⟨13, 13, .ro, 0, 1⟩, ⟨14, 14, .ro, 0, 1⟩, ⟨15, 15, .ro, 0, 1⟩]⟩,
   ⟨0x20004, [], 0x0, 0x0, 0, 0x0, [⟨0, 0, .w1c, 0, 1⟩, ⟨1, 1, .w1c, 0, 1⟩, ⟨2, 2, .w1c, 0, 1⟩, ⟨3, 3, .w1c, 0, 1⟩, ⟨4, 4, .w1c, 0, 1⟩, ⟨5, 5, .w1c, 0, 1⟩, ⟨6, 6, .w1c, 0, 1⟩, ⟨7, 7, .w1c, 0, 1⟩]⟩,
   ⟨0x20008, [], 0x0, 0x0, 0, 0x0, [⟨7, 0, .wo, 0, 255⟩]⟩,
   ⟨0x2000c, [], 0x0, 0x0, 0, 0x0, [⟨2, 0, .ro, 0, 7⟩, ⟨5, 3, .ro, 0, 7⟩, ⟨17, 8, .ro, 0, 1023⟩, ⟨27, 18, .ro, 0, 1023⟩]⟩,
   ⟨0x20010, [], 0x0, 0x0, 0, 0x0, [⟨15, 0, .ro, 0, 65535⟩, ⟨31, 16, .ro, 0, 65535⟩]⟩,
   ⟨0x20014, [], 0x0, 0x0, 0, 0x0, [⟨15, 0, .ro, 0, 65535⟩, ⟨31, 16, .ro, 0, 65535⟩]⟩,
   ⟨0x20018, [], 0x0, 0x0, 0, 0x0, [⟨15, 0, .ro, 0, 65535⟩, ⟨31, 16, .ro, 0, 65535⟩]⟩,
   ⟨0x2001c, [], 0xa0003, 0x0, 0, 0x0, [⟨3, 0, .rw, 0, 15⟩, ⟨25, 16, .rw, 0, 1023⟩]⟩]
def rowsPWE1 : List RegRow :=
  [⟨0x20020, [], 0x1a401a4, 0x0, 0, 0x0, [⟨9, 0, .rw, 0, 1023⟩, ⟨25, 16, .rw, 0, 1023⟩]⟩,
   ⟨0x20024, [], 0x5596, 0x0, 0, 0x0, [⟨7, 0, .rw, 0, 255⟩, ⟨15, 8, .rw, 0, 255⟩]⟩,
   ⟨0x20028, [], 0x0, 0x0, 0, 0x0, [⟨7, 0, .wo, 0, 255⟩]⟩]
/-- The breaker curve (Table 17.3). -/
def rowsPWE2 : List RegRow :=
  [⟨0x20040, [], 0xa, 0x0, 0, 0x0, [⟨31, 0, .rw, 0, 4294967295⟩]⟩,
   ⟨0x20044, [], 0x8ca0, 0x0, 0, 0x0, [⟨15, 0, .rw, 0, 65535⟩]⟩,
   ⟨0x20048, [], 0x64, 0x0, 0, 0x0, [⟨31, 0, .rw, 0, 4294967295⟩]⟩,
   ⟨0x2004c, [], 0x7530, 0x0, 0, 0x0, [⟨15, 0, .rw, 0, 65535⟩]⟩,
   ⟨0x20050, [], 0x3e8, 0x0, 0, 0x0, [⟨31, 0, .rw, 0, 4294967295⟩]⟩,
   ⟨0x20054, [], 0x5dc0, 0x0, 0, 0x0, [⟨15, 0, .rw, 0, 65535⟩]⟩,
   ⟨0x20058, [], 0x2710, 0x0, 0, 0x0, [⟨31, 0, .rw, 0, 4294967295⟩]⟩,
   ⟨0x2005c, [], 0x4650, 0x0, 0, 0x0, [⟨15, 0, .rw, 0, 65535⟩]⟩,
   ⟨0x20060, [], 0x186a0, 0x0, 0, 0x0, [⟨31, 0, .rw, 0, 4294967295⟩]⟩,
   ⟨0x20064, [], 0x3a98, 0x0, 0, 0x0, [⟨15, 0, .rw, 0, 65535⟩]⟩,
   ⟨0x20068, [], 0xf4240, 0x0, 0, 0x0, [⟨31, 0, .rw, 0, 4294967295⟩]⟩,
   ⟨0x2006c, [], 0x34bc, 0x0, 0, 0x0, [⟨15, 0, .rw, 0, 65535⟩]⟩,
   ⟨0x20070, [], 0x989680, 0x0, 0, 0x0, [⟨31, 0, .rw, 0, 4294967295⟩]⟩,
   ⟨0x20074, [], 0x30d4, 0x0, 0, 0x0, [⟨15, 0, .rw, 0, 65535⟩]⟩,
   ⟨0x20078, [], 0x3938700, 0x0, 0, 0x0, [⟨31, 0, .rw, 0, 4294967295⟩]⟩,
   ⟨0x2007c, [], 0x2ee0, 0x0, 0, 0x0, [⟨15, 0, .rw, 0, 65535⟩]⟩]
/-- The registers of block PWE. -/
def rowsPWE : List RegRow := rowsPWE0 ++ rowsPWE1 ++ rowsPWE2
def rowsKPR0 : List RegRow :=
  [⟨0x40000, [], 0x0, 0x0, 0, 0x0, [⟨1, 0, .ro, 0, 3⟩, ⟨2, 2, .ro, 0, 1⟩, ⟨3, 3, .ro, 0, 1⟩, ⟨4, 4, .ro, 0, 1⟩, ⟨5, 5, .ro, 0, 1⟩, ⟨6, 6, .ro, 0, 1⟩, ⟨8, 7, .ro, 0, 3⟩, ⟨10, 9, .ro, 0, 3⟩]⟩,
   ⟨0x40004, [], 0x0, 0x0, 0, 0x0, [⟨0, 0, .w1c, 0, 1⟩, ⟨1, 1, .w1c, 0, 1⟩, ⟨2, 2, .w1c, 0, 1⟩, ⟨3, 3, .w1c, 0, 1⟩, ⟨31, 16, .clr, 0, 65535⟩]⟩,
   ⟨0x40008, [], 0x0, 0x0, 0, 0x0, [⟨31, 0, .ro, 0, 4294967295⟩]⟩,
   ⟨0x4000c, [], 0x0, 0x0, 0, 0x0, [⟨6, 0, .ro, 0, 127⟩, ⟨9, 8, .ro, 0, 3⟩, ⟨11, 10, .ro, 0, 3⟩, ⟨13, 12, .ro, 0, 3⟩]⟩,
   ⟨0x40010, [], 0x6600, 0x0, 0, 0x0, [⟨0, 0, .rw, 0, 1⟩, ⟨11, 8, .rw, 6, 12⟩, ⟨15, 12, .rw, 6, 12⟩, ⟨26, 16, .rw, 0, 2047⟩]⟩,
   ⟨0x40014, [], 0x0, 0x0, 1, 0x0, [⟨31, 12, .rw, 0, 1048575⟩]⟩,
   ⟨0x40018, [], 0x0, 0x0, 2, 0x0, [⟨31, 0, .rw, 0, 4294967295⟩]⟩,
   ⟨0x4001c, [], 0x0, 0x0, 1, 0x0, [⟨31, 12, .rw, 0, 1048575⟩]⟩]
def rowsKPR1 : List RegRow :=
  [⟨0x40020, [], 0x0, 0x0, 2, 0x0, [⟨31, 0, .rw, 0, 4294967295⟩]⟩,
   ⟨0x40024, [], 0x0, 0x0, 0, 0x0, [⟨15, 0, .wo, 0, 65535⟩, ⟨31, 16, .wo, 0, 65535⟩]⟩,
   ⟨0x40028, [], 0x0, 0x0, 0, 0x0, [⟨15, 0, .ro, 0, 65535⟩, ⟨23, 16, .ro, 0, 255⟩, ⟨31, 24, .ro, 0, 255⟩]⟩,
   ⟨0x4002c, [], 0x0, 0x0, 0, 0x0, [⟨0, 0, .ro, 0, 1⟩, ⟨1, 1, .ro, 0, 1⟩, ⟨2, 2, .ro, 0, 1⟩, ⟨26, 16, .ro, 0, 2047⟩]⟩,
   ⟨0x40040, [], 0x0, 0x0, 0, 0x0, [⟨15, 0, .ro, 0, 65535⟩, ⟨16, 16, .ro, 0, 1⟩, ⟨17, 17, .ro, 0, 1⟩, ⟨18, 18, .ro, 0, 1⟩, ⟨19, 19, .ro, 0, 1⟩, ⟨23, 20, .ro, 0, 15⟩, ⟨24, 24, .ro, 0, 1⟩]⟩,
   ⟨0x40044, [], 0x0, 0x0, 0, 0x0, [⟨15, 0, .wo, 0, 65535⟩, ⟨31, 16, .ro, 0, 65535⟩]⟩,
   ⟨0x40048, [], 0x0, 0x0, 0, 0x0, [⟨3, 0, .ro, 0, 15⟩, ⟨31, 16, .ro, 0, 65535⟩]⟩]
/-- The registers of block KPR. -/
def rowsKPR : List RegRow := rowsKPR0 ++ rowsKPR1
def rowsLOG0 : List RegRow :=
  [⟨0x80000, [], 0xe10ff00, 0x0, 0, 0x0, [⟨0, 0, .rw, 0, 1⟩, ⟨15, 8, .rw, 0, 255⟩, ⟨31, 16, .rw, 1, 65535⟩]⟩,
   ⟨0x80004, [], 0x0, 0x0, 0, 0x0, [⟨0, 0, .ro, 0, 1⟩, ⟨9, 1, .ro, 0, 511⟩, ⟨22, 10, .ro, 0, 8191⟩, ⟨31, 23, .ro, 0, 511⟩]⟩,
   ⟨0x80008, [], 0x0, 0x0, 0, 0x0, [⟨15, 0, .clr, 0, 65535⟩, ⟨31, 16, .clr, 0, 65535⟩]⟩,
   ⟨0x8000c, [], 0x0, 0x0, 0, 0x0, [⟨31, 0, .ro, 0, 4294967295⟩]⟩,
   ⟨0x80010, [], 0x0, 0x0, 0, 0x0, [⟨13, 0, .rw, 0, 16383⟩, ⟨15, 14, .rw, 0, 3⟩]⟩,
   ⟨0x80014, [], 0x0, 0x0, 0, 0x0, [⟨0, 0, .ro, 0, 1⟩, ⟨1, 1, .ro, 0, 1⟩]⟩,
   ⟨0x80020, [(16, 0x4)], 0x0, 0x0, 0, 0x0, [⟨31, 0, .ro, 0, 4294967295⟩]⟩,
   ⟨0x80060, [], 0x0, 0x0, 0, 0x0, [⟨23, 0, .ro, 0, 16777215⟩]⟩]
def rowsLOG1 : List RegRow :=
  [⟨0x80064, [], 0x0, 0x0, 0, 0x0, [⟨31, 0, .ro, 0, 4294967295⟩]⟩]
/-- The registers of block LOG. -/
def rowsLOG : List RegRow := rowsLOG0 ++ rowsLOG1
def rowsTWR0 : List RegRow :=
  [⟨0x100000, [], 0x813, 0x0, 0, 0x0, [⟨1, 0, .rw, 1, 3⟩, ⟨4, 4, .rw, 0, 1⟩, ⟨11, 8, .rw, 0, 15⟩]⟩,
   ⟨0x100004, [], 0x0, 0x0, 0, 0x0, [⟨15, 0, .ro, 0, 65535⟩, ⟨31, 16, .ro, 0, 65535⟩]⟩,
   ⟨0x100008, [], 0x0, 0x0, 0, 0x0, [⟨0, 0, .w1c, 0, 1⟩]⟩,
   ⟨0x100010, [], 0x0, 0x0, 0, 0x0, [⟨15, 0, .wo, 0, 65535⟩]⟩,
   ⟨0x100014, [], 0x0, 0x0, 0, 0x0, [⟨15, 0, .ro, 0, 65535⟩]⟩,
   ⟨0x101000, [(2080, 0x4)], 0x0, 0x0, 0, 0x0, [⟨15, 0, .rw, 0, 65535⟩, ⟨31, 16, .rw, 0, 65535⟩]⟩]
/-- The registers of block TWR. -/
def rowsTWR : List RegRow := rowsTWR0
def rowsSTN0 : List RegRow :=
  [⟨0x200000, [(16, 0x10000)], 0x0, 0x1, 0, 0x0, [⟨3, 0, .ro, 0, 15⟩, ⟨7, 4, .ro, 0, 15⟩, ⟨9, 8, .ro, 0, 3⟩]⟩,
   ⟨0x200004, [(16, 0x10000)], 0x3, 0x0, 0, 0x0, [⟨0, 0, .rw, 0, 1⟩, ⟨1, 1, .rw, 0, 1⟩]⟩,
   ⟨0x200008, [(16, 0x10000)], 0x0, 0x0, 0, 0x0, [⟨0, 0, .w1c, 0, 1⟩, ⟨1, 1, .w1c, 0, 1⟩, ⟨2, 2, .w1c, 0, 1⟩, ⟨3, 3, .w1c, 0, 1⟩, ⟨4, 4, .w1c, 0, 1⟩, ⟨5, 5, .w1c, 0, 1⟩]⟩,
   ⟨0x20000c, [(16, 0x10000)], 0x2000, 0x0, 0, 0x0, [⟨16, 0, .rw, 0, 131071⟩]⟩,
   ⟨0x200010, [(16, 0x10000)], 0x0, 0x0, 0, 0x0, [⟨15, 0, .wo, 0, 65535⟩]⟩,
   ⟨0x200014, [(16, 0x10000)], 0x0, 0x0, 0, 0x0, [⟨15, 0, .ro, 0, 65535⟩]⟩,
   ⟨0x200018, [(16, 0x10000)], 0x10000, 0x0, 0, 0x0, [⟨16, 0, .ro, 0, 131071⟩]⟩,
   ⟨0x20001c, [(16, 0x10000)], 0x0, 0x0, 0, 0x0, [⟨7, 0, .ro, 0, 255⟩]⟩]
def rowsSTN1 : List RegRow :=
  [⟨0x200020, [(16, 0x10000), (8, 0x4)], 0x0, 0x0, 0, 0x0, [⟨16, 0, .rw, 0, 131071⟩]⟩,
   ⟨0x200040, [(16, 0x10000), (8, 0x4)], 0x119, 0x0, 0, 0x0, [⟨6, 0, .rw, 0, 127⟩, ⟨8, 8, .rw, 0, 1⟩]⟩,
   ⟨0x200060, [(16, 0x10000)], 0x3, 0x0, 0, 0x0, [⟨7, 0, .rw, 0, 255⟩]⟩,
   ⟨0x200070, [(16, 0x10000)], 0x0, 0x0, 0, 0x0, [⟨15, 0, .wo, 0, 65535⟩]⟩,
   ⟨0x200074, [(16, 0x10000)], 0x0, 0x0, 0, 0x0, [⟨15, 0, .ro, 0, 65535⟩]⟩,
   ⟨0x201000, [(16, 0x10000), (1040, 0x4)], 0x0, 0x0, 0, 0x0, [⟨7, 0, .rw, 0, 255⟩, ⟨15, 8, .rw, 0, 255⟩, ⟨23, 16, .rw, 0, 255⟩, ⟨31, 24, .rw, 0, 255⟩]⟩]
/-- The registers of block STN. -/
def rowsSTN : List RegRow := rowsSTN0 ++ rowsSTN1
def rowsPRT0 : List RegRow :=
  [⟨0x400000, [(128, 0x4000)], 0x0, 0x1, 0, 0x0, [⟨6, 0, .ro, 0, 127⟩, ⟨7, 7, .ro, 0, 1⟩, ⟨8, 8, .ro, 0, 1⟩, ⟨11, 9, .ro, 0, 7⟩]⟩,
   ⟨0x400004, [(128, 0x4000)], 0x0, 0x0, 0, 0x0, [⟨0, 0, .rw, 0, 1⟩, ⟨1, 1, .rw, 0, 1⟩, ⟨2, 2, .rw, 0, 1⟩, ⟨3, 3, .rw, 0, 1⟩, ⟨4, 4, .rw, 0, 1⟩]⟩,
   ⟨0x400008, [(128, 0x4000)], 0x0, 0x0, 0, 0x0, [⟨0, 0, .ro, 0, 1⟩, ⟨3, 1, .ro, 0, 7⟩, ⟨4, 4, .ro, 0, 1⟩, ⟨9, 5, .ro, 0, 31⟩, ⟨10, 10, .ro, 0, 1⟩, ⟨11, 11, .ro, 0, 1⟩]⟩,
   ⟨0x40000c, [(128, 0x4000)], 0x0, 0x0, 0, 0x0, [⟨0, 0, .w1c, 0, 1⟩, ⟨1, 1, .w1c, 0, 1⟩, ⟨2, 2, .w1c, 0, 1⟩, ⟨3, 3, .w1c, 0, 1⟩, ⟨4, 4, .w1c, 0, 1⟩, ⟨5, 5, .w1c, 0, 1⟩, ⟨6, 6, .w1c, 0, 1⟩, ⟨7, 7, .w1c, 0, 1⟩, ⟨8, 8, .w1c, 0, 1⟩]⟩,
   ⟨0x400010, [(128, 0x4000)], 0x3, 0x0, 0, 0x0, [⟨3, 0, .rw, 0, 7⟩]⟩,
   ⟨0x400014, [(128, 0x4000)], 0xff00, 0x1, 0, 0x0, [⟨15, 0, .rw, 0, 65535⟩]⟩,
   ⟨0x400018, [(128, 0x4000)], 0x0, 0x0, 0, 0x0, [⟨11, 0, .rw, 0, 4095⟩]⟩,
   ⟨0x40001c, [(128, 0x4000)], 0x0, 0x0, 0, 0x0, [⟨11, 0, .ro, 0, 4095⟩, ⟨29, 16, .ro, 0, 16383⟩]⟩]
def rowsPRT1 : List RegRow :=
  [⟨0x400020, [(128, 0x4000)], 0x0, 0x0, 0, 0x0, [⟨16, 0, .rw, 0, 131071⟩]⟩,
   ⟨0x400024, [(128, 0x4000)], 0x0, 0x0, 0, 0x0, [⟨16, 0, .rw, 0, 131071⟩]⟩,
   ⟨0x400028, [(128, 0x4000)], 0x0, 0x0, 0, 0x0, [⟨16, 0, .rw, 0, 131071⟩]⟩,
   ⟨0x40002c, [(128, 0x4000)], 0x0, 0x0, 0, 0x0, [⟨16, 0, .rw, 0, 131071⟩]⟩,
   ⟨0x400030, [(128, 0x4000)], 0x0, 0x0, 0, 0x0, [⟨16, 0, .rw, 0, 131071⟩]⟩,
   ⟨0x400034, [(128, 0x4000)], 0x0, 0x0, 0, 0x0, [⟨16, 0, .rw, 0, 131071⟩]⟩,
   ⟨0x400038, [(128, 0x4000)], 0x400, 0x0, 0, 0x0, [⟨16, 0, .rw, 0, 131071⟩]⟩,
   ⟨0x400040, [(128, 0x4000)], 0x0, 0x0, 0, 0x0, [⟨15, 0, .wo, 0, 65535⟩]⟩]
def rowsPRT2 : List RegRow :=
  [⟨0x400044, [(128, 0x4000)], 0x0, 0x0, 0, 0x0, [⟨15, 0, .ro, 0, 65535⟩]⟩,
   ⟨0x400050, [(128, 0x4000)], 0x0, 0x0, 1, 0x0, [⟨31, 0, .ro, 0, 4294967295⟩]⟩,
   ⟨0x400054, [(128, 0x4000)], 0x0, 0x0, 2, 0x0, [⟨31, 0, .ro, 0, 4294967295⟩]⟩,
   ⟨0x400058, [(128, 0x4000)], 0x0, 0x0, 1, 0x0, [⟨31, 0, .ro, 0, 4294967295⟩]⟩,
   ⟨0x40005c, [(128, 0x4000)], 0x0, 0x0, 2, 0x0, [⟨31, 0, .ro, 0, 4294967295⟩]⟩,
   ⟨0x400060, [(128, 0x4000)], 0x0, 0x0, 0, 0x0, [⟨13, 0, .ro, 0, 16383⟩, ⟨31, 16, .ro, 0, 65535⟩]⟩,
   ⟨0x400100, [(128, 0x4000)], 0x0, 0x0, 0, 0x0, [⟨7, 1, .rw, 0, 255⟩, ⟨8, 8, .wo, 0, 1⟩, ⟨9, 9, .rw, 0, 1⟩, ⟨12, 10, .rw, 0, 4⟩]⟩,
   ⟨0x400104, [(128, 0x4000)], 0x0, 0x0, 0, 0x0, [⟨2, 0, .ro, 0, 7⟩, ⟨5, 3, .ro, 0, 7⟩, ⟨6, 6, .ro, 0, 1⟩, ⟨11, 7, .ro, 0, 31⟩, ⟨19, 12, .ro, 0, 255⟩, ⟨20, 20, .ro, 0, 1⟩, ⟨21, 21, .ro, 0, 1⟩]⟩]
def rowsPRT3 : List RegRow :=
  [⟨0x400108, [(128, 0x4000)], 0x0, 0x0, 0, 0x0, [⟨0, 0, .w1c, 0, 1⟩, ⟨1, 1, .w1c, 0, 1⟩, ⟨2, 2, .w1c, 0, 1⟩, ⟨3, 3, .w1c, 0, 1⟩, ⟨4, 4, .w1c, 0, 1⟩, ⟨5, 5, .w1c, 0, 1⟩, ⟨6, 6, .w1c, 0, 1⟩, ⟨7, 7, .w1c, 0, 1⟩, ⟨8, 8, .w1c, 0, 1⟩]⟩,
   ⟨0x40010c, [(128, 0x4000)], 0xa4000, 0x0, 0, 0x0, [⟨9, 0, .hook, 0, 1023⟩, ⟨15, 12, .rw, 1, 15⟩, ⟨23, 16, .rw, 1, 255⟩]⟩,
   ⟨0x400110, [(128, 0x4000)], 0x0, 0x0, 0, 0x0, [⟨15, 0, .ro, 0, 65535⟩, ⟨31, 16, .ro, 0, 65535⟩]⟩,
   ⟨0x400114, [(128, 0x4000)], 0x0, 0x0, 0, 0x0, [⟨19, 0, .ro, 0, 1048575⟩]⟩,
   ⟨0x400118, [(128, 0x4000)], 0x0, 0x0, 0, 0x0, [⟨24, 0, .ro, 0, 33554431⟩, ⟨25, 25, .ro, 0, 1⟩]⟩,
   ⟨0x40011c, [(128, 0x4000)], 0x0, 0x0, 0, 0x0, [⟨11, 0, .ro, 0, 4095⟩, ⟨13, 12, .ro, 0, 3⟩]⟩,
   ⟨0x400120, [(128, 0x4000)], 0xffff0000, 0x0, 0, 0x0, [⟨7, 0, .ro, 0, 255⟩, ⟨15, 8, .ro, 0, 255⟩, ⟨23, 16, .ro, 0, 255⟩, ⟨31, 24, .ro, 0, 255⟩]⟩,
   ⟨0x400140, [(128, 0x4000), (8, 0x4)], 0x0, 0x0, 0, 0x0, [⟨16, 0, .rw, 0, 131071⟩]⟩]
def rowsPRT4 : List RegRow :=
  [⟨0x400160, [(128, 0x4000), (8, 0x4)], 0x0, 0x0, 0, 0x0, [⟨15, 0, .rw, 0, 65535⟩, ⟨31, 16, .rw, 0, 65535⟩]⟩]
/-- The registers of block PRT. -/
def rowsPRT : List RegRow := rowsPRT0 ++ rowsPRT1 ++ rowsPRT2 ++ rowsPRT3 ++ rowsPRT4
def rowsLQ0 : List RegRow :=
  [⟨0x600000, [(64, 0x1000)], 0x0, 0x0, 0, 0x0, [⟨0, 0, .ro, 0, 1⟩, ⟨1, 1, .ro, 0, 1⟩, ⟨5, 2, .ro, 0, 15⟩, ⟨6, 6, .ro, 0, 1⟩, ⟨7, 7, .ro, 0, 1⟩]⟩,
   ⟨0x600004, [(64, 0x1000)], 0x0, 0x0, 0, 0x0, [⟨0, 0, .w1c, 0, 1⟩, ⟨1, 1, .w1c, 0, 1⟩, ⟨2, 2, .w1c, 0, 1⟩, ⟨3, 3, .w1c, 0, 1⟩, ⟨31, 16, .ro, 0, 65535⟩]⟩,
   ⟨0x600010, [(64, 0x1000), (4, 0x4)], 0x0, 0x0, 0, 0x0, [⟨3, 0, .ro, 0, 15⟩, ⟨7, 4, .ro, 0, 15⟩, ⟨10, 8, .ro, 0, 7⟩]⟩]
/-- The registers of block LQ. -/
def rowsLQ : List RegRow := rowsLQ0
def rowsBCN0 : List RegRow :=
  [⟨0x700000, [], 0x0, 0x0, 0, 0x0, [⟨0, 0, .rwl, 0, 1⟩]⟩,
   ⟨0x700004, [], 0x0, 0x0, 0, 0x0, [⟨0, 0, .ro, 0, 1⟩, ⟨1, 1, .ro, 0, 1⟩, ⟨2, 2, .ro, 0, 1⟩, ⟨3, 3, .ro, 0, 1⟩, ⟨10, 4, .ro, 0, 127⟩]⟩,
   ⟨0x700008, [], 0x0, 0x0, 0, 0x0, [⟨31, 0, .ro, 0, 4294967295⟩]⟩,
   ⟨0x70000c, [], 0x0, 0x0, 0, 0x0, [⟨15, 0, .ro, 0, 65535⟩, ⟨31, 16, .ro, 0, 65535⟩]⟩,
   ⟨0x700010, [], 0x0, 0x0, 1, 0x0, [⟨31, 0, .ro, 0, 4294967295⟩]⟩,
   ⟨0x700014, [], 0x0, 0x0, 2, 0x0, [⟨31, 0, .ro, 0, 4294967295⟩]⟩,
   ⟨0x700018, [], 0x0, 0x0, 0, 0x0, [⟨15, 0, .clr, 0, 65535⟩, ⟨31, 16, .clr, 0, 65535⟩]⟩]
/-- The registers of block BCN. -/
def rowsBCN : List RegRow := rowsBCN0
def rowsKND0 : List RegRow :=
  [⟨0x800000, [], 0x0, 0x0, 0, 0x0, [⟨10, 0, .ro, 0, 2047⟩, ⟨22, 16, .ro, 0, 127⟩]⟩,
   ⟨0x800004, [], 0xa08, 0x0, 0, 0x0, [⟨3, 0, .rw, 1, 15⟩, ⟨15, 8, .rw, 0, 255⟩, ⟨31, 16, .ro, 0, 65535⟩]⟩,
   ⟨0x800008, [], 0x0, 0x0, 0, 0x0, [⟨0, 0, .w1c, 0, 1⟩, ⟨1, 1, .w1c, 0, 1⟩, ⟨2, 2, .w1c, 0, 1⟩, ⟨3, 3, .w1c, 0, 1⟩, ⟨4, 4, .w1c, 0, 1⟩, ⟨5, 5, .w1c, 0, 1⟩, ⟨6, 6, .w1c, 0, 1⟩, ⟨9, 8, .ro, 0, 3⟩, ⟨13, 10, .ro, 0, 15⟩, ⟨26, 14, .ro, 0, 8191⟩]⟩,
   ⟨0x80000c, [], 0xfe00, 0x0, 0, 0x0, [⟨15, 7, .rw, 0, 511⟩]⟩,
   ⟨0x800010, [], 0x0, 0x0, 0, 0x0, [⟨15, 0, .wo, 0, 65535⟩]⟩,
   ⟨0x800014, [], 0x0, 0x0, 0, 0x0, [⟨15, 0, .ro, 0, 65535⟩]⟩,
   ⟨0x800018, [], 0xfac688, 0x0, 0, 0x0, [⟨2, 0, .rw, 0, 7⟩, ⟨5, 3, .rw, 0, 7⟩, ⟨8, 6, .rw, 0, 7⟩, ⟨11, 9, .rw, 0, 7⟩, ⟨14, 12, .rw, 0, 7⟩, ⟨17, 15, .rw, 0, 7⟩, ⟨20, 18, .rw, 0, 7⟩, ⟨23, 21, .rw, 0, 7⟩]⟩,
   ⟨0x800020, [], 0x0, 0x0, 0, 0x0, [⟨15, 0, .wo, 0, 65535⟩]⟩]
def rowsKND1 : List RegRow :=
  [⟨0x800024, [], 0x0, 0x0, 0, 0x0, [⟨15, 0, .ro, 0, 65535⟩]⟩,
   ⟨0x800030, [], 0x0, 0x0, 0, 0x0, [⟨15, 0, .wo, 0, 65535⟩, ⟨21, 16, .wo, 0, 63⟩, ⟨22, 22, .wo, 0, 1⟩]⟩,
   ⟨0x800034, [], 0x0, 0x0, 0, 0x0, [⟨0, 0, .ro, 0, 1⟩, ⟨1, 1, .ro, 0, 1⟩, ⟨31, 16, .ro, 0, 65535⟩]⟩,
   ⟨0x800040, [], 0x0, 0x0, 0, 0x0, [⟨15, 0, .wo, 0, 65535⟩]⟩,
   ⟨0x800044, [], 0x0, 0x0, 0, 0x0, [⟨15, 0, .ro, 0, 65535⟩]⟩,
   ⟨0x801000, [(2048, 0x4)], 0x0, 0x0, 0, 0x0, [⟨6, 0, .rw, 0, 127⟩, ⟨14, 8, .rw, 0, 127⟩, ⟨22, 16, .rw, 0, 127⟩, ⟨30, 24, .rw, 0, 127⟩, ⟨7, 7, .rw, 0, 1⟩, ⟨15, 15, .rw, 0, 1⟩, ⟨23, 23, .rw, 0, 1⟩, ⟨31, 31, .rw, 0, 1⟩]⟩,
   ⟨0x803000, [(128, 0x4)], 0x0, 0x0, 0, 0x0, [⟨6, 0, .rw, 0, 127⟩, ⟨14, 8, .rw, 0, 127⟩, ⟨22, 16, .rw, 0, 127⟩, ⟨30, 24, .rw, 0, 127⟩, ⟨7, 7, .rw, 0, 1⟩, ⟨15, 15, .rw, 0, 1⟩, ⟨23, 23, .rw, 0, 1⟩, ⟨31, 31, .rw, 0, 1⟩]⟩,
   ⟨0x810000, [(8192, 0x20)], 0x0, 0x0, 1, 0x0, [⟨0, 0, .rw, 0, 1⟩, ⟨31, 12, .rw, 0, 1048575⟩]⟩]
def rowsKND2 : List RegRow :=
  [⟨0x810004, [(8192, 0x20)], 0x0, 0x0, 2, 0x0, [⟨31, 0, .rw, 0, 4294967295⟩]⟩,
   ⟨0x810008, [(8192, 0x20)], 0x0, 0x0, 0, 0x0, [⟨31, 0, .rw, 0, 4294967295⟩]⟩,
   ⟨0x81000c, [(8192, 0x20)], 0x0, 0x0, 0, 0x0, [⟨5, 0, .rw, 0, 63⟩, ⟨8, 6, .rw, 0, 7⟩, ⟨11, 9, .rw, 0, 7⟩, ⟨12, 12, .rw, 0, 1⟩]⟩,
   ⟨0x810010, [(8192, 0x20)], 0x0, 0x0, 1, 0x0, [⟨31, 12, .rw, 0, 1048575⟩]⟩,
   ⟨0x810014, [(8192, 0x20)], 0x0, 0x0, 2, 0x0, [⟨31, 0, .rw, 0, 4294967295⟩]⟩,
   ⟨0x810018, [(8192, 0x20)], 0x0, 0x0, 0, 0x0, [⟨24, 0, .rw, 0, 33554431⟩]⟩,
   ⟨0x880000, [(4096, 0x10), (4, 0x4)], 0x0, 0x0, 0, 0x0, [⟨31, 0, .rw, 0, 4294967295⟩]⟩,
   ⟨0x900000, [(64, 0x800)], 0x0, 0x0, 0, 0x0, [⟨10, 0, .rw, 0, 2047⟩, ⟨16, 16, .rw, 0, 1⟩]⟩]
def rowsKND3 : List RegRow :=
  [⟨0x900004, [(64, 0x800)], 0x0, 0x0, 0, 0x0, [⟨6, 0, .ro, 0, 127⟩, ⟨14, 8, .rw, 0, 127⟩, ⟨31, 16, .clr, 0, 65535⟩]⟩,
   ⟨0x900400, [(64, 0x800), (64, 0x10)], 0x0, 0x0, 0, 0x0, [⟨31, 0, .ro, 0, 4294967295⟩]⟩,
   ⟨0x900404, [(64, 0x800), (64, 0x10)], 0x0, 0x0, 0, 0x0, [⟨31, 0, .ro, 0, 4294967295⟩]⟩,
   ⟨0x900408, [(64, 0x800), (64, 0x10)], 0x0, 0x0, 0, 0x0, [⟨31, 0, .ro, 0, 4294967295⟩]⟩,
   ⟨0x90040c, [(64, 0x800), (64, 0x10)], 0x0, 0x0, 0, 0x0, [⟨31, 0, .ro, 0, 4294967295⟩]⟩]
/-- The registers of block KND. -/
def rowsKND : List RegRow := rowsKND0 ++ rowsKND1 ++ rowsKND2 ++ rowsKND3
def rowsMOR0 : List RegRow :=
  [⟨0xc00000, [], 0x11, 0x0, 0, 0x0, [⟨0, 0, .rwl, 0, 1⟩, ⟨4, 1, .rwl, 0, 8⟩]⟩,
   ⟨0xc00004, [], 0x1, 0x0, 0, 0x0, [⟨0, 0, .ro, 0, 1⟩, ⟨1, 1, .ro, 0, 1⟩, ⟨2, 2, .ro, 0, 1⟩, ⟨3, 3, .ro, 0, 1⟩, ⟨4, 4, .ro, 0, 1⟩, ⟨5, 5, .ro, 0, 1⟩]⟩,
   ⟨0xc00008, [], 0x0, 0x0, 0, 0x0, [⟨0, 0, .w1c, 0, 1⟩, ⟨1, 1, .w1c, 0, 1⟩, ⟨2, 2, .w1c, 0, 1⟩, ⟨3, 3, .w1c, 0, 1⟩, ⟨4, 4, .w1c, 0, 1⟩, ⟨5, 5, .w1c, 0, 1⟩]⟩,
   ⟨0xc0000c, [], 0x60014, 0x0, 0, 0x0, [⟨15, 0, .rw, 2, 50000⟩, ⟨18, 16, .rw, 0, 7⟩]⟩,
   ⟨0xc00010, [], 0x3e8, 0x0, 0, 0x0, [⟨15, 0, .rw, 1, 60000⟩]⟩,
   ⟨0xc00014, [], 0x3c4b, 0x0, 0, 0x0, [⟨6, 0, .hook, 0, 127⟩, ⟨14, 8, .hook, 0, 127⟩]⟩,
   ⟨0xc00018, [], 0x70a, 0x0, 0, 0x0, [⟨7, 0, .rw, 1, 255⟩, ⟨11, 8, .rw, 0, 10⟩]⟩,
   ⟨0xc0001c, [], 0x0, 0x0, 0, 0x0, [⟨20, 0, .ro, 0, 2097151⟩]⟩]
def rowsMOR1 : List RegRow :=
  [⟨0xc00020, [], 0x0, 0x0, 0, 0x0, [⟨18, 0, .ro, 0, 524287⟩]⟩,
   ⟨0xc00024, [], 0x0, 0x0, 0, 0x0, [⟨28, 0, .ro, 0, 536870911⟩]⟩,
   ⟨0xc00028, [], 0x0, 0x0, 0, 0x0, [⟨16, 0, .ro, 0, 131071⟩]⟩,
   ⟨0xc0002c, [], 0x0, 0x0, 0, 0x0, [⟨16, 0, .ro, 0, 131071⟩]⟩,
   ⟨0xc00030, [], 0x0, 0x0, 0, 0x0, [⟨24, 0, .ro, 0, 33554431⟩]⟩,
   ⟨0xc00040, [], 0x0, 0x0, 0, 0x0, [⟨24, 0, .ro, 0, 33554431⟩, ⟨27, 25, .ro, 0, 7⟩, ⟨31, 28, .ro, 0, 15⟩]⟩,
   ⟨0xc00044, [], 0x0, 0x0, 0, 0x0, [⟨24, 0, .ro, 0, 33554431⟩, ⟨31, 25, .ro, 0, 127⟩]⟩,
   ⟨0xc00048, [], 0x0, 0x0, 0, 0x0, [⟨15, 0, .clr, 0, 65535⟩, ⟨31, 16, .w1c, 0, 65535⟩]⟩]
def rowsMOR2 : List RegRow :=
  [⟨0xc00100, [(64, 0x4)], 0xff, 0x0, 0, 0x0, [⟨7, 0, .rw, 0, 255⟩]⟩]
/-- The registers of block MOR. -/
def rowsMOR : List RegRow := rowsMOR0 ++ rowsMOR1 ++ rowsMOR2
def rowsVSI0 : List RegRow :=
  [⟨0x1000000, [(64, 0x40000)], 0x0, 0x1, 0, 0x0, [⟨5, 0, .ro, 0, 63⟩, ⟨6, 6, .ro, 0, 1⟩, ⟨7, 7, .ro, 0, 1⟩, ⟨14, 8, .ro, 0, 127⟩, ⟨15, 15, .ro, 0, 1⟩, ⟨24, 16, .ro, 0, 511⟩]⟩,
   ⟨0x1000004, [(64, 0x40000)], 0x911, 0x0, 0, 0x0, [⟨0, 0, .rw, 0, 1⟩, ⟨5, 4, .rw, 0, 3⟩, ⟨11, 8, .rw, 0, 15⟩]⟩,
   ⟨0x1000008, [(64, 0x40000)], 0x2, 0x0, 0, 0x0, [⟨0, 0, .ro, 0, 1⟩, ⟨1, 1, .ro, 0, 1⟩, ⟨2, 2, .ro, 0, 1⟩, ⟨3, 3, .ro, 0, 1⟩, ⟨11, 4, .ro, 0, 255⟩, ⟨19, 12, .ro, 0, 255⟩]⟩,
   ⟨0x100000c, [(64, 0x40000)], 0x0, 0x0, 0, 0x0, [⟨0, 0, .w1c, 0, 1⟩, ⟨1, 1, .w1c, 0, 1⟩, ⟨2, 2, .w1c, 0, 1⟩, ⟨3, 3, .w1c, 0, 1⟩, ⟨4, 4, .w1c, 0, 1⟩, ⟨5, 5, .w1c, 0, 1⟩]⟩,
   ⟨0x1000100, [(64, 0x40000), (256, 0x4)], 0x0, 0x0, 0, 0x0, [⟨1, 0, .ro, 0, 3⟩, ⟨2, 2, .ro, 0, 1⟩, ⟨3, 3, .ro, 0, 1⟩, ⟨4, 4, .ro, 0, 1⟩, ⟨5, 5, .ro, 0, 1⟩, ⟨15, 8, .ro, 0, 255⟩, ⟨23, 16, .ro, 0, 255⟩, ⟨30, 24, .ro, 0, 127⟩]⟩]
/-- The registers of block VSI. -/
def rowsVSI : List RegRow := rowsVSI0
def rowsRLY0 : List RegRow :=
  [⟨0x2000000, [], 0xa, 0x0, 0, 0x0, [⟨7, 0, .rw, 1, 255⟩]⟩,
   ⟨0x2000004, [], 0x0, 0x0, 0, 0x0, [⟨14, 0, .ro, 0, 32767⟩, ⟨24, 16, .ro, 0, 511⟩]⟩,
   ⟨0x2000008, [], 0x0, 0x0, 0, 0x0, [⟨15, 0, .clr, 0, 65535⟩, ⟨31, 16, .clr, 0, 65535⟩]⟩,
   ⟨0x2000100, [(64, 0x4)], 0x2, 0x0, 0, 0x0, [⟨0, 0, .ro, 0, 1⟩, ⟨1, 1, .ro, 0, 1⟩, ⟨2, 2, .ro, 0, 1⟩]⟩,
   ⟨0x2100000, [(4096, 0x100)], 0x0, 0x0, 0, 0x0, [⟨2, 0, .wo, 0, 7⟩]⟩,
   ⟨0x2100004, [(4096, 0x100)], 0x0, 0x0, 0, 0x0, [⟨2, 0, .ro, 0, 7⟩, ⟨5, 3, .ro, 0, 7⟩, ⟨7, 6, .ro, 0, 3⟩, ⟨11, 8, .ro, 0, 15⟩, ⟨30, 16, .ro, 0, 32767⟩]⟩,
   ⟨0x2100008, [(4096, 0x100)], 0x10000, 0x0, 0, 0x0, [⟨5, 0, .ro, 0, 63⟩, ⟨8, 8, .rw, 0, 1⟩, ⟨9, 9, .rw, 0, 1⟩, ⟨23, 16, .rw, 0, 255⟩]⟩,
   ⟨0x210000c, [(4096, 0x100)], 0x0, 0x0, 0, 0x0, [⟨19, 0, .rw, 0, 1048575⟩]⟩]
def rowsRLY1 : List RegRow :=
  [⟨0x2100010, [(4096, 0x100)], 0x0, 0x0, 0, 0x0, [⟨15, 0, .rw, 0, 65535⟩]⟩,
   ⟨0x2100014, [(4096, 0x100)], 0x400606, 0x0, 0, 0x0, [⟨4, 0, .rw, 0, 31⟩, ⟨12, 8, .rw, 0, 31⟩, ⟨22, 16, .rw, 0, 127⟩]⟩,
   ⟨0x2100018, [(4096, 0x100)], 0x0, 0x0, 0, 0x0, [⟨15, 0, .ro, 0, 65535⟩]⟩,
   ⟨0x210001c, [(4096, 0x100)], 0x100, 0x0, 0, 0x0, [⟨8, 0, .rw, 0, 256⟩]⟩,
   ⟨0x2100020, [(4096, 0x100)], 0x0, 0x0, 1, 0x0, [⟨31, 12, .rw, 0, 1048575⟩]⟩,
   ⟨0x2100024, [(4096, 0x100)], 0x0, 0x0, 2, 0x0, [⟨31, 0, .rw, 0, 4294967295⟩]⟩,
   ⟨0x2100028, [(4096, 0x100)], 0x0, 0x0, 1, 0x0, [⟨31, 12, .rw, 0, 1048575⟩]⟩,
   ⟨0x210002c, [(4096, 0x100)], 0x0, 0x0, 2, 0x0, [⟨31, 0, .rw, 0, 4294967295⟩]⟩]
def rowsRLY2 : List RegRow :=
  [⟨0x2100040, [(4096, 0x100)], 0x0, 0x0, 1, 0x0, [⟨31, 0, .rw, 0, 4294967295⟩]⟩,
   ⟨0x2100044, [(4096, 0x100)], 0x0, 0x0, 2, 0x0, [⟨31, 0, .rw, 0, 4294967295⟩]⟩,
   ⟨0x2100050, [(4096, 0x100)], 0x0, 0x0, 1, 0x0, [⟨31, 12, .rw, 0, 1048575⟩]⟩,
   ⟨0x2100054, [(4096, 0x100)], 0x0, 0x0, 2, 0x0, [⟨31, 0, .rw, 0, 4294967295⟩]⟩,
   ⟨0x2100030, [(4096, 0x100)], 0x0, 0x0, 0, 0x0, [⟨31, 0, .ro, 0, 4294967295⟩]⟩,
   ⟨0x2100034, [(4096, 0x100)], 0x0, 0x0, 0, 0x0, [⟨31, 0, .ro, 0, 4294967295⟩]⟩,
   ⟨0x2100038, [(4096, 0x100)], 0x0, 0x0, 0, 0x0, [⟨31, 0, .ro, 0, 4294967295⟩]⟩,
   ⟨0x2100048, [(4096, 0x100)], 0x0, 0x0, 0, 0x0, [⟨31, 0, .rw, 0, 4294967295⟩]⟩]
def rowsRLY3 : List RegRow :=
  [⟨0x210004c, [(4096, 0x100)], 0x1, 0x0, 0, 0x0, [⟨0, 0, .rw, 0, 1⟩, ⟨1, 1, .ro, 0, 1⟩]⟩,
   ⟨0x2100058, [(4096, 0x100)], 0x40, 0x0, 0, 0x0, [⟨0, 0, .rw, 0, 1⟩, ⟨1, 1, .rw, 0, 1⟩, ⟨7, 4, .rw, 4, 12⟩, ⟨10, 8, .rw, 0, 4⟩]⟩,
   ⟨0x210005c, [(4096, 0x100)], 0x0, 0x0, 0, 0x0, [⟨31, 0, .rw, 0, 4294967295⟩]⟩,
   ⟨0x2100060, [(4096, 0x100)], 0x0, 0x0, 0, 0x0, [⟨15, 0, .rw, 0, 65535⟩]⟩,
   ⟨0x2100064, [(4096, 0x100)], 0x0, 0x0, 0, 0x0, [⟨0, 0, .w1c, 0, 1⟩, ⟨1, 1, .w1c, 0, 1⟩, ⟨2, 2, .w1c, 0, 1⟩, ⟨3, 3, .w1c, 0, 1⟩, ⟨4, 4, .w1c, 0, 1⟩, ⟨5, 5, .w1c, 0, 1⟩]⟩,
   ⟨0x2100068, [(4096, 0x100)], 0x0, 0x0, 1, 0x0, [⟨31, 0, .ro, 0, 4294967295⟩]⟩,
   ⟨0x210006c, [(4096, 0x100)], 0x0, 0x0, 2, 0x0, [⟨31, 0, .ro, 0, 4294967295⟩]⟩]
/-- The registers of block RLY. -/
def rowsRLY : List RegRow := rowsRLY0 ++ rowsRLY1 ++ rowsRLY2 ++ rowsRLY3
def rowsSEC0 : List RegRow :=
  [⟨0x3000000, [], 0x0, 0x0, 0, 0x0, [⟨0, 0, .w1c, 0, 1⟩, ⟨1, 1, .w1c, 0, 1⟩, ⟨2, 2, .w1c, 0, 1⟩, ⟨3, 3, .w1c, 0, 1⟩, ⟨4, 4, .w1c, 0, 1⟩, ⟨9, 8, .ro, 0, 3⟩, ⟨23, 12, .ro, 0, 4095⟩]⟩,
   ⟨0x3000004, [], 0x0, 0x0, 0, 0x0, [⟨15, 0, .wo, 0, 65535⟩]⟩,
   ⟨0x3000008, [], 0x0, 0x0, 0, 0x0, [⟨15, 0, .ro, 0, 65535⟩]⟩,
   ⟨0x300000c, [], 0x1, 0x0, 0, 0x0, [⟨0, 0, .ro, 0, 1⟩, ⟨31, 16, .ro, 0, 65535⟩]⟩,
   ⟨0x3000010, [], 0x0, 0x0, 0, 0x0, [⟨31, 0, .rw, 0, 4294967295⟩]⟩,
   ⟨0x3000014, [], 0x0, 0x0, 0, 0x0, [⟨31, 0, .rw, 0, 4294967295⟩]⟩,
   ⟨0x3000020, [], 0x0, 0x0, 1, 0x0, [⟨31, 0, .ro, 0, 4294967295⟩]⟩,
   ⟨0x3000024, [], 0x0, 0x0, 2, 0x0, [⟨31, 0, .ro, 0, 4294967295⟩]⟩]
def rowsSEC1 : List RegRow :=
  [⟨0x3000028, [], 0x0, 0x0, 0, 0x0, [⟨11, 0, .ro, 0, 4095⟩, ⟨12, 12, .ro, 0, 1⟩, ⟨18, 13, .ro, 0, 63⟩, ⟨21, 19, .ro, 0, 7⟩, ⟨22, 22, .ro, 0, 1⟩, ⟨23, 23, .ro, 0, 1⟩]⟩,
   ⟨0x3010000, [(4096, 0x20)], 0x0, 0x0, 1, 0x0, [⟨0, 0, .rw, 0, 1⟩, ⟨31, 12, .rw, 0, 1048575⟩]⟩,
   ⟨0x3010004, [(4096, 0x20)], 0x0, 0x0, 2, 0x0, [⟨31, 0, .rw, 0, 4294967295⟩]⟩,
   ⟨0x3010008, [(4096, 0x20)], 0x0, 0x0, 0, 0x0, [⟨31, 0, .rw, 0, 4294967295⟩]⟩,
   ⟨0x301000c, [(4096, 0x20)], 0x0, 0x0, 0, 0x0, [⟨1, 0, .rw, 0, 3⟩, ⟨31, 7, .rw, 0, 33554431⟩]⟩,
   ⟨0x3010010, [(4096, 0x20)], 0x0, 0x0, 0, 0x0, [⟨0, 0, .rw, 0, 1⟩, ⟨1, 1, .rw, 0, 1⟩, ⟨2, 2, .rw, 0, 1⟩, ⟨3, 3, .rw, 0, 1⟩, ⟨4, 4, .rw, 0, 1⟩, ⟨5, 5, .rw, 0, 1⟩, ⟨6, 6, .rw, 0, 1⟩, ⟨13, 8, .rw, 0, 63⟩, ⟨14, 14, .rw, 0, 1⟩, ⟨15, 15, .rw, 0, 1⟩]⟩,
   ⟨0x3010014, [(4096, 0x20)], 0x0, 0x0, 0, 0x0, [⟨19, 0, .rw, 0, 1048575⟩]⟩]
/-- The registers of block SEC. -/
def rowsSEC : List RegRow := rowsSEC0 ++ rowsSEC1
def rowsSCH0 : List RegRow :=
  [⟨0x3100000, [], 0x3, 0x0, 0, 0x0, [⟨0, 0, .rw, 0, 1⟩, ⟨1, 1, .rw, 0, 1⟩]⟩,
   ⟨0x3100004, [], 0x0, 0x0, 0, 0x0, [⟨0, 0, .w1c, 0, 1⟩, ⟨2, 1, .ro, 0, 3⟩, ⟨24, 8, .ro, 0, 131071⟩]⟩,
   ⟨0x3100008, [], 0x0, 0x0, 0, 0x0, [⟨15, 0, .wo, 0, 65535⟩]⟩,
   ⟨0x310000c, [], 0x0, 0x0, 0, 0x0, [⟨15, 0, .ro, 0, 65535⟩]⟩,
   ⟨0x3100010, [], 0xa0853, 0x0, 0, 0x0, [⟨3, 0, .rw, 1, 8⟩, ⟨7, 4, .rw, 1, 10⟩, ⟨15, 8, .rw, 1, 255⟩, ⟨22, 16, .rw, 1, 100⟩]⟩,
   ⟨0x3100014, [], 0x20, 0x0, 0, 0x0, [⟨7, 0, .rw, 0, 255⟩]⟩,
   ⟨0x3110000, [(128, 0x80)], 0x0, 0x0, 0, 0x0, [⟨7, 0, .rw, 0, 255⟩, ⟨15, 8, .rw, 0, 255⟩]⟩,
   ⟨0x3110004, [(128, 0x80)], 0x10101010, 0x0, 0, 0x0, [⟨7, 0, .rw, 0, 255⟩, ⟨15, 8, .rw, 0, 255⟩, ⟨23, 16, .rw, 0, 255⟩, ⟨31, 24, .rw, 0, 255⟩]⟩]
def rowsSCH1 : List RegRow :=
  [⟨0x3110008, [(128, 0x80)], 0x10101010, 0x0, 0, 0x0, [⟨7, 0, .rw, 0, 255⟩, ⟨15, 8, .rw, 0, 255⟩, ⟨23, 16, .rw, 0, 255⟩, ⟨31, 24, .rw, 0, 255⟩]⟩,
   ⟨0x3110040, [(128, 0x80), (8, 0x8)], 0x0, 0x0, 0, 0x0, [⟨19, 0, .rw, 0, 1048575⟩]⟩,
   ⟨0x3110044, [(128, 0x80), (8, 0x8)], 0x100, 0x0, 0, 0x0, [⟨15, 0, .rw, 0, 65535⟩]⟩,
   ⟨0x3120000, [(64, 0x80)], 0x10101010, 0x0, 0, 0x0, [⟨7, 0, .rw, 0, 255⟩, ⟨15, 8, .rw, 0, 255⟩, ⟨23, 16, .rw, 0, 255⟩, ⟨31, 24, .rw, 0, 255⟩]⟩,
   ⟨0x3120004, [(64, 0x80)], 0x10101010, 0x0, 0, 0x0, [⟨7, 0, .rw, 0, 255⟩, ⟨15, 8, .rw, 0, 255⟩, ⟨23, 16, .rw, 0, 255⟩, ⟨31, 24, .rw, 0, 255⟩]⟩,
   ⟨0x3120008, [(64, 0x80)], 0x0, 0x0, 0, 0x0, [⟨19, 0, .rw, 0, 1048575⟩]⟩,
   ⟨0x312000c, [(64, 0x80)], 0x100, 0x0, 0, 0x0, [⟨15, 0, .rw, 0, 65535⟩]⟩,
   ⟨0x3120010, [(64, 0x80)], 0x100, 0x0, 0, 0x0, [⟨15, 0, .rw, 0, 65535⟩]⟩]
def rowsSCH2 : List RegRow :=
  [⟨0x3120020, [(64, 0x80), (8, 0x4)], 0x0, 0x0, 0, 0x0, [⟨19, 0, .rw, 0, 1048575⟩]⟩,
   ⟨0x3120040, [(64, 0x80), (8, 0x4)], 0x0, 0x0, 0, 0x0, [⟨19, 0, .ro, 0, 1048575⟩]⟩,
   ⟨0x3140000, [(4096, 0x10)], 0x10, 0x0, 0, 0x0, [⟨7, 0, .rw, 0, 255⟩]⟩,
   ⟨0x3140004, [(4096, 0x10)], 0x0, 0x0, 0, 0x0, [⟨19, 0, .rw, 0, 1048575⟩]⟩,
   ⟨0x3140008, [(4096, 0x10)], 0x100, 0x0, 0, 0x0, [⟨15, 0, .rw, 0, 65535⟩]⟩,
   ⟨0x314000c, [(4096, 0x10)], 0x0, 0x0, 0, 0x0, [⟨19, 0, .ro, 0, 1048575⟩]⟩]
/-- The registers of block SCH. -/
def rowsSCH : List RegRow := rowsSCH0 ++ rowsSCH1 ++ rowsSCH2
def rowsTEL0 : List RegRow :=
  [⟨0x3200000, [], 0x0, 0x0, 0, 0x0, [⟨0, 0, .rw, 0, 1⟩, ⟨1, 1, .rw, 0, 1⟩]⟩,
   ⟨0x3200004, [], 0x3e8, 0x0, 0, 0x0, [⟨23, 0, .rw, 1, 16777215⟩]⟩,
   ⟨0x3200008, [], 0x7fffff, 0x0, 0, 0x0, [⟨15, 0, .rw, 0, 65535⟩, ⟨16, 16, .rw, 0, 1⟩, ⟨17, 17, .rw, 0, 1⟩, ⟨18, 18, .rw, 0, 1⟩, ⟨22, 19, .rw, 0, 15⟩]⟩,
   ⟨0x320000c, [], 0x0, 0x0, 0, 0x0, [⟨15, 0, .clr, 0, 65535⟩, ⟨16, 16, .w1c, 0, 1⟩, ⟨17, 17, .w1c, 0, 1⟩]⟩,
   ⟨0x3200010, [], 0x0, 0x0, 1, 0x0, [⟨31, 12, .rw, 0, 1048575⟩]⟩,
   ⟨0x3200014, [], 0x0, 0x0, 2, 0x0, [⟨31, 0, .rw, 0, 4294967295⟩]⟩,
   ⟨0x3200018, [], 0x1000004, 0x0, 0, 0x0, [⟨3, 0, .rw, 1, 12⟩, ⟨25, 16, .rw, 1, 1023⟩]⟩,
   ⟨0x320001c, [], 0x0, 0x0, 0, 0x0, [⟨31, 0, .ro, 0, 4294967295⟩]⟩]
def rowsTEL1 : List RegRow :=
  [⟨0x3200020, [], 0x0, 0x0, 0, 0x0, [⟨31, 0, .rw, 0, 4294967295⟩]⟩,
   ⟨0x3200024, [], 0x0, 0x0, 0, 0x0, [⟨0, 0, .wo, 0, 1⟩]⟩,
   ⟨0x3200030, [], 0x0, 0x0, 0, 0x0, [⟨2, 0, .rw, 0, 7⟩, ⟨19, 8, .rw, 0, 4095⟩, ⟨25, 20, .rw, 0, 63⟩]⟩,
   ⟨0x3200034, [], 0x0, 0x0, 1, 0x0, [⟨31, 0, .ro, 0, 4294967295⟩]⟩,
   ⟨0x3200038, [], 0x0, 0x0, 2, 0x0, [⟨31, 0, .ro, 0, 4294967295⟩]⟩,
   ⟨0x3200040, [], 0xffff0000, 0x0, 0, 0x0, [⟨4, 0, .rw, 0, 24⟩, ⟨31, 16, .rw, 0, 65535⟩]⟩,
   ⟨0x3200044, [], 0x0, 0x0, 0, 0x0, [⟨8, 0, .ro, 0, 511⟩, ⟨31, 16, .clr, 0, 65535⟩]⟩,
   ⟨0x3200048, [], 0x0, 0x0, 0, 0x0, [⟨0, 0, .wo, 0, 1⟩]⟩]
def rowsTEL2 : List RegRow :=
  [⟨0x3200060, [(8, 0x4)], 0x0, 0x0, 0, 0x0, [⟨31, 0, .ro, 0, 4294967295⟩]⟩]
/-- The registers of block TEL. -/
def rowsTEL : List RegRow := rowsTEL0 ++ rowsTEL1 ++ rowsTEL2
def rowsSAF0 : List RegRow :=
  [⟨0x3300000, [], 0x2, 0x0, 0, 0x80000000, [⟨0, 0, .rw, 0, 1⟩, ⟨1, 1, .rw, 0, 1⟩, ⟨31, 31, .set1, 0, 1⟩]⟩,
   ⟨0x3300004, [], 0x3, 0x0, 0, 0x0, [⟨0, 0, .ro, 0, 1⟩, ⟨1, 1, .ro, 0, 1⟩, ⟨2, 2, .ro, 0, 1⟩, ⟨3, 3, .ro, 0, 1⟩, ⟨4, 4, .ro, 0, 1⟩, ⟨5, 5, .ro, 0, 1⟩, ⟨15, 8, .ro, 0, 255⟩]⟩,
   ⟨0x3300008, [], 0x0, 0x0, 0, 0x0, [⟨0, 0, .w1c, 0, 1⟩, ⟨1, 1, .w1c, 0, 1⟩, ⟨2, 2, .w1c, 0, 1⟩, ⟨3, 3, .w1c, 0, 1⟩, ⟨4, 4, .w1c, 0, 1⟩, ⟨5, 5, .w1c, 0, 1⟩, ⟨6, 6, .w1c, 0, 1⟩, ⟨7, 7, .w1c, 0, 1⟩, ⟨8, 8, .w1c, 0, 1⟩, ⟨9, 9, .w1c, 0, 1⟩, ⟨10, 10, .w1c, 0, 1⟩, ⟨11, 11, .w1c, 0, 1⟩]⟩,
   ⟨0x330000c, [], 0x20, 0x0, 0, 0x0, [⟨7, 0, .ro, 0, 255⟩, ⟨15, 8, .ro, 0, 255⟩, ⟨31, 16, .ro, 0, 65535⟩]⟩,
   ⟨0x3300010, [], 0x0, 0x0, 0, 0x0, [⟨6, 0, .wo, 0, 127⟩, ⟨9, 8, .wo, 0, 3⟩]⟩,
   ⟨0x3300014, [], 0x0, 0x0, 0, 0x0, [⟨31, 0, .clr, 0, 4294967295⟩]⟩,
   ⟨0x3300018, [], 0x0, 0x0, 0, 0x0, [⟨15, 0, .ro, 0, 65535⟩, ⟨23, 16, .ro, 0, 255⟩, ⟨31, 24, .ro, 0, 255⟩]⟩,
   ⟨0x330001c, [], 0x0, 0x0, 0, 0x0, [⟨15, 0, .w1c, 0, 65535⟩, ⟨16, 16, .w1c, 0, 1⟩, ⟨17, 17, .w1c, 0, 1⟩, ⟨18, 18, .w1c, 0, 1⟩, ⟨19, 19, .w1c, 0, 1⟩, ⟨20, 20, .w1c, 0, 1⟩, ⟨21, 21, .w1c, 0, 1⟩, ⟨25, 22, .w1c, 0, 15⟩]⟩]
def rowsSAF1 : List RegRow :=
  [⟨0x3300040, [], 0x0, 0x0, 0, 0x0, [⟨3, 0, .rwl, 0, 15⟩, ⟨10, 4, .rwl, 0, 127⟩, ⟨31, 31, .wo, 0, 1⟩]⟩,
   ⟨0x3300020, [(4, 0x4)], 0x0, 0x0, 0, 0x0, [⟨31, 0, .ro, 0, 4294967295⟩]⟩,
   ⟨0x3300100, [(128, 0x4)], 0x0, 0x0, 0, 0x0, [⟨7, 0, .ro, 0, 255⟩, ⟨31, 8, .ro, 0, 16777215⟩]⟩]
/-- The registers of block SAF. -/
def rowsSAF : List RegRow := rowsSAF0 ++ rowsSAF1
def rowsMEM0 : List RegRow :=
  [⟨0x3400000, [], 0x0, 0x0, 0, 0x0, [⟨3, 0, .ro, 0, 15⟩, ⟨7, 4, .ro, 0, 15⟩, ⟨15, 8, .ro, 0, 255⟩]⟩]
/-- The registers of block MEM. -/
def rowsMEM : List RegRow := rowsMEM0

end RegTable

/-- The rows of the block that holds `off` (Table 20.1); reserved ranges hold none. -/
def rowsAt (off : Nat) : List RegRow :=
  if 0x0 ≤ off ∧ off < 0x10000 then RegTable.rowsGLB else
  if 0x10000 ≤ off ∧ off < 0x20000 then RegTable.rowsCLK else
  if 0x20000 ≤ off ∧ off < 0x40000 then RegTable.rowsPWE else
  if 0x40000 ≤ off ∧ off < 0x80000 then RegTable.rowsKPR else
  if 0x80000 ≤ off ∧ off < 0x100000 then RegTable.rowsLOG else
  if 0x100000 ≤ off ∧ off < 0x200000 then RegTable.rowsTWR else
  if 0x200000 ≤ off ∧ off < 0x300000 then RegTable.rowsSTN else
  if 0x400000 ≤ off ∧ off < 0x600000 then RegTable.rowsPRT else
  if 0x600000 ≤ off ∧ off < 0x640000 then RegTable.rowsLQ else
  if 0x700000 ≤ off ∧ off < 0x800000 then RegTable.rowsBCN else
  if 0x800000 ≤ off ∧ off < 0xc00000 then RegTable.rowsKND else
  if 0xc00000 ≤ off ∧ off < 0x1000000 then RegTable.rowsMOR else
  if 0x1000000 ≤ off ∧ off < 0x2000000 then RegTable.rowsVSI else
  if 0x2000000 ≤ off ∧ off < 0x3000000 then RegTable.rowsRLY else
  if 0x3000000 ≤ off ∧ off < 0x3100000 then RegTable.rowsSEC else
  if 0x3100000 ≤ off ∧ off < 0x3200000 then RegTable.rowsSCH else
  if 0x3200000 ≤ off ∧ off < 0x3300000 then RegTable.rowsTEL else
  if 0x3300000 ≤ off ∧ off < 0x3400000 then RegTable.rowsSAF else
  if 0x3400000 ≤ off ∧ off < 0x3500000 then RegTable.rowsMEM else
  []


/-- The indices of `r` (a distance from the first instance) under the counts and strides `dims`, or none when `r` falls
between instances. -/
def dimIndices : List (Nat × Nat) → Nat → Option (List Nat)
  | [], r => if r = 0 then some [] else none
  | (n, st) :: ds, r =>
    if r / st < n then (dimIndices ds (r % st)).map (r / st :: ·) else none

/-- The register that lies at `off`, with its indices. -/
def findRow : List RegRow → Nat → Option (RegRow × List Nat)
  | [], _ => none
  | row :: rest, off =>
    if row.base ≤ off then
      match dimIndices row.dims (off - row.base) with
      | some ix => some (row, ix)
      | none => findRow rest off
    else findRow rest off

/-- The register at a BAR0 offset, or none where Table 20.1 and the owning chapter define none (R513). -/
def regAt (off : Nat) : Option (RegRow × List Nat) := findRow (rowsAt off) off

/-- The reset word of a row at its indices. -/
def RegRow.resetWord (row : RegRow) (ix : List Nat) : Word :=
  BitVec.ofNat 32 (row.reset + ix.headD 0 * row.idxMul)

/-- The word a register holds at reset; an offset that holds no register reads 0 (R513). -/
def resetWordAt (off : Nat) : Word :=
  match regAt off with
  | some (row, ix) => row.resetWord ix
  | none => 0

end Sys2Proof.Machine
end

