-- ==== Sys2Proof/Machine/Flags.lean ====
section
/-!
DEFINITION. The arithmetic that the rules share: bit fields of a register word, sparse tables in one canonical form, the
CRC-16 and CRC-8 of R535, the modular comparisons of R136, R206 and R315, and the saturating counts of the event
registers.
-/
namespace Sys2Proof.Machine

/-! ## Bit fields -/

/-- The mask of a field. -/
def fldMask (f : Fld) : Nat := (2 ^ (f.hi + 1 - f.lo) - 1) * 2 ^ f.lo

/-- The value of a field of a word. -/
def getF (w : Word) (f : Fld) : Nat := w.toNat / 2 ^ f.lo % 2 ^ (f.hi + 1 - f.lo)

/-- A word with one field set; bits of the value beyond the field are dropped. -/
def setF (w : Word) (f : Fld) (v : Nat) : Word :=
  (w &&& ~~~(BitVec.ofNat 32 (fldMask f))) |||
    BitVec.ofNat 32 (v % 2 ^ (f.hi + 1 - f.lo) * 2 ^ f.lo)

/-- The largest value a field holds, where a saturating count stops. -/
def fldMax (f : Fld) : Nat := 2 ^ (f.hi + 1 - f.lo) - 1

/-- Bit `i` of a natural number. -/
def bitOf (n i : Nat) : Bool := n / 2 ^ i % 2 == 1

/-- 1 for true, 0 for false. -/
def b2n (b : Bool) : Nat := if b then 1 else 0

/-- The bits of `n` from position 0 to `k - 1` that are set, in rising order. -/
def bitsSet (n k : Nat) : List Nat := (List.range k).filter (bitOf n)

/-- Bytes of a number, least significant first. -/
def leBytes : Nat → Nat → List Nat
  | 0, _ => []
  | k + 1, n => n % 256 :: leBytes k (n / 256)

/-- The quotient rounded up. -/
def ceilDiv (a b : Nat) : Nat := (a + b - 1) / b

/-! ## Sparse tables

A table is a list of (key, value) pairs, keys strictly rising, no value equal to what an unlisted key reads as: equal
tables are equal lists. -/

abbrev SMap (α : Type) := List (Nat × α)

namespace SMap
variable {α : Type}

/-- What key `k` holds; `d` is what an unlisted key reads as. -/
def get (m : SMap α) (k : Nat) (d : α) : α :=
  match m.find? (fun e => e.1 == k) with
  | some e => e.2
  | none => d

/-- Put a pair into a list of pairs at its place by key. -/
def insert (k : Nat) (v : α) : SMap α → SMap α
  | [] => [(k, v)]
  | e :: m => if k < e.1 then (k, v) :: e :: m else e :: insert k v m

/-- The table without key `k`. -/
def erase (m : SMap α) (k : Nat) : SMap α := m.filter (fun e => e.1 != k)

/-- Write `v` at `k`. Writing what an unlisted key reads as removes the entry, so the form stays canonical. -/
def set [DecidableEq α] (m : SMap α) (k : Nat) (v d : α) : SMap α :=
  if v = d then m.erase k else insert k v (m.erase k)

/-- The keys rise strictly. -/
def sorted : SMap α → Bool
  | [] => true
  | [_] => true
  | e :: e' :: m => decide (e.1 < e'.1) && sorted (e' :: m)

/-- The canonical form: keys strictly rising, no entry equal to what an unlisted key reads as (`d` may depend on it). -/
def canonical [DecidableEq α] (m : SMap α) (d : Nat → α) : Bool :=
  sorted m && m.all (fun e => decide (e.2 ≠ d e.1))

end SMap

/-! ## CRCs (R535) -/

/-- One message bit into a CRC-16 register, polynomial 0x1021: the bit is XORed with register bit 15, the register shifts
left by one place, and when that XOR gave 1 the register is XORed with 0x1021. -/
def crc16Bit (r : BitVec 16) (b : Bool) : BitVec 16 :=
  let top := r.getLsbD 15 != b
  if top then (r <<< 1) ^^^ 0x1021 else r <<< 1

/-- The bits of a byte, most significant first. -/
def bitsMsb (b : Nat) : List Bool := [7, 6, 5, 4, 3, 2, 1, 0].map (bitOf b)

/-- CRC-16 over bytes, each most significant bit first (R535). -/
def crc16 (seed : Nat) (bytes : List Nat) : Nat :=
  ((bytes.flatMap bitsMsb).foldl crc16Bit (BitVec.ofNat 16 seed)).toNat

/-- One bit into a CRC-8 register, polynomial 0x07. -/
def crc8Bit (r : BitVec 8) (b : Bool) : BitVec 8 :=
  let top := r.getLsbD 7 != b
  if top then (r <<< 1) ^^^ 0x07 else r <<< 1

/-- CRC-8 with seed 0 over the bits of `v` from `hi` down to `lo` (R535). -/
def crc8 (v hi lo : Nat) : Nat :=
  (((List.range (hi + 1 - lo)).map (fun i => bitOf v (hi - i))).foldl crc8Bit 0).toNat

/-- The route hash of R176: the CRC-16 of R535, seeded with HASH_SEED, over the 56-bit value M whose bits [24:0], [49:25]
and [52:50] are DEST_FA, SRC_FA and TC, the bits of M fed in rising order. -/
def routeHash (seed destFa srcFa tc : Nat) : Nat :=
  let m := destFa % 2 ^ 25 + srcFa % 2 ^ 25 * 2 ^ 25 + tc % 8 * 2 ^ 50
  (((List.range 56).map (bitOf m)).foldl crc16Bit (BitVec.ofNat 16 seed)).toNat

/-! ## Modular order -/

/-- `(n - e) mod m`. -/
def modSub (m n e : Nat) : Nat := (n % m + m - e % m) % m

/-- `n` is ahead of `e` modulo 65,536 (R136, R206). -/
def ahead16 (n e : Nat) : Bool := let d := modSub 65536 n e; decide (1 ≤ d ∧ d ≤ 32767)

/-- `n` is behind `e` modulo 65,536 (R136, R206). -/
def behind16 (n e : Nat) : Bool := decide (32768 ≤ modSub 65536 n e)

/-- Epoch `e'` is newer than `e` modulo 256 (R206). -/
def epochNewer (e' e : Nat) : Bool := let d := modSub 256 e' e; decide (1 ≤ d ∧ d ≤ 127)

/-- Epoch `e'` is older than `e` modulo 256 (R206). -/
def epochOlder (e' e : Nat) : Bool := decide (128 ≤ modSub 256 e' e)

/-- Finish tag `a` is before `b` modulo 2^32 (R315). -/
def tagBefore (a b : Nat) : Bool := let d := modSub (2 ^ 32) b a; decide (1 ≤ d ∧ d ≤ 2 ^ 31 - 1)

/-- Window generation `w` is older than `g` (R197). -/
def genOlder (w g : Nat) : Bool := let d := modSub 65536 g w; decide (1 ≤ d ∧ d ≤ 32767)

/-! ## Fabric Addresses (R11) -/

def faReach (fa : Nat) : Nat := fa / 16384 % 2048
def faModule (fa : Nat) : Nat := fa / 128 % 128
def faPort (fa : Nat) : Nat := fa % 128
def mkFa (reach mod port : Nat) : Nat := reach * 16384 + mod * 128 + port

/-- The station of a port, and the port's local index there (R10). -/
def portStation (p : Nat) : Nat := p / 8
def portLocal (p : Nat) : Nat := p % 8

/-- The table entry `i` of a list of naturals, 0 beyond its end. -/
def nth (l : List Nat) (i : Nat) : Nat := l.getD i 0

/-- A list with entry `i` replaced; unchanged beyond its end. -/
def setNth (l : List Nat) (i v : Nat) : List Nat := l.set i v

/-- The first element that satisfies `p`, and the list without it. -/
def takeFirst {α : Type} (p : α → Bool) : List α → Option (α × List α)
  | [] => none
  | a :: l => if p a then some (a, l) else (takeFirst p l).map (fun r => (r.1, a :: r.2))

/-- Replace every element that satisfies `p`. -/
def mapIf {α : Type} (p : α → Bool) (f : α → α) (l : List α) : List α := l.map (fun a => if p a then f a else a)

end Sys2Proof.Machine
end

