-- ==== Sys2Proof/Machine/State.lean ====
section
/-!
DEFINITION. The state of the G9256 as plain data: the register file, the committed tables, and every queue, buffer, table
and counter that the chapters of the specification give the module. `State` holds the part that commands change at will
(`Chip`), the flash (`flash`), and the queue of waiting commands (`pending`).
-/
namespace Sys2Proof.Machine

/-! ## Why a step can stop -/

/-- The named faults. -/
inductive Fault where
  /-- Raised by THERMAL_SAMPLE, THERMAL_FOG and OV_TRIP when the operand lies beyond an absolute maximum rating of
  Table 21.1: R521 gives no behaviour there ("Stresses beyond Table 21.1 may damage the module. After such a stress, no
  labelled statement of this manual is assured to hold for that module."). Safe: the model stops where the hardware may be
  damaged. -/
  | beyondAbsoluteMaximum
  deriving DecidableEq, Repr

/-- The named refusals. -/
inductive Refusal where
  /-- Raised only by an arm of `exec` that has no meaning yet. Safe: nothing is claimed of the command. -/
  | notModelled (mnemonic : String)
  deriving DecidableEq, Repr

/-! ## The port map and the Light List (chapter 14) -/

/-- One PORTMAP entry (Table 14.6). `width` is the code of PRT_ID.CFG_WIDTH. -/
structure PortCfg where
  index : Nat := 0
  present : Bool := false
  width : Nat := 0
  up : Bool := false
  offset : Nat := 0
  maxRate : Nat := 0
  sris : Bool := false
  kaund : Bool := false
  facing : Bool := false
  noEq : Bool := false
  clkOut : Bool := false
  vcEn : Nat := 0
  vsi : Nat := 0
  vsiSet : Bool := false
  /-- every bit that Table 14.6 reserves is 0 -/
  clean : Bool := true
  deriving DecidableEq, Repr

/-- One LANE_EQ entry (R401). -/
structure LaneCfg where
  presets : List Nat := [0, 0, 0, 0, 0]
  ctle : Nat := 0
  taps : List Int := []
  clean : Bool := true
  deriving DecidableEq, Repr

/-- A Light List as the Keeper takes it (R399 to R405). -/
structure LightList where
  serial : Nat := 0
  /-- LL_LEN, and the bytes of the image as the Keeper took it (R406, R407) -/
  len : Nat := 0
  image : List Byte := []
  slot : Nat := 0
  ports : List PortCfg := []
  lanes : List LaneCfg := []
  beacon : List Nat := []
  masterCand : Bool := false
  reach : Nat := 0
  module : Nat := 0
  manager : Nat := 0
  seed : Nat := 0
  vbrCounts : List Nat := []
  bindings : List (Nat × Nat × Nat) := []
  cal : List (Nat × Nat × Int) := []
  breaker : List (Nat × Nat) := []
  retryCount : Nat := 0
  retryDelay : Nat := 1
  warnA : Nat := 0
  warnB : Nat := 0
  digest : List Nat := []
  deriving DecidableEq, Repr

/-! ## Stations and the Tower (chapters 2, 10) -/

/-- An order-stream position: the key of the stream at the egress edge and the frame's N (R214, R216). -/
structure Rel where
  srcFa : Nat
  tc : Nat
  port : Nat
  epoch : Nat
  n : Nat
  deriving DecidableEq, Repr

/-- Where a restored completion of an entry goes: RETURN of Table 3.4. -/
inductive Ret where
  | local (st src inPort : Nat)
  | fabric (srcFa tc epoch n srcVsi : Nat) (guarded : Bool)
  /-- the module itself, for a function binding: the probe of R254 or the FLR write of Table 8.8 -/
  | own (v vbr devfn : Nat)
  deriving DecidableEq, Repr

/-- A packet of the core (R36). `kh` is present for a Kaund frame (FORMAT 1). -/
structure Pkt where
  uid : Nat := 0
  st : Nat := 0
  src : Nat := 0
  inPort : Nat := 0
  tlp : Tlp := {}
  kh : Option KHdr := none
  egPort : Nat := 0
  mc : Option Nat := none
  cut : Bool := false
  guarded : Bool := false
  marked : Bool := false
  noticeFa : Nat := 0
  egVc : Nat := 0
  /-- IH_CRC as the lookup wrote it (R36) -/
  ihCrc : Nat := 0
  /-- VSI of the sub-queue (Table 10.1) -/
  vsi : Nat := 0
  /-- VSI that the packet acts for -/
  actVsi : Nat := 0
  /-- window generation of the lookup (R196), also for a window that stays in the module -/
  wgen : Option Nat := none
  /-- sector generation the access was checked under (R341); none where nothing is checked (R335) -/
  secGen : Option Nat := none
  /-- the verdict's lookup took a PCIe multicast port exclusion or a span arrival exclusion (R58, R181) -/
  exclude : List Nat := []
  /-- the station mask of a multicast packet, as its lookup read it (R77) -/
  fan : List Nat := []
  /-- bytes of the packet that have arrived, and whether its last flit has passed its check -/
  got : Nat := 0
  whole : Bool := true
  /-- bytes staged so far, IH and padding included -/
  staged : Nat := 0
  /-- a cut TLP of more than one piece is never cut through (R66) -/
  multi : Bool := false
  /-- a later flit of it failed its check, or its transmitter nullified it: it closes with NULL = 1 (R40, R67) -/
  nulled : Bool := false
  /-- receive-pool bytes it still covers: header and data credits, or the VC part of a span port -/
  poolH : Nat := 0
  poolD : Nat := 0
  poolVc : Option (Nat × Nat) := none
  /-- its custody copy -/
  copy : Option Nat := none
  /-- its released position, and what discharges it -/
  rel : Option Rel := none
  /-- the cut read it belongs to, and its piece -/
  piece : Option (Nat × Nat) := none
  /-- the Relay operation it carries -/
  relay : Option Nat := none
  /-- the function binding for which the module itself sends it -/
  own : Option (Nat × Nat × Nat) := none
  /-- the ID, in the numbering of its host, of the function that a forwarded configuration request goes to (R251) -/
  hostId : Option Nat := none
  /-- MAP_RID and MAP_TAG already written (a replayed non-posted copy keeps them, R224) -/
  mapped : Option (Nat × Nat) := none
  /-- the requester port whose reserved completion room it is covered by, and the cells of it still reserved (R191) -/
  sink : Option (Nat × Nat) := none
  /-- the module itself formed it at its port, as an answer or a completion: the port did not receive it -/
  made : Bool := false
  /-- a replayed copy: no policer, no new sequence number -/
  replay : Bool := false
  /-- the bound or ordinary window that its lookup hit -/
  win : Option Nat := none
  /-- the acknowledgement of its TLP that waits for HELD (R30): port, and the group of the TLP's pieces -/
  ack : Option (Nat × Nat) := none
  /-- a replayed copy's position, until it has been staged (R221): stream (SRC_FA, TC, DEST_FA) and N -/
  replayOf : Option (Nat × Nat × Nat × Nat) := none
  /-- time of arrival, for GUARD_RESIDENCE -/
  t0 : Nat := 0
  deriving DecidableEq, Repr

/-- The bytes of one packet in a cell: whose, how many, whether its IH starts here, whether it ends here. -/
structure CellSeg where
  uid : Nat
  bytes : Nat
  first : Bool
  last : Bool
  deriving DecidableEq, Repr

/-- A cell (Table 2.3): what the tag says, and the bytes by packet. -/
structure Cell where
  st : Nat := 0
  src : Nat := 0
  null : Bool := false
  mc : Bool := false
  segs : List CellSeg := []
  deriving DecidableEq, Repr

/-- A cell waiting in a VOQ (`q` 0–15) or in the multicast queue (`q` 16) of station `st`; `mask` is the remaining station
mask of a multicast cell (R59). -/
structure QCell where
  st : Nat
  q : Nat
  mask : List Nat := []
  cell : Cell
  deriving DecidableEq, Repr

/-- A match for the coming CT: plane, input, output, and whether it is a multicast turn. -/
structure Match where
  plane : Nat
  inp : Nat
  out : Nat
  mc : Bool
  deriving DecidableEq, Repr

/-- A cell that has left its input and not yet arrived (R56). -/
structure Transit where
  out : Nat
  mc : Bool
  cell : Cell
  deriving DecidableEq, Repr

/-- A cell in an output buffer: the (packet, port) pairs that still hold it. Their number is the reference count. -/
structure ObCell where
  st : Nat
  segs : List CellSeg
  refs : List (Nat × Nat)
  deriving DecidableEq, Repr

/-- A packet enqueued on a port of its egress station (R61, R310). -/
structure ObEnt where
  uid : Nat
  port : Nat
  tc : Nat
  vsi : Nat
  order : Nat
  got : Nat := 0
  full : Bool := false
  null : Bool := false
  /-- transmission has begun; it ran dry and goes out again whole (R69) -/
  begun : Bool := false
  underrun : Bool := false
  marked : Bool := false
  deriving DecidableEq, Repr

/-- A TLP or frame whose flits are arriving, looked up as packet `uids` once its header is in (R66, R67). -/
structure Rx where
  port : Nat
  tlp : Tlp := {}
  frame : Option Frame := none
  vc : Nat := 0
  len : Nat := 0
  got : Nat := 0
  whole : Bool := false
  looked : Bool := false
  uids : List Nat := []
  /-- the TLP was found refused, nullified or answered: later bytes are dropped -/
  dead : Bool := false
  /-- header and data units of a PCIe TLP, or of pieces of it, that go no further: they return when it is whole (R83) -/
  back : Nat × Nat := (0, 0)
  /-- the link it came on has ended, and the credits it covers with it (R82, R83) -/
  stale : Bool := false
  t0 : Nat := 0
  deriving DecidableEq, Repr

/-- A WFQ queue's tag (R315): F, whether it is valid, when the queue emptied, whether it has a candidate. -/
structure WTag where
  f : Nat := 0
  valid : Bool := false
  emptied : Nat := 0
  has : Bool := false
  /-- its candidate is held (R316) -/
  held : Bool := false
  deriving DecidableEq, Repr

/-- Stations, cells, the Tower and the schedulers. -/
structure Sw where
  rx : List Rx := []
  pkts : List Pkt := []
  nextUid : Nat := 1
  nextOrder : Nat := 0
  /-- SRC_ID that each station served last (R24) -/
  lastSrc : SMap Nat := []
  announced : List QCell := []
  voq : List QCell := []
  matches_ : List Match := []
  /-- grant and accept pointers of planes 0 and 1, 16 each (R53) -/
  g0 : List Nat := []
  a0 : List Nat := []
  g1 : List Nat := []
  a1 : List Nat := []
  /-- inputs whose next plane-0 turn is the multicast queue's (R59) -/
  mcTurn : List Nat := []
  transit : List Transit := []
  obCells : List ObCell := []
  obq : List ObEnt := []
  /-- credits the link partner has left for posted, non-posted and completion headers and data, per PCIe port -/
  txCredit : SMap (List Nat) := []
  /-- reserved completion cells by requester port (R191) -/
  sinkRsv : SMap Nat := []
  npWait : List (Nat × Nat) := []
  /-- tenths of a cell that a station has ingested ahead of its clock (R76) -/
  ingest : SMap Nat := []
  /-- time of the last notice by (NOTICE_FA, TC, egress port) (R73) -/
  noticeAt : List (Nat × Nat × Nat × Nat) := []
  /-- virtual times and tags: keys in Ops -/
  wfqV : SMap Nat := []
  wfqTag : SMap WTag := []
  /-- token buckets, in thousandths of a byte; an unlisted bucket is full (R320) -/
  tokens : SMap Int := []
  /-- by the key of a bucket whose committed rate has changed since the last refill: the rate still in force (R318) -/
  oldRate : List (Nat × Nat) := []
  lastDec : SMap Nat := []
  deriving DecidableEq, Repr

/-! ## PCI Express ports (chapter 3) -/

/-- An Outstanding Request Table entry (Table 3.4), with what the rules add: the custody copy of its request, the cut read
it is a piece of, the Relay operation, the completion room reserved at the requester's port (R191), and the state of its
SECDED code. -/
structure OrtEnt where
  port : Nat
  mapRid : Nat := 0
  mapTag : Nat := 0
  origRid : Nat := 0
  origTag : Nat := 0
  ret : Ret := .local 0 0 0
  vsi : Nat := 0
  addr : Nat := 0
  remain : Nat := 0
  tc : Nat := 0
  attr : Nat := 0
  kind : TlpKind := .mrd
  tIssue : Nat := 0
  rsvH : Nat := 0
  rsvD : Nat := 0
  tee : Bool := false
  /-- a zero-length read (R536) -/
  zero : Bool := false
  copy : Option Nat := none
  piece : Option (Nat × Nat) := none
  relay : Option Nat := none
  /-- target ID of a configuration request; the FA that its frame goes to -/
  dest : Nat := 0
  destFa : Option Nat := none
  sinkPort : Option Nat := none
  sinkCells : Nat := 0
  rel : Option Rel := none
  /-- the completer ID that its completions take, where its request was forwarded from a host's configuration (R251) -/
  hostId : Option Nat := none
  /-- R92 answers it with this status once every completion of it that has passed its check has counted (R94) -/
  ansDue : Option Nat := none
  /-- its SECDED code: 0 good, 1 a single-bit error, 2 an uncorrectable one, not yet met (R91, R359) -/
  ecc : Nat := 0
  deriving DecidableEq, Repr

/-- A tag in quarantine (R93): what a late completion of it loads, and when it ends. -/
structure Quar where
  port : Nat
  tag : Nat
  rid : Nat
  addr : Nat
  fin : Nat
  deriving DecidableEq, Repr

/-- A read cut under R186: its requester, its whole length and first address, its pieces, those that have completed, and the
piece at which it ends early with a status (R187, R336). -/
structure CutRead where
  id : Nat
  rid : Nat
  tag : Nat
  total : Nat
  addr0 : Nat
  pieces : Nat
  done : List Nat := []
  stop : Option (Nat × Nat) := none
  deriving DecidableEq, Repr

/-- A TLP transmitted on a PCIe port and not yet acknowledged by the link partner (R216). -/
structure Unacked where
  port : Nat
  uid : Nat
  rel : Option Rel
  otype : Nat := 0
  srcVsi : Nat := 0
  addr : Nat := 0
  bytes : Nat := 0
  deriving DecidableEq, Repr

/-- PCIe port state beyond the registers. -/
structure Pci where
  ort : List OrtEnt := []
  quar : List Quar := []
  cuts : List CutRead := []
  nextCut : Nat := 0
  unacked : List Unacked := []
  /-- ORT_RID in force per port (R87) -/
  ridInForce : SMap Nat := []
  /-- receive credits advertised per port: the six POOL values at its last DL_Up (R82) -/
  adv : SMap (List Nat) := []
  /-- receive-pool header and data units in use per port and type: key port·8 + type -/
  poolUse : SMap Nat := []
  /-- pieces of guarded TLPs whose acknowledgement waits for HELD (R30): port, group -/
  ackWait : List (Nat × Nat) := []
  /-- cable sites: PRSNT_N level low (present), and what the cable's identity memory gives a read, none where the read fails -/
  prsnt : List Nat := []
  cableId : SMap (Option (List Nat)) := []
  cableBad : List Nat := []
  /-- ports whose PHY is in L0 as PCIe; results of joint training that wait for the other x2 port of the quad; ports that
  left joint training (R113) -/
  phyUp : List Nat := []
  joint : List (Nat × TrainResult) := []
  jointLeft : List Nat := []
  /-- the physical lane of each logical lane in use, by port (R112) -/
  laneMap : SMap (List Nat) := []
  /-- PERST_N driven low per downstream port by the module for a station reset or module reset (R101) -/
  perstHeld : List Nat := []
  /-- cable sites at which PERST_N is received low (R468) -/
  perstIn : List Nat := []
  /-- ports whose last DPC trigger came from software (R99) -/
  dpcSoft : List Nat := []
  deriving DecidableEq, Repr

/-! ## Kaund span links (chapter 5) -/

/-- A frame in a span port's link layer, not yet wholly in flits. `uid` names its packet while the output buffer has not
handed it over in full; `sent` counts its delimiter and its bytes. -/
structure OutFrame where
  uid : Option Nat := none
  frame : Frame
  vc : Nat
  otype : Nat
  len : Nat
  sent : Nat := 0
  deriving DecidableEq, Repr

/-- A message queued for a span port's signal slots: its slots, whether it is a NOTICE, and what its log record names: the
address for a FAR_ERR (R160). -/
structure SigEnt where
  /-- some of its slots have left -/
  mid : Bool := false
  slots : List Slot
  notice : Bool
  destFa : Nat
  originFa : Nat
  far : Option Nat := none
  deriving DecidableEq, Repr

/-- The link layer of one span port (R136 to R167). -/
structure Span where
  port : Nat
  txSeq : Nat := 0
  lastAck : Nat := 0xFFFF
  replay : List Flit := []
  /-- FLIT_SEQs still to be resent, oldest first -/
  resend : List Nat := []
  replayFrom : Nat := 0
  replayCount : Nat := 0
  /-- a replay is called for and none of its flits has been sent yet (R144) -/
  replayNew : Bool := false
  nakAt : Option (Nat × Nat) := none
  rxE : Nat := 0
  nakPend : Bool := false
  fcSel : Bool := false
  everySecond : Bool := false
  out : List OutFrame := []
  nullNext : Bool := false
  /-- occupancies O_P, O_C, O_N of VC v at 3v, 3v + 1, 3v + 2 -/
  occ : List Nat := []
  /-- Q_P of each VC as KINIT computed it, and Q_N, Q_C, H in force -/
  qP : List Nat := []
  qN : List Nat := []
  qC : List Nat := []
  head : Nat := 0
  stale : Bool := false
  /-- KINIT: consecutive good INIT flits with PEER_SEEN, INIT flits sent with PEER_SEEN, PEER_SEEN set -/
  initGood : Nat := 0
  initSent : Nat := 0
  peerSeen : Bool := false
  echoes : List Nat := []
  echoGot : Nat := 0
  /-- an ECHO request to send, and the replies owed, oldest first (T_SEND, arrival) -/
  echoReq : Bool := false
  echoReplies : List (Nat × Nat) := []
  /-- a good SIGNAL or DATA flit has arrived since entry to UP (R163) -/
  gotFirst : Bool := false
  upSince : Nat := 0
  sigq : List SigEnt := []
  sigPart : List Slot := []
  /-- the last slot seen of a message whose loss is counted: the rest of its slots are not counted again (R158) -/
  lostTail : Option Slot := none
  /-- partner's offer -/
  peerVcEn : Nat := 0
  /-- VC_EN, and the buffers and quotas of each VC in bytes, as they stood when KINIT began (R145, R152) -/
  ownVcEn : Nat := 1
  kBuf : List Nat := []
  kQn : List Nat := []
  kQc : List Nat := []
  deriving DecidableEq, Repr

/-- Span link state: the link layers, whole signal messages received and not yet routed, FAR_ERR serial numbers. -/
structure Knd where
  spans : List Span := []
  sigRx : List (Nat × SigMsg) := []
  ser : SMap Nat := []
  /-- FAR_ERRs whose second copy is due: serial id, message -/
  farSecond : List (Nat × SigMsg) := []
  nextFar : Nat := 0
  /-- duplicate filters (R161): VSI, ORIGIN_FA, SER, address, time of expiry -/
  farFilter : List (Nat × Nat × Nat × Nat × Nat) := []
  /-- drain fence of R197: generation, VSI or none for ALL -/
  fence : Option (Nat × Option Nat) := none
  /-- messages of this module that wait for room in a signal queue (R160) -/
  sigWait : List SigMsg := []
  /-- messages whose DEST_FA is this module, not yet acted upon (R158) -/
  delivered : List SigMsg := []
  deriving DecidableEq, Repr

/-! ## Mooring (chapter 7) -/

/-- The states of Table 7.2 that hold storage. -/
inductive CopySt where
  | filling | held | spilled
  deriving DecidableEq, Repr

/-- A custody copy. `castDone` and `failDone`: its stream was cast off, or failed, while it was FILLING (R209, R226). -/
structure Copy where
  id : Nat
  srcFa : Nat
  tc : Nat
  destFa : Nat
  epoch : Nat
  n : Nat
  state : CopySt := .filling
  pkt : Pkt := {}
  gran : Nat := 0
  castDone : Bool := false
  failDone : Bool := false
  /-- a SPILLED copy has been read back for its replay (R213) -/
  ready : Bool := false
  /-- its request took an ORT entry (Table 7.6) -/
  entry : Bool := false
  /-- order of allocation -/
  age : Nat := 0
  deriving DecidableEq, Repr

/-- An active ingress context. -/
structure IStream where
  srcFa : Nat
  tc : Nat
  destFa : Nat
  epoch : Nat := 0
  next : Nat := 0
  low : Nat := 0
  alt : Nat := 0
  lastPort : Option Nat := none
  /-- exponent of the custody timer's back-off -/
  expo : Nat := 0
  refused : Bool := false
  refuseExp : Nat := 0
  /-- positions still to be staged by the replay in progress -/
  replaying : List Nat := []
  /-- the stream failed; its next frame opens the next epoch, not before this time -/
  failed : Bool := false
  gapEnd : Nat := 0
  /-- the SECDED code of its metadata, as in `OrtEnt` -/
  ecc : Nat := 0
  deriving DecidableEq, Repr

/-- A dormant record (R228). -/
structure Dormant where
  srcFa : Nat
  tc : Nat
  destFa : Nat
  epoch : Nat
  gapEnd : Nat
  fin : Nat
  deriving DecidableEq, Repr

/-- An egress order-stream context. `pend` holds each released N not yet discharged, oldest first. -/
structure ECtx where
  srcFa : Nat
  tc : Nat
  port : Nat
  epoch : Nat
  e : Nat
  pend : List Nat := []
  castC : Option Nat := none
  castDue : Bool := false
  castAt : Option Nat := none
  resendAt : Option Nat := none
  lastArr : Nat := 0
  /-- its SECDED code, as in `OrtEnt` -/
  ecc : Nat := 0
  deriving DecidableEq, Repr

/-- The Mooring store and both edges. -/
structure Mor where
  copies : List Copy := []
  nextCopy : Nat := 0
  streams : List IStream := []
  dormant : List Dormant := []
  ctxs : List ECtx := []
  /-- recent orphans (R218): source, class, port, hold end -/
  orphans : List (Nat × Nat × Nat × Nat) := []
  bootHold : Bool := true
  deriving DecidableEq, Repr

/-! ## Virtual switch instances (chapter 8) -/

/-- A memory BAR of a bound function (R247): its number, its bound window, the physical address and size, and what the
host has written. -/
structure BarSt where
  idx : Nat
  win : Nat
  phys : Nat
  size : Nat
  addr : Nat := 0
  lo : Bool := false
  hi : Bool := false
  deriving DecidableEq, Repr

/-- A HOST function binding (kind REMOTE or FUNCTION). `local_` is the local port, or none for a function on another
module, whose FA is `targetFa`. -/
structure HostBind where
  v : Nat
  vbr : Nat
  devfn : Nat
  local_ : Option Nat
  targetFa : Nat
  prid : Nat
  peerVsi : Nat := 0
  bars : List BarSt := []
  mse : Bool := false
  /-- step of Table 8.8 in progress, 0 when none; whether UNBIND runs it (no FLR), whether a VSI reset started it -/
  flr : Nat := 0
  unbinding : Bool := false
  byReset : Bool := false
  /-- BIND still probes a remote function (R254): end of the probing -/
  probe : Option Nat := none
  /-- status of the completion of the last probe -/
  answer : Option Nat := none
  /-- what the module read of the physical function -/
  fn : FnInfo := {}
  deriving DecidableEq, Repr

/-- A PEER function binding. `bars` are the physical ranges (address, size) of the function (R252). `flrEnd`: an FLR that its
owner's module wrote to the function lasts until then at the latest (Table 8.8, step 6). -/
structure PeerBind where
  port : Nat
  prid : Nat
  ownerFa : Nat
  ownerVsi : Nat
  proxy : Nat
  bars : List (Nat × Nat) := []
  pf : Option Nat := none
  flrEnd : Nat := 0
  deriving DecidableEq, Repr

/-- A vBridge that holds a PORT binding, or whose host has set its memory ranges: `ranges` are (base, limit). -/
structure VBr where
  v : Nat
  i : Nat
  ranges : List (Nat × Nat) := []
  deriving DecidableEq, Repr

/-- Virtual switch instances beyond the registers. -/
structure Vsi where
  hosts : List HostBind := []
  peers : List PeerBind := []
  /-- the memory ranges below the vBridges, as pipelines A and B read them (R46) -/
  vbrs : List VBr := []
  vbrsB : List VBr := []
  /-- PORT bindings: VSI, vBridge, port -/
  ports : List (Nat × Nat × Nat) := []
  /-- configuration dwords of upstream bridges, Relay functions and vBridges -/
  cfg : SMap Word := []
  /-- VSIs whose default bindings are loaded -/
  loaded : List Nat := []
  deriving DecidableEq, Repr

/-! ## Errors and safety (chapter 12) -/

/-- An entry of the sector table or of its defaults in one of the two copies of a checking island (R338: a station, 16 the Relay
engine) that holds another word than the table in force. -/
structure SecDev where
  isl : Nat
  b : Bool
  off : Nat
  word : Word
  deriving DecidableEq, Repr

/-- Fault injection and Fog beyond the registers: the pending injection (class, port), sources of power doubt, table
entries that differ between the pipelines are seen in the tables themselves. -/
structure Saf where
  inject : Option (Nat × Nat) := none
  /-- the FOG_N pin is pulled low from outside -/
  pinOutside : Bool := false
  /-- the FOG_N pin has been found stuck high (R354) -/
  pinHigh : Bool := false
  keeperPull : Bool := false
  lampPull : Bool := true
  /-- causes of module scope that hold the end of BOOT, and THERMAL while its condition lasts (R358, R411) -/
  standing : List Nat := []
  /-- ports whose lookup differed between the pipelines where the module itself sends, and that enter Fog with the next clock
  cycle (R47, R350) -/
  contain : List Nat := []
  /-- offsets whose next register access meets a parity error (R518, log 189) -/
  busUpset : List Nat := []
  /-- what the islands' copies of the sector table hold beside the table in force -/
  secDev : List SecDev := []
  deriving DecidableEq, Repr

/-! ## The Beacon (chapter 4) -/

/-- One Beacon ring. -/
structure Ring where
  good : Nat := 0
  bad : Nat := 0
  lastFsn : Option Nat := none
  /-- a mark was received in the current frame; a good one was -/
  seen : Bool := false
  goodSeen : Bool := false
  /-- frames since the last good mark -/
  quiet : Nat := 0
  /-- messages waiting to be sent on this ring, oldest first -/
  q : List BeaconMsg := []
  /-- mark to forward at the next frame -/
  fwd : Option BeaconMark := none
  echoSent : Option Nat := none
  /-- neighbour seen on this ring by the last ECHO -/
  neighbour : Option Nat := none
  deriving DecidableEq, Repr

/-- The Beacon. `accepted` holds (source, sequence number) of accepted messages, newest first. -/
structure Bcn where
  ring0 : Ring := {}
  ring1 : Ring := {}
  frames : Nat := 0
  seq : Nat := 0
  /-- accepted messages (source, sequence number) within the last 128 numbers of their source, the newest of a source first -/
  accepted : List (Nat × Nat) := []
  /-- FSN of the last good mark, from which a new master goes on -/
  goodFsn : Nat := 0
  /-- fabric time as last loaded, and WATCH_UP at that moment -/
  timeBase : Nat := 0
  timeAt : Nat := 0
  /-- a newer master to follow; Fog alerts owed (scope, port, cause) -/
  alerts : List (Nat × Nat × Nat) := []
  settings : List Nat := []
  deriving DecidableEq, Repr

/-! ## The Relay engine (chapter 9) -/

/-- A fetched descriptor. `rd` and `wr` count bytes whose read and write pieces have been issued.
`status` is none until its outcome is settled. -/
structure RDesc where
  slice : Nat
  idx : Nat
  d : Desc
  started : Bool := false
  rd : Nat := 0
  wr : Nat := 0
  status : Option Nat := none
  failOff : Nat := 0
  faultAddr : Nat := 0
  specSide : Bool := false
  poison : Bool := false
  /-- SEND: issued; reply status -/
  sent : Bool := false
  /-- the halt it meets lets it end with no record -/
  noRecord : Bool := false
  deriving DecidableEq, Repr

/-- The kinds of operation of R290. -/
inductive ROpKind where
  | fetch | read | write | send
  deriving DecidableEq, Repr

/-- An issued piece that has not finished. `frames` counts frames in custody still to be cast off, or pieces of a read
still to complete; `gen` is the sector generation of a speculative read. -/
structure ROp where
  id : Nat
  slice : Nat
  idx : Nat
  kind : ROpKind
  off : Nat := 0
  addr : Nat := 0
  len : Nat := 0
  frames : Nat := 0
  spec : Bool := false
  /-- a read from a sector not marked prefetchable (R292) -/
  single : Bool := false
  gen : Nat := 0
  units : Nat := 0
  /-- a frame of it was reported failed (R227, R161); of a fetch, Bus Master Enable was cleared while it was in flight (R305) -/
  failed : Bool := false
  /-- a read whose data has arrived; whether its data is to be discarded -/
  arrived : Bool := false
  discard : Bool := false
  /-- bytes that have arrived -/
  data : List Byte := []
  poison : Bool := false
  /-- fabric address the operation is bound for, and its class (R326) -/
  dest : Nat := 0
  tc : Nat := 0
  deriving DecidableEq, Repr

/-- Where a received SEND came from, for its reply (R303): its SRC_FA, the port of its DEST_FA, its class, its message. -/
structure SendFrom where
  srcFa : Nat := 0
  port : Nat := 0
  tc : Nat := 0
  msg : RelayMsg := {}
  deriving DecidableEq, Repr

/-- A completion record (Table 9.9), waiting in the engine; `reply`: of a received SEND, what is answered once it is written. -/
structure RRec where
  slice : Nat
  sqIndex : Nat
  tag : Nat
  status : Nat
  specSide : Bool := false
  recv : Bool := false
  poison : Bool := false
  opcode : Nat := 0
  doneLen : Nat := 0
  srcSlice : Nat := 0
  faultAddr : Nat := 0
  intr : Bool := false
  tc : Nat := 0
  reply : Option SendFrom := none
  deriving DecidableEq, Repr

/-- A received SEND on its way into an inbox entry: the bytes left, where they go, the entry (R303). -/
structure Inbox where
  from_ : SendFrom := {}
  data : List Byte := []
  addr : Nat := 0
  index : Nat := 0
  poison : Bool := false
  deriving DecidableEq, Repr

/-- What a slice's next posted write beside its pieces is: a record, an interrupt on a class, a piece of an inbox entry (R327). -/
inductive RPostKind where
  | record (r : RRec)
  | intr (tc : Nat)
  | inbox (x : Inbox)
  deriving DecidableEq, Repr

structure RPost where
  slice : Nat
  what : RPostKind
  deriving DecidableEq, Repr

/-- The counts of a slice beyond its registers. -/
structure RSlice where
  slice : Nat
  completed : Nat := 0
  cqRead : Nat := 0
  ibUsed : Nat := 0
  ibBack : Nat := 0
  /-- a VSI reset waits for INFLIGHT 0 (R307) -/
  resetWait : Bool := false
  /-- the traffic class of the interrupt that INT_CTRL.PENDING holds (R35) -/
  pendTc : Nat := 0
  deriving DecidableEq, Repr

/-- The Relay engine beyond the registers. -/
structure Rly where
  slices : List RSlice := []
  descs : List RDesc := []
  ops : List ROp := []
  nextOp : Nat := 0
  held : List RRec := []
  /-- records, interrupts and inbox writes that wait for the Relay scheduler, oldest first (R325, R327) -/
  posts : List RPost := []
  /-- completions that reached the Relay port: operation, TLP, the request has ended -/
  cpls : List (Nat × Tlp × Bool) := []
  /-- Relay messages that reached their module: source FA, destination port, class, data -/
  msgs : List (Nat × Nat × Nat × Tlp) := []
  deriving DecidableEq, Repr

/-! ## Keeper (chapter 13) and power (chapters 15 to 18) -/

/-- A fuse slot for the digest of an operator key (R371): its digest once written, and its EN bit. -/
structure KeyFuse where
  digest : Option (List Nat) := none
  en : Bool := false
  deriving DecidableEq, Repr

/-- The Keeper beyond the registers. -/
structure Kpr where
  /-- MGMT messages that ask for an ACK and have none yet: ID, message, sends so far (R395) -/
  mgmtPend : List (Nat × SigMsg × Nat) := []
  mgmtNext : Nat := 0
  /-- MGMT messages acted upon: source FA, ID, time (R395) -/
  mgmtSeen : List (Nat × Nat × Nat) := []
  /-- fuses (Table 13.2) -/
  svn : Nat := 0
  revoke : Nat := 0
  opLl0 : KeyFuse := {}
  opLl1 : KeyFuse := {}
  opDbg0 : KeyFuse := {}
  opDbg1 : KeyFuse := {}
  idSeed : Nat := 0
  /-- the running firmware image: SVN, key index, DIGEST -/
  fwSvn : Nat := 0
  fwKey : Nat := 0
  fwDigest : List Nat := []
  /-- the command ring since EN was set: entries written and fetched, records written and consumed (R380) -/
  sqSeen : Nat := 0
  sqFetched : Nat := 0
  cqWritten : Nat := 0
  cqRead : Nat := 0
  /-- the command whose action is not complete, and what waits behind it -/
  busy : Option (KHead × KCmd) := none
  queue : List (KHead × KCmd) := []
  /-- EN cleared while a command is in progress: its record is not written (R383) -/
  noRecord : Bool := false
  /-- KINDs committed since the Keeper's last boot (R386) -/
  committed : List Nat := []
  /-- verified update images: DIGEST of the firmware slot, LL_SERIAL not needed; length erased per KIND -/
  fwVerified : List Nat := []
  /-- debug unlock (R393, R394): the nonce, when it expires, the earliest time for a new one, the end of the unlock -/
  nonce : Option (Nat × Nat) := none
  nonceAfter : Nat := 0
  unlockEnd : Nat := 0
  halted : Bool := false
  /-- SPDM requesters served, and the last request that each was answered (R390) -/
  spdm : List (Nat × Nat) := []
  /-- MCTP messages that the module endpoint answers are recorded in `out`. FOG_RELEASE asked for this boot (R358) -/
  fogRelease : Bool := false
  /-- a debug access is in progress, its result (Table 18.7) -/
  dbgResult : Nat := 0
  deriving DecidableEq, Repr

/-- A station's operating-point sequencer (R437): the point it changes to, whether the regulator is still to report ready,
whether the change is a rise, and a newer target. -/
structure OppSeq where
  st : Nat
  target : Nat
  rise : Bool
  newer : Option Nat := none
  deriving DecidableEq, Repr

/-- Clocks, islands, power entry and connections beyond the registers. -/
structure Pwr where
  standby : Bool := false
  /-- feeds present: 0 A, 1 B (R450) -/
  present : List Nat := []
  /-- the regulators are in regulation and PGOOD is released -/
  pgood : Bool := false
  /-- RESET_N held low (R422) -/
  resetLow : Bool := false
  /-- a PLL source has qualified and the CKG PLLs run -/
  ckg : Bool := false
  /-- settings in force of the power-entry controller, by offset; an unlisted one is the factory value (R405, Table 17.14) -/
  pweNv : SMap Word := []
  /-- rail overvoltage holds the ramp (Table 17.2) -/
  ovHold : Bool := false
  /-- the rail has fallen below 35 V and not risen above 38 V again (Table 17.1) -/
  railLow : Bool := false
  /-- operating time in ns since the hours were last updated (R505) -/
  hourNs : Nat := 0
  /-- SENSOR_CAL: quantity, gain in units of 2^-14, offset (R405) -/
  cal : List (Nat × Nat × Int) := []
  /-- the inlet temperature in 0.01 °C, and the two poles of the thermal model in 0.000001 °C (R456) -/
  inlet : Int := 0
  pole1 : Int := 0
  pole2 : Int := 0
  /-- feeds below their warning thresholds -/
  low : List Nat := []
  /-- earliest release of FEED_WARN_N after a reverse-current event -/
  warnHold : Nat := 0
  /-- operating-point sequencers that are changing -/
  opp : List OppSeq := []
  /-- islands with a gate requested and not acknowledged, islands gated for DARK, and islands on the IRO: as they
  leave reset before their PLL has locked (R425), or their clock is lost and no PLL feeds them (R434); 89 stands for the crystal -/
  gateReq : List Nat := []
  gated : List Nat := []
  lost : List Nat := []
  /-- earliest new try of an idle gating by island -/
  gateAfter : List (Nat × Nat) := []
  /-- DARK entry and restore: the step of Table 16.5 or 16.7 in progress, 0 none; start of restore -/
  darkStep : Nat := 0
  restoreStep : Nat := 0
  restoreAt : Nat := 0
  /-- the restore in progress ends in a start as after RESET_N (R422) -/
  resetStart : Bool := false
  /-- an island has failed to start within 50 ms: BOOT lasts until RESET_N, power-on or FOG_RELEASE (R409) -/
  startFail : Bool := false
  /-- wake events latched during entry (R448): bit numbers of WAKE_CAUSE -/
  latched : List Nat := []
  /-- lane quads in standby (R443) -/
  standbyQuads : List Nat := []
  /-- stations that step 9 of Table 15.1 starts and that have not read their port map -/
  starting : List Nat := []
  /-- station resets that wait at step 5 of Table 15.4 for the Keeper (R417) -/
  stnWait : List Nat := []
  /-- ADDR_SEL as latched (R474); dynamic addresses (R475): 0 and 1 the module and Lamp Room endpoints of the primary port, 2 the
  module endpoint of the secondary -/
  addrSel : Option Nat := none
  dyn : SMap Nat := []
  /-- status of the last Lamp Room command (Table 18.5) -/
  lrStatus : Nat := 0
  deriving DecidableEq, Repr

/-! ## Telemetry and the Keeper's Log (chapter 19) -/

/-- The events the rules log, by name. The manual gives no numbers for the CODE field; the number that a record carries in
flash is the free `Config.logCode` of the name's index. -/
inductive LogCode where
  | accessSize | rwlIgnored | viewWrite | lookupMismatch | hdrCrc | khCrc | turnViol | hopViol | noRoute
  | noRouteSignal | sigDrop | farErrSent | farErrLogged | felRdBad | streamFailed | lateCpl | reqDiscard | unexpCpl
  | stationCfgErr | noVsi | cableId | cableCmFail | cableMismatch | presence | linkUp | linkDown | portMode
  | portFog | moduleFog | fogExit | fogLater | sectorReject | sectorDouble | sectorMismatch | debugDenied | ctxEcc
  | corrected | tableRepaired | fabric | lockstep | clockLost | powerDoubt | feedLoss | feedLow | selftestFail
  | fogNStuck | thermal | thermWarn | injected | mgmtLost | keeperReset | keeperBoot | recovery | llBreakerBad
  | llBindSkip | startFail | debugUnlock | debugLock | keeperDebug | logLost | vsiReset | flrDone | quiesceTmo
  | sliceHalt | refuse | plLost | pllBack | trainFail | roleConflict | rateFail | eqFallback | crystalLost
  | crystalFail | refclk | iroTrim | gateAbandon | oppTimeout | pwrRefused | darkEnter | darkExit | wakeFail | wake
  | trip | latchOff | retry | reverse | feedArmed | feedDisarmed | feedWarn | mateLost | ovTrip | standbyStop
  | extest | histogram | extreme | specSide | fcStale | headroomFail | busParity
  deriving DecidableEq, Repr

/-- A record of the Keeper's Log (Table 19.7); `key` is bytes 32–39, `det` the details. -/
structure LogRec where
  code : LogCode
  kind : Nat := 0
  source : Nat := 90
  rep : Nat := 0
  cycles : Nat := 0
  hours : Nat := 0
  fsn : Nat := 0
  fsnValid : Bool := false
  kept : Bool := false
  tFirst : Nat := 0
  tLast : Nat := 0
  key : List Nat := []
  det : List Nat := []
  /-- its slot of the Keep area, when it is one of the first 256 (R509) -/
  slot : Option Nat := none
  deriving DecidableEq, Repr

/-- One quantity of Table 19.8 in the span that runs: bins, least, greatest, sum, samples, time of the greatest. -/
structure Qty where
  bins : List Nat := []
  mn : Int := 0
  mx : Int := 0
  sum : Int := 0
  count : Nat := 0
  tMax : Nat := 0
  deriving DecidableEq, Repr

/-- A sounding in flight in a station (R501, R502): its packet, ports, class and times at the points. -/
structure Snd where
  st : Nat
  uid : Nat
  inPort : Nat
  egPort : Nat := 0
  tc : Nat := 0
  otype : Nat := 0
  cut : Bool := false
  mc : Bool := false
  len : Nat := 0
  t : List (Nat × Nat) := []
  deriving DecidableEq, Repr

/-- A sounding's result (Table 19.6). -/
structure SndRes where
  t1 : Nat
  d : List Nat
  inPort : Nat
  egPort : Nat
  flags : Nat
  len : Nat
  deriving DecidableEq, Repr

/-- A dump entry (R495): the header of Table 19.2 and the counter values. -/
structure DumpEnt where
  seq : Nat
  tTime : Nat
  tUp : Nat
  fsn : Nat
  sel : Nat
  missed : Nat
  len : Nat
  values : List Nat
  deriving DecidableEq, Repr

/-- Telemetry and log beyond the registers. -/
structure Tel where
  /-- the Recent area, newest first -/
  recent : List LogRec := []
  /-- events that wait in the Lamp Room during a Keeper reset, oldest first (R508) -/
  queue : List LogRec := []
  /-- slots of the Keep area whose record is made and not yet programmed, rising -/
  keepPend : List Nat := []
  /-- records ever made, up to 256 -/
  made : Nat := 0
  /-- LOG_SEQ at the last Keep write since power-up -/
  lastKeep : Option Nat := none
  /-- final-words slots: the next to program, how many before it are programmed, and the Keep-area records that the newest
  holds (slot, record) (R510) -/
  fwNext : Nat := 0
  fwUsed : Nat := 0
  lastWords : List (Nat × LogRec) := []
  qty : List Qty := []
  /-- start of the span that runs, on WATCH_UP and on WATCH_TIME -/
  qtyStart : Nat := 0
  qtyTime : Nat := 0
  sndFlight : List Snd := []
  sndFifo : List SndRes := []
  /-- Counter Collector: snapshot number and missed ones since EN was set, DUMP_WR when EN was set, staged entries -/
  colSeq : Nat := 0
  colMissed : Nat := 0
  colBase : Nat := 0
  staged : List DumpEnt := []
  deriving DecidableEq, Repr

/-! ## What leaves the module -/

/-- The output pins that rules drive. -/
inductive Pin where
  | fogN | pgood | feedWarnN | regulators | hotSwapFet | standbyOut
  deriving DecidableEq, Repr

/-- AER errors (Tables 3.6 and 12.4). -/
inductive AerErr where
  | badTlp | replayTimer | replayRollover | surpriseDown | malformedTlp | receiverOverflow | completionTimeout
  | unexpectedCompletion | unsupportedRequest | acsViolation | correctedInternal | uncorrectableInternal
  | flowControlProtocol
  deriving DecidableEq, Repr

/-- Why a register access ended with an error response (R27, R439, R518). -/
inductive AccessErr where
  | gatedAbort
  | busParity
  deriving DecidableEq, Repr

/-- What leaves the module, in the order it leaves. The record is the model's own field: it holds what the rules say the
module sends, drives or answers. -/
inductive Out where
  /-- a TLP on a PCIe port; `nullified` as flit mode defines (R68, R69) -/
  | tlp (port : Nat) (t : Tlp) (nullified : Bool)
  /-- the data link layer acknowledgement of a received TLP, or a NAK -/
  | dllAck (port : Nat)
  | dllNak (port : Nat)
  /-- credits returned to the link partner: type (0 P, 1 NP, 2 Cpl), headers, data units -/
  | credit (port type h d : Nat)
  /-- credits advertised at DL_Up: PH, PD, NPH, NPD, CplH, CplD -/
  | advertise (port : Nat) (credits : List Nat)
  | flit (port : Nat) (f : Flit)
  | msix (vsi vec : Nat)
  | aer (vsi : Nat) (vbr : Option Nat) (err : AerErr)
  | hotplug (vsi vbr : Nat) (present linkActive : Bool)
  | drs (vsi : Nat)
  | frs (vsi rid : Nat)
  | hotReset (port : Nat)
  | perst (port : Nat) (low : Bool)
  | linkIdle (port : Nat)
  /-- a write into the host memory of a VSI: address, bytes named by what they are -/
  | hostWrite (vsi addr : Nat) (what : List Nat)
  | hostRead (vsi addr len : Nat)
  /-- a Beacon frame: its mark and its messages; `beaconFrameWire` gives its 625 symbols -/
  | beaconFrame (ring : Nat) (mark : BeaconMark) (msgs : List BeaconMsg)
  | wakePattern (ring : Nat)
  | ibi (endpoint : Nat) (payload : List Nat)
  | endpointReply (endpoint : Nat) (bytes : List Nat)
  | debugReply (bytes : List Nat)
  | regData (ag : Agent) (off : Nat) (value : Nat)
  /-- the completion of a register write, and the error response of a register access with the code of its cause (R27) -/
  | regDone (ag : Agent) (off : Nat)
  | regError (ag : Agent) (off : Nat) (code : AccessErr)
  /-- what a port offers as it trains (R110, R114): flit mode, the presets and CTLE codes of its lanes, and its Kaund offer -/
  | offer (port : Nat) (o : TrainOffer)
  | mctp (endpoint : Nat) (bytes : List Nat)
  /-- an SPDM response: the port (0 primary, 1 secondary, 2 + p upstream port p), the requester, the answer -/
  | spdm (via who : Nat) (ans : SpdmAns)
  /-- EXTEST drives the boundary-scan register -/
  | scan (bits : List Nat)
  | pin (name : Pin) (high : Bool)
  deriving DecidableEq, Repr

/-! ## The whole -/

/-- The timers that the rules start; each is armed with its deadline on WATCH_UP. -/
inductive TimerId where
  | cto (port tag : Nat)
  | quarantine (port tag : Nat)
  | replay (port : Nat)
  | stale (port : Nat)
  | kinit (port : Nat)
  | recovery (port : Nat)
  | echoReq (port : Nat)
  | holdRetry (port : Nat)
  | revert (port : Nat)
  | farSecond (id : Nat)
  | farFilter (v origin ser addr : Nat)
  | castGap (srcFa tc port : Nat)
  | custody (srcFa tc destFa : Nat)
  | refuse (srcFa tc destFa : Nat)
  | limit (srcFa tc destFa : Nat)
  | epochGap (srcFa tc destFa : Nat)
  | ctxAge (srcFa tc port : Nat)
  | dormant (srcFa tc destFa : Nat)
  | bootHold
  | probe (v vbr devfn : Nat)
  | probeLimit (v vbr devfn : Nat)
  | quiesce (v vbr devfn : Nat)
  | frs (v vbr devfn : Nat)
  | send (id : Nat)
  | mgmt (id : Nat)
  | masterWait
  | islandStart
  | crystal
  | unlock
  | freeze
  | opp (st : Nat)
  | restore
  | ramp
  | retryDelay
  | tripDecay
  | stnReset (st : Nat)
  | collect
  | summary
  | keep (slot : Nat)
  deriving DecidableEq, Repr

/-- What a held access does: a read, a write of a word, a whole REG_READ or REG_WRITE message (R477), or a write of COUNT and GEN to
a slice's doorbell page at the doorbell offset `want` (Table 9.5). -/
inductive AccessKind where
  | read
  | write (w : Word)
  | readMsg (count : Nat)
  | writeMsg (data : List Nat)
  | page (slice off size want count gen : Nat)
  deriving DecidableEq, Repr

/-- A register access that its crossing holds while the island it goes to is in reset (R21). -/
structure HeldAccess where
  ag : Agent
  off : Nat
  kind : AccessKind
  deriving DecidableEq, Repr

/-- Everything of the module but its flash and the queue of commands. -/
structure Chip where
  /-- registers by BAR0 offset; an unlisted one holds its reset word -/
  regs : SMap Word := []
  /-- committed tables: pipeline A, pipeline B, and the Keeper's reference image, by the offset of the shadow -/
  tabA : SMap Word := []
  tabB : SMap Word := []
  tabRef : SMap Word := []
  /-- counters (R489), by kind, instance and index -/
  counters : SMap Nat := []
  /-- the most recent _LO written by any agent, by offset (R18), and the _HI latched per agent (R19) -/
  loPend : SMap Word := []
  hiLatch : List (Agent × Nat × Word) := []
  /-- register accesses that wait for the end of an island's reset, oldest first (R21) -/
  heldAcc : List HeldAccess := []
  /-- WATCH_UP and WATCH_TIME in ns, and what WATCH_TIME still has to slew -/
  watchUp : Nat := 0
  watchTime : Nat := 0
  slew : Int := 0
  timers : List (TimerId × Nat) := []
  out : List Out := []
  freeCtr : Nat := 0
  ll : Option LightList := none
  /-- the port map each station read when it last started (R108) -/
  map : List PortCfg := []
  /-- the entries of each station's last map that passed, by which an owner is known to be unchanged (R421) -/
  goodMap : List PortCfg := []
  sw : Sw := {}
  pci : Pci := {}
  knd : Knd := {}
  mor : Mor := {}
  vsi : Vsi := {}
  rly : Rly := {}
  saf : Saf := {}
  bcn : Bcn := {}
  kpr : Kpr := {}
  pwr : Pwr := {}
  tel : Tel := {}
  deriving DecidableEq, Repr

/-- The state of the module: the chip, its flash bytes (an unlisted byte reads 0xFF, as erased flash does; DESIGN CHOICE, log 4),
and the commands that wait, first in, first out. -/
structure State where
  chip : Chip := {}
  flash : SMap Byte := []
  pending : List Instr := []
  deriving DecidableEq, Repr

/-- Every byte of the canonical form: addresses strictly rising, no listed byte equal to 0xFF. -/
def Memory.wf (m : SMap Byte) : Bool := SMap.canonical m (fun _ => 0xFF#8)

/-- The islands behind the regulators: stations, Tower, Mooring, Relay, LPDDR6 controllers, Beacon, Keeper. -/
def allIslands : List Nat := (List.range 25).map (64 + ·)

/-- The module before the first feed: nothing runs, every register holds its reset value, and the multiplexer of every island
selects the IRO (R425). -/
def State.reset : State := { chip := { pwr := { lost := allIslands } } }

end Sys2Proof.Machine
end

