-- ==== Sys2Proof/Machine/Ops.lean ====
section
/-!
DEFINITION. The operations that every chapter shares: registers and their fields, committed tables, counters, timers, the
record of what leaves the module, free values, and the Keeper's Log.
-/
namespace Sys2Proof.Machine

/-! ## Registers and fields -/

/-- The word a register holds. -/
def Chip.rd (c : Chip) (off : Nat) : Word := SMap.get c.regs off (resetWordAt off)

/-- Write a register word. -/
def Chip.wr (c : Chip) (off : Nat) (w : Word) : Chip :=
  { c with regs := SMap.set c.regs off w (resetWordAt off) }

/-- The value of a field of a register. -/
def Chip.fld (c : Chip) (off : Nat) (f : Fld) : Nat := getF (c.rd off) f

/-- Set a field of a register, leaving the register's other bits. -/
def Chip.setFld (c : Chip) (off : Nat) (f : Fld) (v : Nat) : Chip := c.wr off (setF (c.rd off) f v)

/-- A one-bit field, as a truth value. -/
def Chip.flag (c : Chip) (off : Nat) (f : Fld) : Bool := c.fld off f != 0

/-- Set a one-bit event or status field. -/
def Chip.setBit (c : Chip) (off : Nat) (f : Fld) : Chip := c.setFld off f 1

/-- Clear a field. -/
def Chip.clrFld (c : Chip) (off : Nat) (f : Fld) : Chip := c.setFld off f 0

/-- Add 1 to a count field that saturates. -/
def Chip.satInc (c : Chip) (off : Nat) (f : Fld) : Chip :=
  if c.fld off f < fldMax f then c.setFld off f (c.fld off f + 1) else c

/-- Bit `i` of a field. -/
def Chip.fldBit (c : Chip) (off : Nat) (f : Fld) (i : Nat) : Bool := bitOf (c.fld off f) i

/-- Set or clear bit `i` of a field. -/
def Chip.putBit (c : Chip) (off : Nat) (f : Fld) (i : Nat) (b : Bool) : Chip :=
  let v := c.fld off f
  let v' := if bitOf v i then (if b then v else v - 2 ^ i) else (if b then v + 2 ^ i else v)
  c.setFld off f v'

/-- Put a register back to its reset word. -/
def Chip.resetReg (c : Chip) (off : Nat) : Chip := { c with regs := c.regs.erase off }

/-! ## Committed tables (R46, R193)

Each pipeline reads its own copy; the Keeper keeps a reference image (R358, R363). An entry of a table lies at the offset
of its shadow. -/

/-- An entry of the table in force: pipeline A's copy (`pipe` false) or pipeline B's. -/
def Chip.tab (c : Chip) (pipe : Bool) (off : Nat) : Word :=
  SMap.get (if pipe then c.tabB else c.tabA) off (resetWordAt off)

/-- A field of an entry of the table in force. -/
def Chip.tabF (c : Chip) (pipe : Bool) (off : Nat) (f : Fld) : Nat := getF (c.tab pipe off) f

/-- Write one entry of the table in force, in both copies and in the reference image. -/
def Chip.putTab (c : Chip) (off : Nat) (w : Word) : Chip :=
  { c with
    tabA := SMap.set c.tabA off w (resetWordAt off)
    tabB := SMap.set c.tabB off w (resetWordAt off)
    tabRef := SMap.set c.tabRef off w (resetWordAt off) }

/-- The table in force takes the shadow at the given offset (R193 step 3). -/
def Chip.commitWord (c : Chip) (off : Nat) : Chip := c.putTab off (c.rd off)

/-- The table in force takes every shadow word at an offset that `covers` selects: the words the shadow lists and the words
a copy of the table lists. -/
def Chip.commitWhere (c : Chip) (covers : Nat → Bool) : Chip :=
  (((c.regs ++ c.tabA ++ c.tabB ++ c.tabRef).map (·.1)).filter covers).foldl Chip.commitWord c

/-! ## Counters (R489, R490) -/

/-- Counter kinds, as CNT_SEL.KIND numbers them. -/
def kStation : Nat := 0
def kPort : Nat := 1
def kTower : Nat := 2
def kRelay : Nat := 3
def kMooring : Nat := 4
def kMc : Nat := 5
def kSlice : Nat := 6

def ctrKey (kind inst idx : Nat) : Nat := kind * 2 ^ 20 + inst * 64 + idx

def Chip.ctr (c : Chip) (kind inst idx : Nat) : Nat := SMap.get c.counters (ctrKey kind inst idx) 0

/-- Add to a counter; 48 bits, wrapping (R489). -/
def Chip.ctrAdd (c : Chip) (kind inst idx n : Nat) : Chip :=
  { c with counters := SMap.set c.counters (ctrKey kind inst idx) ((c.ctr kind inst idx + n) % 2 ^ 48) 0 }

def Chip.ctrInc (c : Chip) (kind inst idx : Nat) : Chip := c.ctrAdd kind inst idx 1

/-- Clear every counter of one instance. -/
def Chip.ctrClear (c : Chip) (kind inst : Nat) : Chip :=
  { c with counters := c.counters.filter (fun e => !(ctrKey kind inst 0 ≤ e.1 && e.1 < ctrKey kind inst 64)) }

/-- Count for the station of a port. -/
def Chip.stCtr (c : Chip) (p idx : Nat) : Chip := c.ctrInc kStation (portStation p) idx

/-! ## What leaves the module, and free values -/

def Chip.emit (c : Chip) (o : Out) : Chip := { c with out := o :: c.out }

/-- An endpoint raises an In-Band Interrupt on the primary port, once it has a dynamic address there (R475, R478): endpoint 0
the module's, 1 the Lamp Room's. -/
def Chip.raiseIbi (c : Chip) (ep : Nat) (payload : List Nat) : Chip :=
  if SMap.get c.pwr.dyn ep 0 = 0 then c else c.emit (.ibi ep payload)

/-- A free value, fresh for this draw. -/
def Chip.freeVal (c : Chip) : Nat := Config.free c.freeCtr

/-- The draw counter steps on. -/
def Chip.drew (c : Chip) : Chip := { c with freeCtr := c.freeCtr + 1 }

/-! ## Timers -/

def Chip.now (c : Chip) : Nat := c.watchUp

/-- Start or restart a timer. -/
def Chip.arm (c : Chip) (t : TimerId) (ns : Nat) : Chip :=
  { c with timers := (t, c.watchUp + ns) :: c.timers.filter (fun e => e.1 ≠ t) }

/-- Stop a timer. -/
def Chip.disarm (c : Chip) (t : TimerId) : Chip := { c with timers := c.timers.filter (fun e => e.1 ≠ t) }

/-- A timer runs and has reached its deadline. -/
def Chip.due (c : Chip) (t : TimerId) : Bool := c.timers.any (fun e => decide (e.1 = t) && decide (e.2 ≤ c.watchUp))

/-- A timer runs. -/
def Chip.armed (c : Chip) (t : TimerId) : Bool := c.timers.any (fun e => decide (e.1 = t))

def us : Nat := 1000
def ms : Nat := 1000000
def sec : Nat := 1000000000

/-! ## Standing conditions -/

/-- The Keeper is in RUN (Table 13.15). -/
def Chip.keeperRuns (c : Chip) : Bool := c.fld Reg.KPR_STATUS Bit.KPR_STATUS_STAGE == 1

/-- A station has started and is not in reset (Tables 15.2, 15.4). -/
def Chip.stUp (c : Chip) (s : Nat) : Bool :=
  c.fldBit Reg.START_STATUS Bit.START_STATUS_STATION s && !c.fldBit Reg.STN_RESET Bit.STN_RESET_BUSY s

/-- An island has its operating clock: it was not left on the IRO, where it stays in reset (R434). -/
def Chip.clocked (c : Chip) (i : Nat) : Bool := !c.pwr.lost.contains i

/-- The Mooring runs; while it stands in reset on the IRO, guarded frames wait at its crossings (R21). -/
def Chip.morRuns (c : Chip) : Bool := c.clocked 81

/-- A station sends cells: it is up, or in reset with the answers of R92 still to go (R418 step 2). -/
def Chip.stSends (c : Chip) (s : Nat) : Bool := c.stUp s || c.fldBit Reg.STN_RESET Bit.STN_RESET_BUSY s

/-- The port map entry of a port, as its station read it. -/
def Chip.port (c : Chip) (p : Nat) : PortCfg := c.map.getD p {}

/-- A port exists on a station that is up. -/
def Chip.portUp (c : Chip) (p : Nat) : Bool := (c.port p).present && c.stUp (portStation p)

/-- The port trained as a span port. -/
def Chip.isSpan (c : Chip) (p : Nat) : Bool := c.flag (Reg.PRT_ID p) Bit.PRT_ID_KAUND

/-- A PCIe port is in DL_Active. -/
def Chip.dlUp (c : Chip) (p : Nat) : Bool := c.flag (Reg.PRT_STATUS p) Bit.PRT_STATUS_DL_UP

/-- The state of a span port (Table 5.8). -/
def Chip.spanState (c : Chip) (p : Nat) : Nat := c.fld (Reg.SPAN_STATUS p) Bit.SPAN_STATUS_STATE

def spDown : Nat := 0
def spKinit : Nat := 1
def spUp : Nat := 2
def spRecovery : Nat := 3
def spReset : Nat := 4
def spHeld : Nat := 5

/-- A port is in the Fog state. -/
def Chip.inPortFog (c : Chip) (p : Nat) : Bool := c.fldBit (Reg.PORT_FOG (p / 32)) Bit.PORT_FOG_FOG (p % 32)

/-- The module is in the Fog state, and whether its cause is BOOT (R410). -/
def Chip.inModFog (c : Chip) : Bool := c.flag Reg.SAF_STATUS Bit.SAF_STATUS_MODULE_FOG
def Chip.bootFog (c : Chip) : Bool :=
  c.inModFog && c.fld Reg.MOD_FOG_CAUSE Bit.MOD_FOG_CAUSE_CAUSE == 0x20

/-- This module's FA of a port. -/
def Chip.ownFa (c : Chip) (p : Nat) : Nat :=
  mkFa (c.fld Reg.KND_ID Bit.KND_ID_REACH) (c.fld Reg.KND_ID Bit.KND_ID_MODULE) p

/-- An FA names a port of this module. -/
def Chip.faHere (c : Chip) (fa : Nat) : Bool :=
  faReach fa == c.fld Reg.KND_ID Bit.KND_ID_REACH && faModule fa == c.fld Reg.KND_ID Bit.KND_ID_MODULE

/-- The VSI that an upstream port owns (R237). -/
def Chip.vsiOfPort (c : Chip) (p : Nat) : Option Nat :=
  (List.range 64).find? (fun v => c.flag (Reg.VSI_ID v) Bit.VSI_ID_OWNED && c.fld (Reg.VSI_ID v) Bit.VSI_ID_PORT == p)

/-- The upstream port of a VSI. -/
def Chip.portOfVsi (c : Chip) (v : Nat) : Option Nat :=
  if c.flag (Reg.VSI_ID v) Bit.VSI_ID_OWNED then some (c.fld (Reg.VSI_ID v) Bit.VSI_ID_PORT) else none

/-- The manager VSI (R239). -/
def Chip.isManager (c : Chip) (v : Nat) : Bool := c.flag (Reg.VSI_ID v) Bit.VSI_ID_MANAGER
def Chip.manager (c : Chip) : Nat := ((List.range 64).find? c.isManager).getD 0

/-- A VSI is in reset. -/
def Chip.vsiInReset (c : Chip) (v : Nat) : Bool := c.flag (Reg.VSI_STATUS v) Bit.VSI_STATUS_IN_RESET

/-! ## The Keeper's Log (R504 to R511) -/

/-- FSN_VALID: a ring is locked or the module is time master. -/
def Chip.fsnValid (c : Chip) : Bool :=
  c.flag Reg.BCN_STATUS Bit.BCN_STATUS_LOCK0 || c.flag Reg.BCN_STATUS Bit.BCN_STATUS_LOCK1 ||
    c.flag Reg.BCN_STATUS Bit.BCN_STATUS_MASTER

/-- A new record of an event now. -/
def Chip.mkRec (c : Chip) (code : LogCode) (source : Nat) (key det : List Nat) : LogRec :=
  { code, source, key, det
    cycles := min (c.rd Reg.POWER_CYCLES).toNat 65535
    hours := c.fld Reg.OP_HOURS Bit.OP_HOURS_HOURS
    fsn := (c.rd Reg.BCN_FSN).toNat
    fsnValid := c.fsnValid
    tFirst := c.watchTime
    tLast := c.watchTime }

/-- A record enters the Recent area: LOG_SEQ rises, the oldest of 4,096 goes, and one of the first 256 ever made is owed to
the Keep area after 1 ms (R508, R509). -/
def Chip.addRec (c : Chip) (r : LogRec) : Chip :=
  let c := c.wr Reg.LOG_SEQ (c.rd Reg.LOG_SEQ + 1)
  let slot := c.tel.made
  let r := { r with slot := if slot < 256 then some slot else none }
  let c := { c with tel := { c.tel with recent := (r :: c.tel.recent).take 4096 } }
  let c := c.setFld Reg.LOG_STATUS Bit.LOG_STATUS_RECENT (min c.tel.recent.length 4096)
  if slot < 256 then
    ({ c with tel := { c.tel with made := slot + 1, keepPend := c.tel.keepPend ++ [slot] } }).arm (.keep slot) ms
  else c

/-- The newest record absorbs a repeat (R506). -/
def Chip.logNow (c : Chip) (r : LogRec) : Chip :=
  match c.tel.recent with
  | n :: rest =>
    if n.kind = 0 ∧ n.code = r.code ∧ n.source = r.source ∧ n.key = r.key ∧ n.rep < 65535 then
      { c with tel := { c.tel with recent := { n with rep := n.rep + 1, tLast := r.tLast, det := r.det } :: rest } }
    else c.addRec r
  | [] => c.addRec r

/-- An event is logged: during a freeze it is only counted (R511); while the Keeper does not run it waits in the Lamp
Room's queue of 256, or is lost and counted (R508). -/
def Chip.logFrom (c : Chip) (code : LogCode) (source : Nat) (key det : List Nat) : Chip :=
  let r := c.mkRec code source key det
  if c.flag Reg.LOG_CTRL Bit.LOG_CTRL_FREEZE then c.satInc Reg.LOG_EVENT Bit.LOG_EVENT_FROZEN_MISS
  else if c.keeperRuns then c.logNow r
  else if c.tel.queue.length < 256 then { c with tel := { c.tel with queue := c.tel.queue ++ [r] } }
  else c.satInc Reg.LOG_EVENT Bit.LOG_EVENT_QUEUE_LOST

/-- An event of the module as a whole (SOURCE 90). -/
def Chip.log (c : Chip) (code : LogCode) (key : List Nat) (det : List Nat := []) : Chip := c.logFrom code 90 key det

/-! ## Configuration state of a VSI -/

/-- Functions of a VSI's configuration view: 0 upstream bridge, 1 Relay function, 2 + i vBridge i. -/
def cfgKey (v fn reg : Nat) : Nat := v * 2 ^ 24 + fn * 2 ^ 12 + reg

def Chip.cfg (c : Chip) (v fn reg : Nat) : Word := SMap.get c.vsi.cfg (cfgKey v fn reg) 0

def Chip.setCfg (c : Chip) (v fn reg : Nat) (w : Word) : Chip :=
  { c with vsi := { c.vsi with cfg := SMap.set c.vsi.cfg (cfgKey v fn reg) w 0 } }

/-- Key of Memory Space Enable of a function. -/
def keyMse : Nat := 16

/-- Memory Space Enable of the Relay function of a VSI: without it the function claims no access to its BARs (R267, R406). -/
def Chip.relayMse (c : Chip) (v : Nat) : Bool := (c.cfg v 1 keyMse).getLsbD 0

/-- The function number of the upstream bridge (none) or of a vBridge. -/
def fnOf (vbr : Option Nat) : Nat := match vbr with
  | some i => 2 + i
  | none => 0

/-! ## Reports to hosts (R102, R264) -/

/-- Keys of a function's AER registers: uncorrectable status, correctable status, and what uncorrectable severity differs in
from its default; of its Slot Status. -/
def keyAerUnc : Nat := 48
def keyAerCor : Nat := 49
def keyAerSev : Nat := 50
def keySlotStatus : Nat := 51

/-- Key of a function's ACS Control. -/
def keyAcs : Nat := 52

/-- Keys of the upstream bridge's multicast capability: its control word; a half of its base address. -/
def keyMcCtl : Nat := 54
def keyMcBase (hi : Bool) : Nat := 55 + (if hi then 1 else 0)

/-- The PCIe multicast group of VSI `v` whose range holds an address: its upstream bridge's capability names the base, the size
of a group's part and the number of groups (R284, Table 3.1). PRESUMED (log 194): the capability's fields lie as PCI Express has
them. -/
def Chip.mcGroupOf (c : Chip) (v addr : Nat) : Option Nat :=
  let ctl := (c.cfg v 0 keyMcCtl).toNat
  let lo := (c.cfg v 0 (keyMcBase false)).toNat
  let size := 2 ^ (lo % 64)
  let base := lo / 4096 * 4096 + (c.cfg v 0 (keyMcBase true)).toNat * 2 ^ 32
  if bitOf ctl 15 && decide (12 ≤ lo % 64) && decide (base ≤ addr) && decide ((addr - base) / size < ctl % 64 + 1)
  then some ((addr - base) / size) else none

/-- The bit of an error in Uncorrectable Error Status. PRESUMED (log 165): the bit numbers are those of PCI Express. -/
def AerErr.unc : AerErr → Option Nat
  | .surpriseDown => some 5
  | .flowControlProtocol => some 13
  | .completionTimeout => some 14
  | .unexpectedCompletion => some 16
  | .receiverOverflow => some 17
  | .malformedTlp => some 18
  | .unsupportedRequest => some 20
  | .acsViolation => some 21
  | .uncorrectableInternal => some 22
  | .badTlp => none
  | .replayTimer => none
  | .replayRollover => none
  | .correctedInternal => none

/-- The bit of an error in Correctable Error Status; an advisory error sets Advisory Non-Fatal there. PRESUMED (log 165): the bit
numbers are those of PCI Express. -/
def AerErr.cor : AerErr → Option Nat
  | .badTlp => some 6
  | .replayRollover => some 8
  | .replayTimer => some 12
  | .unexpectedCompletion => some 13
  | .correctedInternal => some 14
  | .surpriseDown => none
  | .flowControlProtocol => none
  | .completionTimeout => none
  | .receiverOverflow => none
  | .malformedTlp => none
  | .unsupportedRequest => none
  | .acsViolation => none
  | .uncorrectableInternal => none

/-- Uncorrectable Error Severity as reset leaves it: 1 for the errors that Tables 3.6 and 12.4 call fatal. -/
def aerSevDefault : Nat := 2 ^ 5 + 2 ^ 13 + 2 ^ 17 + 2 ^ 18 + 2 ^ 22

/-- Uncorrectable Error Severity of a function. -/
def Chip.aerSev (c : Chip) (v fn : Nat) : Nat := (c.cfg v fn keyAerSev).toNat ^^^ aerSevDefault

/-- A function's status dword takes a bit. -/
def Chip.setCfgBit (c : Chip) (v fn key : Nat) (bit : Option Nat) : Chip :=
  match bit with
  | some i => c.setCfg v fn key (setF (c.cfg v fn key) ⟨i, i⟩ 1)
  | none => c

/-- An AER error goes into the registers of the upstream bridge of a VSI (`vbr` none) or of one of its vBridges, and is
reported. -/
def Chip.aer (c : Chip) (v : Nat) (vbr : Option Nat) (e : AerErr) : Chip :=
  ((c.setCfgBit v (fnOf vbr) keyAerUnc e.unc).setCfgBit v (fnOf vbr) keyAerCor e.cor).emit (.aer v vbr e)

/-- A hot-plug event of a vBridge: Presence Detect Changed (Slot Status bit 3) and Data Link Layer State Changed (bit 8) are
set, and the host learns presence and link state (R264). -/
def Chip.hotplug (c : Chip) (v i : Nat) (present active : Bool) : Chip :=
  ((c.setCfgBit v (2 + i) keySlotStatus (some 3)).setCfgBit v (2 + i) keySlotStatus (some 8)).emit (.hotplug v i present active)

/-- The vBridges to which a downstream port, or a function on it, is bound (Table 8.10): VSI and vBridge. -/
def Chip.boundTo (c : Chip) (p : Nat) : List (Nat × Nat) :=
  (((c.vsi.ports.filter (fun b => b.2.2 == p)).map (fun b => (b.1, b.2.1))) ++
    ((c.vsi.hosts.filter (fun h => h.local_ == some p)).map (fun h => (h.v, h.vbr)))).dedup

/-- Report a port's error to its owner (R102): the VSI of an upstream port, or every vBridge bound to a downstream port. -/
def Chip.aerPort (c : Chip) (p : Nat) (e : AerErr) : Chip :=
  if (c.port p).up then
    match c.vsiOfPort p with
    | some v => c.aer v none e
    | none => c
  else (c.boundTo p).foldl (fun c b => c.aer b.1 (some b.2) e) c

end Sys2Proof.Machine
end

