-- ==== Sys2Proof/Machine/Operands.lean ====
section
/-!
DEFINITION. What the commands' operands and the packets built from them amount to: lengths, ordering types, the internal
header and the cell tag with their CRCs, completion-credit and completion-sink reservations, the completions the module
forms itself.
-/
namespace Sys2Proof.Machine

/-! ## TLPs -/

/-- Data bytes a TLP carries on the wire. -/
def Tlp.payload (t : Tlp) : Nat :=
  match t.kind with
  | .mwr | .fetchAdd | .swap | .cas | .cfgWr | .msg | .cpl | .dmwr => t.len
  | .mrd | .cfgRd | .mrdLk => 0

/-- Bytes of a TLP. -/
def Tlp.bytes (t : Tlp) : Nat := t.hdr + t.payload

/-- A TLP whose address a window has translated (R182): an address of 4 GiB or more takes a header of four DWs, one below it
three (DEDUCED, log 186). -/
def Tlp.moved (t : Tlp) (a : Nat) : Tlp :=
  { t with
    addr := a
    hdr := if decide (t.addr < 2 ^ 32 ∧ 2 ^ 32 ≤ a) then t.hdr + 4
      else if decide (2 ^ 32 ≤ t.addr ∧ a < 2 ^ 32) then t.hdr - 4 else t.hdr }

/-- OTYPE (Table 2.1): 0 posted, 1 non-posted, 2 completion. -/
def Tlp.otype (t : Tlp) : Nat :=
  match t.kind with
  | .mwr | .msg => 0
  | .cpl => 2
  | .mrd | .fetchAdd | .swap | .cas | .cfgRd | .cfgWr | .mrdLk | .dmwr => 1

/-- A memory request that R183 looks up. -/
def Tlp.isMem (t : Tlp) : Bool :=
  match t.kind with
  | .mrd | .mwr | .fetchAdd | .swap | .cas => true
  | _ => false

def Tlp.isAtomic (t : Tlp) : Bool :=
  match t.kind with
  | .fetchAdd | .swap | .cas => true
  | _ => false

/-- A read for the sector check (R334). -/
def Tlp.isRead (t : Tlp) : Bool := decide (t.kind = .mrd)

/-- A zero-length read (R536). -/
def Tlp.isZeroRead (t : Tlp) : Bool := decide (t.kind = .mrd) && t.len == 0

/-- The largest data a completion of a request other than a read can carry: an AtomicOp returns its operand size (half
the data of a CAS), a configuration read one DW, a configuration write none. -/
def Tlp.maxCplData (t : Tlp) : Nat :=
  match t.kind with
  | .fetchAdd | .swap => t.len
  | .cas => t.len / 2
  | .cfgRd => 4
  | _ => 0

/-- The bytes an entry starts with in REMAIN (Table 3.4, R536). -/
def Tlp.startRemain (t : Tlp) : Nat :=
  match t.kind with
  | .mrd => if t.len = 0 then 1 else t.len
  | _ => t.maxCplData

/-- A LEN beyond R37, or a request across a 4 KiB boundary (R185), is a malformed TLP. -/
def Tlp.isMalformed (t : Tlp) : Bool :=
  t.malformed || decide (t.bytes > 4208) || decide (t.hdr > 112) ||
    (t.isMem && decide (t.len > 0) && decide (t.addr / 4096 ≠ (t.addr + t.len - 1) / 4096))

/-- Receive credits a TLP covers: headers, data units of 16 bytes (R81). -/
def Tlp.creditH (_t : Tlp) : Nat := 1
def Tlp.creditD (t : Tlp) : Nat := ceilDiv t.payload 16

/-- Credit type: 0 posted, 1 non-posted, 2 completion. -/
def Tlp.creditType (t : Tlp) : Nat := t.otype

/-! ## Packets -/

/-- LEN of the internal header (Table 2.1): TLP bytes, with 16 bytes of Kaund header for a frame. -/
def Pkt.len (k : Pkt) : Nat := k.tlp.bytes + (if k.kh.isSome then 16 else 0)

/-- Bytes of the packet in cells: 16 IH bytes and LEN, padded to a multiple of 16 (R36). -/
def Pkt.size (k : Pkt) : Nat := 16 + ceilDiv k.len 16 * 16

/-- Cells that the packet takes when it is not packed. -/
def Pkt.cells (k : Pkt) : Nat := ceilDiv k.size 128

def Pkt.otype (k : Pkt) : Nat := k.tlp.otype
def Pkt.tc (k : Pkt) : Nat := k.tlp.tc

/-- Bytes 0 to 13 of the internal header (Table 2.1). -/
def Pkt.ihBytes (k : Pkt) : List Nat :=
  let w01 := k.len % 8192 + k.tc % 8 * 8192
  let w34 := (k.mc.getD 0) % 8192
  let w67 := k.inPort % 128 + k.src % 16 * 128
  let nf := k.noticeFa % 2 ^ 25
  [w01 % 256, w01 / 256,
   portStation k.egPort % 16 + portLocal k.egPort % 8 * 16 + b2n k.mc.isSome * 128,
   w34 % 256, w34 / 256,
   b2n k.cut + b2n k.guarded * 2 + b2n k.marked * 4 + b2n k.kh.isSome * 8 + k.otype * 16,
   w67 % 256, w67 / 256,
   nf % 256, nf / 256 % 256, nf / 65536 % 256, nf / 16777216,
   k.egVc % 8, 0]

/-- IH_CRC (Table 2.1): CRC-16 over bytes 0–13. -/
def Pkt.ihCrcOf (k : Pkt) : Nat := crc16 0xFFFF k.ihBytes

/-- A packet with its IH_CRC written. -/
def Pkt.sealIh (k : Pkt) : Pkt := { k with ihCrc := k.ihCrcOf }

/-- The check of R38. -/
def Pkt.ihOk (k : Pkt) : Bool := k.ihCrc == k.ihCrcOf

/-- Valid bytes of a cell. -/
def Cell.fill (x : Cell) : Nat := (x.segs.map (·.bytes)).sum

/-- Offset in bytes of the first IH that starts in a cell. -/
def headOffOf : List CellSeg → Nat → Option Nat
  | [], _ => none
  | g :: gs, at_ => if g.first then some at_ else headOffOf gs (at_ + g.bytes)

/-- The 32-bit cell tag (Table 2.3) with its TAG_CRC. -/
def Cell.tag (x : Cell) : Nat :=
  let ho := headOffOf x.segs 0
  let hi := (x.fill - 1) % 128 * 2 ^ 25 + b2n ho.isSome * 2 ^ 24 + (ho.getD 0) / 16 % 8 * 2 ^ 21 + b2n x.null * 2 ^ 20 +
    b2n x.mc * 2 ^ 19 + x.st % 16 * 2 ^ 12 + x.src % 16 * 2 ^ 8
  hi + crc8 hi 31 8

/-! ## Reservations -/

/-- RCB of R88. -/
def Chip.rcb (c : Chip) (p : Nat) : Nat := if c.flag (Reg.PRT_CTRL p) Bit.PRT_CTRL_CPL_RCB then 128 else 64

/-- Completion credits an entry reserves: CplH, CplD (R88, R536). -/
def cplReserve (rcb : Nat) (t : Tlp) : Nat × Nat :=
  match t.kind with
  | .mrd =>
    if t.len = 0 then (1, 1)
    else (ceilDiv (t.addr % rcb + t.len) rcb, ceilDiv (t.addr % 16 + t.len) 16)
  | _ => (1, ceilDiv t.maxCplData 16)

/-- Output-buffer cells a fabric request reserves at the requester's port (R191, R536). -/
def sinkReserve (t : Tlp) : Nat :=
  match t.kind with
  | .mrd =>
    if t.len = 0 then ceilDiv (4 + 48) 128 + 1
    else
      let n := ceilDiv (t.addr % 64 + t.len) 64
      ceilDiv (t.len + 48 * n) 128 + n
  | _ => ceilDiv (t.maxCplData + 48) 128 + 1

/-- The completion timeout of a port (Table 3.13), in ns. -/
def Chip.cto (c : Chip) (p : Nat) : Nat :=
  nth [50 * us, ms, 10 * ms, 50 * ms, 100 * ms, sec, 4 * sec, 16 * sec] (c.fld (Reg.CTO_CFG p) Bit.CTO_CFG_RANGE)

/-- Completion status codes. -/
def stSC : Nat := 0
def stUR : Nat := 1
def stRRS : Nat := 2
def stCA : Nat := 4

/-- Status of the answers of R92 and R93 at a port. -/
def Chip.synth (c : Chip) (p : Nat) : Nat := if c.flag (Reg.PRT_CTRL p) Bit.PRT_CTRL_SYNTH_UR then stUR else stCA

/-- A completion without data that answers a request (R92): ORIG_RID and ORIG_TAG, REMAIN in Byte Count, ADDR [6:0] in
Lower Address. -/
def answerTlp (status rid tag remain addr tc attr : Nat) (tee : Bool) : Tlp :=
  { kind := .cpl, hdr := 16, len := 0, rid, tag, tc, attr, tee, status, byteCount := remain, lower := addr % 128 }

/-- The completion that ends a request at its ingress with the given status. -/
def refuseTlp (status : Nat) (t : Tlp) : Tlp :=
  answerTlp status t.rid t.tag t.startRemain t.addr t.tc t.attr t.tee

/-! ## Frames -/

/-- A frame's bytes after the delimiter (R132). -/
def Frame.len (f : Frame) : Nat := 16 + f.tlp.bytes

/-- Signal slots a message needs (R160). -/
def SigMsg.need : SigMsg → Nat
  | .castOff .. => 1
  | .notice .. => 1
  | .refuse .. => 1
  | .farErr .. => 2
  | .mgmt _ _ _ bytes => 1 + ceilDiv bytes.length 15

def SigMsg.dest : SigMsg → Nat
  | .castOff d .. => d
  | .notice d .. => d
  | .refuse d .. => d
  | .farErr d .. => d
  | .mgmt d .. => d

def SigMsg.origin : SigMsg → Nat
  | .castOff _ _ o .. => o
  | .notice _ _ o _ => o
  | .refuse _ _ o .. => o
  | .farErr _ _ _ _ _ _ o => o
  | .mgmt _ o .. => o

def SigMsg.tc : SigMsg → Nat
  | .castOff _ t .. => t
  | .notice _ t .. => t
  | .refuse _ t .. => t
  | .farErr _ t .. => t
  | .mgmt .. => 0

def SigMsg.isNotice : SigMsg → Bool
  | .notice .. => true
  | _ => false

/-- STYPE of a message's first slot (Table 5.6). -/
def SigMsg.stype : SigMsg → Nat
  | .castOff .. => 1
  | .notice .. => 2
  | .refuse .. => 3
  | .farErr .. => 4
  | .mgmt .. => 5

/-- The MGMT_DATA slots of a message: 15 bytes each, numbered from 0. -/
def mgmtSlots : Nat → Nat → List Nat → List Slot
  | 0, _, _ => []
  | k + 1, i, bytes => .mgmtData i (bytes.take 15) :: mgmtSlots k (i + 1) (bytes.drop 15)

/-- The slots of a message, in order (Table 5.6). -/
def SigMsg.slots : SigMsg → List Slot
  | .castOff d t o e n r => [.castOff d t o e n r]
  | .notice d t o q => [.notice d t o q]
  | .refuse d t o e n k => [.refuse d t o e n k]
  | .farErr d t st a v s o => [.farErr0 d t st a v s, .farErr1 d t o s]
  | .mgmt d o i bytes => .mgmtHead d o bytes.length i :: mgmtSlots (ceilDiv bytes.length 15) 0 bytes

/-! ## Widths and rates -/

/-- Lanes of a CFG_WIDTH code (Table 3.9). -/
def widthLanes (code : Nat) : Nat := nth [0, 2, 4, 8, 16] code

/-- MT/s of a rate code (Table 3.11). -/
def rateMts (code : Nat) : Nat := nth [2500, 5000, 8000, 16000, 32000, 64000, 128000] code

/-- Raw MB/s of a port: width × GT/s × 1,000 / 8 (R322). -/
def Chip.rawMbs (c : Chip) (p : Nat) : Nat :=
  c.fld (Reg.PRT_STATUS p) Bit.PRT_STATUS_WIDTH * rateMts (c.fld (Reg.PRT_STATUS p) Bit.PRT_STATUS_RATE) / 8

/-- The stations of a port's lanes are one (R10); its first lane and quads (R8, R106). -/
def Chip.firstLane (c : Chip) (p : Nat) : Nat := 16 * portStation p + (c.port p).offset
def Chip.quadsOf (c : Chip) (p : Nat) : List Nat :=
  let w := widthLanes (c.port p).width
  (List.range 64).filter (fun q =>
    decide (4 * q < c.firstLane p + w ∧ c.firstLane p < 4 * q + 4))

/-- The existing ports on a lane quad. -/
def Chip.portsOfQuad (c : Chip) (q : Nat) : List Nat :=
  ((List.range 8).map (fun k => 8 * (q / 4) + k)).filter (fun p => (c.port p).present && (c.quadsOf p).contains q)

/-- The existing ports of a station. -/
def Chip.portsOfStation (c : Chip) (s : Nat) : List Nat :=
  ((List.range 8).map (fun k => 8 * s + k)).filter (fun p => (c.port p).present)

/-- Cable sites of a port (R9): eight lanes each. -/
def Chip.sitesOf (c : Chip) (p : Nat) : List Nat :=
  let w := widthLanes (c.port p).width
  (List.range 32).filter (fun i => decide (8 * i < c.firstLane p + w ∧ c.firstLane p < 8 * i + 8))

/-- PERST_N is low at an upstream port: at one of the sites on which it has a lane (R468). -/
def Chip.perstLow (c : Chip) (p : Nat) : Bool := (c.sitesOf p).any c.pci.perstIn.contains

end Sys2Proof.Machine
end

