-- ==== Sys2Proof/Machine/Layout.lean ====
section
/-!
DEFINITION. The bytes of what crosses a link: the start of a TLP, the Kaund header and its KH_CRC (Table 6.1), the frame
delimiter (Table 5.3), signal slots (Table 5.6), the link header and the flit (Tables 5.1, 5.2, 5.11), the Beacon frame mark
and message slot (Tables 4.2, 4.3), each CRC-16 low byte first (R535).
-/
namespace Sys2Proof.Machine

/-! ## TLPs -/

/-- Bytes of a number, most significant first, as PCIe orders the fields of a TLP header. -/
def beBytes (k n : Nat) : List Nat := (leBytes k n).reverse

/-- The Type byte of a TLP in flit mode; `wide` for an address of 64 bits. PRESUMED (log 167): the PCIe flit-mode encodings, which
the manual takes over without restating them. -/
def Tlp.typeByte (t : Tlp) (wide : Bool) : Nat :=
  match t.kind with
  | .mrd => if wide then 0x20 else 0x03
  | .mrdLk => if wide then 0x21 else 0x01
  | .mwr => if wide then 0x60 else 0x40
  | .dmwr => if wide then 0x7B else 0x5B
  | .fetchAdd => if wide then 0x6C else 0x4C
  | .swap => if wide then 0x6D else 0x4D
  | .cas => if wide then 0x6E else 0x4E
  | .cfgRd => 0x04
  | .cfgWr => 0x44
  | .msg => if t.len = 0 then 0x30 else 0x70
  | .cpl => if t.len = 0 then 0x0A else 0x4A

/-- The 16 bytes of a Relay message header (Table 9.11). -/
def RelayMsg.bytes (m : RelayMsg) : List Nat :=
  [if m.reply then 2 else 1, m.status % 256] ++ leBytes 2 (m.destSlice % 4096) ++ leBytes 2 (m.srcSlice % 4096) ++
    leBytes 2 m.ref ++ leBytes 4 m.key ++ leBytes 2 (m.len % 2 ^ 13) ++ [0, 0]

/-- The bytes of a TLP's header base, 12 or 16 of them. PRESUMED (log 167): the PCIe flit-mode places of type, class, attributes,
length, requester or completer ID, tag, address, Byte Count and Lower Address, and of the code and the vendor identifier of a
Vendor-Defined Message Type 1 (R302). -/
def Tlp.base (t : Tlp) : List Nat :=
  let wide := decide (2 ^ 32 ≤ t.addr)
  let dws := ceilDiv t.len 4 % 1024
  let dw0 := [t.typeByte wide, t.tc % 8 * 32, t.attr % 8 * 4 + dws / 256, dws % 256]
  let own := if t.kind = .cpl then t.cid else t.rid
  let dw1 := beBytes 2 own ++ beBytes 2 (t.tag % 2 ^ 14 + b2n t.poison * 2 ^ 15)
  if t.rmsg.isSome then dw0 ++ beBytes 2 own ++ [0, 0x7F] ++ [0, 0] ++ beBytes 2 Config.vomeonId ++ beBytes 4 0
  else match t.kind with
  | .cpl => dw0 ++ dw1 ++ beBytes 2 t.rid ++ beBytes 2 (t.lower / 4 % 16 * 4096 + t.byteCount % 4096)
  | .cfgRd => dw0 ++ dw1 ++ beBytes 2 t.dest ++ beBytes 2 (t.addr / 4 * 4)
  | .cfgWr => dw0 ++ dw1 ++ beBytes 2 t.dest ++ beBytes 2 (t.addr / 4 * 4)
  | _ => dw0 ++ dw1 ++ (if wide then beBytes 8 (t.addr / 4 * 4) else beBytes 4 (t.addr / 4 * 4))

/-- What the data of a TLP holds: the header of a Relay message, then the bytes (R302). -/
def Tlp.body (t : Tlp) : List Nat :=
  (match t.rmsg with
   | some m => m.bytes
   | none => []) ++ t.data.map BitVec.toNat

/-- The data bytes that a TLP carries; bytes that no operand gives are 0. -/
def Tlp.dataBytes (t : Tlp) : List Nat := t.body.take t.payload ++ List.replicate (t.payload - t.body.length) 0

/-- A TLP as flit mode formats it: header, prefixes and OHC, data, and what trails it (R170). -/
def Tlp.wire (t : Tlp) : List Nat :=
  (t.base ++ t.ext.map BitVec.toNat ++ t.dataBytes ++ t.trail.map BitVec.toNat ++ List.replicate t.hdr 0).take t.bytes

/-- The first 16 bytes of a TLP, fewer in one that is shorter. -/
def Tlp.first16 (t : Tlp) : List Nat :=
  ((t.base ++ t.ext.map BitVec.toNat ++ t.body.take (min 16 t.payload) ++ List.replicate 16 0).take t.bytes).take 16

/-! ## The Kaund header (Table 6.1) -/

/-- Header bytes 0 to 13. -/
def KHdr.bytes (h : KHdr) : List Nat :=
  leBytes 4 (h.destFa % 2 ^ 25 + b2n h.mc * 2 ^ 25 + h.tc % 8 * 2 ^ 26 + b2n h.guarded * 2 ^ 29 + b2n h.cong * 2 ^ 30 +
      b2n h.world * 2 ^ 31) ++
    leBytes 4 (h.srcFa % 2 ^ 25 + h.srcVsi % 64 * 2 ^ 25 + b2n h.desc * 2 ^ 31) ++
    leBytes 4 (h.n % 2 ^ 16 + h.epoch % 256 * 2 ^ 16 + h.hops % 16 * 2 ^ 24 + h.alt % 4 * 2 ^ 28) ++ leBytes 2 h.wgen

/-- KH_CRC of a frame: CRC-16 over header bytes 0 to 13, then the first 16 bytes of the TLP (Table 6.1). -/
def Frame.crcOf (f : Frame) : Nat := crc16 0xFFFF (f.kh.bytes ++ f.tlp.first16)

/-- The check of R172. -/
def Frame.crcOk (f : Frame) : Bool := f.crc == f.crcOf

/-- A frame with its KH_CRC written. -/
def Frame.seal (f : Frame) : Frame := { f with crc := f.crcOf }

/-- The LEN bytes of a frame: the header with KH_CRC low byte first, then the TLP (R170). -/
def Frame.wire (f : Frame) : List Nat := f.kh.bytes ++ leBytes 2 f.crc ++ f.tlp.wire

/-- The delimiter of a frame (Table 5.3). -/
def FrameStart.bytes (f : FrameStart) : List Nat :=
  leBytes 4 (f.start % 256 + f.vc % 8 * 2 ^ 8 + f.otype % 4 * 2 ^ 11 + f.len % 2 ^ 13 * 2 ^ 16)

/-! ## Signal slots (Table 5.6) -/

/-- Bytes 1 to 4 of a routed slot. -/
def slotDest (destFa tc : Nat) : List Nat := leBytes 4 (destFa % 2 ^ 25 + tc % 8 * 2 ^ 25)

/-- SEQ: EPOCH in bits [23:16], N in bits [15:0] (Table 7.1). -/
def seqBytes (epoch n : Nat) : List Nat := leBytes 3 (n % 2 ^ 16 + epoch % 256 * 2 ^ 16)

/-- The bytes of a slot before it is filled up with zeros. -/
def Slot.head : Slot → List Nat
  | .null => [0]
  | .castOff d t o e n r => 1 :: slotDest d t ++ leBytes 4 (o % 2 ^ 25) ++ seqBytes e n ++ [b2n r]
  | .notice d t o q => 2 :: slotDest d t ++ leBytes 4 (o % 2 ^ 25) ++ [q % 256]
  | .refuse d t o e n k => 3 :: slotDest d t ++ leBytes 4 (o % 2 ^ 25) ++ seqBytes e n ++ [k % 256]
  | .farErr0 d t st a v ser => 4 :: slotDest d t ++ leBytes 8 (a / 4 * 4 + st % 4) ++ [v % 64, ser % 256]
  | .farErr1 d t o ser => (4 + 1 * 16) :: slotDest d t ++ leBytes 4 (o % 2 ^ 25) ++ [ser % 256]
  | .mgmtHead d o len id => 5 :: slotDest d 0 ++ leBytes 4 (o % 2 ^ 25) ++ [len % 256, id % 256]
  | .mgmtData sub bytes => (6 + sub % 16 * 16) :: bytes.take 15
  | .echo reply t r => [7, b2n reply, 0, 0, 0] ++ leBytes 4 t ++ leBytes 4 (if reply then r else 0)
  | .reserved k => [k % 16]

/-- The 16 bytes of a slot. -/
def Slot.bytes (s : Slot) : List Nat := (s.head ++ List.replicate 16 0).take 16

/-! ## Flits (Tables 5.1, 5.2, 5.11) -/

/-- FLIT_TYPE as Table 5.2 encodes it. -/
def FlitType.code : FlitType → Nat
  | .data => 0
  | .signal => 1
  | .init => 2
  | .reserved => 3

/-- The link header, bit 0 being bit 0 of byte 236 (Table 5.2). -/
def Flit.linkHdr (f : Flit) : Nat :=
  (if f.ftype = .data then f.seq % 2 ^ 16 else 0) + f.ackSeq % 2 ^ 16 * 2 ^ 16 + f.ftype.code * 2 ^ 32 + b2n f.nak * 2 ^ 34 +
    b2n f.null * 2 ^ 35 + b2n f.fcSel * 2 ^ 36 + f.fcBits % 256 * 2 ^ 37

/-- The INIT payload (Table 5.11). -/
def InitParams.bytes (i : InitParams) : List Nat :=
  leBytes 4 (i.ownFa % 2 ^ 25 + b2n i.facing * 2 ^ 25) ++
    [i.vcEn % 256, i.major % 16 + i.minor % 16 * 16, b2n i.peerSeen]

/-- PAYLOAD, bytes 0 to 219: frame bytes, 13 signal slots, or the link parameters. -/
def Flit.payloadBytes (f : Flit) : List Nat :=
  let b := match f.ftype with
    | .data => f.payload.flatMap (·.wire)
    | .signal => (f.slots.take 13).flatMap Slot.bytes
    | .init => f.init.bytes
    | .reserved => []
  (b ++ List.replicate 220 0).take 220

/-- Bytes 0 to 241, which the flit CRC covers (Table 5.1). -/
def Flit.covered (f : Flit) : List Nat := f.payloadBytes ++ f.slot.bytes ++ leBytes 6 f.linkHdr

/-- The 256 bytes of a flit: the covered bytes, then the 8 CRC bytes and the 6 FEC bytes of PCIe flit mode (R127, R128). -/
def Flit.bytes (f : Flit) : List Nat :=
  let crc := (List.range 8).map (Config.flitCrc f.covered)
  f.covered ++ crc ++ (List.range 6).map (Config.flitFec (f.covered ++ crc))

/-! ## The Beacon Ring (Tables 4.2, 4.3)

A symbol is a byte, or 256 plus the byte of a K code. -/

def kComma : Nat := 256 + 0xBC
def kMark : Nat := 256 + 0xFB
def kMsgStart : Nat := 256 + 0x5C
def kMsgEnd : Nat := 256 + 0xFD

/-- Symbols 1 to 13 of a frame mark. -/
def BeaconMark.body (m : BeaconMark) : List Nat := leBytes 4 m.fsn ++ leBytes 8 m.time ++ [m.master % 128]

/-- CRC-16 over symbols 1 to 13. -/
def BeaconMark.crcOf (m : BeaconMark) : Nat := crc16 0xFFFF m.body

def BeaconMark.crcOk (m : BeaconMark) : Bool := m.crc == m.crcOf

def BeaconMark.seal (m : BeaconMark) : BeaconMark := { m with crc := m.crcOf }

/-- The 16 symbols of a frame mark. DESIGN CHOICE (log 195): Tables 4.2 and 4.3 give the CRC-16 no byte order, here the low byte
is sent first. -/
def BeaconMark.symbols (m : BeaconMark) : List Nat := kMark :: m.body ++ leBytes 2 m.crc

/-- Symbols 1 to 5 + n of a message slot. -/
def BeaconMsg.body (m : BeaconMsg) : List Nat :=
  [m.type % 256, m.dest % 128 + b2n m.bcast * 128, m.src % 128, m.seq % 256, m.payload.length % 256] ++ m.payload.map (· % 256)

/-- CRC-16 over symbols 1 to 5 + n. -/
def BeaconMsg.crcOf (m : BeaconMsg) : Nat := crc16 0xFFFF m.body

def BeaconMsg.seal (m : BeaconMsg) : BeaconMsg := { m with crc := m.crcOf }

/-- A message without a code, disparity or CRC error (R121), whose payload is at most 64 bytes (Table 4.3). -/
def BeaconMsg.ok (m : BeaconMsg) : Bool := m.codeOk && m.crc == m.crcOf && decide (m.payload.length ≤ 64)

/-- The symbols of a message slot. -/
def BeaconMsg.wire (m : BeaconMsg) : List Nat := kMsgStart :: m.body ++ leBytes 2 m.crc ++ [kMsgEnd]

/-- Symbols of a message slot. -/
def BeaconMsg.symbols (m : BeaconMsg) : Nat := m.payload.length + 9

/-- The 625 symbols of a frame: its mark, its messages, and K28.5 for what they leave (R120). -/
def beaconFrameWire (m : BeaconMark) (msgs : List BeaconMsg) : List Nat :=
  (m.symbols ++ msgs.flatMap BeaconMsg.wire ++ List.replicate 625 kComma).take 625

end Sys2Proof.Machine
end

