-- ==== Sys2Proof/Machine/Route.lean ====
section
/-!
DEFINITION. Lookups: the route tables and their candidates (R174 to R178), the address windows (R182, R183), a VSI's own
address routing, the sector check (R330 to R339), and the comparison of the two pipelines (R46, R47).
-/
namespace Sys2Proof.Machine

/-! ## Candidates (R174 to R176) -/

/-- R175: a span port in UP, not in Fog, REVERT_HOLD after it last entered UP, on a station that is not in reset. -/
def Chip.usable (c : Chip) (p : Nat) : Bool :=
  c.stUp (portStation p) && c.isSpan p && c.spanState p == spUp && !c.inPortFog p &&
    (match c.knd.spans.find? (fun s => s.port == p) with
     | some s => decide (s.upSince + c.fld Reg.KND_CTRL Bit.KND_CTRL_REVERT_HOLD * 100 * us ≤ c.now)
     | none => false)

/-- The valid candidates of a route entry, in byte order (Table 6.11). -/
def entCands (w : Word) : List Nat :=
  ([0, 1, 2, 3].filter (fun k => getF w ⟨8 * k + 7, 8 * k + 7⟩ == 1)).map (fun k => getF w ⟨8 * k + 6, 8 * k⟩)

/-- The route entry that a pipeline reads for an FA of another module (R174). -/
def Chip.routeEnt (c : Chip) (pipe : Bool) (fa : Nat) : Word :=
  if faReach fa ≠ c.fld Reg.KND_ID Bit.KND_ID_REACH then c.tab pipe (Reg.REACH_ENT (faReach fa))
  else c.tab pipe (Reg.MOD_ENT (faModule fa))

/-- The candidate choice of R176: from `(h + alt) mod n` on, the first usable candidate. -/
def pickCand (usable : Nat → Bool) (cands : List Nat) (start : Nat) : Option Nat :=
  let n := cands.length
  if n = 0 then none
  else ((List.range n).map (fun i => nth cands ((start + i) % n))).find? usable

/-- The span port that a pipeline chooses for an FA of another module, or none (R178). -/
def Chip.routeTo (c : Chip) (pipe : Bool) (destFa srcFa tc alt : Nat) : Option Nat :=
  let h := routeHash (c.fld Reg.KND_CTRL Bit.KND_CTRL_HASH_SEED) destFa srcFa tc
  pickCand c.usable (entCands (c.routeEnt pipe destFa)) (h + alt)

/-- EG_VC of a class (R173), from the map in force. -/
def Chip.egVc (c : Chip) (pipe : Bool) (tc : Nat) : Nat :=
  getF (c.tab pipe Reg.KND_TCVC) ⟨3 * (tc % 8) + 2, 3 * (tc % 8)⟩

/-! ## Windows (R182, R183) -/

/-- A window, as the table holds it. -/
structure Win where
  idx : Nat
  valid : Bool
  base : Nat
  size : Nat
  vsi : Nat
  mps : Nat
  mrrs : Nat
  mc : Bool
  off : Nat
  dest : Nat
  deriving DecidableEq, Repr

/-- Decode window `w` from a reading of its words. -/
def winOf (rd : Nat → Word) (w : Nat) : Win :=
  let lo := rd (Reg.WIN_BASE_LO w)
  let attr := rd (Reg.WIN_ATTR w)
  { idx := w
    valid := getF lo Bit.WIN_BASE_LO_VALID == 1
    base := getF lo Bit.WIN_BASE_LO_BASE * 4096 + (rd (Reg.WIN_BASE_HI w)).toNat * 2 ^ 32
    size := (rd (Reg.WIN_SIZE w)).toNat
    vsi := getF attr Bit.WIN_ATTR_VSI
    mps := getF attr Bit.WIN_ATTR_MPS
    mrrs := getF attr Bit.WIN_ATTR_MRRS
    mc := getF attr Bit.WIN_ATTR_MC == 1
    off := getF (rd (Reg.WIN_OFF_LO w)) Bit.WIN_OFF_LO_OFFSET * 4096 + (rd (Reg.WIN_OFF_HI w)).toNat * 2 ^ 32
    dest := getF (rd (Reg.WIN_DEST w)) Bit.WIN_DEST_DEST_FA }

/-- The window index whose WIN_BASE_LO lies at an offset. -/
def winIdxAt (off : Nat) : Option Nat :=
  if 0x810000 ≤ off ∧ off < 0x850000 ∧ (off - 0x810000) % 32 = 0 then some ((off - 0x810000) / 32) else none

/-- The valid windows of a table: VALID is not the reset value, so a valid window's word is listed. -/
def validWins (m : SMap Word) (rd : Nat → Word) : List Win :=
  ((m.filterMap (fun e => winIdxAt e.1)).map (winOf rd)).filter (·.valid)

/-- The windows in force in a pipeline. -/
def Chip.wins (c : Chip) (pipe : Bool) : List Win :=
  validWins (if pipe then c.tabB else c.tabA) (c.tab pipe)

def Win.holds (w : Win) (v a : Nat) : Bool :=
  w.vsi == v && decide (w.base ≤ a ∧ a < w.base + w.size * 4096)

/-- The window of a VSI that an address hits. -/
def Chip.winHit (c : Chip) (pipe : Bool) (v a : Nat) : Option Win := (c.wins pipe).find? (fun w => w.holds v a)

/-- The translated address (R182). -/
def Win.translate (w : Win) (a : Nat) : Nat := (a + w.off) % 2 ^ 64

/-- Bytes of an MPS or MRRS code. -/
def codeBytes (k : Nat) : Nat := 128 * 2 ^ k

/-! ## A VSI's own address routing (R183 step 3) -/

/-- Both pipelines' copies of the vBridges' ranges are written at once (R46). -/
def Chip.putVbrs (c : Chip) (l : List VBr) : Chip := { c with vsi := { c.vsi with vbrs := l, vbrsB := l } }

/-- The port below the vBridge of a VSI whose memory range holds an address; only kind PORT leads anywhere. Each pipeline reads its
own copy of the ranges. -/
def Chip.vbrPort (c : Chip) (pipe : Bool) (v a : Nat) : Option Nat :=
  match (if pipe then c.vsi.vbrsB else c.vsi.vbrs).find? (fun b => b.v == v && b.ranges.any (fun r => decide (r.1 ≤ a ∧ a ≤ r.2))) with
  | some b => (c.vsi.ports.find? (fun t => t.1 == v && t.2.1 == b.i)).map (fun t => t.2.2)
  | none => none

/-! ## Access Control Services of a downstream port (Table 3.1)

PRESUMED (log 164): Table 3.1 names the services and the manual gives no register; the bits of ACS Control and what each service does
are those of PCI Express. -/

def acsValidate : Nat := 0
def acsBlock : Nat := 1
def acsRedirect : Nat := 2
def acsCplRedirect : Nat := 3
def acsUpForward : Nat := 4
def acsDirect : Nat := 6

/-- The vBridge of VSI `v` that a downstream port is bound to. -/
def Chip.vbrAt (c : Chip) (p v : Nat) : Option Nat := ((c.boundTo p).find? (fun b => b.1 == v)).map (·.2)

/-- A service of a downstream port is enabled in the vBridge that VSI `v` holds for it. -/
def Chip.acsOn (c : Chip) (p v bit : Nat) : Bool :=
  match c.vbrAt p v with
  | some i => bitOf (c.cfg v (2 + i) keyAcs).toNat bit
  | none => false

/-- A request of a downstream port breaks its ACS: Source Validation wants a requester on the bus range below the vBridge,
Translation Blocking an untranslated address. -/
def Chip.acsBreaks (c : Chip) (p v : Nat) (t : Tlp) : Bool :=
  match c.vbrAt p v with
  | some i =>
    let lo := c.fld (Reg.VBR_STATE v i) Bit.VBR_STATE_SEC_BUS
    let hi := c.fld (Reg.VBR_STATE v i) Bit.VBR_STATE_SUB_BUS
    (c.acsOn p v acsValidate && !decide (lo ≤ t.rid / 256 ∧ t.rid / 256 ≤ hi)) ||
      (t.isMem && c.acsOn p v acsBlock && t.at_ != 0)
  | none => false

/-- A request of downstream port `p` for port `q` of its own VSI goes up instead: Upstream Forwarding of what would return to
`p`, and P2P Request Redirect of what is for another downstream port, but for a translated address under Direct Translated
P2P. -/
def Chip.acsUp (c : Chip) (v p q : Nat) (t : Tlp) : Bool :=
  if p = q then c.acsOn p v acsUpForward
  else c.acsOn p v acsRedirect && !(t.at_ == 2 && c.acsOn p v acsDirect)

/-- Where a pipeline sends a packet. -/
structure Look where
  /-- 0 nowhere, 1 a local port, 2 multicast, 3 a span port -/
  kind : Nat := 0
  port : Nat := 0
  mc : Nat := 0
  vc : Nat := 0
  deriving DecidableEq, Repr

/-- Where the window's destination leads: multicast, a port of this module, or a span port. -/
def Chip.lookDest (c : Chip) (pipe : Bool) (isMc : Bool) (dest srcFa tc alt : Nat) : Look :=
  if isMc then { kind := 2, mc := 64 + dest % 4096, vc := c.egVc pipe tc }
  else if c.faHere dest then { kind := 1, port := faPort dest, vc := c.egVc pipe tc }
  else
    match c.routeTo pipe dest srcFa tc alt with
    | some p => { kind := 3, port := p, vc := c.egVc pipe tc }
    | none => { kind := 0, vc := c.egVc pipe tc }

/-- The ALT that a new frame of a stream takes: the stream's own, while the stream holds copies; 0 where it opens (R33, R207,
R224). -/
def Chip.altOf (c : Chip) (srcFa tc destFa : Nat) : Nat :=
  match c.mor.streams.find? (fun x => x.srcFa == srcFa && x.tc == tc && x.destFa == destFa) with
  | some x =>
    if c.mor.copies.any (fun k => k.srcFa == srcFa && k.tc == tc && k.destFa == destFa) then x.alt else 0
  | none => 0

/-- The class of a VSI is guarded (R201). -/
def Chip.guardedClass (c : Chip) (v tc : Nat) : Bool := c.fldBit (Reg.GUARD_MAP v) Bit.GUARD_MAP_TC_MASK tc

/-- The lookup of a memory request of VSI `v` (R183): windows first, then the PCIe multicast range, then the VSI's own routing.
`below` is the downstream port it came from, if any: an address of no vBridge then goes up, as does what its ACS redirects. -/
def Chip.lookMem (c : Chip) (pipe : Bool) (v srcFa : Nat) (below : Bool) (t : Tlp) : Option Win × Look :=
  match c.winHit pipe v t.addr with
  | some w =>
    (some w, c.lookDest pipe w.mc w.dest srcFa t.tc (if c.guardedClass v t.tc then c.altOf srcFa t.tc w.dest else 0))
  | none =>
    let vc := c.egVc pipe t.tc
    match (if t.kind = .mwr then t.mcGroup <|> c.mcGroupOf v t.addr else t.mcGroup) with
    | some g => (none, { kind := 2, mc := g % 64, vc })
    | none =>
      let up : Look := match c.portOfVsi v with
        | some p => { kind := 1, port := p, vc }
        | none => { vc }
      match c.vbrPort pipe v t.addr with
      | some p => (none, if below && c.acsUp v (faPort srcFa) p t then up else { kind := 1, port := p, vc })
      | none => (none, if below then up else { vc })

/-! ## Sectors (R330 to R339) -/

/-- A sector, as the table holds it. -/
structure Sector where
  idx : Nat
  valid : Bool
  base : Nat
  size : Nat
  kind : Nat
  target : Nat
  r : Bool
  w : Bool
  normal : Bool
  trusted : Bool
  prefetch : Bool
  locked : Bool
  debugVis : Bool
  vsiEn : Bool
  vsi : Nat
  pasidEn : Bool
  pasid : Nat
  deriving DecidableEq, Repr

def sectorOf (rd : Nat → Word) (n : Nat) : Sector :=
  let lo := rd (Reg.SECTOR_BASE_LO n)
  let tg := rd (Reg.SECTOR_TGT n)
  let ac := rd (Reg.SECTOR_ACC n)
  { idx := n
    valid := getF lo Bit.SECTOR_BASE_LO_VALID == 1
    base := getF lo Bit.SECTOR_BASE_LO_BASE * 4096 + (rd (Reg.SECTOR_BASE_HI n)).toNat * 2 ^ 32
    size := (rd (Reg.SECTOR_SIZE n)).toNat
    kind := getF tg Bit.SECTOR_TGT_KIND
    target := getF tg Bit.SECTOR_TGT_TARGET
    r := getF ac Bit.SECTOR_ACC_R == 1
    w := getF ac Bit.SECTOR_ACC_W == 1
    normal := getF ac Bit.SECTOR_ACC_NORMAL == 1
    trusted := getF ac Bit.SECTOR_ACC_TRUSTED == 1
    prefetch := getF ac Bit.SECTOR_ACC_PREFETCH == 1
    locked := getF ac Bit.SECTOR_ACC_LOCKED == 1
    debugVis := getF ac Bit.SECTOR_ACC_DEBUG_VIS == 1
    vsiEn := getF ac Bit.SECTOR_ACC_VSI_EN == 1
    vsi := getF ac Bit.SECTOR_ACC_VSI
    pasidEn := getF ac Bit.SECTOR_ACC_PASID_EN == 1
    pasid := getF (rd (Reg.SECTOR_PASID n)) Bit.SECTOR_PASID_PASID }

def sectorIdxAt (off : Nat) : Option Nat :=
  if 0x3010000 ≤ off ∧ off < 0x3030000 ∧ (off - 0x3010000) % 32 = 0 then some ((off - 0x3010000) / 32) else none

def validSectors (m : SMap Word) (rd : Nat → Word) : List Sector :=
  ((m.filterMap (fun e => sectorIdxAt e.1)).map (sectorOf rd)).filter (·.valid)

/-- An access as the check sees it (R331 to R334): space, checked address, type, VSI of Table 11.3, PASID, TEE bit. -/
structure Access where
  kind : Nat
  target : Nat
  addr : Nat
  read : Bool
  write : Bool
  vsi : Nat
  pasid : Option Nat := none
  tee : Bool := false
  deriving DecidableEq, Repr

/-- R332. -/
def Sector.covers (x : Sector) (a : Access) : Bool :=
  x.valid && x.kind == a.kind && x.target == a.target &&
    decide (x.base ≤ a.addr ∧ a.addr < x.base + x.size * 4096) &&
    (!x.vsiEn || x.vsi == a.vsi) && (!x.pasidEn || a.pasid == some x.pasid)

/-- R333 for a matched sector. -/
def Sector.allows (x : Sector) (a : Access) : Bool :=
  (!a.read || x.r) && (!a.write || x.w) && (if a.tee then x.trusted else x.normal)

/-- The verdict of one copy: allowed, prefetchable, matched sectors. -/
structure Verdict where
  ok : Bool
  prefetch : Bool := false
  hits : List Nat := []
  deriving DecidableEq, Repr

/-- The checking island of the Relay engine among those that hold copies of the sector table (R338); a station has its number. -/
def secRelay : Nat := 16

/-- A word of the sector table in a copy of a checking island. -/
def Chip.secWord (c : Chip) (isl : Nat) (b : Bool) (off : Nat) : Word :=
  ((c.saf.secDev.find? (fun x => x.isl == isl && x.b == b && x.off == off)).map (·.word)).getD (c.tab b off)

/-- The valid sectors of a copy. -/
def Chip.secCopy (c : Chip) (isl : Nat) (b : Bool) : List Sector :=
  let mine := (c.saf.secDev.filter (fun x => x.isl == isl && x.b == b)).map (fun x => (x.off, x.word))
  let m := if b then c.tabB else c.tabA
  validSectors (m ++ mine.filter (fun x => !m.any (fun e => e.1 == x.1))) (c.secWord isl b)

/-- Default-allow of a VSI, in a copy. -/
def Chip.secDefault (c : Chip) (isl : Nat) (b : Bool) (v : Nat) : Bool :=
  if v < 32 then bitOf (c.secWord isl b Reg.SEC_DEFAULT_0).toNat v else bitOf (c.secWord isl b Reg.SEC_DEFAULT_1).toNat (v - 32)

/-- The check of one copy. -/
def Chip.verdict (c : Chip) (isl : Nat) (b : Bool) (a : Access) : Verdict :=
  match (c.secCopy isl b).filter (·.covers a) with
  | [] => { ok := c.secDefault isl b a.vsi }
  | [x] => { ok := x.allows a, prefetch := x.prefetch, hits := [x.idx] }
  | xs => { ok := false, hits := xs.map (·.idx) }

/-- The address space of an access that leaves by a lookup (Table 11.2): the VSI behind an upstream port, a downstream
port, another module's port, a multicast group. -/
def Chip.spaceOf (c : Chip) (l : Look) (win : Option Win) : Nat × Nat :=
  if l.kind = 2 then (3, l.mc)
  else
    match win with
    | some w =>
      if c.faHere w.dest then
        let p := faPort w.dest
        if (c.port p).up then (0, (c.vsiOfPort p).getD 0) else (1, p)
      else (2, w.dest)
    | none => if (c.port l.port).up then (0, (c.vsiOfPort l.port).getD 0) else (1, l.port)

/-- The access of a memory TLP toward a space. -/
def accessOf (space : Nat × Nat) (addr v : Nat) (t : Tlp) : Access :=
  { kind := space.1, target := space.2, addr, vsi := v, pasid := t.pasid, tee := t.tee
    read := t.isRead || t.isAtomic, write := decide (t.kind = .mwr) || t.isAtomic }

/-- What the two copies together say: refused without doubt, allowed, or in doubt: they differ (R338), two sectors match in one of
them (R339, `hits`), or both. -/
inductive SecOutcome where
  | allowed (prefetch : Bool)
  | denied (hits : List Nat)
  | doubt (differ : Bool) (hits : List Nat)
  deriving DecidableEq, Repr

/-- Both copies of a checking island, compared. `flip` alters one verdict, as INJECT class 6 does (R366). -/
def Chip.secCheck (c : Chip) (isl : Nat) (a : Access) (flip : Bool) : SecOutcome :=
  let va := c.verdict isl false a
  let vb0 := c.verdict isl true a
  let vb := if flip then { vb0 with ok := !vb0.ok } else vb0
  let differ := decide (va.ok ≠ vb.ok ∨ va.hits ≠ vb.hits)
  let double := if 1 < va.hits.length then va.hits else if 1 < vb.hits.length then vb.hits else []
  if differ || !double.isEmpty then .doubt differ double
  else if va.ok then .allowed va.prefetch
  else .denied va.hits

/-- A refusal is recorded (R345): DENY_ADDR, DENY_INFO, DENY, and the counter of the checking station. -/
def Chip.recordDeny (c : Chip) (a : Access) (hits : List Nat) (path : Nat) (st : Option Nat) : Chip :=
  let c := c.wr Reg.DENY_ADDR_LO (BitVec.ofNat 32 a.addr)
  let c := c.wr Reg.DENY_ADDR_HI (BitVec.ofNat 32 (a.addr / 2 ^ 32))
  let c := c.setFld Reg.DENY_INFO Bit.DENY_INFO_SECTOR (hits.headD 0)
  let c := c.setFld Reg.DENY_INFO Bit.DENY_INFO_NO_MATCH (b2n hits.isEmpty)
  let c := c.setFld Reg.DENY_INFO Bit.DENY_INFO_VSI a.vsi
  let c := c.setFld Reg.DENY_INFO Bit.DENY_INFO_PATH path
  let c := c.setFld Reg.DENY_INFO Bit.DENY_INFO_WRITE (b2n a.write)
  let c := c.setFld Reg.DENY_INFO Bit.DENY_INFO_WORLD (b2n a.tee)
  let c := c.setBit Reg.SEC_EVENT Bit.SEC_EVENT_DENY
  match st with
  | some s => c.ctrInc kStation s 51
  | none => c

end Sys2Proof.Machine
end

