-- ==== Sys2Proof/Machine/Signal.lean ====
section
/-!
DEFINITION. The Signal channel and the reports that travel on it: signal queues (R158 to R160), FAR_ERR and the Far Error
Log (R161, R200), notices (R73), and the egress order-stream contexts with their cast-offs (R214 to R219).
-/
namespace Sys2Proof.Machine

/-! ## Span link layers -/

/-- The link layer of a span port. -/
def Chip.span (c : Chip) (p : Nat) : Span := (c.knd.spans.find? (fun s => s.port == p)).getD { port := p }

/-- Put a link layer in place of the one its port has. -/
def Chip.putSpan (c : Chip) (s : Span) : Chip :=
  { c with knd := { c.knd with spans := s :: c.knd.spans.filter (fun x => x.port != s.port) } }

def Chip.updSpan (c : Chip) (p : Nat) (f : Span → Span) : Chip := c.putSpan (f (c.span p))

/-- The counters of Table 5.13, by their order. -/
def cBadFlit : Nat := 0
def cDupFlit : Nat := 1
def cOosFlit : Nat := 2
def cNakSent : Nat := 3
def cNakRcvd : Nat := 4
def cReplayTmo : Nat := 5
def cReplayFlits : Nat := 6
def cReplayFull : Nat := 7
def cReplayDiscard : Nat := 8
def cNullFrames : Nat := 9
def cFramingErrs : Nat := 10
def cSigDrop : Nat := 11
def cSigBadType : Nat := 12
def cFcStale : Nat := 13
def cLinkResets : Nat := 14
def cRecoveries : Nat := 15

/-- t_flit of a span port in ns (R127). -/
def Chip.tFlit (c : Chip) (p : Nat) : Nat :=
  let w := c.fld (Reg.SPAN_STATUS p) Bit.SPAN_STATUS_WIDTH
  let r := if c.flag (Reg.SPAN_STATUS p) Bit.SPAN_STATUS_RATE then 128 else 64
  ceilDiv 2048 (max (w * r) 1)

/-- The frame-byte rate R in bytes per ns, times 256 (R131): w × r ÷ 8 × 220. -/
def Chip.rate256 (c : Chip) (p : Nat) : Nat :=
  c.fld (Reg.SPAN_STATUS p) Bit.SPAN_STATUS_WIDTH *
    (if c.flag (Reg.SPAN_STATUS p) Bit.SPAN_STATUS_RATE then 128 else 64) * 220 / 8

/-! ## Signal queues (R159, R160) -/

def sigDepth (q : List SigEnt) : Nat := (q.map (fun e => e.slots.length)).sum

/-- SIGQ_STATUS follows the queue (R159): at 512 slots every second flit is a SIGNAL flit, at 1,536 every flit, until the
depth falls below 512. -/
def Chip.sigStatus (c : Chip) (p : Nat) : Chip :=
  let d := sigDepth (c.span p).sigq
  let m := c.fld (Reg.SIGQ_STATUS p) Bit.SIGQ_STATUS_MODE
  let m' := if 1536 ≤ d then 2 else if d < 512 then 0 else if m = 2 then 2 else 1
  (c.setFld (Reg.SIGQ_STATUS p) Bit.SIGQ_STATUS_DEPTH d).setFld (Reg.SIGQ_STATUS p) Bit.SIGQ_STATUS_MODE m'

/-- Evict NOTICEs, oldest first, until `need` slots are free; the queue left and what was evicted. -/
def evictNotices : Nat → List SigEnt → List SigEnt × List SigEnt
  | 0, q => (q, [])
  | _ + 1, [] => ([], [])
  | need + 1, e :: q =>
    if e.notice then let r := evictNotices (need + 1 - e.slots.length) q; (r.1, e :: r.2)
    else let r := evictNotices (need + 1) q; (e :: r.1, r.2)

/-- The address that the log record of a dropped FAR_ERR names. -/
def SigMsg.far : SigMsg → Option Nat
  | .farErr _ _ _ addr _ _ _ => some addr
  | .castOff .. => none
  | .notice .. => none
  | .refuse .. => none
  | .mgmt .. => none

/-- A message was discarded or evicted: SIG_DROP counted and set, and a log record with STYPE, DEST_FA and ORIGIN_FA, or with
the address of a FAR_ERR (R160). -/
def Chip.sigDropped (c : Chip) (p stype dest origin : Nat) (far : Option Nat) : Chip :=
  let det := match far with
    | some a => [stype, a]
    | none => [stype, dest, origin]
  ((c.ctrInc kPort p cSigDrop).setBit (Reg.SPAN_EVENT p) Bit.SPAN_EVENT_SIG_DROP).log .sigDrop [p] det

/-- Queue a routed message on a span port (R160). `own`: this module generated it. -/
def Chip.queueSig (c : Chip) (p : Nat) (m : SigMsg) (own : Bool) : Chip :=
  let q := (c.span p).sigq
  let free := 2048 - sigDepth q
  let e : SigEnt := { slots := m.slots, notice := m.isNotice, destFa := m.dest, originFa := m.origin, far := m.far }
  if m.need ≤ free then (c.updSpan p (fun s => { s with sigq := q ++ [e] })).sigStatus p
  else if m.isNotice then
    if own then c.stCtr p 40 else c.sigDropped p m.stype m.dest m.origin m.far
  else
    let noticeSlots := sigDepth (q.filter (·.notice))
    if m.need ≤ free + noticeSlots then
      let r := evictNotices (m.need - free) q
      let c := r.2.foldl (fun c x => c.sigDropped p 2 x.destFa x.originFa none) c
      (c.updSpan p (fun s => { s with sigq := r.1 ++ [e] })).sigStatus p
    else if own then { c with knd := { c.knd with sigWait := c.knd.sigWait ++ [m] } }
    else c.sigDropped p m.stype m.dest m.origin m.far

/-- No usable candidate for a message (R158). -/
def Chip.sigNoRoute (c : Chip) (st : Nat) (m : SigMsg) : Chip :=
  ((c.setBit Reg.KND_EVENT Bit.KND_EVENT_NO_ROUTE).ctrInc kStation st 52).log .noRouteSignal [m.stype] [m.dest, m.origin]

/-- The outcome of a route lookup in both pipelines, candidate and EG_VC compared (R46). -/
inductive Found where
  | to (p : Nat)
  | nowhere
  | mismatch
  deriving DecidableEq, Repr

def Chip.lookBoth (c : Chip) (destFa srcFa tc alt : Nat) : Found :=
  if c.routeTo false destFa srcFa tc alt ≠ c.routeTo true destFa srcFa tc alt ∨ c.egVc false tc ≠ c.egVc true tc then .mismatch
  else match c.routeTo false destFa srcFa tc alt with
    | some p => .to p
    | none => .nowhere

/-- The pipelines differ in a lookup that the module makes for what it itself sends: nothing leaves, and the port it is made
for enters Fog with the next clock cycle, inside the 1 µs of R350 (R47). -/
def Chip.misLook (c : Chip) (p : Nat) : Chip :=
  let st := portStation p
  let c := (c.setBit (Reg.STN_STATUS st) Bit.STN_STATUS_LOOKUP_MISMATCH).ctrInc kStation st 55
  ({ c with saf := { c.saf with contain := p :: c.saf.contain.erase p } }).log .lookupMismatch [p]

/-- Send a message that this module generates at station `st` (R158): to itself, or to a span port's queue. -/
def Chip.sendSig (c : Chip) (st : Nat) (m : SigMsg) : Chip :=
  if c.faHere m.dest then { c with knd := { c.knd with delivered := c.knd.delivered ++ [m] } }
  else
    match c.lookBoth m.dest m.origin m.tc 0 with
    | .to p => c.queueSig p m true
    | .nowhere => c.sigNoRoute st m
    | .mismatch => c.misLook (faPort m.origin)

/-! ## FAR_ERR (R161) -/

/-- Generate a FAR_ERR: SER of the reporting port, the first copy now, and a log record of this module. The second copy is due
four flit times after the first has left in a flit (`farLeft`), or at once where the first is in no span port's queue. -/
def Chip.genFarErr (c : Chip) (srcFa tc status addr vsi originPort : Nat) : Chip :=
  let ser := SMap.get c.knd.ser originPort 0
  let m := SigMsg.farErr srcFa tc status (addr / 4 * 4) vsi ser (c.ownFa originPort)
  let id := c.knd.nextFar
  let c := { c with knd := { c.knd with
    ser := SMap.set c.knd.ser originPort ((ser + 1) % 256) 0
    farSecond := c.knd.farSecond ++ [(id, m)]
    nextFar := id + 1 } }
  let queued := !c.faHere srcFa && (match c.lookBoth srcFa (c.ownFa originPort) tc 0 with
    | .to _ => true
    | .nowhere => false
    | .mismatch => false)
  let c := c.sendSig (portStation originPort) m
  (if queued then c else c.arm (.farSecond id) 0).log .farErrSent [originPort] [srcFa, status, addr]

/-- The first copy of a FAR_ERR has left in a flit, or its queue was discarded: its second copy is due after `gap` ns. -/
def Chip.farLeft (c : Chip) (s : Slot) (gap : Nat) : Chip :=
  match s with
  | .farErr1 d t o _ =>
    match c.knd.farSecond.find? (fun x => !c.armed (.farSecond x.1) && x.2.dest == d && x.2.tc == t && x.2.origin == o &&
        x.2.slots.contains s) with
    | some x => c.arm (.farSecond x.1) gap
    | none => c
  | _ => c

/-! ## The Far Error Log (R200) -/

/-- MSI-X through the upstream bridge of a VSI. -/
def Chip.msix (c : Chip) (v vec : Nat) : Chip := c.emit (.msix v vec)

/-- The Far Error Log of VSI `v` takes a report: an entry and the interrupt while there is room, else OVF; a log record in
either case. -/
def Chip.felAccept (c : Chip) (v status addr originFa ser : Nat) : Chip :=
  let wrp := c.fld (Reg.FEL_PTR v) Bit.FEL_PTR_WR
  let rdp := c.fld (Reg.FEL_PTR v) Bit.FEL_PTR_RD
  let c :=
    if modSub 128 wrp rdp = 64 then c.satInc (Reg.FEL_PTR v) Bit.FEL_PTR_OVF
    else
      let i := wrp % 64
      let c := c.wr (Reg.FEL_ENT_W0 v i) (BitVec.ofNat 32 (addr / 4 * 4 + status % 4))
      let c := c.wr (Reg.FEL_ENT_W1 v i) (BitVec.ofNat 32 (addr / 2 ^ 32))
      let c := c.wr (Reg.FEL_ENT_W2 v i) (BitVec.ofNat 32 originFa)
      let c := c.wr (Reg.FEL_ENT_W3 v i) (BitVec.ofNat 32 (ser % 256 + c.watchTime / 1000 % 2 ^ 24 * 256))
      let c := c.setFld (Reg.FEL_PTR v) Bit.FEL_PTR_WR ((wrp + 1) % 128)
      if c.flag (Reg.FEL_CTRL v) Bit.FEL_CTRL_MASK then c else c.msix v (c.fld (Reg.FEL_CTRL v) Bit.FEL_CTRL_VEC)
  c.log .farErrLogged [v] [status, addr, originFa, ser]

/-! ## Egress contexts (R214 to R219) -/

def ECtx.is (x : ECtx) (srcFa tc port : Nat) : Bool := x.srcFa == srcFa && x.tc == tc && x.port == port

def Chip.ectx (c : Chip) (srcFa tc port : Nat) : Option ECtx := c.mor.ctxs.find? (·.is srcFa tc port)

def Chip.putEctx (c : Chip) (x : ECtx) : Chip :=
  { c with mor := { c.mor with ctxs := x :: c.mor.ctxs.filter (fun y => !y.is x.srcFa x.tc x.port) } }

def Chip.dropEctx (c : Chip) (srcFa tc port : Nat) : Chip :=
  ({ c with mor := { c.mor with ctxs := c.mor.ctxs.filter (fun y => !y.is srcFa tc port) } }).disarm
    (.ctxAge srcFa tc port)

/-- The cast-off point C: the N just below the oldest released frame not yet discharged (R216). -/
def ECtx.c (x : ECtx) : Nat :=
  match x.pend with
  | [] => modSub 65536 x.e 1
  | n :: _ => modSub 65536 n 1

/-- R219: every released frame discharged, last cast-off at E − 1, quiet for CTX_QUIET (100 µs). -/
def ECtx.reclaimable (x : ECtx) (now : Nat) : Bool :=
  x.pend.isEmpty && x.castC == some (modSub 65536 x.e 1) && decide (x.lastArr + 100 * us ≤ now)

def castGapNs : Nat := 256
def resendHoldNs : Nat := 2 * us

/-- Send the cast-off of a context now (R217). -/
def Chip.castNow (c : Chip) (x : ECtx) : Chip :=
  let m := SigMsg.castOff x.srcFa x.tc (c.ownFa x.port) x.epoch x.c false
  let c := c.putEctx { x with castC := some x.c, castDue := false, castAt := some c.now }
  (c.sendSig (portStation x.port) m).ctrInc kMooring 0 8

/-- A cast-off of a context is due (R217): at once, or when CAST_GAP has passed since its last. -/
def Chip.castDue (c : Chip) (x : ECtx) : Chip :=
  match x.castAt with
  | some t =>
    if t + castGapNs ≤ c.now then c.castNow x
    else (c.putEctx { x with castDue := true }).arm (.castGap x.srcFa x.tc x.port) (t + castGapNs - c.now)
  | none => c.castNow x

/-- A released frame is discharged (R216). A discharge that finds its context closed, or its epoch past, does nothing. -/
def Chip.discharge (c : Chip) (r : Rel) : Chip :=
  match c.ectx r.srcFa r.tc r.port with
  | some x =>
    if x.epoch = r.epoch ∧ x.pend.contains r.n then
      let x' := { x with pend := x.pend.filter (· != r.n) }
      if x'.c = x.c then c.putEctx x' else c.castDue x'
    else c
  | none => c

def Chip.dischargeOpt (c : Chip) : Option Rel → Chip
  | some r => c.discharge r
  | none => c

end Sys2Proof.Machine
end

