-- ==== Sys2Proof/Machine/Packet.lean ====
section
/-!
DEFINITION. Packets in the core: the receive pool and its credits, output-buffer accounting, the completions the module
forms, the end of ORT entries and their quarantine, and the answers of R92.
-/
namespace Sys2Proof.Machine

/-! ## Finding and changing packets -/

def Chip.pkt (c : Chip) (uid : Nat) : Option Pkt := c.sw.pkts.find? (fun k => k.uid == uid)

def Chip.setPkts (c : Chip) (l : List Pkt) : Chip := { c with sw := { c.sw with pkts := l } }

def Chip.updPkt (c : Chip) (uid : Nat) (f : Pkt → Pkt) : Chip := c.setPkts (mapIf (fun k => k.uid == uid) f c.sw.pkts)

/-- A new packet enters the receive path of its source (R36); its IH is sealed. `t0` is when its first byte reached this
module. -/
def Chip.addPktAt (c : Chip) (k : Pkt) (t0 : Nat) : Chip :=
  let k := { k with uid := c.sw.nextUid, t0 }.sealIh
  { c with sw := { c.sw with pkts := c.sw.pkts ++ [k], nextUid := c.sw.nextUid + 1 } }

/-- A packet that enters as it is formed. -/
def Chip.addPkt (c : Chip) (k : Pkt) : Chip := c.addPktAt k c.now

/-! ## The receive pool (R83) -/

/-- A share of the occupancy of a span port's VC (R147): part 0 posted, 1 completion, 2 non-posted. -/
def Chip.vcOcc (c : Chip) (p vc part : Nat) : Nat := nth (c.span p).occ (3 * vc + part)

def Chip.addOcc (c : Chip) (p vc part n : Nat) : Chip :=
  c.updSpan p (fun s =>
    let o := if s.occ.isEmpty then List.replicate 24 0 else s.occ
    { s with occ := setNth o (3 * vc + part) (nth o (3 * vc + part) + n) })

def Chip.subOcc (c : Chip) (p vc part n : Nat) : Chip :=
  c.updSpan p (fun s => { s with occ := setNth s.occ (3 * vc + part) (nth s.occ (3 * vc + part) - n) })

/-- The part of a VC buffer that an ordering type occupies (R146). -/
def vcPart (otype : Nat) : Nat := if otype = 2 then 1 else if otype = 1 then 2 else 0

def Chip.poolUseOf (c : Chip) (p ty : Nat) : Nat := SMap.get c.pci.poolUse (p * 8 + ty) 0

/-- Header (2·type) and data (2·type + 1) units of a port's receive pool in use. -/
def Chip.addPool (c : Chip) (p ty h d : Nat) : Chip :=
  let m := SMap.set c.pci.poolUse (p * 8 + 2 * ty) (c.poolUseOf p (2 * ty) + h) 0
  let m := SMap.set m (p * 8 + 2 * ty + 1) (c.poolUseOf p (2 * ty + 1) + d) 0
  { c with pci := { c.pci with poolUse := m } }

/-- Bytes leave the receive pool of a PCIe port. -/
def Chip.poolLess (c : Chip) (p ty h d : Nat) : Chip :=
  let m := SMap.set c.pci.poolUse (p * 8 + 2 * ty) (c.poolUseOf p (2 * ty) - h) 0
  let m := SMap.set m (p * 8 + 2 * ty + 1) (c.poolUseOf p (2 * ty + 1) - d) 0
  { c with pci := { c.pci with poolUse := m } }

/-- Bytes leave the receive pool of a PCIe port and their credits return to the link partner (R83). -/
def Chip.creditReturn (c : Chip) (p ty h d : Nat) : Chip := (c.poolLess p ty h d).emit (.credit p ty h d)

/-- A frame leaves the receive buffer of its span port with nothing made of it. -/
def Chip.dropRx (c : Chip) (r : Rx) : Chip := c.subOcc r.port r.vc (vcPart r.tlp.otype) (min r.got r.len)

/-- Units of a received TLP return to the link partner, unless the link it came on has ended. -/
def Chip.rxReturn (c : Chip) (r : Rx) (h d : Nat) : Chip :=
  if r.stale || h + d == 0 then c else c.creditReturn r.port r.tlp.creditType h d

/-- A received TLP goes no further (R83). -/
def Chip.rxBack (c : Chip) (r : Rx) : Chip := c.rxReturn r r.tlp.creditH r.tlp.creditD

/-- What was received and not yet looked up is discarded: its bytes leave the pool and its credits return (R83), or they leave
the VC buffer (R147). -/
def Chip.rxFree (c : Chip) (r : Rx) : Chip :=
  if r.looked then c else if r.frame.isSome then c.dropRx r else c.rxBack r

/-- A packet made of what a link that has ended brought covers no credits. -/
def Rx.fills (r : Rx) (k : Pkt) : Pkt := if r.stale then { k with poolH := 0, poolD := 0 } else k

/-- A packet leaves the receive pool: credits of a PCIe port, or the VC occupancy of a span port. -/
def Chip.freePool (c : Chip) (k : Pkt) : Chip :=
  let c :=
    match k.poolVc with
    | some (vc, n) => c.subOcc k.inPort vc (vcPart k.otype) n
    | none => if k.poolH + k.poolD = 0 then c else c.creditReturn k.inPort k.otype k.poolH k.poolD
  c.updPkt k.uid (fun x => { x with poolH := 0, poolD := 0, poolVc := none })

/-! ## Output buffers (R51, R60, R61, R64) -/

/-- Depth of a port: output-buffer cells that hold a byte of a packet queued on it (R64, R71). -/
def Chip.depth (c : Chip) (p : Nat) : Nat := (c.sw.obCells.filter (fun x => x.refs.any (fun r => r.2 == p))).length

/-- Completion cells reserved at a requester's port (R191). -/
def Chip.sinkRsv (c : Chip) (p : Nat) : Nat := SMap.get c.sw.sinkRsv p 0

def Chip.setSink (c : Chip) (p n : Nat) : Chip :=
  { c with sw := { c.sw with sinkRsv := SMap.set c.sw.sinkRsv p n 0 } }

/-- PORT_QUOTA in force. -/
def Chip.quota (c : Chip) (p : Nat) : Nat :=
  c.tabF false (Reg.PORT_QUOTA (portStation p) (portLocal p)) Bit.PORT_QUOTA_CELLS

/-- Cells held for cells matched toward a station and not yet arrived (R56). -/
def Chip.obHeld (c : Chip) (s : Nat) : Nat :=
  (c.sw.matches_.filter (fun m => m.out == s)).length + (c.sw.transit.filter (fun t => t.out == s)).length

/-- Free cells of a station's output buffer (R51). -/
def Chip.obFree (c : Chip) (s : Nat) : Nat :=
  65536 - (c.sw.obCells.filter (fun x => x.st == s)).length - c.obHeld s

/-- STOP follows the depth of a port (R64, R65, R191): raised when depth and reservations reach the quota, cleared when
they fall below the quota minus 64 cells. -/
def Chip.updStop (c : Chip) (p : Nat) : Chip :=
  let s := portStation p
  let k := portLocal p
  let d := c.depth p + c.sinkRsv p
  let q := c.quota p
  let was := c.fldBit (Reg.PORT_STOP s) Bit.PORT_STOP_STOP k
  let c :=
    if !was && decide (q ≤ d) then (c.putBit (Reg.PORT_STOP s) Bit.PORT_STOP_STOP k true).ctrInc kStation s 43
    else if was && decide (d + 64 < q) then c.putBit (Reg.PORT_STOP s) Bit.PORT_STOP_STOP k false
    else c
  c.putBit Reg.TWR_STATUS Bit.TWR_STATUS_STOP_ANY s (c.fld (Reg.PORT_STOP s) Bit.PORT_STOP_STOP != 0)

/-- A port is stopped. -/
def Chip.stopped (c : Chip) (p : Nat) : Bool :=
  c.fldBit (Reg.PORT_STOP (portStation p)) Bit.PORT_STOP_STOP (portLocal p)

/-- The completion room that a packet still covers is released (R191). -/
def Chip.freeSink (c : Chip) (k : Pkt) : Chip :=
  match k.sink with
  | some (q, n) =>
    if n = 0 then c
    else ((c.setSink q (c.sinkRsv q - n)).updStop q).updPkt k.uid (fun x => { x with sink := some (q, 0) })
  | none => c

/-- One cell of a covered completion has arrived, or its last one has (R191). -/
def Chip.sinkCell (c : Chip) (uid : Nat) (last : Bool) : Chip :=
  match c.pkt uid with
  | some k =>
    match k.sink with
    | some (q, n) =>
      let m := if last then 0 else n - 1
      (c.setSink q (c.sinkRsv q - (n - m))).updPkt uid (fun x => { x with sink := some (q, m) })
    | none => c
  | none => c

/-- A packet is dropped before it left its ingress station. -/
def Chip.dropPkt (c : Chip) (uid : Nat) : Chip :=
  match c.pkt uid with
  | some k =>
    let c := (c.freePool k).freeSink k
    c.setPkts (c.sw.pkts.filter (fun x => x.uid != uid))
  | none => c

/-- Cells that the packets of a port's NP wait list hold. -/
def Chip.npDepth (c : Chip) (p : Nat) : Nat :=
  (c.sw.obCells.filter (fun x => x.refs.any (fun r => r.2 == p && c.sw.npWait.contains (p, r.1)))).length

/-- NP_STOP follows the wait list (R96). -/
def Chip.updNpStop (c : Chip) (p : Nat) : Chip :=
  let d := c.npDepth p
  let q := c.tabF false (Reg.NP_WAIT_QUOTA p) Bit.NP_WAIT_QUOTA_CELLS
  let was := c.flag (Reg.PRT_STATUS p) Bit.PRT_STATUS_NP_STOP
  if !was && decide (q ≤ d) then (c.setBit (Reg.PRT_STATUS p) Bit.PRT_STATUS_NP_STOP).stCtr p 44
  else if was && decide (d + 64 < q) then c.clrFld (Reg.PRT_STATUS p) Bit.PRT_STATUS_NP_STOP
  else c

/-- A port releases a packet's cells: each cell's reference count falls by one; a cell that nothing holds is freed (R60). STOP and
NP_STOP follow (R64, R96). -/
def Chip.releaseCells (c : Chip) (uid p : Nat) : Chip :=
  let cells := c.sw.obCells.map (fun x => { x with refs := x.refs.filter (fun r => !(r.1 == uid && r.2 == p)) })
  let c := { c with sw := { c.sw with
    obCells := cells.filter (fun x => !x.refs.isEmpty)
    obq := c.sw.obq.filter (fun e => !(e.uid == uid && e.port == p))
    npWait := c.sw.npWait.filter (fun w => !(w.1 == p && w.2 == uid)) } }
  (c.updStop p).updNpStop p

/-- A packet that no queue, cell or pool holds any more is forgotten. -/
def Chip.sweepPkt (c : Chip) (uid : Nat) : Chip :=
  if c.sw.obq.any (fun e => e.uid == uid) || c.sw.obCells.any (fun x => x.segs.any (fun g => g.uid == uid) &&
      x.refs.any (fun r => r.1 == uid)) || c.sw.voq.any (fun q => q.cell.segs.any (fun g => g.uid == uid)) ||
      c.sw.announced.any (fun q => q.cell.segs.any (fun g => g.uid == uid)) ||
      c.sw.transit.any (fun t => t.cell.segs.any (fun g => g.uid == uid)) ||
      c.sw.pkts.any (fun k => k.uid == uid && decide (k.staged < k.size)) then c
  else c.setPkts (c.sw.pkts.filter (fun k => k.uid != uid))

/-- A frame whose transmission has begun on a span port is nullified (R135): when some of it is in flits already, the next
DATA flit carries NULL. -/
def Chip.nullOut (c : Chip) (p uid : Nat) : Chip :=
  match (c.span p).out.find? (fun f => f.uid == some uid) with
  | some f =>
    let c := c.updSpan p (fun s => { s with
      out := s.out.filter (fun x => x.uid != some uid), nullNext := s.nullNext || decide (0 < f.sent) })
    if 0 < f.sent then c.ctrInc kPort p cNullFrames else c
  | none => c

/-- A packet is withdrawn wherever it stands: its cells leave the queues of its ingress station and the Tower, what has
reached an output buffer incomplete is nullified on the wire if its transmission has begun, and its room is freed. -/
def Chip.purgePkt (c : Chip) (uid : Nat) : Chip :=
  let cut := fun (x : Cell) => { x with segs := x.segs.filter (fun g => g.uid != uid) }
  let trim := fun (l : List QCell) => (l.map (fun q => { q with cell := cut q.cell })).filter (fun q => !q.cell.segs.isEmpty)
  let tr := (c.sw.transit.map (fun t => { t with cell := cut t.cell })).filter (fun t => !t.cell.segs.isEmpty)
  let c := { c with sw := { c.sw with announced := trim c.sw.announced, voq := trim c.sw.voq, transit := tr } }
  let es := c.sw.obq.filter (fun e => e.uid == uid && !e.full)
  let c := es.foldl (fun c e =>
    let c := if e.begun && c.isSpan e.port then c.nullOut e.port uid
      else if e.begun then
        match c.pkt uid with
        | some k => c.emit (.tlp e.port k.tlp true)
        | none => c
      else c
    c.releaseCells uid e.port) c
  if c.sw.obq.any (fun e => e.uid == uid) then c else c.dropPkt uid

/-- A packet that the module itself forms at a port: an answer or a completion, not something the port received. -/
def Pkt.formed (k : Pkt) : Bool := k.otype == 2 && k.made

/-! ## Completions that the module forms -/

/-- The requester that a packet's answer goes to: RETURN of Table 3.4. A frame that arrived on a span port came from the
fabric; every other packet has a local requester. -/
def Chip.retOf (c : Chip) (k : Pkt) : Ret :=
  match k.own with
  | some o => .own o.1 o.2.1 o.2.2
  | none =>
  match k.kh with
  | some h =>
    if c.faHere h.srcFa then .local k.st (if k.relay.isSome then 8 else portLocal (faPort h.srcFa)) (faPort h.srcFa)
    else .fabric h.srcFa h.tc h.epoch h.n h.srcVsi h.guarded
  | none => .local k.st k.src k.inPort

/-- The completion of a request that the module itself sent for a function binding: the answer to a probe (R254), or the end
of the FLR write, from which the 100 ms of Table 8.8 step 6 run. -/
def Chip.ownCpl (c : Chip) (v vbr devfn status : Nat) : Chip :=
  let is := fun (h : HostBind) => h.v == v && h.vbr == vbr && h.devfn == devfn
  let flr := c.vsi.hosts.any (fun h => is h && h.flr == 5)
  let upd := fun (h : HostBind) => if h.probe.isSome then { h with answer := some status }
    else if h.flr = 5 then { h with flr := 6 } else h
  let c := { c with vsi := { c.vsi with hosts := mapIf is upd c.vsi.hosts } }
  if flr then c.arm (.frs v vbr devfn) (100 * ms) else c

/-- A requester port's link is down, or its VSI is in reset (R95): of an upstream port the VSI that owns it, of a downstream
port the VSI that the request acts for. -/
def Chip.requesterDown (c : Chip) (p v : Nat) : Bool :=
  !c.dlUp p || (if (c.port p).up then
    match c.vsiOfPort p with
    | some v => c.vsiInReset v
    | none => true
  else c.vsiInReset v)

/-- A completion for a requester that is down is discarded, counted and logged (R95). -/
def Chip.reqDiscard (c : Chip) (p : Nat) (t : Tlp) : Chip :=
  ((c.setBit (Reg.PRT_EVENT p) Bit.PRT_EVENT_REQ_DISCARD).stCtr p 59).log .reqDiscard [p] [t.rid, t.tag]

/-- The VSI of a completion's sub-queue (Table 10.1): that of the upstream port that received it, else that of its entry. -/
def Chip.cplSub (c : Chip) (p vsi : Nat) : Nat :=
  if (c.port p).up && !c.isSpan p then (c.vsiOfPort p).getD vsi else vsi

/-- A completion reaches its requester's side (R89, R95, R190). `p` is the port whose entry it ends or advances; it enters
the core as a packet of that port's own receive path, looked up in both pipelines (R46). A completion for a local requester
whose link is down, or whose VSI is in reset, is discarded and logged. A completion for the Relay engine goes to the engine.
A completion for a request from the fabric becomes a frame toward its SRC_FA, with WGEN 0: no window formed it; `rel` is the
request frame it may discharge. -/
def Chip.sendCpl (c : Chip) (p : Nat) (ret : Ret) (t : Tlp) (ends : Bool) (rel : Option Rel)
    (piece : Option (Nat × Nat)) (relay : Option Nat) (vsi : Nat) : Chip :=
  let sub := c.cplSub p vsi
  match ret with
  | .own v vbr devfn => (c.ownCpl v vbr devfn t.status).dischargeOpt rel
  | .local _ _ inPort =>
    match relay with
    | some op => { c with rly := { c.rly with cpls := c.rly.cpls ++ [(op, t, ends)] } }
    | none =>
      if c.requesterDown inPort vsi then (c.reqDiscard inPort t).dischargeOpt rel
      else if c.egVc false t.tc ≠ c.egVc true t.tc then c.misLook p
      else
        c.addPkt ({ st := portStation p, src := portLocal p, inPort := p, tlp := t, egPort := inPort, vsi := sub, actVsi := vsi
                    noticeFa := c.ownFa p, egVc := c.egVc false t.tc, piece, rel, made := true } : Pkt)
  | .fabric srcFa tc _ _ srcVsi guarded =>
    let h : KHdr := { destFa := srcFa, tc, guarded, world := t.tee, srcFa := c.ownFa p, srcVsi }
    let k : Pkt := { st := portStation p, src := portLocal p, inPort := p, tlp := { t with tc := tc }, kh := some h
                     egPort := 255, guarded, vsi := sub, actVsi := srcVsi, noticeFa := c.ownFa p, egVc := c.egVc false tc
                     rel := if ends then rel else none, wgen := some 0, made := true }
    match c.lookBoth srcFa h.srcFa tc (if guarded then c.altOf h.srcFa tc srcFa else 0) with
    | .mismatch => c.misLook p
    | .to eg => c.addPkt { k with egPort := eg }
    | .nowhere =>
      let c := ((c.setBit Reg.KND_EVENT Bit.KND_EVENT_NO_ROUTE).stCtr p 52).log .noRoute [p] [srcFa, h.srcFa]
      if guarded then c.addPkt k else c.dischargeOpt (if ends then rel else none)

/-! ## The end of ORT entries (R89 to R93, R187) -/

/-- Release the completion room an entry still reserves at its requester's port (R191). -/
def Chip.dropSink (c : Chip) (e : OrtEnt) : Chip :=
  match e.sinkPort with
  | some p => (c.setSink p (c.sinkRsv p - e.sinkCells)).updStop p
  | none => c

/-- An entry ends: it leaves the table and its reservations go. -/
def Chip.endEntry (c : Chip) (e : OrtEnt) : Chip :=
  let c := c.dropSink e
  ({ c with pci := { c.pci with ort := c.pci.ort.filter (fun x => !(x.port == e.port && x.mapTag == e.mapTag)) } }).disarm
    (.cto e.port e.mapTag)

/-- The requester of an entry is a function on port `p`. -/
def OrtEnt.from (e : OrtEnt) (p : Nat) : Bool :=
  match e.ret with
  | .local _ _ q => q == p
  | .fabric .. => false
  | .own .. => false

/-- Its tag enters quarantine for 2 × CTO (R93). -/
def Chip.quarantine (c : Chip) (e : OrtEnt) : Chip :=
  let d := 2 * c.cto e.port
  let q : Quar := { port := e.port, tag := e.mapTag, rid := e.mapRid, addr := e.addr, fin := c.now + d }
  ({ c with pci := { c.pci with quar := c.pci.quar ++ [q] } }).arm
    (.quarantine e.port e.mapTag) d

/-- Table 8.8 step 4: every entry whose ORIG_RID is the PRID of a function on port `p` ends with no completion. -/
def Chip.endOrig (c : Chip) (p prid : Nat) : Chip :=
  (c.pci.ort.filter (fun e => e.origRid == prid && e.from p)).foldl (fun c e => (c.endEntry e).quarantine e) c

/-- The first piece of a cut read that has not completed: its completions are due (R186). -/
def CutRead.due (x : CutRead) : Nat := ((List.range x.pieces).find? (fun i => !x.done.contains i)).getD x.pieces

def Chip.cut (c : Chip) (id : Nat) : Option CutRead := c.pci.cuts.find? (fun x => x.id == id)

def Chip.putCut (c : Chip) (x : CutRead) : Chip :=
  let l := c.pci.cuts.filter (fun y => y.id != x.id)
  { c with pci := { c.pci with cuts := if x.due < x.pieces then x :: l else l } }

/-- Byte Count still owed on the whole request when its next byte is at `addr` (R186). -/
def CutRead.owed (x : CutRead) (addr : Nat) : Nat := x.total - (addr - x.addr0)

/-- Take a packet out of a port's queue and forget it. -/
def Chip.unqueue (c : Chip) (uid p : Nat) : Chip := (c.releaseCells uid p).sweepPkt uid

/-- A copy was accepted: the acknowledgement of its TLP goes out when no other piece of the TLP waits (R30). -/
def Chip.ackHeld (c : Chip) (k : Pkt) : Chip :=
  match k.ack with
  | some a =>
    let l := c.pci.ackWait.erase a
    let c := { c with pci := { c.pci with ackWait := l } }
    if l.contains a then c else c.emit (.dllAck a.1)
  | none => c

/-- A packet is withdrawn wherever it stands, a whole one in its egress port's queue too. -/
def Chip.withdraw (c : Chip) (k : Pkt) : Chip :=
  if k.staged = 0 then c.dropPkt k.uid else (c.purgePkt k.uid).unqueue k.uid k.egPort

/-- A completion that hits a quarantined tag is recorded and goes no further (R93). DESIGN CHOICE (log 159): the manual does not
say what a second late completion of one tag loads; the model loads the entry's ADDR again, which nothing advances any more. -/
def Chip.lateCpl (c : Chip) (p : Nat) (q : Quar) : Chip :=
  let c := c.wr (Reg.LATE_ADDR_LO p) (BitVec.ofNat 32 q.addr)
  let c := c.wr (Reg.LATE_ADDR_HI p) (BitVec.ofNat 32 (q.addr / 2 ^ 32))
  let c := c.wr (Reg.LATE_TIME_LO p) (BitVec.ofNat 32 c.watchTime)
  let c := c.wr (Reg.LATE_TIME_HI p) (BitVec.ofNat 32 (c.watchTime / 2 ^ 32))
  let c := (c.setFld (Reg.LATE_TAG p) Bit.LATE_TAG_TAG q.tag).setFld (Reg.LATE_TAG p) Bit.LATE_TAG_RID q.rid
  let c := ((c.setBit (Reg.PRT_EVENT p) Bit.PRT_EVENT_LATE_CPL).stCtr p 48).aerPort p .unexpectedCompletion
  c.log .lateCpl [p, q.tag] [q.addr, c.watchTime]

/-- A packet of a piece whose request has ended goes no further: a request is withdrawn wherever it stands, and its TLP's
acknowledgement waits for it no more; a completion is handled as late, and a frame that it was released from is discharged (R187,
R93, R216). -/
def Chip.endPiece (c : Chip) (k : Pkt) : Chip :=
  let c := (c.withdraw k).ackHeld k
  if k.otype = 2 then
    let m := k.mapped.getD (0, 0)
    (c.lateCpl k.inPort { port := k.inPort, rid := m.1, tag := m.2, addr := k.tlp.addr, fin := c.now }).dischargeOpt k.rel
  else c

/-- The pieces after `n` of a cut read end without completions: their entries' tags enter quarantine, what has no entry yet
is withdrawn, and completions of them that wait are dropped (R187). A guarded piece that has its custody copy still goes out, as
its stream's order needs it; its entry then ends as it is made (`Chip.makeEntry`). -/
def Chip.endPieces (c : Chip) (id n : Nat) : Chip :=
  let later := fun (x : Option (Nat × Nat)) => match x with
    | some (i, m) => i == id && decide (n < m)
    | none => false
  let es := c.pci.ort.filter (fun x => later x.piece)
  let c := es.foldl (fun c e => (c.endEntry e).quarantine e) c
  let ks := c.sw.pkts.filter (fun k => later k.piece && k.copy.isNone)
  let c := ks.foldl Chip.endPiece c
  match c.cut id with
  | some x => c.putCut { x with pieces := min x.pieces (n + 1) }
  | none => c

/-- A piece has completed: later ones become due. -/
def Chip.pieceDone (c : Chip) (id n : Nat) : Chip :=
  match c.cut id with
  | some x => c.putCut { x with done := n :: x.done }
  | none => c

/-- Answer an entry with `status` and no data (R92, R93): the entry ends, its tag enters quarantine, and the requester
gets one completion; a piece of a cut read ends the whole request with the Byte Count still owed (R187). -/
def Chip.answerEntry (c : Chip) (e : OrtEnt) (status : Nat) : Chip :=
  let c := (c.endEntry e).quarantine e
  match e.piece with
  | some (id, n) =>
    match c.cut id with
    | some x =>
      let t := answerTlp status x.rid x.tag (x.owed e.addr) e.addr e.tc e.attr e.tee
      ((c.endPieces id n).sendCpl e.port e.ret t true e.rel e.piece e.relay e.vsi).pieceDone id n
    | none => c
  | none =>
    let t := answerTlp status e.origRid e.origTag e.remain e.addr e.tc e.attr e.tee
    c.sendCpl e.port e.ret t true e.rel none e.relay e.vsi

/-- Answer a non-posted packet that has no entry, at port `p` (R92). A piece of a cut read ends the whole request. -/
def Chip.answerPkt (c : Chip) (p : Nat) (k : Pkt) (status : Nat) : Chip :=
  match k.piece with
  | some (id, n) =>
    match c.cut id with
    | some x =>
      let t := answerTlp status x.rid x.tag (x.owed k.tlp.addr) k.tlp.addr k.tlp.tc k.tlp.attr k.tlp.tee
      ((c.endPieces id n).sendCpl p (c.retOf k) t true k.rel k.piece k.relay k.actVsi).pieceDone id n
    | none => c
  | none => c.sendCpl p (c.retOf k) (refuseTlp status k.tlp) true k.rel none k.relay k.actVsi

/-! ## Completions that count (R89, R94, R186 to R190) -/

/-- The entry of port `p` that a completion matches (R89). -/
def Chip.ortFor (c : Chip) (p : Nat) (t : Tlp) : Option OrtEnt :=
  c.pci.ort.find? (fun e => e.port == p && e.mapRid == t.rid && e.mapTag == t.tag)

def Chip.putEnt (c : Chip) (e : OrtEnt) : Chip :=
  { c with pci := { c.pci with ort := mapIf (fun x => x.port == e.port && x.mapTag == e.mapTag) (fun _ => e) c.pci.ort } }

/-- Send a completion toward its requester. When it becomes a packet, `fill` gives it its room; when it is discarded or goes
to the Relay engine, `back` returns its credits. -/
def Chip.giveCpl (c : Chip) (e : OrtEnt) (ret : Ret) (t : Tlp) (ends : Bool) (fill : Pkt → Pkt) (back : Chip → Chip) : Chip :=
  let uid := c.sw.nextUid
  let c := c.sendCpl e.port ret t ends e.rel e.piece e.relay e.vsi
  if c.sw.nextUid = uid then back c else c.updPkt uid (fun k => ({ fill k with mapped := some (e.mapRid, e.mapTag) }).sealIh)

/-- A piece of a cut read that a sector refused ends the request when every earlier piece has completed (R187, R336). -/
def Chip.stopPiece (c : Chip) (e : OrtEnt) (id addr : Nat) : Chip :=
  match c.cut id with
  | some x =>
    match x.stop with
    | some (i, st) =>
      if x.due = i then
        let t := answerTlp st x.rid x.tag (x.owed addr) addr e.tc e.attr e.tee
        (c.sendCpl e.port e.ret t true none (some (id, i)) e.relay e.vsi).pieceDone id i
      else c
    | none => c
  | none => c

/-- Output-buffer cells that a restored completion may take (R191). -/
def cplCells (t : Tlp) : Nat := ceilDiv (16 + ceilDiv t.bytes 16 * 16) 128 + 1

/-- A completion as its requester gets it, with its entry's ADDR beside it: the original ID and tag, for a piece of a cut read
those of the whole request with the Byte Count still owed (R186), and the completer ID in the host's numbering where the request
was forwarded (R251). -/
def Chip.cplRestored (c : Chip) (e : OrtEnt) (t : Tlp) : Tlp :=
  let t := { t with cid := e.hostId.getD t.cid, addr := e.addr }
  match e.piece.bind (fun x => c.cut x.1) with
  | some x => { t with rid := x.rid, tag := x.tag, byteCount := x.owed e.addr }
  | none => { t with rid := e.origRid, tag := e.origTag }

/-- A completion of an entry is malformed where it is so by itself, or where the frame it becomes toward the fabric would be longer
than R37 and R132 allow. -/
def OrtEnt.badCpl (e : OrtEnt) (t : Tlp) : Bool :=
  t.isMalformed || (match e.ret with
    | .fabric .. => decide (4208 < 16 + t.bytes)
    | _ => false)

/-- A completion ends the request of its entry: at REMAIN 0, or at any status but Successful Completion (R89, R536). -/
def OrtEnt.endsBy (e : OrtEnt) (t : Tlp) : Bool := t.status != stSC || e.zero || decide (e.remain ≤ t.len)

/-- An entry after a completion has counted (R89): REMAIN falls, ADDR advances, and the completion's credits leave the
reservation; while the completion stands in the pool, `Chip.creditRoom` still counts them (R88). -/
def OrtEnt.after (e : OrtEnt) (t : Tlp) (sunk : Nat) : OrtEnt :=
  { e with remain := e.remain - t.len, addr := e.addr + t.len, rsvH := e.rsvH - t.creditH, rsvD := e.rsvD - t.creditD
           sinkCells := e.sinkCells - sunk }

/-- What a completion changes in its entry, and in the cut read of a piece that it ends with an error (R89, R187). -/
def Chip.cplEntry (c : Chip) (e e' : OrtEnt) (t : Tlp) : Chip :=
  let c := if e.endsBy t then c.endEntry e' else c.putEnt e'
  match e.piece with
  | some (id, n) => if t.status = stSC then c else c.endPieces id n
  | none => c

/-- A completion that ended a piece of a cut read makes the next one due (R186). -/
def Chip.cplTail (c : Chip) (e e' : OrtEnt) (t : Tlp) : Chip :=
  match e.piece with
  | some (id, n) => if e.endsBy t then (c.pieceDone id n).stopPiece e' id e'.addr else c
  | none => c

/-- Where a received completion goes: under P2P Completion Redirect of its downstream port, one for another downstream port goes
up to the host instead, unless its Relaxed Ordering attribute is set (Table 3.1). PRESUMED (log 187): the service does what it
does in PCI Express, whose Attr bit 1 is Relaxed Ordering. -/
def Chip.cplRet (c : Chip) (e : OrtEnt) (t : Tlp) : Ret :=
  match e.ret, c.portOfVsi e.vsi with
  | .local st src q, some up =>
    if !c.isSpan e.port && !(c.port e.port).up && !(c.port q).up && e.relay.isNone && c.acsOn e.port e.vsi acsCplRedirect &&
      !bitOf t.attr 1 then .local st src up else e.ret
  | _, _ => e.ret

/-- A completion counts against its entry (R89), and with the original ID and tag it goes to the requester. -/
def Chip.cplCounts (c : Chip) (e : OrtEnt) (t : Tlp) (fill : Pkt → Pkt) (back : Chip → Chip) : Chip :=
  let n := min (cplCells t) e.sinkCells
  let sink := e.sinkPort.map (fun q => (q, n))
  let e' := e.after t n
  let c' := (c.cplEntry e e' t).giveCpl e' (c.cplRet e t) (c.cplRestored e t) (e.endsBy t) (fun k => { fill k with sink }) (fun c =>
    let c := match sink with
      | some (q, n) => (c.setSink q (c.sinkRsv q - n)).updStop q
      | none => c
    back c)
  c'.cplTail e e' t

/-- The room of a completion that a PCIe port received; one that becomes a guarded frame is acknowledged when its copy is
HELD (R30). -/
def cplFill (p grp : Nat) (t : Tlp) (k : Pkt) : Pkt :=
  { k with inPort := p, made := false, poolH := t.creditH, poolD := t.creditD, ack := if k.guarded then some (p, grp) else none }

/-- The data link layer acknowledgement of a completion that has counted. -/
def Chip.ackCpl (c : Chip) (p grp : Nat) : Chip :=
  match c.pkt grp with
  | some k =>
    if k.ack.isSome then { c with pci := { c.pci with ackWait := c.pci.ackWait ++ [(p, grp)] } } else c.emit (.dllAck p)
  | none => c.emit (.dllAck p)

/-- A whole completion that waits in the receive pool of its port counts. Where the port's link is down or the port is in Fog,
it goes on as what the module itself sends (R94). -/
def Chip.countRx (c : Chip) (e : OrtEnt) (r : Rx) : Chip :=
  let grp := c.sw.nextUid
  let t := r.tlp
  let c := { c with sw := { c.sw with rx := c.sw.rx.erase r } }
  if c.dlUp r.port && !c.inPortFog r.port then
    (c.cplCounts e t (fun k => r.fills (cplFill r.port grp t k)) (fun c => c.rxBack r)).ackCpl r.port grp
  else (if r.stale then c else c.poolLess r.port t.creditType t.creditH t.creditD).cplCounts e t id id

/-- Whole completions in a PCIe port's receive pool that match an entry. -/
def Chip.checkedFor (c : Chip) (e : OrtEnt) : List Rx :=
  c.sw.rx.filter (fun r => r.port == e.port && r.frame.isNone && r.whole && !r.looked && r.tlp.kind == .cpl &&
    r.tlp.rid == e.mapRid && r.tlp.tag == e.mapTag && !e.badCpl r.tlp)

/-- A completion frame of an entry has passed its check on a span port and has not yet been matched. -/
def Chip.framePending (c : Chip) (e : OrtEnt) : Bool :=
  c.sw.rx.any (fun r => r.whole && !r.looked && (match r.frame with
    | some f => f.tlp.kind == .cpl && f.tlp.rid == e.mapRid && f.tlp.tag == e.mapTag
    | none => false))

/-- A completion frame in a span port's buffer has passed its check, and this module has its entry: it counts, whatever befalls its
port meanwhile (R94). -/
def Chip.rxCounts (c : Chip) (r : Rx) : Bool :=
  r.whole && !r.looked && (match r.frame with
    | some f => f.tlp.kind == .cpl && c.faHere f.kh.destFa &&
        c.pci.ort.any (fun e => c.isSpan e.port && e.mapRid == f.tlp.rid && e.mapTag == f.tlp.tag)
    | none => false)

/-- Every completion of an entry that has passed its check at its PCIe port counts before an answer acts (R94); what is left
of the entry. -/
def Chip.countChecked (c : Chip) (e : OrtEnt) : Chip × Option OrtEnt :=
  (c.checkedFor e).foldl (fun a r => match a.2 with
    | some e => let c := a.1.countRx e r; (c, c.pci.ort.find? (fun x => x.port == e.port && x.mapTag == e.mapTag))
    | none => a) (c, c.pci.ort.find? (fun x => x.port == e.port && x.mapTag == e.mapTag))

/-- Answer an entry after its checked completions, and count the answer. An entry whose completion frame has passed its check at a
span port is answered once the frame has been matched (R94). -/
def Chip.answerAfter (c : Chip) (e : OrtEnt) (status : Nat) : Chip :=
  let r := c.countChecked e
  match r.2 with
  | some e =>
    if c.framePending e then r.1.putEnt { e with ansDue := some status } else (r.1.answerEntry e status).stCtr e.port 47
  | none => r.1

/-- Every checked completion in a port's pool that matches an entry counts. -/
def Chip.countPort (c : Chip) (p : Nat) : Chip :=
  (c.pci.ort.filter (fun e => e.port == p)).foldl (fun c e => (c.countChecked e).1) c

/-- R92 for the requests of one VSI at a port: its entries, and its non-posted requests that wait for the port; LINK_ANSWER is set.
-/
def Chip.answerVsiAt (c : Chip) (p v : Nat) : Chip :=
  let es := c.pci.ort.filter (fun e => e.port == p && e.vsi == v)
  let ks := c.sw.pkts.filter (fun k => k.egPort == p && k.otype == 1 && k.actVsi == v && k.mapped.isNone)
  let c := es.foldl (fun c e => c.answerAfter e (c.synth p)) c
  let c := ks.foldl (fun c k => ((c.withdraw k).answerPkt k.inPort k (c.synth p)).stCtr p 47) c
  c.setBit (Reg.PRT_EVENT p) Bit.PRT_EVENT_LINK_ANSWER

/-- R92: answer every entry of a port, its wait list, and every non-posted request queued for it; set LINK_ANSWER. -/
def Chip.answerPort (c : Chip) (p : Nat) : Chip :=
  let st := c.synth p
  let ents := c.pci.ort.filter (fun e => e.port == p)
  let nps := (c.sw.obq.filter (fun e => e.port == p)).filterMap (fun e =>
    (c.pkt e.uid).bind (fun k => if k.otype = 1 then some k else none))
  let c := ents.foldl (fun c e => c.answerAfter e st) c
  let c := nps.foldl (fun c k => ((c.unqueue k.uid p).answerPkt p k st).stCtr p 47) c
  (c.setBit (Reg.PRT_EVENT p) Bit.PRT_EVENT_LINK_ANSWER).updNpStop p

/-- The answers that waited for completion frames: no such frame waits any more (R94). -/
def Chip.settleDue (c : Chip) : Chip :=
  (c.pci.ort.filter (fun e => e.ansDue.isSome && !c.framePending e)).foldl (fun c e =>
    match e.ansDue with
    | some st =>
      if c.pci.ort.any (fun x => x.port == e.port && x.mapTag == e.mapTag) then (c.answerEntry e st).stCtr e.port 47 else c
    | none => c) c

/-! ## Discards at a port that is down (R98, R216) -/

/-- A released frame that will never be acknowledged meets Table 7.5: a posted one is answered with FAR_ERR STATUS 11, a
completion's discard is logged; each is discharged. -/
def Chip.undone (c : Chip) (p otype addr srcVsi : Nat) (rel : Option Rel) : Chip :=
  match rel with
  | some r =>
    if otype = 0 then (c.genFarErr r.srcFa r.tc 3 addr srcVsi p).discharge r
    else (c.log .reqDiscard [p] [r.srcFa, r.n]).discharge r
  | none => c

/-- A queued posted request or completion is discarded and counted (R98). -/
def Chip.discardQueued (c : Chip) (p : Nat) (k : Pkt) : Chip :=
  ((c.unqueue k.uid p).stCtr p 58).undone p k.otype k.tlp.addr ((k.kh.map (·.srcVsi)).getD 0) k.rel

/-- R98: every posted request and completion queued for the port; TLPs sent and not acknowledged meet Table 7.5. -/
def Chip.flushPort (c : Chip) (p : Nat) : Chip :=
  let ks := (c.sw.obq.filter (fun e => e.port == p)).filterMap (fun e => c.pkt e.uid)
  let c := (ks.filter (fun k => k.otype != 1)).foldl (fun c k => c.discardQueued p k) c
  let un := c.pci.unacked.filter (fun u => u.port == p)
  let c := { c with pci := { c.pci with unacked := c.pci.unacked.filter (fun u => u.port != p) } }
  un.foldl (fun c u => c.undone p u.otype u.addr u.srcVsi u.rel) c

/-- The receive pool of a PCIe port is empty for the accounts of its next link: credits for what is still in it went with the
link that ended (R82, R83). -/
def Chip.poolClear (c : Chip) (p : Nat) : Chip :=
  let c := { c with pci := { c.pci with poolUse := c.pci.poolUse.filter (fun e => !(p * 8 ≤ e.1 && e.1 < p * 8 + 8)) } }
  let c := { c with sw := { c.sw with rx := mapIf (fun r => r.port == p && r.frame.isNone) (fun r => { r with stale := true }) c.sw.rx } }
  c.setPkts (mapIf (fun k => k.inPort == p && decide (k.src < 8)) (fun k => { k with poolH := 0, poolD := 0 }) c.sw.pkts)

end Sys2Proof.Machine
end

