-- ==== Sys2Proof/Machine/Custody.lean ====
section
/-!
DEFINITION. The Mooring store at the ingress edge (R201 to R213, R220 to R228): streams, custody copies, cast-offs,
RESENDs, refusals, replays, failures and their reports, spilling, and the dormant records.
-/
namespace Sys2Proof.Machine

/-! ## Streams and copies -/

def IStream.is (x : IStream) (s t d : Nat) : Bool := x.srcFa == s && x.tc == t && x.destFa == d

def Chip.stream (c : Chip) (s t d : Nat) : Option IStream := c.mor.streams.find? (·.is s t d)

def Chip.putStream (c : Chip) (x : IStream) : Chip :=
  { c with mor := { c.mor with streams := x :: c.mor.streams.filter (fun y => !y.is x.srcFa x.tc x.destFa) } }

/-- Positions held: (NEXT − LOW) mod 65,536, at most 32,768 (R208, R221). -/
def IStream.held (x : IStream) : Nat := modSub 65536 x.next x.low

def Copy.of (k : Copy) (x : IStream) : Bool := k.srcFa == x.srcFa && k.tc == x.tc && k.destFa == x.destFa

def Chip.copiesOf (c : Chip) (x : IStream) : List Copy := c.mor.copies.filter (·.of x)

def Chip.copy (c : Chip) (id : Nat) : Option Copy := c.mor.copies.find? (fun k => k.id == id)

/-- The custody copy of a packet. -/
def Chip.copyOf (c : Chip) (k : Pkt) : Option Copy :=
  match k.copy with
  | some id => c.copy id
  | none => none

def Chip.setCopies (c : Chip) (l : List Copy) : Chip := { c with mor := { c.mor with copies := l } }

def Chip.updCopy (c : Chip) (id : Nat) (f : Copy → Copy) : Chip := c.setCopies (mapIf (fun k => k.id == id) f c.mor.copies)

/-! ## Room (R210 to R212) -/

/-- Granules that a copy takes (R210). -/
def Pkt.granules (k : Pkt) : Nat := ceilDiv k.size 32

/-- On-die granules and entries, and overflow granules, in use. -/
def Chip.dieGran (c : Chip) : Nat := ((c.mor.copies.filter (fun k => k.state != .spilled)).map (·.gran)).sum
def Chip.dieEntries (c : Chip) : Nat := (c.mor.copies.filter (fun k => k.state != .spilled)).length
def Chip.ovfGran (c : Chip) : Nat := ((c.mor.copies.filter (fun k => k.state == .spilled)).map (·.gran)).sum

/-- Granules of the overflow region: OVF_GIB GiB of 32 bytes each. -/
def Chip.ovfRoom (c : Chip) : Nat := c.fld Reg.MOR_CTRL Bit.MOR_CTRL_OVF_GIB * 2 ^ 25

def Chip.dieHasRoom (c : Chip) (g : Nat) : Bool := decide (c.dieGran + g ≤ 1048576 ∧ c.dieEntries + 1 ≤ 262144)

/-- On-die use in percent is at or above a threshold, in granules or in entries. -/
def Chip.useReaches (c : Chip) (pct : Nat) : Bool :=
  decide (pct * 1048576 ≤ 100 * c.dieGran ∨ pct * 262144 ≤ 100 * c.dieEntries)

/-- Spilling starts at SPILL_HI and stops below SPILL_LO (R211). -/
def Chip.updSpill (c : Chip) : Chip :=
  if !c.flag Reg.MOR_CTRL Bit.MOR_CTRL_SPILL_EN then c.clrFld Reg.MOR_STATUS Bit.MOR_STATUS_SPILLING
  else if c.useReaches (c.fld Reg.SPILL_CFG Bit.SPILL_CFG_HI) then c.setBit Reg.MOR_STATUS Bit.MOR_STATUS_SPILLING
  else if !c.useReaches (c.fld Reg.SPILL_CFG Bit.SPILL_CFG_LO) then c.clrFld Reg.MOR_STATUS Bit.MOR_STATUS_SPILLING
  else c

/-! ## Contexts and dormant records (R228) -/

/-- Active contexts in use. -/
def Chip.ictxFull (c : Chip) : Bool := decide (65536 ≤ c.mor.streams.length)

def Chip.dormantOf (c : Chip) (s t d : Nat) : Option Dormant :=
  c.mor.dormant.find? (fun r => r.srcFa == s && r.tc == t && r.destFa == d)

/-- DORMANT_AGE and EPOCH_GAP (Table 7.7). -/
def dormantAge : Nat := 250 * ms
def epochGapNs : Nat := ms

/-- A context whose last copy is gone becomes a dormant record; with the record table full it stays active (R228). -/
def Chip.restStream (c : Chip) (x : IStream) : Chip :=
  if !(c.copiesOf x).isEmpty then c
  else
    let c := ((c.disarm (.custody x.srcFa x.tc x.destFa)).disarm (.limit x.srcFa x.tc x.destFa)).disarm
      (.refuse x.srcFa x.tc x.destFa)
    if 16777216 ≤ c.mor.dormant.length then c
    else
      let r : Dormant := { srcFa := x.srcFa, tc := x.tc, destFa := x.destFa, epoch := x.epoch
                           gapEnd := x.gapEnd, fin := c.now + dormantAge }
      ({ c with mor := { c.mor with
        streams := c.mor.streams.filter (fun y => !y.is x.srcFa x.tc x.destFa)
        dormant := r :: c.mor.dormant } }).arm (.dormant x.srcFa x.tc x.destFa) dormantAge

/-- A dormant record has gone: a stream that holds no copy and kept its active context for want of a record goes dormant
(R228). -/
def Chip.restWaiting (c : Chip) : Chip :=
  match c.mor.streams.find? (fun x => (c.copiesOf x).isEmpty) with
  | some x => c.restStream x
  | none => c

def Chip.restStreamAt (c : Chip) (s t d : Nat) : Chip :=
  match c.stream s t d with
  | some x => c.restStream x
  | none => c

/-! ## Timers of a stream (R222, R223, R226) -/

/-- CUSTODY_TMO with its back-off, in ns. -/
def Chip.custodyNs (c : Chip) (x : IStream) : Nat :=
  c.fld Reg.CUSTODY_CFG Bit.CUSTODY_CFG_TMO * us * 2 ^ min x.expo (c.fld Reg.CUSTODY_CFG Bit.CUSTODY_CFG_BACKOFF_MAX)

def Chip.armCustody (c : Chip) (x : IStream) : Chip := c.arm (.custody x.srcFa x.tc x.destFa) (c.custodyNs x)

/-- CUSTODY_LIMIT runs only outside module Fog (R226, R234). -/
def Chip.armLimit (c : Chip) (x : IStream) : Chip :=
  if c.inModFog then c.disarm (.limit x.srcFa x.tc x.destFa)
  else c.arm (.limit x.srcFa x.tc x.destFa) (c.fld Reg.CUSTODY_LIMIT Bit.CUSTODY_LIMIT_MS * ms)

/-! ## Replay (R224) -/

/-- The k positions from n on. -/
def positions (n k : Nat) : List Nat := (List.range k).map (fun i => (n + i) % 65536)

/-- The copy of a stream at a position. -/
def Chip.copyAt (c : Chip) (x : IStream) (n : Nat) : Option Copy :=
  c.mor.copies.find? (fun k => k.of x && k.epoch == x.epoch && k.n == n)

/-- What the replay port still holds of an earlier replay of a stream goes: a frame not yet staged is withdrawn, and one partway
out finishes without standing for its position in the new replay. -/
def Chip.endReplay (c : Chip) (x : IStream) : Chip :=
  let old := fun (k : Pkt) => k.replay && (match k.replayOf with
    | some (s, t, d, _) => s == x.srcFa && t == x.tc && d == x.destFa
    | none => false)
  let c := (c.sw.pkts.filter (fun k => old k && k.staged == 0)).foldl (fun c k => c.dropPkt k.uid) c
  c.setPkts (mapIf old (fun k => { k with replayOf := none }) c.sw.pkts)

/-- Start a replay from position n: every held copy from n through NEXT − 1 is owed by the replay port. The custody timer
restarts (R223), but not after a port left UP (R225). In module Fog no replay starts (R234). `cause` is the counter of the
replay's cause; the replay after a refusal has none. -/
def Chip.startReplay (c : Chip) (x : IStream) (n : Nat) (cause : Option Nat) (restart : Bool) : Chip :=
  if c.inModFog || x.failed then c
  else
    let pos := (positions n (modSub 65536 x.next n)).filter (fun i =>
      match c.copyAt x i with
      | some k => k.state != .filling
      | none => false)
    let x := { x with replaying := pos }
    let c := (c.endReplay x).putStream x
    let c := match cause with
      | some k => c.ctrInc kMooring 0 k
      | none => c
    if restart && !(c.copiesOf x).isEmpty then c.armCustody x else c

def cReplayTmr : Nat := 4
def cReplayLink : Nat := 5
def cReplayResend : Nat := 6

/-- R225: every stream whose frames last left through the port replays from LOW. -/
def Chip.linkLossReplay (c : Chip) (p : Nat) : Chip :=
  (c.mor.streams.filter (fun x => x.lastPort == some p)).foldl (fun c x => c.startReplay x x.low (some cReplayLink) false) c

/-- Every stream replays from LOW, as after a module Fog or a Mooring island reset (R232, R234). -/
def Chip.replayAll (c : Chip) : Chip := c.mor.streams.foldl (fun c x => c.startReplay x x.low (some cReplayLink) true) c

/-! ## The end of copies -/

/-- Forget a copy; what its packet still waits for is gone with it. -/
def Chip.dropCopy (c : Chip) (id : Nat) : Chip :=
  (c.setCopies (c.mor.copies.filter (fun k => k.id != id))).updSpill

/-- A copy goes to FREED. -/
def Chip.freeCopy (c : Chip) (id : Nat) : Chip := (c.dropCopy id).ctrInc kMooring 0 2

/-- A frame of a Relay operation is cast off or failed (R290, R227). -/
def Chip.relayFrame (c : Chip) (op : Nat) (failed : Bool) : Chip :=
  let done := fun (o : ROp) => { o with frames := o.frames - 1, failed := o.failed || failed }
  { c with rly := { c.rly with ops := mapIf (fun o => o.id == op) done c.rly.ops } }

/-- A packet of the Relay engine is lost inside the module (R309): a read that has no custody copy is answered, a guarded write
that has none yet is reported to the engine; an unguarded write is lost, and what has a copy stays in custody. -/
def Chip.relayLost (c : Chip) (k : Pkt) : Chip :=
  match k.relay with
  | some op =>
    if k.copy.isSome then c
    else if k.otype = 1 then c.answerPkt k.inPort k stCA
    else if k.guarded then c.relayFrame op true
    else c
  | none => c

/-- The report of a failed copy (Table 7.6). -/
def Chip.reportFailed (c : Chip) (k : Copy) (lastPort : Option Nat) : Chip :=
  let p := k.pkt
  let srcVsi := (p.kh.map (·.srcVsi)).getD 0
  if p.otype = 0 then
    match p.relay with
    | some op => c.relayFrame op true
    | none => c.felAccept srcVsi 3 p.tlp.addr k.srcFa 0
  else if p.otype = 1 then
    match c.pci.ort.find? (fun e => e.copy == some k.id) with
    | some e => c.answerEntry e (c.synth e.port)
    | none =>
      if k.entry then c
      else
        let st := match lastPort with
          | some q => c.synth q
          | none => stCA
        c.answerPkt p.inPort p st
  else c

/-- A HELD or SPILLED copy, or one whose last cell was written after its stream failed, goes to FAILED and is reported. Its packet
and those of its replays go no further, wherever they stand, but for one whose transmission has begun (R235, R236). -/
def Chip.failCopy (c : Chip) (k : Copy) (lastPort : Option Nat) : Chip :=
  let c := (c.dropCopy k.id).ctrInc kMooring 0 3
  let c := (c.sw.pkts.filter (fun q => q.copy == some k.id && !c.sw.obq.any (fun e => e.uid == q.uid && e.begun))).foldl
    Chip.withdraw c
  c.reportFailed k lastPort

/-- Causes of stream failure (Table 7.20). -/
def causeLostState : Nat := 1
def causeLimit : Nat := 2
def causeCastoffErr : Nat := 3
def causeMetaEcc : Nat := 4

/-- A stream fails (R226). -/
def Chip.failStream (c : Chip) (x : IStream) (cause : Nat) : Chip :=
  let c := c.wr Reg.LAST_FAIL_SRC (BitVec.ofNat 32 (x.srcFa % 2 ^ 25 + x.tc % 8 * 2 ^ 25 + cause * 2 ^ 28))
  let c := c.wr Reg.LAST_FAIL_DEST (BitVec.ofNat 32 (x.destFa % 2 ^ 25 + x.epoch % 128 * 2 ^ 25))
  let c := c.setBit Reg.MOR_EVENT Bit.MOR_EVENT_STREAM_FAILED
  let c := if cause = causeCastoffErr then c.setBit Reg.MOR_EVENT Bit.MOR_EVENT_CASTOFF_ERR else c
  let c := if cause = causeMetaEcc then c.setBit Reg.MOR_EVENT Bit.MOR_EVENT_META_ECC else c
  let c := c.log .streamFailed [x.srcFa, x.tc, x.destFa] [cause, x.epoch]
  let x := { x with failed := true, replaying := [], refused := false, gapEnd := c.now + epochGapNs }
  let c := ((c.putStream x).disarm (.custody x.srcFa x.tc x.destFa)).disarm (.limit x.srcFa x.tc x.destFa)
  let c := (c.disarm (.refuse x.srcFa x.tc x.destFa)).arm (.epochGap x.srcFa x.tc x.destFa) epochGapNs
  let ks := c.copiesOf x
  let c := (ks.filter (fun k => k.state == .filling)).foldl (fun c k => c.updCopy k.id (fun k => { k with failDone := true })) c
  let c := (ks.filter (fun k => k.state != .filling)).foldl (fun c k => c.failCopy k x.lastPort) c
  c.restStream x

/-! ## Cast-offs, RESENDs and REFUSEs (R220 to R222) -/

/-- Copies of the d positions from LOW on are freed; one that is still FILLING is freed when its last cell is written. -/
def Chip.castCopies (c : Chip) (x : IStream) (d : Nat) : Chip :=
  (positions x.low d).foldl (fun c i =>
    match c.copyAt x i with
    | some k =>
      if k.state == .filling then c.updCopy k.id (fun k => { k with castDone := true })
      else
        let c := c.freeCopy k.id
        match k.pkt.relay with
        | some op => if k.pkt.otype = 0 then c.relayFrame op false else c
        | none => c
    | none => c) c

/-- A CAST_OFF with RESEND = 0 (R220). -/
def Chip.applyCastOff (c : Chip) (srcFa tc destFa epoch n : Nat) : Chip :=
  let ignored := c.satInc Reg.MOR_IGNORED Bit.MOR_IGNORED_CAST_IGNORED
  match c.stream srcFa tc destFa with
  | none => ignored
  | some x =>
    if x.failed || x.epoch ≠ epoch then ignored
    else
      let d := modSub 65536 (n + 1) x.low
      if d ≤ x.held then
        if d = 0 then c
        else
          let gone := positions x.low d
          let c := c.castCopies x d
          let x := { x with low := (n + 1) % 65536, expo := 0, refused := false, refuseExp := 0
                            replaying := x.replaying.filter (fun i => !gone.contains i) }
          let c := (c.putStream x).disarm (.refuse srcFa tc destFa)
          let c := (c.armCustody x).armLimit x
          c.restStream x
      else if d ≤ 32767 then c.failStream x causeCastoffErr
      else c

/-- A RESEND (R221). -/
def Chip.applyResend (c : Chip) (srcFa tc destFa epoch n : Nat) : Chip :=
  let ignored := c.satInc Reg.MOR_IGNORED Bit.MOR_IGNORED_RESEND_IGNORED
  match c.stream srcFa tc destFa with
  | none => ignored
  | some x =>
    if x.failed || x.epoch ≠ epoch then ignored
    else
      let n' := (n + 1) % 65536
      let d := modSub 65536 n' x.low
      if d < x.held then
        if x.replaying.contains n' then ignored else c.startReplay x n' (some cReplayResend) true
      else if d = x.held then ignored
      else if d ≤ 32767 then c.failStream x causeCastoffErr
      else c.failStream x causeLostState

/-- The back-off of a refusal: REFUSE_BASE, doubled, plus a random 0 to 25 % (R222). The random part is a free value. -/
def Chip.refuseNs (c : Chip) (x : IStream) : Nat :=
  let b := c.fld Reg.REFUSE_CFG Bit.REFUSE_CFG_BASE * us * 2 ^ min x.refuseExp (c.fld Reg.REFUSE_CFG Bit.REFUSE_CFG_MAX_EXP)
  b + c.freeVal % (b / 4 + 1)

/-- A REFUSE for the stream's current epoch stops new frames; after the back-off the store replays from LOW (R222). -/
def Chip.applyRefuse (c : Chip) (srcFa tc destFa epoch : Nat) : Chip :=
  match c.stream srcFa tc destFa with
  | none => c
  | some x =>
    if x.failed || x.epoch ≠ epoch then c
    else
      let d := c.refuseNs x
      let c := (c.setBit Reg.MOR_EVENT Bit.MOR_EVENT_REFUSE_RCVD).drew
      (c.putStream { x with refused := true, refuseExp := x.refuseExp + 1 }).arm (.refuse srcFa tc destFa) d

/-! ## Allocation (R205 to R212, R231) -/

/-- A packet that may be staged only after a copy of it exists: a guarded packet formed at this edge (R209, R203). -/
def Chip.needsCopy (c : Chip) (k : Pkt) : Bool :=
  k.guarded && k.copy.isNone && !k.replay && (match k.kh with | some h => c.faHere h.srcFa | none => false)

/-- The stream may take a frame now: it is not refused, failed, replaying or full, none of its copies is FILLING; a new
stream needs a context and the end of BOOT_HOLD and of its EPOCH_GAP (R205, R208, R222, R224, R226, R228, R231). -/
def Chip.streamReady (c : Chip) (s t d : Nat) : Bool :=
  match c.stream s t d with
  | some x =>
    if (c.copiesOf x).isEmpty then !c.mor.bootHold && decide (x.gapEnd ≤ c.now)
    else !x.failed && !x.refused && x.replaying.isEmpty && decide (x.held < 32768) &&
      (c.copiesOf x).all (fun k => k.state != .filling)
  | none =>
    !c.mor.bootHold && !c.ictxFull && (match c.dormantOf s t d with
      | some r => decide (r.gapEnd ≤ c.now)
      | none => true)

/-- The context that the frame is given its position from: the stream's own, or a fresh epoch (R207). -/
def Chip.openStream (c : Chip) (s t d : Nat) : IStream :=
  match c.stream s t d with
  | some x =>
    if (c.copiesOf x).isEmpty then { srcFa := s, tc := t, destFa := d, epoch := (x.epoch + 1) % 256, lastPort := x.lastPort }
    else x
  | none =>
    match c.dormantOf s t d with
    | some r => { srcFa := s, tc := t, destFa := d, epoch := (r.epoch + 1) % 256 }
    | none => { srcFa := s, tc := t, destFa := d }

/-- Allocate the copy of a packet: granules, an entry, and its position N (R205, R209, R210). The record that its stream
leaves lets a waiting context go dormant. -/
def Chip.allocCopy (c : Chip) (k : Pkt) (h : KHdr) : Chip :=
  let x := c.openStream h.srcFa h.tc h.destFa
  let fresh := match c.stream h.srcFa h.tc h.destFa with
    | some y => (c.copiesOf y).isEmpty
    | none => true
  let h' := { h with epoch := x.epoch, n := x.next, alt := if fresh then 0 else x.alt }
  let had := (c.dormantOf h.srcFa h.tc h.destFa).isSome
  let id := c.mor.nextCopy
  let k' := { k with kh := some h', copy := some id }
  let cp : Copy := { id, srcFa := h.srcFa, tc := h.tc, destFa := h.destFa, epoch := x.epoch, n := x.next
                     pkt := k', gran := k.granules, age := id }
  let x' := { x with next := (x.next + 1) % 65536 }
  let c := (c.setCopies (c.mor.copies ++ [cp])).updPkt k.uid (fun _ => k')
  let c := { c with mor := { c.mor with
    nextCopy := id + 1
    dormant := c.mor.dormant.filter (fun r => !(r.srcFa == h.srcFa && r.tc == h.tc && r.destFa == h.destFa)) } }
  let c := ((c.putStream x').disarm (.dormant h.srcFa h.tc h.destFa)).ctrInc kMooring 0 0
  let c := if fresh then (c.armCustody x').armLimit x' else c
  let c := if had then c.restWaiting else c
  (c.clrFld Reg.MOR_STATUS Bit.MOR_STATUS_HOLD).updSpill

/-- Guarded intake is held (R212). -/
def Chip.holdIntake (c : Chip) : Chip :=
  if c.flag Reg.MOR_STATUS Bit.MOR_STATUS_HOLD then c
  else (c.setBit Reg.MOR_STATUS Bit.MOR_STATUS_HOLD).setBit Reg.MOR_EVENT Bit.MOR_EVENT_HOLD_ENTERED

/-- The last cell of a copy is written: HELD, or FREED when its cast-off came before (R209), or FAILED when its stream has
failed (R226). The acknowledgement that waited goes out (R30), and the request that the frame ends is discharged (R216). -/
def Chip.copyComplete (c : Chip) (k : Copy) : Chip :=
  let c := (c.updCopy k.id (fun k => { k with state := .held })).ackHeld k.pkt
  let c := c.dischargeOpt k.pkt.rel
  if k.failDone then
    let lastPort := (c.stream k.srcFa k.tc k.destFa).bind (·.lastPort)
    (c.failCopy { k with state := .held } lastPort).restStreamAt k.srcFa k.tc k.destFa
  else if k.castDone then
    let c := c.freeCopy k.id
    let c := match k.pkt.relay with
      | some op => if k.pkt.otype = 0 then c.relayFrame op false else c
      | none => c
    c.restStreamAt k.srcFa k.tc k.destFa
  else c.updSpill

/-- A nullified packet's copy goes to VOID and its N, the stream's NEXT less 1, is not consumed (R205, R67). -/
def Chip.voidCopy (c : Chip) (k : Copy) : Chip :=
  let c := c.dropCopy k.id
  match c.stream k.srcFa k.tc k.destFa with
  | some x =>
    let x := if x.epoch = k.epoch ∧ !k.castDone then { x with next := k.n } else x
    (c.putStream x).restStream x
  | none => c

end Sys2Proof.Machine
end

