-- ==== Sys2Proof/Machine/Resets.lean ====
section
/-!
DEFINITION. What several resets share: the slices of the Relay engine when they halt and when they are reset (R275, R277,
R307), the VSI reset of Table 8.7 with its translated FLRs and bound windows (R247, R260, R262), and the loss of a PCIe
link (R92, R98, R99, R537).
-/
namespace Sys2Proof.Machine

/-! ## Scheduler keys and the state that resets drop (Table 10.4) -/

/-- Keys of finish tags (class queues, sub-queues) and of virtual times. -/
def keyCls (p k : Nat) : Nat := 2 ^ 20 + p * 8 + k
def keySub (p k v : Nat) : Nat := 2 ^ 24 + (p * 8 + k) * 64 + v
def vkeyCls (p : Nat) : Nat := p
def vkeySub (p k : Nat) : Nat := 1024 + p * 8 + k

/-- A port that left DL_Active or UP: its tags are invalid, V is kept. -/
def Chip.dropTags (c : Chip) (p : Nat) : Chip :=
  let keep := fun (key : Nat) => !((keyCls p 0 ≤ key && key < keyCls (p + 1) 0) || (keySub p 0 0 ≤ key && key < keySub (p + 1) 0 0))
  { c with sw := { c.sw with wfqTag := c.sw.wfqTag.filter (fun e => keep e.1) } }

/-- POL_EFF of every class of a VSI returns to base (R322). -/
def Chip.polReset (c : Chip) (v : Nat) : Chip := (List.range 8).foldl (fun c k => c.resetReg (Reg.POL_EFF v k)) c

/-! ## Relay slices -/

def sUngranted : Nat := 0
def sStopped : Nat := 1
def sActive : Nat := 2
def sDraining : Nat := 3
def sHalted : Nat := 4

def haltRidGone : Nat := 1
def haltSqFault : Nat := 2
def haltCqFault : Nat := 3
def haltVsiReset : Nat := 4
def haltIslandReset : Nat := 5

def Chip.rslice (c : Chip) (s : Nat) : RSlice := (c.rly.slices.find? (fun x => x.slice == s)).getD { slice := s }

def Chip.putRslice (c : Chip) (x : RSlice) : Chip :=
  { c with rly := { c.rly with slices := x :: c.rly.slices.filter (fun y => y.slice != x.slice) } }

def Chip.slState (c : Chip) (s : Nat) : Nat := c.fld (Reg.SLC_STATE s) Bit.SLC_STATE_STATE

def Chip.slVsi (c : Chip) (s : Nat) : Nat := c.fld (Reg.SLC_BIND s) Bit.SLC_BIND_VSI

/-- An issued piece has finished (R290): a read when its last completion has arrived, a write when every frame of it in
custody has been cast off, a SEND when its reply has arrived or its time has run out. -/
def ROp.done (o : ROp) : Bool := o.arrived || (o.kind == .write && o.frames == 0)

def Chip.slOps (c : Chip) (s : Nat) : List ROp := c.rly.ops.filter (fun o => o.slice == s && !o.done)

def Chip.slDescs (c : Chip) (s : Nat) : List RDesc := c.rly.descs.filter (fun d => d.slice == s)

/-- A descriptor holds an issued piece that has not finished. -/
def Chip.holdsPiece (c : Chip) (d : RDesc) : Bool := c.rly.ops.any (fun o => o.slice == d.slice && o.idx == d.idx && !o.done)

/-- A Relay message leaves for an FA: to this module's own engine, or as an unguarded frame. -/
def Chip.sendRelayMsg (c : Chip) (v port destFa tc : Nat) (m : RelayMsg) (data : List Byte) (poison : Bool := false) : Chip :=
  let srcFa := c.ownFa port
  let t : Tlp := { kind := .msg, len := 16 + data.length, tc, data, rmsg := some m, poison }
  if c.faHere destFa then { c with rly := { c.rly with msgs := c.rly.msgs ++ [(srcFa, faPort destFa, tc, t)] } }
  else
    match c.lookBoth destFa srcFa tc 0 with
    | .to q =>
      let h : KHdr := { destFa, tc, srcFa, srcVsi := v }
      c.addPkt ({ st := portStation port, src := 8, inPort := port, tlp := t, kh := some h, egPort := q, noticeFa := srcFa,
                  egVc := c.egVc false tc, vsi := v, actVsi := v, wgen := some 0 } : Pkt)
    | .nowhere =>
      let c := ((c.setBit Reg.KND_EVENT Bit.KND_EVENT_NO_ROUTE).stCtr port 52).log .noRoute [port] [destFa, srcFa]
      c.genFarErr srcFa tc 3 0 v port
    | .mismatch => c.misLook port

/-- The writes of a slice that wait for the scheduler. -/
def Chip.postsOf (c : Chip) (s : Nat) : List RPost := c.rly.posts.filter (fun p => p.slice == s)

/-- A descriptor's record that waits: the descriptor has not completed (R290). -/
def RPost.owes (p : RPost) : Bool :=
  match p.what with
  | .record r => !r.recv
  | .intr _ => false
  | .inbox _ => false

/-- The received SEND that a waiting write is for. -/
def RPost.send (p : RPost) : Option SendFrom :=
  match p.what with
  | .record r => r.reply
  | .intr _ => none
  | .inbox x => some x.from_

/-- A received SEND is answered (R303). -/
def Chip.sendReply (c : Chip) (f : SendFrom) (status : Nat) : Chip :=
  c.sendRelayMsg ((c.vsiOfPort f.port).getD 0) f.port f.srcFa f.tc { f.msg with reply := true, status } []

/-- The waiting writes of a slice go; a SEND that was not whole in its inbox is answered INBOX_OFF. -/
def Chip.dropPosts (c : Chip) (s : Nat) : Chip :=
  let gone := c.postsOf s
  let c := { c with rly := { c.rly with posts := c.rly.posts.filter (fun p => p.slice != s) } }
  (gone.filterMap RPost.send).foldl (fun c f => c.sendReply f 0x0A) c

/-- Operations of a slice (R290): issued pieces that have not finished, and fetched descriptors that hold none. -/
def Chip.inflight (c : Chip) (s : Nat) : Nat :=
  (c.slOps s).length + ((c.slDescs s).filter (fun d => !d.noRecord && !c.holdsPiece d)).length +
    ((c.postsOf s).filter RPost.owes).length

/-- Operations of the engine (R290). A fetch in flight is as many as the descriptors it brings. -/
def Chip.opsInFlight (c : Chip) : Nat :=
  ((c.rly.ops.filter (fun o => !o.done)).map (fun o => if o.kind == .fetch then o.len / 64 else 1)).sum +
    (c.rly.descs.filter (fun d => !d.noRecord && !c.holdsPiece d)).length + (c.rly.posts.filter RPost.owes).length

/-- Scheduler key of a slice. -/
def keySlice (s : Nat) : Nat := 2 ^ 30 + s

/-- RESET of a slice with INFLIGHT 0, in one step (R275). -/
def Chip.sliceReset (c : Chip) (s : Nat) : Chip :=
  let c := c.clrFld (Reg.INT_CTRL s) Bit.INT_CTRL_PENDING
  let c := { c with sw := { c.sw with wfqTag := c.sw.wfqTag.erase (keySlice s) } }
  let c := c.resetReg (Reg.SLICE_PACE s)
  let c := ((c.wr (Reg.SQ_SEEN s) 0).wr (Reg.SQ_FETCHED s) 0).wr (Reg.CQ_WRITTEN s) 0
  let c := c.setFld (Reg.RING_GEN s) Bit.RING_GEN_GEN (c.fld (Reg.RING_GEN s) Bit.RING_GEN_GEN + 1)
  let c := { c with rly := { c.rly with 
    held := c.rly.held.filter (fun r => r.slice != s)
    descs := c.rly.descs.filter (fun d => d.slice != s)
    ops := c.rly.ops.filter (fun o => o.slice != s) } }
  let c := (c.putRslice { slice := s }).dropPosts s
  (c.setFld (Reg.SLC_STATE s) Bit.SLC_STATE_STATE sStopped).setFld (Reg.SLC_STATE s) Bit.SLC_STATE_HALT_CAUSE 0

/-- The fields that Tables 9.21 to 9.28 mark "VSI reset" (R307 step 3). -/
def Chip.sliceVsiFields (c : Chip) (s : Nat) : Chip :=
  let c := c.clrFld (Reg.SLC_BIND s) Bit.SLC_BIND_PASID_EN
  let c := (c.clrFld (Reg.SLC_BIND s) Bit.SLC_BIND_WORLD).setFld (Reg.SLC_BIND s) Bit.SLC_BIND_TC_MASK 1
  let c := [Reg.SLC_PASID s, Reg.SLC_RID s, Reg.RING_CFG s, Reg.PREFETCH s, Reg.SQ_BASE_LO s, Reg.SQ_BASE_HI s,
    Reg.CQ_BASE_LO s, Reg.CQ_BASE_HI s, Reg.INT_ADDR_LO s, Reg.INT_ADDR_HI s, Reg.INT_DATA s, Reg.IB_BASE_LO s,
    Reg.IB_BASE_HI s, Reg.IB_KEY s].foldl Chip.resetReg c
  let c := c.setFld (Reg.INT_CTRL s) Bit.INT_CTRL_MASK 1
  (c.clrFld (Reg.IB_CFG s) Bit.IB_CFG_EN).clrFld (Reg.IB_CFG s) Bit.IB_CFG_INTR

/-- A slice whose VSI was reset is reset when its INFLIGHT reaches 0, and then its fields (R307 steps 2 and 3). -/
def Chip.sliceSettle (c : Chip) (s : Nat) : Chip :=
  if (c.rslice s).resetWait && c.inflight s == 0 then (c.sliceReset s).sliceVsiFields s else c

/-- A slice enters HALTED (R277): it fetches and starts nothing, descriptors with no issued piece end with no record, and
the data of reads is discarded: at once where it has arrived (R289). Writes that wait are not made (Table 9.12). -/
def Chip.haltSlice (c : Chip) (s cause : Nat) : Chip :=
  if c.slState s = sActive ∨ c.slState s = sDraining then
    let c := (c.setFld (Reg.SLC_STATE s) Bit.SLC_STATE_STATE sHalted).setFld (Reg.SLC_STATE s)
      Bit.SLC_STATE_HALT_CAUSE cause
    let ds := c.rly.descs.filter (fun d => d.slice != s || c.holdsPiece d)
    let ds := mapIf (fun d => d.slice == s) (fun d => { d with noRecord := true }) ds
    let os := mapIf (fun o => o.slice == s) (fun o => { o with discard := true })
      (c.rly.ops.filter (fun o => !(o.slice == s && o.kind == .read && o.arrived)))
    (({ c with rly := { c.rly with descs := ds, ops := os } }).dropPosts s).log .sliceHalt [s] [cause]
  else c

/-- Every slice whose reset waits for INFLIGHT 0. -/
def Chip.relaySettle (c : Chip) : Chip :=
  (c.rly.slices.filter (·.resetWait)).foldl (fun c x => c.sliceSettle x.slice) c

/-- The granted slices of a VSI. -/
def Chip.slicesOf (c : Chip) (v : Nat) : List Nat :=
  (c.rly.slices.map (·.slice)).filter (fun s => c.slState s != sUngranted && c.slVsi s == v)

/-- R307 at every granted slice of a VSI. -/
def Chip.relayVsiReset (c : Chip) (v : Nat) : Chip :=
  (c.slicesOf v).foldl (fun c s =>
    let c := c.haltSlice s haltVsiReset
    (c.putRslice { c.rslice s with resetWait := true }).sliceSettle s) c

/-! ## Configuration state of a VSI -/

/-- Forget the configuration dwords of functions `lo` to `hi - 1` of a VSI. -/
def Chip.dropCfg (c : Chip) (v lo hi : Nat) : Chip :=
  { c with vsi := { c.vsi with
    cfg := c.vsi.cfg.filter (fun e => !(cfgKey v lo 0 ≤ e.1 && e.1 < cfgKey v hi 0)) } }

/-- DPC Trigger Enable of a vBridge: 0 off, 1 fatal errors, 2 any uncorrectable error. PRESUMED (log 161): the manual names the
field and gives no codes; these are those of PCI Express. -/
def cfgDpcEn : Nat := 1

/-- The function bindings of a VSI's vBridge. -/
def HostBind.at (h : HostBind) (v vbr devfn : Nat) : Bool := h.v == v && h.vbr == vbr && h.devfn == devfn

def Chip.hostAt (c : Chip) (v vbr devfn : Nat) : Option HostBind := c.vsi.hosts.find? (fun h => h.at v vbr devfn)

def Chip.putHost (c : Chip) (h : HostBind) : Chip :=
  { c with vsi := { c.vsi with hosts := h :: c.vsi.hosts.filter (fun x => !x.at h.v h.vbr h.devfn) } }

/-! ## Bound windows (R247, R248) -/

/-- Write one word of a window in the shadow, in the table in force and in the reference image. -/
def Chip.writeWin (c : Chip) (off : Nat) (w : Word) : Chip := (c.putTab off w).wr off w

def Chip.bumpWinGen (c : Chip) : Chip :=
  c.setFld Reg.WIN_ACTIVE_GEN Bit.WIN_ACTIVE_GEN_GEN (c.fld Reg.WIN_ACTIVE_GEN Bit.WIN_ACTIVE_GEN_GEN + 1)

/-- A bound window becomes invalid, in the table in force and in its shadow, whatever the manager had written there before;
WIN_ACTIVE_GEN advances when it was valid. -/
def Chip.invalidateWin (c : Chip) (w : Nat) : Chip :=
  let off := Reg.WIN_BASE_LO w
  let was := c.tabF false off Bit.WIN_BASE_LO_VALID = 1
  let c := if was ∨ c.fld off Bit.WIN_BASE_LO_VALID = 1 then
      c.writeWin off (setF (c.tab false off) Bit.WIN_BASE_LO_VALID 0)
    else c
  if was then c.bumpWinGen else c

/-- FA of the port of a function. -/
def Chip.fnFa (c : Chip) (h : HostBind) : Nat :=
  match h.local_ with
  | some p => c.ownFa p
  | none => h.targetFa

/-- A bound window takes the address that the host wrote, or stays invalid where it would overlap another valid window of
the VSI, which sets BAR_OVERLAP. -/
def Chip.validateWin (c : Chip) (h : HostBind) (b : BarSt) : Chip :=
  let hit := (c.wins false).any (fun w => w.idx != b.win && w.vsi == h.v &&
    decide (w.base < b.addr + b.size ∧ b.addr < w.base + w.size * 4096))
  if hit then (c.invalidateWin b.win).setBit (Reg.VSI_EVENT h.v) Bit.VSI_EVENT_BAR_OVERLAP
  else
    let off := (b.phys + 2 ^ 64 - b.addr % 2 ^ 64) % 2 ^ 64
    let c := c.writeWin (Reg.WIN_BASE_HI b.win) (BitVec.ofNat 32 (b.addr / 2 ^ 32))
    let c := c.writeWin (Reg.WIN_OFF_LO b.win) (BitVec.ofNat 32 (off / 4096 * 4096))
    let c := c.writeWin (Reg.WIN_OFF_HI b.win) (BitVec.ofNat 32 (off / 2 ^ 32))
    let c := c.writeWin (Reg.WIN_DEST b.win) (BitVec.ofNat 32 (c.fnFa h))
    let c := c.writeWin (Reg.WIN_BASE_LO b.win) (BitVec.ofNat 32 (b.addr / 4096 * 4096 + 1))
    c.bumpWinGen

/-- The bound windows of a binding follow its Memory Space Enable and its BARs. -/
def Chip.syncWins (c : Chip) (h : HostBind) : Chip :=
  h.bars.foldl (fun c b => if h.mse && b.lo && b.hi then c.validateWin h b else c.invalidateWin b.win) c

/-- The emulated fields of a function go to their reset values, and its bound windows are invalid. -/
def Chip.resetFn (c : Chip) (h : HostBind) : Chip :=
  let c := h.bars.foldl (fun c b => c.invalidateWin b.win) c
  c.putHost { h with mse := false, bars := h.bars.map (fun b => { b with addr := 0, lo := false, hi := false }) }

/-! ## Presence (R258, R264, R471) -/

/-- The lead port of a cable site: its existing port with the lowest lane on it (R467). -/
def Chip.leadOf (c : Chip) (site : Nat) : Option Nat :=
  let ps := (c.portsOfStation (site / 2)).filter (fun p => (c.sitesOf p).contains site)
  ps.foldl (fun a p => match a with
    | none => some p
    | some q => if c.firstLane p < c.firstLane q then some p else some q) none

/-- A port is present: in-band presence, and for a lead port PRSNT_N of its site, of both sites for x16, unless the two have
differed for 100 ms. In-band presence is a link that has trained. -/
def Chip.present (c : Chip) (p : Nat) : Bool :=
  let inBand := c.pci.phyUp.contains p || c.isSpan p
  let x16 := (c.port p).width == 4
  let sites := c.sitesOf p
  if c.pci.cableBad.contains p then false
  else if x16 then sites.all (fun i => c.pci.prsnt.contains i)
  else inBand || sites.any (fun i => c.pci.prsnt.contains i && c.leadOf i == some p)

/-- A vBridge reports the presence of its target, once the VSI is ready (R256, R258): a local port, or (none) a function on
another module. Hot-plug events follow. -/
def Chip.showVbr (c : Chip) (v i : Nat) (target : Option Nat) : Chip :=
  let here := c.flag (Reg.VSI_STATUS v) Bit.VSI_STATUS_READY && (match target with
    | some p => c.present p && c.stUp (portStation p)
    | none => true)
  let link := match target with
    | some p => c.dlUp p
    | none => here
  (c.setFld (Reg.VBR_STATE v i) Bit.VBR_STATE_PRESENT (b2n here)).hotplug v i here link

/-- The vBridges bound to a port report its presence, with hot-plug events (R258, R264). -/
def Chip.syncPresence (c : Chip) (p : Nat) : Chip := (c.boundTo p).foldl (fun c b => c.showVbr b.1 b.2 (some p)) c

/-- A vBridge has no target any more: it is EMPTY, and keeps the bus numbers that the host gave it (R242). -/
def Chip.emptyVbr (c : Chip) (v i : Nat) : Chip :=
  let o := Reg.VBR_STATE v i
  ([Bit.VBR_STATE_KIND, Bit.VBR_STATE_PRESENT, Bit.VBR_STATE_FLR_BUSY, Bit.VBR_STATE_SHARED, Bit.VBR_STATE_REMOTE_TGT,
    Bit.VBR_STATE_PORT]).foldl (fun c f => c.clrFld o f) c

/-- Step 1 of R255: the vBridge reports presence 0, with the hot-plug events of Table 8.10. -/
def Chip.hideVbr (c : Chip) (v i : Nat) : Chip :=
  if c.flag (Reg.VBR_STATE v i) Bit.VBR_STATE_PRESENT then
    (c.clrFld (Reg.VBR_STATE v i) Bit.VBR_STATE_PRESENT).hotplug v i false false
  else c

/-! ## Translated FLR (R262) -/

/-- QUIESCE_TMO of a VSI, in ns. -/
def Chip.quiesceNs (c : Chip) (v : Nat) : Nat :=
  nth [ms, 10 * ms, 50 * ms, 90 * ms] (c.fld (Reg.VSI_CTRL v) Bit.VSI_CTRL_QUIESCE_TMO)

/-- FLR_BUSY of a vBridge follows its functions. -/
def Chip.updFlrBusy (c : Chip) (v vbr : Nat) : Chip :=
  let busy := c.vsi.hosts.any (fun h => h.v == v && h.vbr == vbr && decide (0 < h.flr))
  c.setFld (Reg.VBR_STATE v vbr) Bit.VBR_STATE_FLR_BUSY (b2n busy)

/-- Steps 1 to 3 of Table 8.8 begin. A VSI reset that meets an FLR in progress keeps its FRS back (R263); an UNBIND that meets
one waits for its end (R256). -/
def Chip.startQuiesce (c : Chip) (h : HostBind) (unbinding byReset : Bool) : Chip :=
  if 0 < h.flr then c.putHost { h with byReset := h.byReset || byReset, unbinding := h.unbinding || unbinding }
  else
    let c := c.resetFn h
    match c.hostAt h.v h.vbr h.devfn with
    | some h =>
      ((c.putHost { h with flr := if unbinding then 7 else 1, unbinding, byReset }).updFlrBusy h.v h.vbr).arm
        (.quiesce h.v h.vbr h.devfn) (c.quiesceNs h.v)
    | none => c

/-- UNBIND of functions of a vBridge (R255, R256): while a translated FLR runs on any of them the command waits; then the
vBridge reports presence 0, where none of its functions stays, and steps 1 to 4 of Table 8.8 begin for each. -/
def Chip.startUnbind (c : Chip) (v i : Nat) (hs : List HostBind) : Chip :=
  if hs.any (fun h => decide (0 < h.flr)) then
    hs.foldl (fun c h => c.putHost { h with unbinding := true }) c
  else
    let all := (c.vsi.hosts.filter (fun x => x.v == v && x.vbr == i)).all (fun x => hs.any (fun h => h.devfn == x.devfn))
    let c := if all then c.hideVbr v i else c
    hs.foldl (fun c h => c.startQuiesce h true false) c

/-- Step 7 of Table 8.8: FLR_BUSY clears, FRS goes out under R259 when asked for, FLR_TRANSLATED is set. An UNBIND that
waited for the end of the FLR goes on (R256). -/
def Chip.endFlr (c : Chip) (h : HostBind) (frs : Bool) : Chip :=
  let c := (c.putHost { h with flr := 0, byReset := false }).updFlrBusy h.v h.vbr
  let c := (c.disarm (.quiesce h.v h.vbr h.devfn)).disarm (.frs h.v h.vbr h.devfn)
  let c :=
    if frs && !h.byReset && c.flag (Reg.VSI_CTRL h.v) Bit.VSI_CTRL_FRS_EN then
      c.emit (.frs h.v (c.fld (Reg.VBR_STATE h.v h.vbr) Bit.VBR_STATE_SEC_BUS * 256 + h.devfn))
    else c
  let c := (c.setBit (Reg.VSI_EVENT h.v) Bit.VSI_EVENT_FLR_TRANSLATED).log .flrDone [h.v, h.vbr, h.devfn]
  if h.unbinding then
    c.startUnbind h.v h.vbr (c.vsi.hosts.filter (fun x => x.v == h.v && x.vbr == h.vbr && x.unbinding))
  else c

/-! ## VSI reset (Table 8.7) -/

/-- Ports that a VSI holds alone (R244). -/
def Chip.exclusivePorts (c : Chip) (v : Nat) : List Nat :=
  if c.isManager v then [] else ((c.vsi.ports.filter (fun b => b.1 == v)).map (fun b => b.2.2))

/-- Everything below the upstream bridge: vBridges, exclusive ports, bound functions. `byReset`: a VSI reset does it, and the FLRs
of its functions send no FRS (R263). -/
def Chip.resetBelow (c : Chip) (v : Nat) (byReset : Bool) : Chip :=
  let c := c.dropCfg v 2 258
  let c := c.putVbrs (c.vsi.vbrs.filter (fun b => b.v != v))
  let vbs := (List.range (c.fld (Reg.VSI_ID v) Bit.VSI_ID_VBR_COUNT)).filter (fun i => c.rd (Reg.VBR_STATE v i) != 0)
  let c := vbs.foldl (fun c i =>
    (c.clrFld (Reg.VBR_STATE v i) Bit.VBR_STATE_SEC_BUS).clrFld (Reg.VBR_STATE v i) Bit.VBR_STATE_SUB_BUS) c
  let c := (c.exclusivePorts v).foldl (fun c p => c.emit (.hotReset p)) c
  let hs := c.vsi.hosts.filter (fun h => h.v == v)
  hs.foldl (fun c h => c.startQuiesce h false byReset) c

/-- The Keeper's command ring stops (R383): nothing more is fetched, and the command in progress writes no record. -/
def Chip.crStop (c : Chip) : Chip :=
  let k := c.kpr
  ({ c with kpr := { k with noRecord := k.busy.any (fun (b : KHead × KCmd) => !b.1.mctp), queue := k.queue.filter (fun (b : KHead × KCmd) => b.1.mctp) } }).clrFld
    Reg.CR_CTRL Bit.CR_CTRL_EN

/-- The vBridges of a VSI that is not ready report no presence (R256). -/
def Chip.hideAll (c : Chip) (v : Nat) : Chip :=
  ((List.range (c.fld (Reg.VSI_ID v) Bit.VSI_ID_VBR_COUNT)).filter (fun i =>
    c.flag (Reg.VBR_STATE v i) Bit.VBR_STATE_PRESENT)).foldl (fun c i =>
      c.clrFld (Reg.VBR_STATE v i) Bit.VBR_STATE_PRESENT) c

/-- A VSI enters reset (R260, R307). A reset of the manager VSI answers its own requests of the shared ports under R92: its
entries, and what waits for an entry. -/
def Chip.vsiReset (c : Chip) (v : Nat) : Chip :=
  if c.vsiInReset v then c
  else
    let c := c.setBit (Reg.VSI_STATUS v) Bit.VSI_STATUS_IN_RESET
    let c := c.clrFld (Reg.VSI_STATUS v) Bit.VSI_STATUS_READY
    let c := (c.clrFld (Reg.VSI_STATUS v) Bit.VSI_STATUS_HOST_BUS).clrFld (Reg.VSI_STATUS v) Bit.VSI_STATUS_INT_BUS
    let c := (c.setBit (Reg.VSI_EVENT v) Bit.VSI_EVENT_VSI_RESET).log .vsiReset [v]
    let c := (c.dropCfg v 0 2).clrFld (Reg.RF_STATUS v) Bit.RF_STATUS_BME
    let c := (((c.resetBelow v true).hideAll v).relayVsiReset v).polReset v
    if c.isManager v then
      (((c.vsi.ports.filter (fun b => b.1 == v)).map (fun b => b.2.2)).foldl (fun c p => c.answerVsiAt p v) c).crStop
    else c

/-! ## MGMT messages (R395) -/

/-- Fabric addresses of 25 bits name ports; a Keeper reached by the Beacon Ring is named by its module number above them. -/
def beaconFa (module : Nat) : Nat := 2 ^ 25 + module

/-- Queue a message on one Beacon ring (R120). -/
def Chip.beaconQ (c : Chip) (ring : Nat) (m : BeaconMsg) : Chip :=
  if ring = 0 then { c with bcn := { c.bcn with ring0 := { c.bcn.ring0 with q := c.bcn.ring0.q ++ [m] } } }
  else { c with bcn := { c.bcn with ring1 := { c.bcn.ring1 with q := c.bcn.ring1.q ++ [m] } } }

/-- A message of this module gets its sequence number and its CRC (Table 4.3). -/
def Chip.beaconOwn (c : Chip) (type dest : Nat) (bcast : Bool) (payload : List Nat) : BeaconMsg × Chip :=
  (BeaconMsg.seal { type, dest, bcast, src := c.fld Reg.KND_ID Bit.KND_ID_MODULE, seq := c.bcn.seq, payload := payload.take 64 },
   { c with bcn := { c.bcn with seq := (c.bcn.seq + 1) % 256 } })

/-- A module sends each message on both rings (R121). -/
def Chip.beaconSend (c : Chip) (type dest : Nat) (bcast : Bool) (payload : List Nat) : Chip :=
  let r := c.beaconOwn type dest bcast payload
  (r.2.beaconQ 0 r.1).beaconQ 1 r.1

/-- The destination of an MGMT message to every Keeper of the reach. -/
def mgmtAll : Nat := 2 ^ 25 + 128

/-- Send an MGMT message; one that asks for an ACK is kept and repeated every 1 ms. -/
def Chip.sendMgmtMsg (c : Chip) (m : SigMsg) : Chip :=
  match m with
  | .mgmt d _ _ bytes =>
    if d = mgmtAll then c.beaconSend 2 0 true bytes
    else if 2 ^ 25 ≤ d then c.beaconSend 2 (d - 2 ^ 25) false bytes else c.sendSig 0 m
  | .castOff .. => c.sendSig 0 m
  | .notice .. => c.sendSig 0 m
  | .refuse .. => c.sendSig 0 m
  | .farErr .. => c.sendSig 0 m

def Chip.sendMgmt (c : Chip) (destFa msg : Nat) (ackReq : Bool) (payload : List Nat) : Chip :=
  let id := c.kpr.mgmtNext
  let m := SigMsg.mgmt destFa (c.ownFa 0) id ([msg, b2n ackReq] ++ leBytes 2 id ++ payload)
  let c := { c with kpr := { c.kpr with mgmtNext := (id + 1) % 65536 } }
  let c :=
    if ackReq then ({ c with kpr := { c.kpr with mgmtPend := c.kpr.mgmtPend ++ [(id, m, 1)] } }).arm (.mgmt id) ms
    else c
  c.sendMgmtMsg m

/-! ## Packets cut short (R67, R135) -/

/-- A cut-through packet whose later flit failed its check is withdrawn when nothing of it was staged. Else its good bytes
still go into its open cell, which closes with NULL = 1 as it is written to its queue (R40, R67). Its custody copy goes to
VOID. -/
def Chip.nullifyIn (c : Chip) (uid : Nat) : Chip :=
  match c.pkt uid with
  | none => c
  | some k =>
    let c := match c.copyOf k with
      | some x => if x.state == CopySt.filling then c.voidCopy x else c
      | none => c
    let c := match k.ack with
      | some a => { c with pci := { c.pci with ackWait := c.pci.ackWait.erase a } }
      | none => c
    if k.staged = 0 then c.setPkts (c.sw.pkts.filter (fun x => x.uid != uid))
    else (c.updPkt uid (fun x => { x with nulled := true, poolH := 0, poolD := 0, poolVc := none })).stCtr k.inPort 36

/-- What a port has received of a TLP or frame that will never be whole (R67, R135, R166) is dropped: its bytes leave the
pool or the VC buffer, and what cut-through staged of it closes with NULL = 1. -/
def Chip.cutShort (c : Chip) (p : Nat) : Chip :=
  match c.sw.rx.find? (fun r => r.port == p && !r.whole) with
  | none => c
  | some r =>
    let c := { c with sw := { c.sw with rx := c.sw.rx.filter (fun x => !(x.port == p && !x.whole)) } }
    let c :=
      if r.frame.isNone then c.poolLess p r.tlp.creditType r.tlp.creditH r.tlp.creditD
      else if r.dead then c
      else c.subOcc p r.vc (vcPart r.tlp.otype) r.got
    r.uids.foldl Chip.nullifyIn c

/-! ## DPC, and the loss of a PCIe link (R98, R99, R537) -/

/-- A downstream port is shared: the manager VSI holds its PORT binding (R244). -/
def Chip.shared (c : Chip) (p : Nat) : Bool := c.vsi.ports.any (fun b => b.2.2 == p && c.isManager b.1)

/-- The owner of a downstream port has enabled DPC for an error: for any uncorrectable one, or for one that its Uncorrectable
Error Severity calls fatal. An advisory error is signalled as a correctable one and triggers nothing, nor does one on a
shared port (R260). -/
def Chip.dpcSelects (c : Chip) (p : Nat) (e : AerErr) : Bool :=
  !c.shared p && c.vsi.ports.any (fun b => b.2.2 == p &&
    (let en := getF (c.cfg b.1 (2 + b.2.1) cfgDpcEn) ⟨1, 0⟩
     match e.unc with
     | some i => e != .unexpectedCompletion && (en == 2 || (en == 1 && bitOf (c.aerSev b.1 (2 + b.2.1)) i))
     | none => false))

/-- Owners on other modules learn that a port has entered or left DL_Active (Table 8.10, R395). -/
def Chip.reportPort (c : Chip) (p : Nat) (active : Bool) : Chip :=
  ((c.vsi.peers.filter (fun b => b.port == p)).map (·.ownerFa)).dedup.foldl
    (fun c fa => c.sendMgmt fa 2 true (leBytes 4 (c.ownFa p) ++ [b2n active])) c

/-- A port's link leaves DL_Active. `requested`: the module or the owner caused it (R537). -/
def Chip.linkDown (c : Chip) (p : Nat) (requested : Bool) : Chip :=
  if !c.dlUp p then c
  else
    let c := { c with pci := { c.pci with phyUp := c.pci.phyUp.erase p } }
    let c := (c.clrFld (Reg.PRT_STATUS p) Bit.PRT_STATUS_DL_UP).ctrInc kPort p 10
    let c := c.log .linkDown [p] [b2n requested]
    let c :=
      if requested then c
      else (c.setBit (Reg.PRT_EVENT p) Bit.PRT_EVENT_SURPRISE_DOWN).aerPort p .surpriseDown
    let c := ((((c.cutShort p).answerPort p).flushPort p).dropTags p).poolClear p
    if (c.port p).up then
      match c.vsiOfPort p with
      | some v =>
        ((c.clrFld (Reg.VSI_STATUS v) Bit.VSI_STATUS_LINK_UP).clrFld (Reg.VSI_STATUS v) Bit.VSI_STATUS_DRS_SENT).vsiReset v
      | none => c
    else
      let c := (c.syncPresence p).reportPort p false
      let c :=
        if requested then c
        else (c.vsi.hosts.filter (fun h => h.local_ == some p && decide (0 < h.flr ∧ h.flr < 7))).foldl
          (fun c h => c.endFlr h false) c
      if !requested && c.dpcSelects p .surpriseDown then c.setBit (Reg.PRT_STATUS p) Bit.PRT_STATUS_DPC_ACTIVE else c

/-- DPC triggers on a downstream port (R99): the link is disabled until the owner releases it. -/
def Chip.dpcTrigger (c : Chip) (p : Nat) : Chip :=
  if c.flag (Reg.PRT_STATUS p) Bit.PRT_STATUS_DPC_ACTIVE then c
  else
    let c := (c.setBit (Reg.PRT_STATUS p) Bit.PRT_STATUS_DPC_ACTIVE).emit (.linkIdle p)
    let c := { c with pci := { c.pci with dpcSoft := c.pci.dpcSoft.erase p } }
    if c.dlUp p then c.linkDown p true else c.answerPort p

/-- The software trigger of DPC (R99). -/
def Chip.dpcSoftware (c : Chip) (p : Nat) : Chip :=
  if c.flag (Reg.PRT_STATUS p) Bit.PRT_STATUS_DPC_ACTIVE then c
  else { c.dpcTrigger p with pci := { (c.dpcTrigger p).pci with dpcSoft := p :: (c.dpcTrigger p).pci.dpcSoft } }

/-- DPC Status of a port as its owner reads it: Trigger Status, and while it is set Trigger Reason "unmasked uncorrectable error"
(Table 12.4), or "see extension" with "software trigger".  PRESUMED (log 203): the places of the fields are those of the PCI Express
DPC Status register. -/
def Chip.dpcWord (c : Chip) (p : Nat) : Nat :=
  if c.flag (Reg.PRT_STATUS p) Bit.PRT_STATUS_DPC_ACTIVE then (if c.pci.dpcSoft.contains p then 0x27 else 1) else 0

/-- DPC triggers on a downstream port for an uncorrectable error that its owner selects (R99). -/
def Chip.dpcOn (c : Chip) (p : Nat) (e : AerErr) : Chip :=
  if !(c.port p).up && c.dpcSelects p e then c.dpcTrigger p else c

/-- An error of a PCIe port (Table 3.6): its owner's AER takes it, and DPC may trigger. -/
def Chip.portError (c : Chip) (p : Nat) (e : AerErr) : Chip := (c.aerPort p e).dpcOn p e

end Sys2Proof.Machine
end

