-- ==== Sys2Proof/Machine/Fog.lean ====
section
/-!
DEFINITION. The full link reset of a span port (R166, R167) and the Fog state (R350 to R357): port Fog, module Fog, and the
end of each.
-/
namespace Sys2Proof.Machine

/-! ## Full link reset -/

def Chip.setSpanState (c : Chip) (p s : Nat) : Chip := c.setFld (Reg.SPAN_STATUS p) Bit.SPAN_STATUS_STATE s

/-- A non-posted frame queued for a span port that resets (R166): answered when this module formed it and it is unguarded,
kept in custody when it formed it guarded, discarded and counted when it only passes through. -/
def Chip.spanDropNp (c : Chip) (p : Nat) (k : Pkt) : Chip :=
  let c := c.unqueue k.uid p
  match k.kh with
  | some h => if c.faHere h.srcFa && !k.guarded then c.answerPkt p k (c.synth p) else c.stCtr p 58
  | none => c.stCtr p 58

/-- A packet on its way to a port of a station in reset (R419): answered when it is non-posted, else discarded and counted,
wherever it stands. -/
def Chip.dropToward (c : Chip) (k : Pkt) : Chip :=
  let p := k.egPort
  if k.otype = 1 then
    if c.isSpan p then (c.purgePkt k.uid).spanDropNp p k
    else ((c.purgePkt k.uid).answerPkt p k (c.synth p)).stCtr p 47
  else (c.purgePkt k.uid).discardQueued p k

/-- Every frame queued for a span port leaves the output buffer. -/
def Chip.spanFlush (c : Chip) (p : Nat) : Chip :=
  let ks := (c.sw.obq.filter (fun e => e.port == p)).filterMap (fun e => c.pkt e.uid)
  ks.foldl (fun c k => if k.otype = 1 then c.spanDropNp p k else c.discardQueued p k) c

/-- A part of a signal message is lost: discarded and counted (R158). -/
def Chip.dropPart (c : Chip) (p : Nat) : Chip :=
  if (c.span p).sigPart.isEmpty then c
  else ((c.updSpan p (fun s => { s with sigPart := [], lostTail := s.sigPart.getLast? })).ctrInc kPort p cSigDrop).setBit (Reg.SPAN_EVENT p)
    Bit.SPAN_EVENT_SIG_DROP

/-- The effects of R166 on the link layer: replay buffer, frames not yet in flits, signal queue and half-received message go
and are counted, the occupancy of the receive buffers stays. The second copy of a FAR_ERR whose first went with the queue is
due at once. -/
def Chip.spanTeardown (c : Chip) (p : Nat) : Chip :=
  let c := (c.cutShort p).dropPart p
  let s := c.span p
  let c := if c.spanState p = spUp then c.linkLossReplay p else c
  let c := c.ctrAdd kPort p cReplayDiscard s.replay.length
  let c := if s.sigq.isEmpty then c
    else (c.ctrAdd kPort p cSigDrop s.sigq.length).setBit (Reg.SPAN_EVENT p) Bit.SPAN_EVENT_SIG_DROP
  let c := c.ctrAdd kStation (portStation p) 58 (s.out.filter (fun f => f.uid.isNone)).length
  let c := (c.spanFlush p).dropTags p
  let c := c.putSpan { port := p, occ := s.occ }
  let c := (s.sigq.flatMap (·.slots)).foldl (fun c x => c.farLeft x 0) c
  let c := (c.resetReg (Reg.SIGQ_STATUS p)).resetReg (Reg.FC_STATE p)
  let c := [TimerId.replay p, .stale p, .kinit p, .recovery p, .echoReq p, .holdRetry p, .revert p].foldl Chip.disarm c
  (c.clrFld (Reg.SPAN_STATUS p) Bit.SPAN_STATUS_REPLAY_FULL).clrFld (Reg.SPAN_STATUS p) Bit.SPAN_STATUS_VC_USE

/-- What every full link reset does (R166, R167): LINK_RESET is set and counted, and the port goes to RESET. -/
def Chip.resetLink (c : Chip) (p : Nat) : Chip :=
  let c := (c.setBit (Reg.SPAN_EVENT p) Bit.SPAN_EVENT_LINK_RESET).ctrInc kPort p cLinkResets
  let c := (c.spanTeardown p).log .linkDown [p] []
  (c.setSpanState p spReset).clrFld (Reg.SPAN_STATUS p) Bit.SPAN_STATUS_HOLD_CAUSE

/-- A full link reset starts (R167). A port that is down already has nothing to reset, and a port in HELD leaves it only by the exit
for its cause. -/
def Chip.fullLinkReset (c : Chip) (p : Nat) : Chip :=
  if c.spanState p = spDown ∨ c.spanState p = spReset ∨ c.spanState p = spHeld then c else c.resetLink p

/-- SPAN_ERROR (Table 13.13, R349): port, cause (the bit of SPAN_EVENT) and a snapshot of the port's link resets, replay discards
and signal drops. DESIGN CHOICE (log 69): the manual gives the message neither layout nor FA; the Keeper broadcasts it on the
Beacon Ring, where the manager's module takes it. -/
def Chip.spanReport (c : Chip) (p cause : Nat) : Chip :=
  if c.keeperRuns then
    c.sendMgmt mgmtAll 3 false ([p, cause] ++ ([cLinkResets, cReplayDiscard, cSigDrop].flatMap (fun i => leBytes 4 (c.ctr kPort p i))))
  else c

/-- The full link reset that a failed check starts, with its event bit (Table 5.10). -/
def Chip.spanError (c : Chip) (p : Nat) (ev : Fld) : Chip :=
  ((c.setBit (Reg.SPAN_EVENT p) ev).fullLinkReset p).spanReport p ev.lo

def holdLinkDisable : Nat := 1
def holdRoleConflict : Nat := 2
def holdKaundRate : Nat := 3
def holdHeadroom : Nat := 4

/-- The port goes to HELD with a cause (Table 5.9). -/
def Chip.holdSpan (c : Chip) (p cause : Nat) : Chip :=
  (c.setSpanState p spHeld).setFld (Reg.SPAN_STATUS p) Bit.SPAN_STATUS_HOLD_CAUSE cause

/-- A port in HELD leaves it by the exit for its cause (R167), unless LINK_DISABLE holds it too.  DEDUCED (log 191): the port then
stays in HELD for LINK_DISABLE. -/
def Chip.leaveHeld (c : Chip) (p : Nat) : Chip :=
  if c.flag (Reg.PRT_CTRL p) Bit.PRT_CTRL_LINK_DISABLE then
    c.setFld (Reg.SPAN_STATUS p) Bit.SPAN_STATUS_HOLD_CAUSE holdLinkDisable
  else c.resetLink p

/-! ## FOG_N (R353, R354) -/

/-- FOG_N_DRIVE and FOG_N_SENSE follow the two transistors and what else pulls the pin. -/
def Chip.updFogN (c : Chip) : Chip :=
  let drive := c.saf.keeperPull || c.saf.lampPull
  let was := c.flag Reg.SAF_STATUS Bit.SAF_STATUS_FOG_N_DRIVE
  let c := c.setFld Reg.SAF_STATUS Bit.SAF_STATUS_FOG_N_DRIVE (b2n drive)
  let c := c.setFld Reg.SAF_STATUS Bit.SAF_STATUS_FOG_N_SENSE (b2n (c.saf.pinHigh || !(drive || c.saf.pinOutside)))
  if drive = was then c else c.emit (.pin .fogN (!drive))

/-- The module pulls FOG_N through both transistors, or releases both. -/
def Chip.driveFogN (c : Chip) (pull : Bool) : Chip :=
  ({ c with saf := { c.saf with keeperPull := pull, lampPull := pull } }).updFogN

/-- FOG_N outside module Fog: asserted for port Fog only where PORT_FOG_N_EN is set (R353). -/
def Chip.portsInFog (c : Chip) : Nat := c.fld Reg.SAF_STATUS Bit.SAF_STATUS_PORTS_IN_FOG

/-- FOG_N is held for a boot: the Keeper has not reached RUN, or one of the two paths has not passed (R354, R376). -/
def Chip.bootPull (c : Chip) : Bool :=
  !c.keeperRuns || !c.flag Reg.SAF_STATUS Bit.SAF_STATUS_KEEPER_PATH_OK || !c.flag Reg.SAF_STATUS Bit.SAF_STATUS_LAMP_PATH_OK

def Chip.syncFogN (c : Chip) : Chip :=
  c.driveFogN (c.inModFog || c.bootPull || (decide (0 < c.portsInFog) && c.flag Reg.SAF_CTRL Bit.SAF_CTRL_PORT_FOG_N_EN))

/-! ## Entering Fog -/

def fogLookup : Nat := 0x01
def fogHdrCrc : Nat := 0x02
def fogKhCrc : Nat := 0x03
def fogTurn : Nat := 0x04
def fogHop : Nat := 0x05
def fogOrtEcc : Nat := 0x06
def fogMetaEcc : Nat := 0x07
def fogClockLoss : Nat := 0x08
def fogSoftware : Nat := 0x09
def fogSectorCopy : Nat := 0x10
def fogDouble : Nat := 0x11
def fogLockstep : Nat := 0x12
def fogFeedLoss : Nat := 0x13
def fogPowerDoubt : Nat := 0x14
def fogSelftest : Nat := 0x15
def fogNStuck : Nat := 0x16
def fogIslandClock : Nat := 0x17
def fogThermal : Nat := 0x18
def fogBoot : Nat := 0x20

/-- FOG_REPORT (Table 13.13). DESIGN CHOICE (log 69): no rule names its receiver or its moment; the Keeper broadcasts it on the
Beacon Ring when a port or the module enters Fog. -/
def Chip.fogReport (c : Chip) (scope port cause : Nat) : Chip :=
  if c.keeperRuns then c.sendMgmt mgmtAll 4 true [scope, port, cause] else c

/-- A FOG_ALERT of 4 bytes is owed to the next Beacon frame (R355). -/
def Chip.fogAlert (c : Chip) (scope port cause : Nat) : Chip :=
  { c with bcn := { c.bcn with alerts := c.bcn.alerts ++ [(scope, port, cause)] } }

/-- A packet of a port that goes no further: withdrawn and counted, an incomplete custody copy of it given up. A released frame
among them meets Table 7.5: a posted one is reported by FAR_ERR, a non-posted one answered, a completion's discard logged. -/
def Chip.dropMine (c : Chip) (p : Nat) (k : Pkt) : Chip :=
  let c := (c.purgePkt k.uid).stCtr p 58
  let c := match c.copyOf k with
    | some x => if x.state == .filling then c.voidCopy x else c
    | none => c
  if k.rel.isNone then c
  else if k.otype = 1 then c.answerPkt p k (c.synth k.egPort)
  else c.undone p k.otype k.tlp.addr ((k.kh.map (·.srcVsi)).getD 0) k.rel

/-- What a port that enters Fog had received and not yet put through the Tower goes no further (R350, R56): its pool and its VC
buffers are freed. Completions that had passed their check count first, and frames with such completions stay until they are
matched (R94). Custody copies stay; a copy that is not complete is of an unacknowledged TLP and is given up with it. -/
def Chip.fogIntake (c : Chip) (p : Nat) : Chip :=
  let c := (c.cutShort p).countPort p
  let mine := c.sw.pkts.filter (fun k => k.inPort == p && decide (k.src < 8) && !k.formed &&
    !(c.sw.obq.any (fun e => e.uid == k.uid && e.full)))
  let gone := mine.filter (fun k => !(k.guarded && k.staged == 0 && k.copy.isSome && k.whole))
  let held := c.sw.rx.filter (fun r => r.port == p && !c.rxCounts r)
  let c := { c with sw := { c.sw with rx := c.sw.rx.filter (fun r => r.port != p || c.rxCounts r) } }
  gone.foldl (fun c k => c.dropMine p k) (held.foldl Chip.rxFree c)

/-- A result of joint training that waits for the other port of the quad is forgotten: the port no longer trains (R113). -/
def Chip.dropJoint (c : Chip) (p : Nat) : Chip :=
  { c with pci := { c.pci with joint := c.pci.joint.filter (fun j => j.1 != p) } }

/-- What R350 and Table 12.5 do at the port itself. A port in HELD leaves it only as R167 states for its cause. `own`: the port
enters Fog for a cause of its own, which AER reports; module Fog reports none (Table 12.4). -/
def Chip.portFogKind (c : Chip) (p : Nat) (own : Bool) : Chip :=
  let report := fun (c : Chip) (v : Nat) (b : Option Nat) => if own then c.aer v b .uncorrectableInternal else c
  let c := (c.fogIntake p).dropJoint p
  if c.isSpan p then
    let c := report c c.manager none
    ((c.emit (.linkIdle p)).fullLinkReset p).answerPort p
  else if (c.port p).up then
    let c := report c c.manager none
    let c := c.emit (.linkIdle p)
    if c.dlUp p then c.linkDown p true else c.answerPort p
  else
    let c := (c.boundTo p).foldl (fun c b => report c b.1 (some b.2)) c
    c.dpcTrigger p

/-- The port's bit, cause and time (R350, R356). A later cause for a port already in Fog is logged and changes nothing. -/
def Chip.markPortFog (c : Chip) (p cause : Nat) : Chip :=
  let c := c.putBit (Reg.PORT_FOG (p / 32)) Bit.PORT_FOG_FOG (p % 32) true
  let c := c.setFld Reg.SAF_STATUS Bit.SAF_STATUS_PORTS_IN_FOG (c.portsInFog + 1)
  let c := (c.setFld (Reg.PORT_FOG_CAUSE p) Bit.PORT_FOG_CAUSE_CAUSE cause).setFld (Reg.PORT_FOG_CAUSE p)
    Bit.PORT_FOG_CAUSE_TIME (c.watchTime / us)
  c.setBit Reg.SAF_EVENT Bit.SAF_EVENT_PORT_FOG_ENTERED

/-- A port enters Fog, alone (`own`) or as part of module Fog. -/
def Chip.portFogIn (c : Chip) (p cause : Nat) (own : Bool) : Chip :=
  if c.inPortFog p then c.log .fogLater [p] [cause]
  else ((c.markPortFog p cause).portFogKind p own).log .portFog [p] [cause]

/-- A port enters the Fog state (R350). -/
def Chip.portFog (c : Chip) (p cause : Nat) : Chip :=
  if c.inPortFog p then c.log .fogLater [p] [cause]
  else
    let c := (c.portFogIn p cause true).fogReport 0 p cause
    if c.flag Reg.SAF_CTRL Bit.SAF_CTRL_PORT_FOG_N_EN then (c.fogAlert 0 p cause).syncFogN else c

/-- Every port of a station enters Fog (Table 12.7). -/
def Chip.stationFog (c : Chip) (s cause : Nat) : Chip := (c.portsOfStation s).foldl (fun c p => c.portFog p cause) c

/-- The existing ports of the module. -/
def Chip.allPorts (c : Chip) : List Nat := (List.range 16).flatMap c.portsOfStation

/-- A cause that arises while the module is in Fog with cause BOOT holds the release (R411). DEDUCED (log 204): one whose condition
can be read later holds it while the condition lasts (`causesLeft`), any other until RESET_N, power-on or FOG_RELEASE. -/
def Chip.holdBoot (c : Chip) (cause : Nat) : Chip :=
  if c.bootFog && !([fogFeedLoss, fogPowerDoubt, Sys2Proof.Machine.fogNStuck, fogThermal].contains cause) then
    { c with saf := { c.saf with standing := cause :: c.saf.standing.erase cause } }
  else c

/-- The module enters module Fog (R351, R352, R356, R478). Mooring keeps its copies, starts no replay and stops its LIMIT
timers (R234). -/
def Chip.moduleFog (c : Chip) (cause index : Nat) : Chip :=
  if c.inModFog then (c.holdBoot cause).log .fogLater [128] [cause]
  else
    let c := c.setBit Reg.SAF_STATUS Bit.SAF_STATUS_MODULE_FOG
    let c := c.wr Reg.MOD_FOG_CAUSE
      (BitVec.ofNat 32 (cause % 256 + index % 256 * 256 + c.watchTime / ms % 65536 * 65536))
    let c := c.setBit Reg.SAF_EVENT Bit.SAF_EVENT_MODULE_FOG_ENTERED
    let c := c.log .moduleFog [cause] [index]
    let c := c.mor.streams.foldl (fun c x =>
      (c.putStream { x with replaying := [] }).disarm (.limit x.srcFa x.tc x.destFa)) c
    let c := c.allPorts.foldl (fun c p => c.portFogIn p cause false) c
    (((c.syncFogN).fogAlert 1 0 cause).raiseIbi 0 [cause]).fogReport 1 0 cause

/-- The sector copies are in doubt: each finding is recorded, and the module enters Fog with the lower cause (R338, R339, R356). -/
def Chip.secDoubt (c : Chip) (differ : Bool) (hits : List Nat) (addr index : Nat) : Chip :=
  let c := if differ then (c.setBit Reg.SEC_EVENT Bit.SEC_EVENT_COPY_MISMATCH).log .sectorMismatch [addr] else c
  let c := if hits.isEmpty then c else (c.setBit Reg.SEC_EVENT Bit.SEC_EVENT_DOUBLE_MATCH).log .sectorDouble hits
  if differ then c.moduleFog fogSectorCopy index else c.moduleFog fogDouble (hits.headD 0)

/-! ## Leaving Fog (R357, R358) -/

/-- A port leaves Fog: its bit and its cause clear. -/
def Chip.endPortFog (c : Chip) (p : Nat) : Chip :=
  if c.inPortFog p then
    let c := c.putBit (Reg.PORT_FOG (p / 32)) Bit.PORT_FOG_FOG (p % 32) false
    let c := c.setFld Reg.SAF_STATUS Bit.SAF_STATUS_PORTS_IN_FOG (c.portsInFog - 1)
    ((c.resetReg (Reg.PORT_FOG_CAUSE p)).log .fogExit [p]).syncFogN
  else c

/-- The ports that are in Fog. -/
def Chip.fogPorts (c : Chip) : List Nat := (List.range 128).filter c.inPortFog

/-- The module leaves Fog: FOG_N is released, the ports restart, Mooring replays from LOW and its LIMIT timers start again
from zero (R234, R357, R358). -/
def Chip.endModuleFog (c : Chip) : Chip :=
  let c := c.clrFld Reg.SAF_STATUS Bit.SAF_STATUS_MODULE_FOG
  let c := c.clrFld Reg.MOD_FOG_CAUSE Bit.MOD_FOG_CAUSE_CAUSE
  let c := c.fogPorts.foldl Chip.endPortFog c
  let c := c.mor.streams.foldl (fun c x => c.armLimit x) c
  ((c.replayAll).log .fogExit [128]).syncFogN

/-! ## Fault injection (R366) -/

/-- A pending injection of a class meets its event at a port; the injection is used up. -/
def Chip.injected (c : Chip) (cls : Nat) (hits : Nat → Bool) : Bool :=
  match c.saf.inject with
  | some (k, p) => k == cls && hits p
  | none => false

def Chip.useInject (c : Chip) : Chip := { c with saf := { c.saf with inject := none } }

/-- A failed check of an internal header or a cell tag (Table 12.7): counted, and every port of the station enters Fog. -/
def Chip.hdrCrcFail (c : Chip) (st : Nat) : Chip :=
  ((c.ctrInc kStation st 56).log .hdrCrc [st]).stationFog st fogHdrCrc

/-- A SECDED code corrected a single-bit error, or a table was repaired (R348, Table 12.4). -/
def Chip.corrected (c : Chip) : Chip :=
  let c := if (c.rd Reg.CORR_COUNT).toNat < 2 ^ 32 - 1 then c.wr Reg.CORR_COUNT (c.rd Reg.CORR_COUNT + 1) else c
  let c := (c.setBit Reg.SAF_EVENT Bit.SAF_EVENT_CORRECTED).log .corrected []
  if c.flag Reg.SAF_CTRL Bit.SAF_CTRL_CORR_REPORT then c.aer c.manager none .correctedInternal else c

/-- An uncorrectable error in the metadata of a stream: the stream fails, and its source port enters Fog (R226). -/
def Chip.metaFail (c : Chip) (x : IStream) : Chip := (c.failStream x causeMetaEcc).portFog (faPort x.srcFa) fogMetaEcc

/-- An access to the metadata of a stream meets an injected error, or one that has struck its SECDED code (R359, R366). The truth
value says whether the metadata may be used. -/
def Chip.metaAccess (c : Chip) (s t d : Nat) : Chip × Bool :=
  match c.stream s t d with
  | some x =>
    if c.faHere s && c.injected 8 (fun q => q == faPort s) then (c.useInject.metaFail x, false)
    else if x.ecc = 2 then (c.metaFail x, false)
    else if x.ecc = 1 then ((c.putStream { x with ecc := 0 }).corrected, true)
    else (c, true)
  | none => (c, true)

/-- The context of an egress order stream is closed for an uncorrectable error (R365). -/
def Chip.ctxEcc (c : Chip) (srcFa tc p : Nat) : Chip :=
  match c.ectx srcFa tc p with
  | some _ => ((c.dropEctx srcFa tc p).setBit Reg.SAF_EVENT Bit.SAF_EVENT_CTX_ECC).log .ctxEcc [srcFa, tc, p]
  | none => c

/-- An access to an egress context meets an error that has struck its SECDED code (R359, R365). -/
def Chip.ctxAccess (c : Chip) (srcFa tc p : Nat) : Chip :=
  match c.ectx srcFa tc p with
  | some x =>
    if x.ecc = 2 then c.ctxEcc srcFa tc p
    else if x.ecc = 1 then (c.putEctx { x with ecc := 0 }).corrected
    else c
  | none => c

end Sys2Proof.Machine
end

