-- ==== Sys2Proof/Machine/Sched.lean ====
section
/-!
DEFINITION. Scheduling, shaping and policing (R310 to R328): token buckets, weighted fair queueing, the candidates of an
egress port, policers and slice pacing, and the soundings that follow a packet (R501 to R503).
-/
namespace Sys2Proof.Machine

/-! ## Soundings -/

/-- Stamp a point of a sounding, once (R502). -/
def Chip.sndPoint (c : Chip) (uid pt : Nat) : Chip :=
  let f := fun (x : Snd) => if x.t.any (fun e => e.1 == pt) then x else { x with t := x.t ++ [(pt, c.watchUp)] }
  { c with tel := { c.tel with sndFlight := mapIf (fun x => x.uid == uid) f c.tel.sndFlight } }

/-- A 16-bit value of Table 19.6: a point less point 1, in 0.5 ns units. -/
def sndDelta (t : List (Nat × Nat)) (t1 pt : Nat) : Nat :=
  match t.find? (fun e => e.1 == pt) with
  | some (_, x) => if 2 * (x - t1) > 65534 then 65535 else 2 * (x - t1)
  | none => 65535

/-- BASE and STEP of the quantities of Table 19.8, in the unit of its samples: 0.01 °C (bits 0 and 1), mV (2 and 3), W
(4), ns (5), 0.01 % (6 and 7). -/
def qtyBase (q : Nat) : Int := [3000, 1000, 40000, 40000, 0, 0, 0, 0].getD q 0
def qtyStep (q : Nat) : Int := [500, 300, 1250, 1250, 30, 128, 625, 625].getD q 1

/-- The bin of a value: bin 0 takes everything below, bin 15 everything above. -/
def qtyBin (q : Nat) (x : Int) : Nat := min ((x - qtyBase q) / qtyStep q).toNat 15

/-- One sample of a quantity whose bit is set in QTY_EN (R507). Bins saturate; the count does not. -/
def Chip.sample (c : Chip) (q : Nat) (x : Int) : Chip :=
  if !c.fldBit Reg.LOG_CTRL Bit.LOG_CTRL_QTY_EN q then c
  else
    let qs := c.tel.qty ++ List.replicate (8 - c.tel.qty.length) ({} : Qty)
    let a := qs.getD q ({} : Qty)
    let bins := a.bins ++ List.replicate (16 - a.bins.length) 0
    let i := qtyBin q x
    let a : Qty := { bins := bins.set i (min (nth bins i + 1) 65535)
                     mn := if a.count = 0 then x else min a.mn x
                     mx := if a.count = 0 then x else max a.mx x
                     tMax := if a.count = 0 ∨ a.mx < x then c.watchTime else a.tMax
                     sum := a.sum + x, count := a.count + 1 }
    { c with tel := { c.tel with qty := qs.set q a } }

/-- A sounding ends; its result enters the FIFO of 256, or is dropped and counted (R503). -/
def Chip.sndEnd (c : Chip) (uid : Nat) (early : Bool) : Chip :=
  match c.tel.sndFlight.find? (fun x => x.uid == uid) with
  | none => c
  | some x =>
    let c := { c with tel := { c.tel with sndFlight := c.tel.sndFlight.filter (fun y => y.uid != uid) } }
    let t1 := ((x.t.find? (fun e => e.1 == 1)).map (·.2)).getD 0
    let r : SndRes := { t1 := t1 % 2 ^ 32, d := [2, 3, 4, 5, 6, 7, 8].map (sndDelta x.t t1), inPort := x.inPort
                        egPort := x.egPort, len := x.len
                        flags := x.tc % 8 + x.otype * 8 + b2n x.cut * 32 + b2n early * 64 + b2n x.mc * 128 }
    let t8 := ((x.t.find? (fun e => e.1 == 8)).map (·.2)).getD t1
    let c : Chip := if early then c else c.sample 5 ((t8 - t1 : Nat) : Int)
    if c.tel.sndFifo.length < 256 then { c with tel := { c.tel with sndFifo := c.tel.sndFifo ++ [r] } }
    else c.satInc Reg.SND_STATUS Bit.SND_STATUS_DROPPED

/-- A received packet is chosen as a sounding with probability 2^−N; the generator's choice is a free value (R501). One is
in flight in a station at most. -/
def Chip.sndChoose (c : Chip) (st uid inPort t1 : Nat) (k : Pkt) : Chip :=
  let n := c.fld Reg.SND_CTRL Bit.SND_CTRL_N
  if 1 ≤ n ∧ n ≤ 24 ∧ c.fldBit Reg.SND_CTRL Bit.SND_CTRL_STATION_EN st then
    let hit := c.freeVal % 2 ^ n == 0
    let c := c.drew
    if !hit then c
    else if c.tel.sndFlight.any (fun x => x.st == st) then c.ctrInc kStation st 61
    else
      let x : Snd := { st, uid, inPort, egPort := k.egPort, tc := k.tc, otype := k.otype, cut := k.cut
                       mc := k.mc.isSome, len := k.len, t := [(1, t1), (2, c.watchUp), (3, c.watchUp)] }
      ({ c with tel := { c.tel with sndFlight := c.tel.sndFlight ++ [x] } }).ctrInc kStation st 60
  else c

/-! ## Token buckets (R320) -/

def keyPc (p k : Nat) : Nat := p * 8 + k
def keyVsiBucket (p v : Nat) : Nat := 2 ^ 12 + p * 64 + v
def keyPol (v k : Nat) : Nat := 2 ^ 16 + v * 8 + k
def keySliceBucket (s : Nat) : Nat := 2 ^ 20 + s

/-- Tokens of a bucket in thousandths of a byte; an unlisted bucket is full. `burst` is in units of 256 bytes. -/
def Chip.tokensOf (c : Chip) (key burst : Nat) : Int :=
  match c.sw.tokens.find? (fun e => e.1 == key) with
  | some e => e.2
  | none => (burst * 256000 : Nat)

def Chip.setTokens (c : Chip) (key burst : Nat) (t : Int) : Chip :=
  { c with sw := { c.sw with tokens := SMap.set c.sw.tokens key t (burst * 256000 : Nat) } }

/-- The rate of a bucket in force: a committed one applies from the next refill (R318). -/
def Chip.rateNow (c : Chip) (key rate : Nat) : Nat := ((c.sw.oldRate.find? (fun e => e.1 == key)).map (·.2)).getD rate

/-- A bucket with rate 0 is off and never holds (R319). -/
def Chip.bucketOpen (c : Chip) (key rate burst : Nat) : Bool := c.rateNow key rate == 0 || decide (0 < c.tokensOf key burst)

/-- The start of a packet of charged length `l` takes its tokens. -/
def Chip.charge (c : Chip) (key rate burst l : Nat) : Chip :=
  if c.rateNow key rate = 0 then c else c.setTokens key burst (c.tokensOf key burst - (1000 * l : Nat))

/-- One interval of 32 ns: rate × 32 / 1000 bytes, up to the burst. -/
def Chip.refill (c : Chip) (key rate burst : Nat) : Chip :=
  c.setTokens key burst (min (c.tokensOf key burst + (rate * 32 : Nat)) (burst * 256000 : Nat))

/-! ## Parameters in force -/

/-- Weight k of a pair of weight registers. -/
def weightOf (lo hi : Word) (k : Nat) : Nat :=
  let w := if k < 4 then lo else hi
  getF w ⟨8 * (k % 4) + 7, 8 * (k % 4)⟩

def Chip.classWt (c : Chip) (p k : Nat) : Nat :=
  weightOf (c.tab false (Reg.CLASS_WT_LO p)) (c.tab false (Reg.CLASS_WT_HI p)) k

def Chip.vsiWt (c : Chip) (v k : Nat) : Nat :=
  weightOf (c.tab false (Reg.VSI_WT_LO v)) (c.tab false (Reg.VSI_WT_HI v)) k

def Chip.pcRate (c : Chip) (p k : Nat) : Nat := c.tabF false (Reg.PC_RATE p k) Bit.PC_RATE_MBS
def Chip.pcBurst (c : Chip) (p k : Nat) : Nat := c.tabF false (Reg.PC_BURST p k) Bit.PC_BURST_UNITS
def Chip.vsiRate (c : Chip) (v : Nat) : Nat := c.tabF false (Reg.VSI_RATE v) Bit.VSI_RATE_MBS
def Chip.vsiBurst (c : Chip) (v : Nat) : Nat := c.tabF false (Reg.VSI_BURST v) Bit.VSI_BURST_UNITS
def Chip.polBurst (c : Chip) (v : Nat) : Nat := c.tabF false (Reg.POL_BURST v) Bit.POL_BURST_UNITS
def Chip.sliceBurst (c : Chip) (s : Nat) : Nat := c.tabF false (Reg.SLICE_BURST s) Bit.SLICE_BURST_UNITS

/-- The base rate of policer (v, k) (R322). -/
def Chip.polBase (c : Chip) (v k : Nat) : Nat :=
  let r := c.tabF false (Reg.POL_RATE v k) Bit.POL_RATE_MBS
  if r ≠ 0 then r
  else match c.portOfVsi v with
    | some p => c.rawMbs p
    | none => 0

/-- POL_EFF; the register holds 0 while the policer stands at its base. -/
def Chip.polEff (c : Chip) (v k : Nat) : Nat :=
  let e := (c.rd (Reg.POL_EFF v k)).toNat
  if e = 0 then c.polBase v k else e

def Chip.setPolEff (c : Chip) (v k e : Nat) : Chip :=
  c.wr (Reg.POL_EFF v k) (if e = c.polBase v k then 0 else BitVec.ofNat 32 e)

/-- The base of P_s (R326). -/
def Chip.sliceBase (c : Chip) (s : Nat) : Nat :=
  let r := c.tabF false (Reg.SLICE_RATE s) Bit.SLICE_RATE_MBS
  if r = 0 then 256000 else r

def Chip.slicePace (c : Chip) (s : Nat) : Nat :=
  let e := (c.rd (Reg.SLICE_PACE s)).toNat
  if e = 0 then c.sliceBase s else e

/-- Committed rate and burst of the bucket with a key. -/
def Chip.bucketRate (c : Chip) (key : Nat) : Nat × Nat :=
  if key < 2 ^ 12 then (c.pcRate (key / 8) (key % 8), c.pcBurst (key / 8) (key % 8))
  else if key < 2 ^ 16 then
    let v := (key - 2 ^ 12) % 64
    (c.vsiRate v, c.vsiBurst v)
  else if key < 2 ^ 20 then
    let i := key - 2 ^ 16
    (c.polEff (i / 8) (i % 8), c.polBurst (i / 8))
  else
    let s := key - 2 ^ 20
    (c.slicePace s, c.sliceBurst s)

def Chip.setSlicePace (c : Chip) (s e : Nat) : Chip :=
  c.wr (Reg.SLICE_PACE s) (if e = c.sliceBase s then 0 else BitVec.ofNat 32 e)

/-- The slice's bucket is eligible; at a base of 256,000 MB/s it never holds (R325, R326). -/
def Chip.sliceOpen (c : Chip) (s : Nat) : Bool :=
  (c.sliceBase s == 256000 && c.slicePace s == 256000) || c.bucketOpen (keySliceBucket s) (c.slicePace s) (c.sliceBurst s)

/-- OVERHEAD[p] in force (R314). -/
def Chip.overhead (c : Chip) (p : Nat) : Nat := c.tabF false (Reg.PORT_SCH p) Bit.PORT_SCH_OVERHEAD

/-- L = LEN + OVERHEAD[p] (R314). -/
def Chip.charged (c : Chip) (p : Nat) (k : Pkt) : Nat := k.len + c.overhead p

/-! ## Tags (R315, R316) -/

def vkeyRly : Nat := 65536

def Chip.wtag (c : Chip) (key : Nat) : WTag := SMap.get c.sw.wfqTag key {}
def Chip.setWtag (c : Chip) (key : Nat) (t : WTag) : Chip :=
  { c with sw := { c.sw with wfqTag := SMap.set c.sw.wfqTag key t {} } }
def Chip.wfqV (c : Chip) (vkey : Nat) : Nat := SMap.get c.sw.wfqV vkey 0
def Chip.setWfqV (c : Chip) (vkey v : Nat) : Chip :=
  { c with sw := { c.sw with wfqV := SMap.set c.sw.wfqV vkey v 0 } }

/-- inc(q, l) = ⌈256 l / w⌉. -/
def tagInc (l w : Nat) : Nat := ceilDiv (l * 256) w

/-- A queue that had no candidate gets one (R315). -/
def Chip.tagAppears (c : Chip) (key vkey inc : Nat) : Chip :=
  let t := c.wtag key
  let v := c.wfqV vkey
  let s := if t.valid && tagBefore v t.f && decide (c.now < t.emptied + 8 * us) then t.f else v
  c.setWtag key { t with f := (s + inc) % 2 ^ 32, valid := true, has := true, held := false }

/-- A held candidate is eligible again: its tag is raised to the later of its tag and V + inc (R316). -/
def Chip.tagReleased (c : Chip) (key vkey inc : Nat) : Chip :=
  let t := c.wtag key
  let s := (c.wfqV vkey + inc) % 2 ^ 32
  c.setWtag key { t with f := if tagBefore t.f s then s else t.f, held := false }

/-- A queue's tag follows its candidate: none (empty or held), or one of the given increment. -/
def Chip.tagSync (c : Chip) (key vkey : Nat) (queued : Bool) (cand : Option Nat) : Chip :=
  let t := c.wtag key
  match cand with
  | some inc =>
    if !t.has then c.tagAppears key vkey inc
    else if t.held then c.tagReleased key vkey inc
    else c
  | none =>
    if !t.has then c
    else if queued then (if t.held then c else c.setWtag key { t with held := true })
    else c.setWtag key { t with has := false, held := false, emptied := c.now }

/-- The queue is chosen: V takes its tag, and a further candidate's tag follows (R315). -/
def Chip.tagChosen (c : Chip) (key vkey : Nat) (queued : Bool) (next : Option Nat) : Chip :=
  let t := c.wtag key
  let c := c.setWfqV vkey t.f
  match next with
  | some inc => c.setWtag key { t with f := (t.f + inc) % 2 ^ 32 }
  | none =>
    if queued then c.setWtag key { t with held := true }
    else c.setWtag key { t with has := false, held := false, emptied := c.now }

/-! ## Candidates of an egress port (R311, R312) -/

/-- The VC a frame travels on (R145): EG_VC, or the highest VC in use below it. -/
def vcOn (vcUse eg : Nat) : Nat :=
  if bitOf vcUse eg then eg else ((bitsSet vcUse eg).getLast?).getD 0

/-- The transmitter treats a bit of a flow-control map as set (R148). -/
def Chip.vcStopped (c : Chip) (p : Nat) (k : Pkt) : Bool :=
  let vc := vcOn (c.fld (Reg.SPAN_STATUS p) Bit.SPAN_STATUS_VC_USE) k.egVc
  (c.span p).stale ||
    (if k.otype = 1 then c.fldBit (Reg.FC_STATE p) Bit.FC_STATE_NPX_RX vc
     else c.fldBit (Reg.FC_STATE p) Bit.FC_STATE_XOFF_RX vc)

/-- The link partner's credits for a packet's type are lacking. -/
def Chip.noCredit (c : Chip) (p : Nat) (k : Pkt) : Bool :=
  let cr := SMap.get c.sw.txCredit p []
  decide (nth cr (2 * k.otype) < k.tlp.creditH ∨ nth cr (2 * k.otype + 1) < k.tlp.creditD)

/-- A completion of a later piece of a cut read waits for the earlier ones: until their completions have all been matched, and
have left (R186). -/
def Chip.pieceHeld (c : Chip) (k : Pkt) : Bool :=
  match k.piece with
  | some (id, n) =>
    k.otype == 2 && ((match c.cut id with
      | some cut => decide (cut.due < n)
      | none => false) ||
      c.sw.pkts.any (fun o => o.otype == 2 && (match o.piece with
        | some (i, m) => i == id && decide (m < n)
        | none => false)))
  | none => false

/-- A packet waits for an ORT entry (R86). -/
def Chip.waitsOrt (c : Chip) (p uid : Nat) : Bool := c.sw.npWait.contains (p, uid)

/-- A hold of Table 10.2 applies to a packet at a port. -/
def Chip.heldAt (c : Chip) (p : Nat) (e : ObEnt) (k : Pkt) : Bool :=
  c.inPortFog p || c.waitsOrt p e.uid || c.pieceHeld k ||
    (if c.isSpan p then c.spanState p != spUp || c.vcStopped p k || c.flag (Reg.SPAN_STATUS p) Bit.SPAN_STATUS_REPLAY_FULL
     else !c.dlUp p || c.noCredit p k) ||
    !c.bucketOpen (keyPc p e.tc) (c.pcRate p e.tc) (c.pcBurst p e.tc) ||
    !c.bucketOpen (keyVsiBucket p e.vsi) (c.vsiRate e.vsi) (c.vsiBurst e.vsi)

/-- Two released frames are of one stream (R214, R215). -/
def sameStream (k o : Pkt) : Bool :=
  match k.rel, o.rel with
  | some a, some b => a.srcFa == b.srcFa && a.tc == b.tc && a.port == b.port
  | _, _ => false

/-- A released frame comes before another of its stream. -/
def Rel.before (a b : Rel) : Bool :=
  a.srcFa == b.srcFa && a.tc == b.tc && a.port == b.port && (epochOlder a.epoch b.epoch || (a.epoch == b.epoch && behind16 a.n b.n))

/-- A completion of an earlier piece of the same cut read. -/
def earlierPiece (k o : Pkt) : Bool :=
  match k.piece, o.piece with
  | some (i, m), some (j, n) => i == j && decide (m < n)
  | _, _ => false

/-- Table 3.3: a later packet passes an earlier one that is (or is not) held. DEDUCED (log 209): the completions of one cut read
keep address order (R186), so that of an earlier piece passes that of a later piece, which waits for it. -/
def mayPass (later earlier : Pkt) (held : Bool) : Bool :=
  if earlier.otype = 0 then false
  else if earlier.otype = 1 then held
  else if later.otype = 2 then
    held && (earlierPiece later earlier || !(later.tlp.rid == earlier.tlp.rid && later.tlp.tag == earlier.tlp.tag))
  else held

/-- The queued packets of a port and class, oldest first, with their packets. -/
def Chip.classQueue (c : Chip) (p k : Nat) : List (ObEnt × Pkt) :=
  (c.sw.obq.filter (fun e => e.port == p && e.tc == k && !e.begun)).filterMap (fun e =>
    (c.pkt e.uid).map (fun x => (e, x)))

/-- The packets of a class queue with whether each may leave now: unheld, whole again after an underrun, and allowed past every
older packet of the same source or of the same stream (R311, R69, R236). One that waits for another is held for those behind it
(R192). -/
def Chip.leavingOf (c : Chip) (p : Nat) : List (ObEnt × Pkt) → List (ObEnt × Pkt × Bool) → List (ObEnt × Pkt × Bool)
  | [], done => done
  | (e, k) :: rest, done =>
    let free := !c.heldAt p e k && (!e.underrun || e.full) &&
      done.all (fun o => !((o.2.1.st == k.st && o.2.1.src == k.src) || sameStream k o.2.1) || mayPass k o.2.1 (!o.2.2))
    c.leavingOf p rest (done ++ [(e, k, free)])

/-- Packets that may leave now, oldest first. -/
def Chip.eligibleOf (c : Chip) (p : Nat) (q : List (ObEnt × Pkt)) : List (ObEnt × Pkt) :=
  ((c.leavingOf p q []).filter (fun x => x.2.2)).map (fun x => (x.1, x.2.1))

/-- The candidate of a sub-queue: its oldest eligible packet. -/
def Chip.subCand (c : Chip) (p k v : Nat) : Option (ObEnt × Pkt) :=
  (c.eligibleOf p (c.classQueue p k)).find? (fun x => x.1.vsi == v)

/-- The VSIs with packets queued in a class queue. -/
def Chip.subsOf (c : Chip) (p k : Nat) : List Nat :=
  ((List.range 64).filter (fun v => c.sw.obq.any (fun e => e.port == p && e.tc == k && e.vsi == v && !e.begun)))

/-- Sub-queues whose tags need to follow: those with packets and those whose tag says so. -/
def Chip.syncSub (c : Chip) (p k v : Nat) : Chip :=
  let queued := c.sw.obq.any (fun e => e.port == p && e.tc == k && e.vsi == v && !e.begun)
  c.tagSync (keySub p k v) (vkeySub p k) queued
    ((c.subCand p k v).map (fun x => tagInc (c.charged p x.2) (c.vsiWt v k)))

/-- The earliest of two tags, the first on a tie. -/
def earlier (c : Chip) (a : Option (Nat × Nat)) (b : Nat × Nat) : Option (Nat × Nat) :=
  match a with
  | none => some b
  | some x => if tagBefore (c.wtag b.2).f (c.wtag x.2).f then some b else some x

/-- The VSI level of a class: the VSI with a candidate and the earliest tag (ties: the lower number). -/
def Chip.vsiChoice (c : Chip) (p k : Nat) : Option Nat :=
  let vs := (List.range 64).filter (fun v =>
    (c.wtag (keySub p k v)).has && !(c.wtag (keySub p k v)).held && (c.subCand p k v).isSome)
  (vs.foldl (fun a v => earlier c a (v, keySub p k v)) none).map (·.1)

/-- The packet that the VSI level of a class would choose. -/
def Chip.classCand (c : Chip) (p k : Nat) : Option (ObEnt × Pkt) := (c.vsiChoice p k).bind (c.subCand p k)

/-- STRICT of a port (R317). -/
def Chip.strict (c : Chip) (p k : Nat) : Bool := bitOf (c.tabF false (Reg.PORT_SCH p) Bit.PORT_SCH_STRICT) k

/-- Tags of a port follow its queues (R315, R316); strict classes take no class-level tag, and a class that becomes strict drops
its own (R317). -/
def Chip.syncPort (c : Chip) (p : Nat) : Chip :=
  let ks := (List.range 8).filter (fun k => c.sw.obq.any (fun e => e.port == p && e.tc == k) || (c.wtag (keyCls p k)).has ||
    (c.strict p k && (c.wtag (keyCls p k)).valid))
  ks.foldl (fun c k =>
    let vs := (List.range 64).filter (fun v =>
      c.sw.obq.any (fun e => e.port == p && e.tc == k && e.vsi == v) || (c.wtag (keySub p k v)).has)
    let c := vs.foldl (fun c v => c.syncSub p k v) c
    let queued := c.sw.obq.any (fun e => e.port == p && e.tc == k && !e.begun)
    if c.strict p k then c.setWtag (keyCls p k) {}
    else c.tagSync (keyCls p k) (vkeyCls p) queued
      ((c.classCand p k).map (fun x => tagInc (c.charged p x.2) (c.classWt p k)))) c

/-- The class that a port serves next: strict classes first, highest number first, then the earliest tag (R315, R317). -/
def Chip.classChoice (c : Chip) (p : Nat) : Option Nat :=
  let has := (List.range 8).filter (fun k => (c.classCand p k).isSome)
  match (has.filter (c.strict p)).getLast? with
  | some k => some k
  | none => (has.foldl (fun a k => earlier c a (k, keyCls p k)) none).map (·.1)

/-- A port's choice is made: tags and buckets of the chosen packet are charged. -/
def Chip.chargeChoice (c : Chip) (p k : Nat) (x : ObEnt × Pkt) : Chip :=
  let l := c.charged p x.2
  let v := x.1.vsi
  let c := c.charge (keyPc p k) (c.pcRate p k) (c.pcBurst p k) l
  c.charge (keyVsiBucket p v) (c.vsiRate v) (c.vsiBurst v) l

/-- The tags after the choice (R315). Strict classes take no class-level tag. -/
def Chip.tagsAfter (c : Chip) (p k v : Nat) : Chip :=
  let queuedV := c.sw.obq.any (fun e => e.port == p && e.tc == k && e.vsi == v && !e.begun && !c.waitsOrt p e.uid)
  let c := c.tagChosen (keySub p k v) (vkeySub p k) queuedV
    ((c.subCand p k v).map (fun x => tagInc (c.charged p x.2) (c.vsiWt v k)))
  if c.strict p k then c
  else
    let queued := c.sw.obq.any (fun e => e.port == p && e.tc == k && !e.begun && !c.waitsOrt p e.uid)
    c.tagChosen (keyCls p k) (vkeyCls p) queued
      ((c.classCand p k).map (fun x => tagInc (c.charged p x.2) (c.classWt p k)))

/-! ## Reaction to notices (R323, R324, R326) -/

def Chip.decShift (c : Chip) : Nat := c.tabF false Reg.REACT_CFG Bit.REACT_CFG_DEC_SHIFT
def Chip.incShift (c : Chip) : Nat := c.tabF false Reg.REACT_CFG Bit.REACT_CFG_INC_SHIFT
def Chip.recoverUs (c : Chip) : Nat := c.tabF false Reg.REACT_CFG Bit.REACT_CFG_RECOVER
def Chip.floorPct (c : Chip) : Nat := c.tabF false Reg.REACT_CFG Bit.REACT_CFG_FLOOR_PCT

/-- Time of the last decrease, of a policer or a slice; none yet reads as far in the past. -/
def Chip.decOk (c : Chip) (key : Nat) : Bool :=
  match c.sw.lastDec.find? (fun e => e.1 == key) with
  | some e => decide (e.2 + us ≤ c.now)
  | none => true

def Chip.setDec (c : Chip) (key : Nat) : Chip :=
  { c with sw := { c.sw with lastDec := SMap.insert key c.now (c.sw.lastDec.erase key) } }

/-- max(eff − eff >> DEC_SHIFT, base × FLOOR_PCT / 100) (R323). -/
def decreased (eff base shift floor : Nat) : Nat := max (eff - eff / 2 ^ shift) (base * floor / 100)

/-- min(eff + base >> INC_SHIFT, base) (R323). -/
def increased (eff base shift : Nat) : Nat := min (eff + base / 2 ^ shift) base

/-- A notice acts on policer (v, k) (R323). -/
def Chip.polNotice (c : Chip) (v k : Nat) : Chip :=
  let key := keyPol v k
  if c.decOk key then
    (c.setPolEff v k (decreased (c.polEff v k) (c.polBase v k) c.decShift c.floorPct)).setDec key
  else c

/-- A notice acts on every slice of the VSI with an operation in flight in the class toward its ORIGIN_FA (R326). -/
def Chip.sliceNotice (c : Chip) (v k originFa : Nat) : Chip :=
  ((c.slicesOf v).filter (fun s => c.rly.ops.any (fun o => o.slice == s && !o.done && o.tc == k && o.dest == originFa))).foldl
    (fun c s =>
      let key := keySliceBucket s
      if c.decOk key then
        (c.setSlicePace s (decreased (c.slicePace s) (c.sliceBase s) c.decShift c.floorPct)).setDec key
      else c) c

/-- A notice reaches the port its NOTICE_FA names (R324). -/
def Chip.applyNotice (c : Chip) (port k originFa : Nat) : Chip :=
  let c := c.stCtr port 41
  match (if (c.port port).up then c.vsiOfPort port else none) with
  | some v =>
    if !c.flag Reg.SCH_CTRL Bit.SCH_CTRL_REACT_EN then c
    else
      let c := c.polNotice v k
      if c.flag Reg.SCH_CTRL Bit.SCH_CTRL_RLY_REACT_EN then c.sliceNotice v k originFa else c
  | none => c

/-! ## Scheduler state across events (Table 10.4) -/

/-- A bucket is full again. -/
def Chip.fillBucket (c : Chip) (key : Nat) : Chip := { c with sw := { c.sw with tokens := c.sw.tokens.erase key } }

/-- A station reset, at one of its ports: its tags go, V is 0, its buckets are full, and so are the policers of its VSI. -/
def Chip.resetSched (c : Chip) (p : Nat) : Chip :=
  let c := c.dropTags p
  let c := match (if (c.port p).up then c.vsiOfPort p else none) with
    | some v => (List.range 8).foldl (fun (c : Chip) k => c.fillBucket (keyPol v k)) c
    | none => c
  { c with sw := { c.sw with
    wfqV := c.sw.wfqV.filter (fun e => !(e.1 == vkeyCls p || (vkeySub p 0 ≤ e.1 && e.1 < vkeySub (p + 1) 0)))
    tokens := c.sw.tokens.filter (fun e =>
      !((keyPc p 0 ≤ e.1 && e.1 < keyPc (p + 1) 0) || (keyVsiBucket p 0 ≤ e.1 && e.1 < keyVsiBucket (p + 1) 0))) } }

end Sys2Proof.Machine
end

