-- ==== Sys2Proof/Machine/Ingress.lean ====
section
/-!
DEFINITION. The ingress of a PCIe port and of the Relay port: the VSI of a request (R250), the lookup in both pipelines
(R46, R47, R183), windows and cutting (R182 to R186), the sector check (R336 to R339), and the packets that result (R36,
R170, R173, R201).
-/
namespace Sys2Proof.Machine

/-! ## Whose request it is -/

/-- The VSI that a request received on a PCIe port belongs to (R250). -/
def Chip.whose (c : Chip) (p rid : Nat) : Option Nat :=
  if (c.port p).up then c.vsiOfPort p
  else
    match c.vsi.ports.find? (fun b => b.2.2 == p) with
    | none => none
    | some (v, _, _) =>
      if !c.isManager v then some v
      else
        match c.vsi.hosts.find? (fun h => h.local_ == some p && h.prid == rid) with
        | some h => some h.v
        | none =>
          match c.vsi.peers.find? (fun b => b.port == p && b.prid == rid) with
          | some b => some b.proxy
          | none => some v

/-! ## Cutting (R185, R186) -/

/-- Pieces of `len` bytes from `addr`, cut at every multiple of `m`. -/
def cutAt (m : Nat) : Nat → Nat → Nat → List (Nat × Nat)
  | 0, _, _ => []
  | fuel + 1, addr, len =>
    if len = 0 then []
    else
      let n := min len (m - addr % m)
      (addr, n) :: cutAt m fuel (addr + n) (len - n)

/-- The pieces of a request under a window: writes at MPS, reads at MRRS; AtomicOps and zero-length reads whole (R187). -/
def Win.pieces (w : Win) (t : Tlp) (addr : Nat) : List (Nat × Nat) :=
  if t.len = 0 then [(addr, 0)]
  else
    match t.kind with
    | .mwr => cutAt (codeBytes w.mps) 64 addr t.len
    | .mrd => cutAt (codeBytes w.mrrs) 64 addr t.len
    | _ => [(addr, t.len)]

/-- The byte enables of a piece of a request that is cut: those of the request at its first and its last DW, all ones where it
was cut; a piece of one DW has them in its first (R185). -/
def pieceTlp (t : Tlp) (addr0 : Nat) (first last : Bool) (addr len : Nat) : Tlp :=
  let data := (t.data.drop (addr - addr0)).take len
  let f := if first then t.fbe else 15
  let l := if last then t.lbe else 15
  let t := { t.moved addr with len, data }
  if first && last then t
  else if addr % 4 + len ≤ 4 then { t with fbe := f &&& l, lbe := 0 }
  else { t with fbe := f, lbe := l }

/-! ## Undoing what was received -/

/-- A request completed with a status at its port. -/
def Chip.refuseAt (c : Chip) (p : Nat) (t : Tlp) (status : Nat) : Chip :=
  let c := c.ctrInc kPort p (if status = stUR then 14 else 15)
  c.emit (.tlp p (refuseTlp status t) false)

/-- An address lies below a vBridge one of whose functions runs a translated FLR: its bound windows are invalid (Table 8.8
step 1). -/
def Chip.towardFlr (c : Chip) (v a : Nat) : Bool :=
  c.vsi.vbrs.any (fun b => b.v == v && c.flag (Reg.VBR_STATE v b.i) Bit.VBR_STATE_FLR_BUSY &&
    b.ranges.any (fun r => decide (r.1 ≤ a ∧ a ≤ r.2)))

/-- R183 step 4: a non-posted request is completed with Unsupported Request, a posted one discarded; the VSI learns of it. A write
toward a function in FLR is discarded and counted (R262). DESIGN CHOICE (log 151): Table 19.1 has no counter of its own for it; it
counts in LINK_DOWN_DISCARD. -/
def Chip.nowhere (c : Chip) (p v : Nat) (t : Tlp) : Chip :=
  if t.otype = 1 then c.refuseAt p t stUR
  else if t.isMem && c.towardFlr v t.addr then c.stCtr p 58
  else c.aer v none .unsupportedRequest

/-- The vBridge (or the upstream bridge) of the requester takes an AER error. -/
def Chip.aerRequester (c : Chip) (p v : Nat) (e : AerErr) : Chip :=
  if (c.port p).up then c.aer v none e
  else
    match (c.boundTo p).find? (fun b => b.1 == v) with
    | some b => c.aer v (some b.2) e
    | none => c.aer v none e

/-! ## The sector check at a station (R336 to R339) -/

/-- What the check lets happen: nothing is issued when the copies differ or match twice, and the module enters Fog. -/
inductive Checked where
  | pass (c : Chip) (prefetch : Bool)
  | refused (c : Chip)
  | doubt (c : Chip)

/-- The check of an access in the station `st` (or, with `none`, in the Relay engine). -/
def Chip.checkSector (c : Chip) (st : Option Nat) (a : Access) (path : Nat) : Checked :=
  let flip := match st with
    | some s => c.injected 6 (fun q => portStation q == s)
    | none => false
  let c := if flip then c.useInject else c
  match c.secCheck (st.getD secRelay) a flip with
  | .allowed pf => .pass c pf
  | .denied hits => .refused ((c.recordDeny a hits path st).log .sectorReject [a.kind, a.target] [a.addr])
  | .doubt d hits => .doubt (c.secDoubt d hits a.addr (st.getD secRelay))

/-! ## Building packets -/

/-- Where a request enters the switch: its station and source, its port, the Relay operation it carries, and whether this
station checks it. -/
structure Entry where
  st : Nat
  src : Nat
  port : Nat
  v : Nat
  path : Nat := 0
  relay : Option Nat := none
  check : Bool := true
  deriving DecidableEq, Repr

/-- GUARDED of a frame formed through a window (R201, R203): its class is guarded for the VSI, it leaves the module, and it
is no multicast. -/
def Chip.guards (c : Chip) (v : Nat) (w : Win) (tc : Nat) : Bool :=
  !w.mc && !c.faHere w.dest && c.fldBit (Reg.GUARD_MAP v) Bit.GUARD_MAP_TC_MASK tc

/-- The Kaund header that the ingress edge writes (R171, R190, R196). -/
def Chip.headerOf (c : Chip) (e : Entry) (w : Win) (t : Tlp) (guarded : Bool) : KHdr :=
  { destFa := if w.mc then w.dest % 4096 else w.dest
    mc := w.mc
    tc := t.tc
    guarded
    world := t.tee
    srcFa := c.ownFa e.port
    srcVsi := e.v
    alt := if guarded then c.altOf (c.ownFa e.port) t.tc w.dest else 0
    wgen := c.fld Reg.WIN_ACTIVE_GEN Bit.WIN_ACTIVE_GEN_GEN }

/-- The ports that the port masks of a multicast index name (R58, R181). -/
def Chip.mcPorts (c : Chip) (idx : Nat) : List Nat :=
  (List.range 128).filter (fun p =>
    let w := c.tab false (Reg.MC_PORT_MASK (portStation p) (idx / 4))
    bitOf (getF w ⟨8 * (idx % 4) + 7, 8 * (idx % 4)⟩) (portLocal p))

/-- Stations of a multicast index (Table 2.24). -/
def Chip.mcStations (c : Chip) (idx : Nat) : List Nat :=
  let w := c.tab false (Reg.MC_STATION_MASK (idx / 2))
  bitsSet (getF w ⟨16 * (idx % 2) + 15, 16 * (idx % 2)⟩) 16

/-- Both pipelines read the same masks for a multicast index (R46). -/
def Chip.mcAgree (c : Chip) (idx : Nat) : Bool :=
  decide (c.tab false (Reg.MC_STATION_MASK (idx / 2)) = c.tab true (Reg.MC_STATION_MASK (idx / 2))) &&
    (List.range 16).all (fun s => decide (c.tab false (Reg.MC_PORT_MASK s (idx / 4)) = c.tab true (Reg.MC_PORT_MASK s (idx / 4))))

/-- A port of a mask can take a copy: a usable candidate, or a PCIe port in DL_Active (R181). -/
def Chip.mcReach (c : Chip) (p : Nat) : Bool :=
  if c.isSpan p then c.usable p else (c.port p).present && c.dlUp p

/-- The ports of a multicast index that can take no copy, the arrival port apart (R181). -/
def Chip.mcDeaf (c : Chip) (idx : Nat) (arrival : List Nat) : List Nat :=
  (c.mcPorts idx).filter (fun p => !arrival.contains p && !c.mcReach p)

/-- NO_ROUTE is set and counted for every port that can take no copy of a fabric multicast (R181). -/
def Chip.countDeaf (c : Chip) (st : Nat) (deaf : List Nat) : Chip :=
  deaf.foldl (fun c _ => (c.setBit Reg.KND_EVENT Bit.KND_EVENT_NO_ROUTE).ctrInc kStation st 52) c

/-- The arrival port of a packet that enters at an edge, when it is a port: the Relay port is in no mask. -/
def Entry.arrival (e : Entry) : List Nat := if e.src < 8 then [e.port] else []

/-- One packet of a lookup. -/
def Chip.packetOf (c : Chip) (e : Entry) (w : Option Win) (l : Look) (t : Tlp) : Pkt :=
  let kh := match w with
    | some x => if x.mc || !c.faHere x.dest then some (c.headerOf e x t (c.guards e.v x t.tc)) else none
    | none => none
  { st := e.st, src := e.src, inPort := e.port, tlp := t, kh
    egPort := if l.kind = 0 then 255 else l.port
    mc := if l.kind = 2 then some l.mc else none
    guarded := (kh.map (·.guarded)).getD false
    noticeFa := c.ownFa e.port
    egVc := l.vc
    vsi := e.v, actVsi := e.v
    wgen := w.map (fun _ => c.fld Reg.WIN_ACTIVE_GEN Bit.WIN_ACTIVE_GEN_GEN)
    win := w.map (·.idx)
    secGen := if t.isMem then some (c.fld Reg.SEC_ACTIVE_GEN Bit.SEC_ACTIVE_GEN_GEN) else none
    exclude := if l.kind = 2 then (if l.mc < 64 then [e.port] else e.arrival ++ c.mcDeaf l.mc e.arrival) else []
    fan := if l.kind = 2 then c.mcStations l.mc else []
    relay := e.relay }

/-- Credit units of the bytes from `off` to `off + n` of a TLP's data. -/
def unitShare (off n : Nat) : Nat := ceilDiv (off + n) 16 - ceilDiv off 16

/-- The result of submitting a request: the module, the packets formed, and what became of it. -/
structure Submitted where
  c : Chip
  uids : List Nat := []
  /-- 0 packets formed, 1 nowhere, 2 refused by a sector (address), 3 not issued (Fog), 4 reported to its source (R178),
  5 malformed: a frame of it would be longer than R37 allows -/
  what : Nat := 0
  addr : Nat := 0
  /-- header and data units of the refused pieces of a posted request, which leave the pool (R83) -/
  back : Nat × Nat := (0, 0)

/-- Add one piece of a request whose first byte arrived at `t0`. A guarded piece holds the acknowledgement of its TLP (R30). -/
def Submitted.add (s : Submitted) (k : Pkt) (grp : Nat) (fromPort : Bool) (t0 : Nat) : Submitted :=
  let ack := if k.guarded && fromPort then some (k.inPort, grp) else none
  let uid := s.c.sw.nextUid
  let c := s.c.addPktAt { k with ack } t0
  let c := match ack with
    | some a => { c with pci := { c.pci with ackWait := c.pci.ackWait ++ [a] } }
    | none => c
  { s with c, uids := s.uids ++ [uid] }

/-- Submit the pieces of a request in address order, each checked at its first byte (R185, R186, R336). `i` is the index of
the piece, `off` its offset in the request; a refused piece of a cut read ends the request there (R187). -/
def submitPieces (e : Entry) (w : Option Win) (l : Look) (t : Tlp) (multi : Bool) (cut : Option Nat) (grp : Nat)
    (addr0 t0 : Nat) : List (Nat × Nat) → Nat → Submitted → Submitted
  | [], _, s => s
  | (addr, len) :: rest, i, s =>
    let t' := pieceTlp t addr0 (decide (i = 0)) rest.isEmpty addr len
    let a := accessOf (s.c.spaceOf l w) addr e.v t'
    let verdict := if e.check then s.c.checkSector (some e.st) a e.path else .pass s.c false
    match verdict with
    | .doubt c => { s with c, what := 3 }
    | .refused c =>
      let c := c.aerRequester e.port e.v .acsViolation
      if t.otype = 1 then
        match cut with
        | some id =>
          if i = 0 then { s with c := (c.endPieces id 0).refuseAt e.port t stCA, what := 2, addr }
          else
            match c.cut id with
            | some x => { s with c := c.putCut { x with pieces := i + 1, stop := some (i, stCA) }, what := 2, addr }
            | none => { s with c }
        | none => { s with c := c.refuseAt e.port t stCA, what := 2, addr }
      else
        let back := (s.back.1 + (if i = 0 then 1 else 0), s.back.2 + unitShare (addr - addr0) len)
        submitPieces e w l t multi cut grp addr0 t0 rest (i + 1) { s with c, what := 2, addr, back }
    | .pass c _ =>
      let fromPort := e.src < 8
      let c := if l.kind = 2 && decide (64 ≤ l.mc) then c.countDeaf e.st (c.mcDeaf l.mc e.arrival) else c
      let k := c.packetOf e w l t'
      let k := { k with
        multi
        piece := cut.map (fun id => (id, i))
        poolH := if fromPort && i == 0 then 1 else 0
        poolD := if fromPort && t.payload != 0 then unitShare (addr - addr0) len else 0 }
      submitPieces e w l t multi cut grp addr0 t0 rest (i + 1) ({ s with c }.add k grp fromPort t0)

/-- A window of this module whose port is no existing PCIe port (R184). -/
def Chip.badLocal (c : Chip) (e : Entry) (w : Win) (t : Tlp) (addr : Nat) : Chip :=
  if t.otype = 1 then (if e.relay.isSome then c else c.refuseAt e.port t stUR)
  else c.felAccept e.v 1 addr w.dest 0

/-- A request whose window leads to no usable span port, at its own ingress edge (R178): a guarded frame keeps its custody
copy, an unguarded posted one is reported by FAR_ERR with STATUS 11, a non-posted one is answered at once. -/
def Chip.noRouteHere (c : Chip) (e : Entry) (w : Win) : Chip :=
  ((c.setBit Reg.KND_EVENT Bit.KND_EVENT_NO_ROUTE).ctrInc kStation e.st 52).log .noRoute [e.port] [w.dest, c.ownFa e.port]

/-- The pipelines differ in the lookup of a packet that enters at an edge (R47). -/
def Chip.edgeMismatch (c : Chip) (e : Entry) : Submitted :=
  let c := (c.setBit (Reg.STN_STATUS e.st) Bit.STN_STATUS_LOOKUP_MISMATCH).ctrInc kStation e.st 55
  { c := (c.log .lookupMismatch [e.port]).portFog e.port fogLookup, what := 3 }

/-- A packet of a window would be longer than R37 allows; one that leaves the module, or is multicast, is a frame. -/
def Chip.tooLong (c : Chip) (w : Win) (t : Tlp) (pieces : List (Nat × Nat)) : Bool :=
  let head := if w.mc || !c.faHere w.dest then 16 else 0
  pieces.any (fun x => decide (4208 < head + { t.moved x.1 with len := x.2 }.bytes))

/-- The lookup of a memory request in both pipelines, and what follows from it (R46, R47, R182 to R187). `t0` is when its first
byte arrived. DESIGN CHOICE (log 196): an unroutable posted write that its window would cut yields one FAR_ERR for the whole write
(R178), as no piece has been formed. -/
def Chip.submit (c : Chip) (e : Entry) (below : Bool) (t : Tlp) (t0 : Nat) : Submitted :=
  let a := c.lookMem false e.v (c.ownFa e.port) below t
  let b0 := c.lookMem true e.v (c.ownFa e.port) below t
  let flip := c.injected 1 (fun p => p == e.port)
  let c := if flip then c.useInject else c
  let b := if flip then (b0.1, { b0.2 with port := b0.2.port + 1 }) else b0
  if a ≠ b ∨ (a.2.kind = 2 ∧ !c.mcAgree a.2.mc) then c.edgeMismatch e
  else
    match a with
    | (none, l) =>
      if l.kind = 0 then { c, what := 1, addr := t.addr }
      else submitPieces e none l t false none c.sw.nextUid t.addr t0 [(t.addr, t.len)] 0 { c }
    | (some w, l) =>
      let addr := w.translate t.addr
      let ps := w.pieces t addr
      if c.tooLong w t ps then { c, what := 5 }
      else if l.kind = 1 && (!(c.port l.port).present || c.isSpan l.port) then
        { c := c.badLocal e w t addr, what := 1, addr := t.addr }
      else
        let c := if l.kind = 0 then c.noRouteHere e w else c
        if l.kind = 0 && !c.guards e.v w t.tc then
          if t.otype = 1 then
            { c := if e.relay.isSome then c else c.refuseAt e.port t stUR, what := 1, addr := t.addr }
          else { c := c.genFarErr (c.ownFa e.port) t.tc 3 addr e.v e.port, what := 4, addr := t.addr }
        else
          let multi := decide (1 < ps.length)
          let cut := if multi && t.otype == 1 then some c.pci.nextCut else none
          let c :=
            match cut with
            | some id =>
              let x : CutRead := { id, rid := t.rid, tag := t.tag, total := t.len, addr0 := addr, pieces := ps.length }
              { c with pci := { c.pci with nextCut := id + 1, cuts := x :: c.pci.cuts } }
            | none => c
          submitPieces e (some w) l t multi cut c.sw.nextUid addr t0 ps 0 { c }

/-! ## Receiving a TLP (R66, R80, R183, R185, R250) -/

/-- The port that a message with a bus number is routed to below a VSI. -/
def Chip.busPort (c : Chip) (v bus : Nat) : Option Nat :=
  match c.vsi.ports.find? (fun b => b.1 == v &&
      decide (c.fld (Reg.VBR_STATE v b.2.1) Bit.VBR_STATE_SEC_BUS ≤ bus ∧
        bus ≤ c.fld (Reg.VBR_STATE v b.2.1) Bit.VBR_STATE_SUB_BUS)) with
  | some b => some b.2.2
  | none => none

/-- A message is routed by its bus number below the VSI, or up to the host. It is not sector-checked (R335). Both pipelines
compute its EG_VC (R46). -/
def Chip.submitMsg (c : Chip) (e : Entry) (below : Bool) (t : Tlp) (t0 : Nat) : Submitted :=
  let eg := if below then c.portOfVsi e.v else c.busPort e.v (t.dest / 256)
  let flip := c.injected 1 (fun p => p == e.port)
  let c := if flip then c.useInject else c
  if flip ∨ c.egVc false t.tc ≠ c.egVc true t.tc then c.edgeMismatch e
  else
    match eg with
    | some q =>
      let k := { c.packetOf e none { kind := 1, port := q, vc := c.egVc false t.tc } t with poolH := 1, poolD := t.creditD }
      ({ c } : Submitted).add k c.sw.nextUid true t0
    | none => { c, what := 1 }

/-! ## What waits in the receive pool -/

/-- The keys under which the BARs of a function are kept; of the expansion ROM BAR. -/
def keyBar (i : Nat) (hi : Bool) : Nat := 32 + 2 * (i % 3) + b2n hi
def keyRom : Nat := 38

/-- What a BAR of the Relay function shows at an offset. -/
inductive BarHit where
  | regs (off : Nat)
  | pages (off : Nat)
  | rom (off : Nat)
  deriving DecidableEq, Repr

def Chip.barBase (c : Chip) (v i : Nat) : Nat := (c.cfg v 1 (keyBar i false)).toNat + (c.cfg v 1 (keyBar i true)).toNat * 2 ^ 32

/-- Where an address falls in the BARs of VSI `v`, while Memory Space Enable is set (Table 9.1). The expansion ROM BAR also has an
enable bit (R406).  DEDUCED (log 163): a BAR claims an address before any window does, as the Relay function stands on the
link's own bus. -/
def Chip.barHit (c : Chip) (v a : Nat) : Option BarHit :=
  let rom := c.cfg v 1 keyRom
  let romAt := (rom &&& 0xFFC00000).toNat
  if !c.relayMse v then none
  else if c.barBase v 0 ≤ a ∧ a < c.barBase v 0 + 2 ^ 26 then some (.regs (a - c.barBase v 0))
  else if c.barBase v 2 ≤ a ∧ a < c.barBase v 2 + 2 ^ 25 then some (.pages (a - c.barBase v 2))
  else if bitOf rom.toNat 0 ∧ romAt ≤ a ∧ a < romAt + 2 ^ 22 then some (.rom (a - romAt))
  else none

/-- The bytes that a policer charges for a TLP that its upstream port received, and the bucket (R321). -/
def Chip.policeIn (c : Chip) (r : Rx) : Chip :=
  match if (c.port r.port).up && !c.isSpan r.port then c.vsiOfPort r.port else none with
  | some v =>
    let k := r.tlp.tc
    c.charge (keyPol v k) (c.polEff v k) (c.polBurst v) (r.tlp.bytes + c.overhead r.port)
  | none => c

/-- A TLP of an upstream port that no station stages, because it is for the module itself (a BAR of the Relay function, a
completion for the Relay engine), waits in the receive pool while its policer is not eligible (R321). -/
def Chip.policeHeld (c : Chip) (r : Rx) : Bool :=
  let t := r.tlp
  (c.port r.port).up && !c.isSpan r.port && (match c.vsiOfPort r.port with
    | some v => !c.bucketOpen (keyPol v t.tc) (c.polEff v t.tc) (c.polBurst v) &&
        ((t.isMem && !t.isMalformed && (c.barHit v t.addr).isSome) ||
          (t.kind == .cpl && (c.ortFor r.port t).any (fun e => e.relay.isSome)))
    | none => false)

/-- A TLP waits in the receive pool: any but a configuration request while module Fog has cause BOOT (R410), and one that its
policer holds. -/
def Chip.rxWaits (c : Chip) (r : Rx) : Bool :=
  (c.bootFog && !(r.tlp.kind == .cfgRd || r.tlp.kind == .cfgWr)) || c.policeHeld r

/-- A TLP that has not been looked up, and may be now. -/
def Chip.rxReady (c : Chip) (p : Nat) (r : Rx) : Bool := r.port == p && !r.looked && r.frame.isNone && !c.rxWaits r

/-- The oldest TLP of a port that waits to be looked up, when a filter takes it: a port's TLPs are looked up in the order
they arrived; one that is held in the pool lets the next ones pass. -/
def Chip.takeRx (c : Chip) (p : Nat) (f : Rx → Bool) : Option (Rx × Chip) :=
  match takeFirst (c.rxReady p) c.sw.rx with
  | some (r, l) => if f r && !c.inPortFog p then some (r, { c with sw := { c.sw with rx := l } }) else none
  | none => none

/-- The received TLP has been looked up. The units `back` of what goes no further return at once where it is whole; what is still
arriving stays in the list, and they return with its last flit: a flit that fails takes them back (R67, R83). -/
def Chip.putRx (c : Chip) (r : Rx) (uids : List Nat) (back : Nat × Nat) : Chip :=
  if r.whole then c.rxReturn r back.1 back.2
  else { c with sw := { c.sw with rx := c.sw.rx ++ [{ r with looked := true, uids, dead := uids.isEmpty, back }] } }

/-- A received TLP of which nothing is made. -/
def Chip.putGone (c : Chip) (r : Rx) : Chip := c.putRx r [] (r.tlp.creditH, r.tlp.creditD)

/-- The data link layer acknowledgement of a whole TLP that no custody copy holds back (R30). -/
def Chip.ackNow (c : Chip) (r : Rx) (uids : List Nat) : Chip :=
  if r.whole && !(c.sw.pkts.any (fun k => uids.contains k.uid && k.ack.isSome)) then c.emit (.dllAck r.port) else c

/-- Bytes of packets that have arrived so far, before their last flit has passed its check. -/
def Chip.markPartial (c : Chip) (r : Rx) (uids : List Nat) : Chip :=
  if r.whole then c
  else c.setPkts (mapIf (fun k => uids.contains k.uid) (fun k => { k with whole := false, got := r.got }) c.sw.pkts)

/-- A TLP that breaks an ACS service of its downstream port is not forwarded: a non-posted one is completed with Completer Abort
(Table 3.1). -/
def Chip.acsRefuse (c : Chip) (p : Nat) (t : Tlp) : Chip := if t.otype = 1 then c.refuseAt p t stCA else c

/-- A memory request or a message of a port enters the core, or is refused. The errors that Table 3.6 names may trigger DPC
(R99). DESIGN CHOICE (log 201): a request at a port that is not bound sets RID_MISS in the manager VSI's VSI_EVENT (R250). -/
def Chip.receive (c : Chip) (r : Rx) : Chip :=
  let p := r.port
  let t := r.tlp
  let st := portStation p
  let done := fun (c : Chip) => (c.putGone r).ackNow r []
  if t.isMalformed then (done c).portError p .malformedTlp
  else
    match t.kind with
    | .mrdLk | .dmwr =>
      (done ((c.setBit (Reg.PRT_EVENT p) Bit.PRT_EVENT_REFUSED_REQ).refuseAt p t stUR)).portError p .unsupportedRequest
    | _ =>
      match c.whose p t.rid with
      | none =>
        let c := (c.setBit (Reg.VSI_EVENT c.manager) Bit.VSI_EVENT_RID_MISS)
        done (if t.otype = 1 then c.refuseAt p t stUR else c)
      | some v =>
        let below := !(c.port p).up
        if below && c.acsBreaks p v t then (done (c.acsRefuse p t)).portError p .acsViolation
        else
          let e : Entry := { st, src := portLocal p, port := p, v, path := b2n below }
          let s := if t.isMem then c.submit e below t r.t0
            else if t.kind = .msg then c.submitMsg e below t r.t0
            else { c, what := 1 }
          let c := if s.what = 1 && s.uids.isEmpty && !(t.isMem && (c.winHit false v t.addr).isSome)
            then s.c.nowhere p v t else s.c
          if s.what = 5 then (done c).portError p .malformedTlp
          else if s.uids.isEmpty then
            if s.what = 3 then c.putGone r
            else if s.what = 2 then (done c).dpcOn p .acsViolation
            else done c
          else
            let c := c.setPkts (mapIf (fun k => s.uids.contains k.uid) r.fills c.sw.pkts)
            let c := ((c.markPartial r s.uids).putRx r s.uids s.back).ackNow r s.uids
            let c := match c.pkt (s.uids.headD 0) with
              | some k => c.sndChoose st k.uid p r.t0 k
              | none => c
            if s.what = 2 then c.dpcOn p .acsViolation else c

end Sys2Proof.Machine
end

