-- ==== Sys2Proof/Machine/Link.lean ====
section
/-!
DEFINITION. The link layer of a PCIe port and its Outstanding Request Table: flits and their check (R66, R67), TLPs and
completions (R89 to R95), acknowledgements (R216), the completion timer and quarantine (R93), replay timeouts (Table 3.6).
-/
namespace Sys2Proof.Machine

/-! ## Flits (R66, R67) -/

/-- A flit that fails its check: the TLP in progress is dropped, nothing of it is acknowledged, and the link partner replays
(R67, Table 3.6). Its bytes leave the pool; its credits stay with the link partner's replay. -/
def Chip.badFlit (c : Chip) (p : Nat) : Chip :=
  let c := (((c.ctrInc kPort p 4).ctrInc kPort p 5).emit (.dllNak p)).aerPort p .badTlp
  c.cutShort p

/-- The acknowledgement of a whole TLP that was looked up before: it waits while a copy of it is not HELD (R30). -/
def Chip.ackLate (c : Chip) (r : Rx) : Chip :=
  if r.uids.any (fun u => match c.pkt u with
    | some k => k.ack.any (fun a => c.pci.ackWait.contains a)
    | none => false) then c
  else c.emit (.dllAck r.port)

/-- An access to an entry of a port: a single-bit error, injected or of its own, is corrected, an uncorrectable one places the port
in Fog (R91, R359, R366). The truth value says whether the entry may be used. -/
def Chip.ortAccess (c : Chip) (p : Nat) (e : Option OrtEnt) : Chip × Bool :=
  let fail := fun (c : Chip) => (c.setBit (Reg.PRT_EVENT p) Bit.PRT_EVENT_ORT_ERR).portFog p fogOrtEcc
  if c.injected 4 (fun q => q == p) then (c.useInject.corrected, true)
  else if c.injected 5 (fun q => q == p) then (fail c.useInject, false)
  else
    match e with
    | some x =>
      if x.ecc = 2 then (fail c, false)
      else if x.ecc = 1 then ((c.putEnt { x with ecc := 0 }).corrected, true)
      else (c, true)
    | none => (c, true)

/-- A completion that matches nothing (R90). -/
def Chip.unexpCpl (c : Chip) (p : Nat) (t : Tlp) : Chip :=
  let c := ((c.setBit (Reg.PRT_EVENT p) Bit.PRT_EVENT_UNEXP_CPL).stCtr p 49).aerPort p .unexpectedCompletion
  c.log .unexpCpl [p] [t.rid, t.tag]

/-- The quarantined tag that a completion hits (R93). DESIGN CHOICE (log 160): the manual does not say whether a completion with a
quarantined tag and another requester ID is late or unexpected; the model wants both to match. -/
def Chip.quarFor (c : Chip) (p : Nat) (t : Tlp) : Option Quar :=
  c.pci.quar.find? (fun q => q.port == p && q.rid == t.rid && q.tag == t.tag)

/-- A completion that was cut through has passed its last check (R89): it counts, or, where its entry has ended meanwhile, it is
late or unexpected and what was staged of it closes with NULL = 1. -/
def Chip.cutCounts (c : Chip) (p : Nat) (t : Tlp) (uids : List Nat) (rel : Option Rel) : Chip :=
  let a := c.ortAccess p (c.ortFor p t)
  if a.2 then
    match a.1.ortFor p t with
    | some e => (a.1.cplEntry e (e.after t 0) t).cplTail e (e.after t 0) t
    | none =>
      let c := (uids.foldl Chip.nullifyIn (a.1.setPkts (mapIf (fun k => rel.isSome && uids.contains k.uid) (fun k => { k with rel := none }) a.1.sw.pkts))).dischargeOpt rel
      match c.quarFor p t with
      | some q => c.lateCpl p q
      | none => c.unexpCpl p t
  else a.1

/-- A TLP's last flit has passed its check. -/
def Chip.tlpWhole (c : Chip) (r : Rx) : Chip :=
  let c := (c.ctrInc kPort r.port 0).ctrAdd kPort r.port 2 r.tlp.bytes
  if r.looked then
    let c := { c with sw := { c.sw with rx := c.sw.rx.filter (fun x => !(x.port == r.port && x.frame.isNone && !x.whole)) } }
    let c := c.setPkts (mapIf (fun k => r.uids.contains k.uid) (fun k => { k with whole := true, got := r.len }) c.sw.pkts)
    let c := (c.rxReturn r r.back.1 r.back.2).ackLate r
    if r.tlp.kind = .cpl && !r.uids.isEmpty then c.cutCounts r.port r.tlp r.uids none else c
  else c

/-- One share of a flit: bytes of one TLP. A TLP beyond the advertised credits overflows the receiver (Table 3.6) and is
not taken. -/
def Chip.flitSeg (c : Chip) (p : Nat) (g : TlpSeg) : Chip :=
  match g.start with
  | some t =>
    let adv := SMap.get c.pci.adv p []
    let ty := t.creditType
    if nth adv (2 * ty) < c.poolUseOf p (2 * ty) + t.creditH ∨
        nth adv (2 * ty + 1) < c.poolUseOf p (2 * ty + 1) + t.creditD then
      c.portError p .receiverOverflow
    else
      let r : Rx := { port := p, tlp := t, len := t.bytes, got := g.bytes, whole := g.last, t0 := c.now }
      let c := c.addPool p ty t.creditH t.creditD
      let c := { c with sw := { c.sw with rx := c.sw.rx ++ [r] } }
      if g.last then c.tlpWhole r else c
  | none =>
    match c.sw.rx.find? (fun r => r.port == p && r.frame.isNone && !r.whole) with
    | none => c
    | some r =>
      let r' := { r with got := min (r.got + g.bytes) r.len, whole := g.last }
      let c := if r.looked then
          c.setPkts (mapIf (fun k => r.uids.contains k.uid) (fun k => { k with got := r'.got }) c.sw.pkts)
        else c
      if g.last then
        let c := c.tlpWhole { r with got := r'.got }
        { c with sw := { c.sw with rx := mapIf (fun x => x.port == p && x.frame.isNone && !x.whole) (fun _ => r') c.sw.rx } }
      else
        { c with sw := { c.sw with rx := mapIf (fun x => x.port == p && x.frame.isNone && !x.whole) (fun _ => r') c.sw.rx } }

/-- Credits that the link partner returns, by type: headers and data of posted, non-posted and completion TLPs. -/
def Chip.creditsIn (c : Chip) (p : Nat) (fc : List Nat) : Chip :=
  let cr := SMap.get c.sw.txCredit p []
  let cr' := (List.range 6).map (fun i => nth cr i + nth fc i)
  if fc.isEmpty then c else ({ c with sw := { c.sw with txCredit := SMap.set c.sw.txCredit p cr' [] } } : Chip).syncPort p

/-- What the flow-control bytes of a flit return goes beyond what PCIe's scaled counts can hold outstanding: 4,080 headers, 65,520
data units. PRESUMED (log 188): Table 3.6 names the error and not its condition; the limits are the largest that Table 3.2 lets a
port advertise, the ends of the scaled 12-bit and 16-bit counts. -/
def Chip.fcBroken (c : Chip) (p : Nat) (fc : List Nat) : Bool :=
  let cr := SMap.get c.sw.txCredit p []
  !fc.isEmpty && (List.range 6).any (fun i => decide ((if i % 2 = 0 then 4080 else 65520) < nth cr i + nth fc i))

/-- A flit arrives on a PCIe port in DL_Active (R66). `fc` is what its flow-control bytes return; a return that breaks flow
control is reported and not taken (Table 3.6). -/
def Chip.flitIn (c : Chip) (p : Nat) (good : Bool) (segs : List TlpSeg) (fc : List Nat) : Chip :=
  if !c.portUp p || c.isSpan p || !c.dlUp p then c
  else if good then
    let broken := c.fcBroken p fc
    let c := segs.foldl (fun c g => c.flitSeg p g) (if broken then c else c.creditsIn p fc)
    if broken then c.portError p .flowControlProtocol else c
  else c.badFlit p

/-- PCIE_FLIT_RECEIVED. -/
def execPcieFlitReceived (p : Nat) (good : Bool) (segs : List TlpSeg) (fc : List Nat) (s : State) :
    Host.Outcome State Fault Refusal :=
  .next { s with chip := s.chip.flitIn p good segs fc }

/-- The header of a request or message on a PCIe port has been received: the oldest TLP that waits is looked up (R183). -/
def Chip.tlpIn (c : Chip) (p : Nat) : Chip :=
  match c.takeRx p (fun r => !(r.tlp.kind == .cpl || r.tlp.kind == .cfgRd || r.tlp.kind == .cfgWr)) with
  | some (r, c) => c.receive r
  | none => c

/-- The link partner acknowledges the oldest TLP that the port transmitted: a released posted frame or completion is
discharged (R216). -/
def Chip.tlpAcked (c : Chip) (p : Nat) : Chip :=
  match takeFirst (fun u => u.port == p) c.pci.unacked with
  | some (u, l) => ({ c with pci := { c.pci with unacked := l } }).dischargeOpt u.rel
  | none => c

/-- PCIE_TLP_ACKED. -/
def execPcieTlpAcked (p : Nat) (s : State) : Host.Outcome State Fault Refusal :=
  .next { s with chip := s.chip.tlpAcked p }

/-- The replay timer of a PCIe port runs out, and its replay number may roll over (Table 3.6). -/
def Chip.pcieReplayTimeout (c : Chip) (p : Nat) (rollover : Bool) : Chip :=
  if c.dlUp p && !c.isSpan p then
    let c := (c.ctrInc kPort p 7).aerPort p .replayTimer
    if rollover then (c.ctrInc kPort p 8).aerPort p .replayRollover else c
  else c

/-- PCIE_REPLAY_TIMEOUT. -/
def execPcieReplayTimeout (p : Nat) (rollover : Bool) (s : State) : Host.Outcome State Fault Refusal :=
  .next { s with chip := s.chip.pcieReplayTimeout p rollover }

/-! ## Completions (R89 to R95, R186 to R190) -/

/-- A completion that a port's table is asked for: counted, late, or (`none`) unmatched. -/
def Chip.matchCpl (c : Chip) (p : Nat) (t : Tlp) (fill : Pkt → Pkt) (back : Chip → Chip) : Option Chip :=
  match c.ortFor p t with
  | some e =>
    let a := c.ortAccess p (some e)
    if a.2 then
      match a.1.ortFor p t with
      | some e => some (a.1.cplCounts e t fill back)
      | none => some (back a.1)
    else some (back a.1)
  | none =>
    match c.quarFor p t with
    | some q => some (back (c.lateCpl p q))
    | none => none

/-- A completion whose header has arrived, and that matches an entry, is looked up so that it may be cut through (R66); it counts
when its last flit has passed its check (R89). What is for the Relay engine or the module itself, or will be discarded, waits
until it is whole. -/
def Chip.cplOpens (c : Chip) (r : Rx) : Option Chip :=
  let t := r.tlp
  match c.ortFor r.port t with
  | none => none
  | some e =>
    let grp := c.sw.nextUid
    let c' := c.sendCpl r.port (c.cplRet e t) (c.cplRestored e t) (e.endsBy t) e.rel e.piece none e.vsi
    match e.ret with
    | .own .. => none
    | _ =>
      if e.badCpl t || e.relay.isSome || c'.sw.nextUid = grp then none
      else
        let c' := c'.updPkt grp (fun k => ({ cplFill r.port grp t k with whole := false, got := r.got, mapped := some (e.mapRid, e.mapTag) }).sealIh)
        let c' := match (c'.pkt grp).bind (·.ack) with
          | some a => { c' with pci := { c'.pci with ackWait := c'.pci.ackWait ++ [a] } }
          | none => c'
        some (c'.putRx r [grp] (0, 0))

/-- A completion of a PCIe port is matched (R89): a whole one counts, one that is still arriving may be cut through (R66). -/
def Chip.cplIn (c : Chip) (p : Nat) : Chip :=
  match c.takeRx p (fun r => r.tlp.kind == .cpl && r.whole) with
  | none =>
    match c.takeRx p (fun r => r.tlp.kind == .cpl) with
    | some (r, d) => (d.cplOpens r).getD c
    | none => c
  | some (r, c) =>
    let t := r.tlp
    if t.isMalformed || (c.ortFor p t).any (fun e => e.badCpl t) then ((c.rxBack r).emit (.dllAck p)).portError p .malformedTlp
    else
      let grp := c.sw.nextUid
      match c.matchCpl p t (fun k => r.fills (cplFill p grp t k)) (fun c => c.rxBack r) with
      | some d => (if (c.ortFor p t).any (fun e => e.relay.isSome) then d.policeIn r else d).ackCpl p grp
      | none => ((c.unexpCpl p t).rxBack r).emit (.dllAck p)

/-- COMPLETION_RECEIVED. -/
def execCompletionReceived (p : Nat) (s : State) : Host.Outcome State Fault Refusal :=
  .next { s with chip := s.chip.cplIn p }

/-! ## The completion timer and quarantine (R93, R94) -/

/-- A completion of an entry has passed its check and has not yet been matched: it counts before the timer acts (R94). -/
def Chip.cplPending (c : Chip) (e : OrtEnt) : Bool :=
  c.sw.rx.any (fun r => r.whole && !r.looked &&
    (match r.frame with
     | some f => f.tlp.kind == .cpl && f.tlp.rid == e.mapRid && f.tlp.tag == e.mapTag
     | none => r.port == e.port && r.tlp.kind == .cpl && r.tlp.rid == e.mapRid && r.tlp.tag == e.mapTag))

/-- The timer of an entry reaches its CTO (R93). -/
def Chip.ctoExpiry (c : Chip) (p tag : Nat) : Chip :=
  match c.pci.ort.find? (fun e => e.port == p && e.mapTag == tag) with
  | none => c
  | some e =>
    if !c.due (.cto p tag) || c.cplPending e then c
    else
      let a := c.ortAccess p (some e)
      if a.2 then
        let c := (a.1.setBit (Reg.PRT_EVENT p) Bit.PRT_EVENT_CTO_ANSWER).stCtr p 46
        ((c.aerPort p .completionTimeout).answerEntry e (c.synth p)).dpcOn p .completionTimeout
      else a.1

/-- CTO_EXPIRY. -/
def execCtoExpiry (p tag : Nat) (s : State) : Host.Outcome State Fault Refusal :=
  .next { s with chip := s.chip.ctoExpiry p tag }

/-- A quarantined tag returns to its pool (R93). -/
def Chip.quarantineEnd (c : Chip) (p tag : Nat) : Chip :=
  if c.due (.quarantine p tag) then
    ({ c with pci := { c.pci with quar := c.pci.quar.filter (fun q => !(q.port == p && q.tag == tag)) } }).disarm
      (.quarantine p tag)
  else c

/-- QUARANTINE_END. -/
def execQuarantineEnd (p tag : Nat) (s : State) : Host.Outcome State Fault Refusal :=
  .next { s with chip := s.chip.quarantineEnd p tag }

end Sys2Proof.Machine
end

