-- ==== Sys2Proof/Machine/Staging.lean ====
section
/-!
DEFINITION. From the receive pool into cells (R36 to R45, R66), the replay port (R224), and custody copies on their way
into the store, to LPDDR6 and back (R209 to R213).
-/
namespace Sys2Proof.Machine

/-! ## Route lookups of frames (R46, R47, R174) -/

/-- A lookup of the route tables in both pipelines for a frame of port `p`, candidate and EG_VC compared; an injected fault alters
pipeline B's result (R366). -/
inductive Routed where
  | to (c : Chip) (port : Nat)
  | none (c : Chip)
  | mismatch (c : Chip)

def Chip.route (c : Chip) (p destFa srcFa tc alt : Nat) : Routed :=
  let a := c.routeTo false destFa srcFa tc alt
  let b := c.routeTo true destFa srcFa tc alt
  let vc := decide (c.egVc false tc = c.egVc true tc)
  let flip := c.injected 1 (fun q => q == p)
  let c := if flip then c.useInject else c
  if a ≠ b ∨ !vc ∨ flip then
    let st := portStation p
    let c := (c.setBit (Reg.STN_STATUS st) Bit.STN_STATUS_LOOKUP_MISMATCH).ctrInc kStation st 55
    .mismatch ((c.log .lookupMismatch [p]).portFog p fogLookup)
  else match a with
    | some q => .to c q
    | none => .none c

/-! ## The replay port (R224) -/

/-- The position at the head of a stream's replay is done. -/
def Chip.replayed (c : Chip) (s t d n : Nat) : Chip :=
  match c.stream s t d with
  | some x => c.putStream { x with replaying := x.replaying.filter (· != n) }
  | none => c

/-- The head position of a replay becomes a packet of the replay port of the source port's station. Only the route tables
are read; ALT takes the stream's value; every other field stays (R224). What was read back of a spilled copy serves this
replay only (R213). -/
def Chip.feedOne (c : Chip) (x : IStream) (n : Nat) (k : Copy) : Chip :=
  let port := faPort x.srcFa
  let h : KHdr := { k.pkt.kh.getD {} with alt := x.alt, hops := 0, desc := false, cong := false }
  match c.route port x.destFa x.srcFa x.tc x.alt with
  | .mismatch c => c
  | .none c =>
    let c := (c.setBit Reg.KND_EVENT Bit.KND_EVENT_NO_ROUTE).stCtr port 52
    (c.log .noRoute [port] [x.destFa, x.srcFa]).replayed x.srcFa x.tc x.destFa n
  | .to c q =>
    let c := match c.pkt k.pkt.uid with
      | some o => if o.staged = 0 && !o.replay then c.dropPkt o.uid else c
      | none => c
    let c := c.addPkt ({ k.pkt with
      src := 9, st := portStation port, kh := some h, egPort := q, egVc := c.egVc false x.tc, vsi := h.srcVsi
      staged := 0, whole := true, got := k.pkt.len, cut := false, marked := false, poolH := 0, poolD := 0, poolVc := none
      rel := none, ack := none, copy := some k.id, replay := true, replayOf := some (x.srcFa, x.tc, x.destFa, n) } : Pkt)
    (c.updCopy k.id (fun y => { y with ready := false })).ctrInc kMooring 0 7

/-- The replay port of a station takes the next frame of a replay when it holds none. -/
def Chip.feedReplay (c : Chip) (st : Nat) : Chip :=
  if c.inModFog || !c.morRuns || c.sw.pkts.any (fun k => k.st == st && k.src == 9 && decide (k.staged < k.size)) then c
  else
    match c.mor.streams.find? (fun x => portStation (faPort x.srcFa) == st && !x.replaying.isEmpty) with
    | none => c
    | some x =>
      match x.replaying with
      | [] => c
      | n :: _ =>
        match c.copyAt x n with
        | some k => if k.state == .held || k.ready then c.feedOne x n k else c
        | none => c.replayed x.srcFa x.tc x.destFa n

/-! ## What may be staged (R42 to R44, R66, R96, R321) -/

/-- Target ports of a multicast packet: the port masks of its stations, less the ports it leaves out. -/
def Chip.mcTargets (c : Chip) (k : Pkt) : List Nat :=
  match k.mc with
  | some i => (c.mcPorts i).filter (fun p => k.fan.contains (portStation p) && !k.exclude.contains p)
  | none => []

/-- The queue of a packet at its ingress station: its VOQ, or the multicast queue (16). -/
def Pkt.queue (k : Pkt) : Nat := if k.mc.isSome then 16 else portStation k.egPort

/-- A queue of an ingress station has room for another cell (R42). -/
def Chip.queueRoom (c : Chip) (st q : Nat) : Bool :=
  decide ((c.sw.voq.filter (fun x => x.st == st && x.q == q)).length +
    (c.sw.announced.filter (fun x => x.st == st && x.q == q)).length < 32)

/-- Link rate of a port: width × GT/s. -/
def Chip.lineRate (c : Chip) (p : Nat) : Nat :=
  if c.isSpan p then c.fld (Reg.SPAN_STATUS p) Bit.SPAN_STATUS_WIDTH *
    (if c.flag (Reg.SPAN_STATUS p) Bit.SPAN_STATUS_RATE then 128000 else 64000)
  else c.fld (Reg.PRT_STATUS p) Bit.PRT_STATUS_WIDTH * rateMts (c.fld (Reg.PRT_STATUS p) Bit.PRT_STATUS_RATE)

/-- Cut-through is allowed (R66). -/
def Chip.mayCut (c : Chip) (k : Pkt) : Bool :=
  k.mc.isNone && !k.multi &&
    c.tabF false (Reg.PORT_CFG (portStation k.egPort) (portLocal k.egPort)) Bit.PORT_CFG_CUT_EN == 1 &&
    decide (c.lineRate k.egPort ≤ c.lineRate k.inPort)

/-- A packet of an upstream port's receive path that its policer charges (R321). -/
def Chip.policed (c : Chip) (k : Pkt) : Bool :=
  decide (k.src < 8) && (c.port k.inPort).up && !c.isSpan k.inPort && !k.formed

def Chip.policerOpen (c : Chip) (k : Pkt) : Bool :=
  !c.policed k || c.bucketOpen (keyPol k.vsi k.tc) (c.polEff k.vsi k.tc) (c.polBurst k.vsi)

/-- The stream of a guarded frame formed here replays (R224). -/
def Chip.behindReplay (c : Chip) (k : Pkt) : Bool :=
  k.guarded && !k.replay && (match k.kh with
    | some h => c.faHere h.srcFa && (match c.stream h.srcFa h.tc h.destFa with
      | some x => !x.replaying.isEmpty
      | none => false)
    | none => false)

/-- A released frame waits for an earlier one of its stream: until that one has been staged, and, where it comes from another
station, has reached its queue at the egress port (R215, R236). -/
def Chip.behindRel (c : Chip) (k : Pkt) : Bool :=
  match k.rel with
  | some r =>
    c.sw.pkts.any (fun o => o.uid != k.uid && (match o.rel with
      | some q => q.before r && (decide (o.staged < o.size) || (o.st != k.st && !c.sw.obq.any (fun e => e.uid == o.uid)))
      | none => false))
  | none => false

/-- A packet's own conditions for staging hold; ordering apart. -/
def Chip.clear (c : Chip) (k : Pkt) : Bool :=
  let ports := if k.mc.isSome then c.mcTargets k else [k.egPort]
  k.egPort != 255 && (k.whole || c.mayCut k) && !c.needsCopy k && !c.behindReplay k && !c.behindRel k && c.policerOpen k &&
    (k.formed || !c.inPortFog k.inPort || k.src == 9 || (k.mc.isSome && k.kh.isSome)) &&
    (!c.inModFog || k.formed) &&
    ports.all (fun p => (k.formed || !c.inPortFog p) && (!c.stopped p || k.sink.isSome) &&
      (k.otype != 1 || !c.flag (Reg.PRT_STATUS p) Bit.PRT_STATUS_NP_STOP)) &&
    c.queueRoom k.st k.queue

/-- Stations that a packet goes to. -/
def Pkt.stations (k : Pkt) : List Nat := if k.mc.isSome then k.fan else [portStation k.egPort]

/-- A packet still has cells in the queues of its ingress station (R44). -/
def Chip.inStaging (c : Chip) (uid : Nat) : Bool :=
  c.sw.voq.any (fun x => x.cell.segs.any (fun g => g.uid == uid)) ||
    c.sw.announced.any (fun x => x.cell.segs.any (fun g => g.uid == uid))

/-- The ordering rules between a packet and an earlier one of the same source and class, which waits or does not (R43, R44,
Table 3.3). -/
def Chip.orderOk (c : Chip) (k o : Pkt) (waits : Bool) : Bool :=
  let unstaged := decide (o.staged < o.size)
  let meet := k.stations.any (fun s => o.stations.contains s)
  if k.tc ≠ o.tc then true
  else if o.mc.isSome || k.mc.isSome then !(meet && (unstaged || c.inStaging o.uid))
  else if !unstaged || k.egPort ≠ o.egPort then true
  else k.otype != o.otype && mayPass k o waits

/-- The packets of a source, oldest first, with the earlier ones of each. -/
def Chip.sourceQueue (c : Chip) (st src : Nat) : List Pkt := c.sw.pkts.filter (fun k => k.st == st && k.src == src)

/-- The packets of a source, oldest first, with whether each may start now: its own conditions hold, and every earlier packet
lets it pass. One that waits for another is held for those behind it (R192). -/
def Chip.startsOf (c : Chip) : List Pkt → List (Pkt × Bool) → List (Pkt × Bool)
  | [], done => done
  | k :: rest, done => c.startsOf rest (done ++ [(k, c.clear k && done.all (fun o => c.orderOk k o.1 (!o.2)))])

/-- The packet that a source stages next: the one it is partway through, or the oldest that may go. -/
def Chip.nextOf (c : Chip) (st src : Nat) : Option Pkt :=
  let q := c.sourceQueue st src
  match q.find? (fun k => decide (0 < k.staged ∧ k.staged < k.size)) with
  | some k => if c.queueRoom st k.queue then some k else none
  | none => ((c.startsOf q []).find? (fun x => x.1.staged == 0 && x.2)).map (·.1)

/-- Bytes of a packet that could go into a cell now. Of a nullified one, what has arrived of it closes its cell; DESIGN CHOICE (log 152):
where no good byte is left, its last cell holds one unit of 16 bytes, since FILL cannot say 0. -/
def Pkt.ready (k : Pkt) : Nat :=
  let arrived := min (16 + (if k.kh.isSome then 16 else 0) + k.got) (k.size - 16) - k.staged
  if k.nulled then max arrived 16 else if k.whole then k.size - k.staged else arrived

/-- What is ready of a packet makes a cell: a full one, or its last. -/
def Pkt.fills (k : Pkt) (room : Nat) : Bool := decide (0 < k.ready) && (k.whole || k.nulled || decide (room ≤ k.ready))

/-! ## Staging a cell (R39 to R41) -/

/-- The first byte of a packet is staged: its internal header is written, its policer charged, and it is counted. -/
def Chip.stageStart (c : Chip) (k : Pkt) : Chip :=
  let cut := !k.whole
  let c := c.updPkt k.uid (fun x => { x with cut }.sealIh)
  let c := if c.policed k then
      c.charge (keyPol k.vsi k.tc) (c.polEff k.vsi k.tc) (c.polBurst k.vsi) (c.charged k.inPort k)
    else c
  let c := c.ctrInc kStation k.st 34
  let c := if cut then c.ctrInc kStation k.st 35 else c
  c.sndPoint k.uid 4

/-- The last byte of a packet is staged: its bytes leave the receive pool, an unguarded completion frame discharges the
request it ends (Table 7.5), and a replayed position is done. -/
def Chip.stageEnd (c : Chip) (k : Pkt) : Chip :=
  let c := c.freePool k
  let c := match k.kh with
    | some h =>
      if c.faHere h.srcFa && k.otype == 2 && !k.guarded then
        (c.dischargeOpt k.rel).updPkt k.uid (fun x => { x with rel := none })
      else c
    | none => c
  match k.replayOf with
  | some (s, t, d, n) => c.replayed s t d n
  | none => c

/-- Fill a cell of a source for one queue from its next packets, up to 128 bytes (R39). -/
def Chip.fillCell (c : Chip) (st src q room : Nat) : Nat → List CellSeg → Chip × List CellSeg
  | 0, acc => (c, acc)
  | fuel + 1, acc =>
    match c.nextOf st src with
    | none => (c, acc)
    | some k =>
      if k.queue ≠ q ∨ room = 0 then (c, acc)
      else
        let n := min k.ready room
        if !k.fills room then (c, acc)
        else
          let first := k.staged == 0
          let last := if k.nulled then decide (n = k.ready) else decide (k.staged + n = k.size)
          let c := if first then c.stageStart k else c
          let c := c.updPkt k.uid (fun x => { x with staged := if last then x.size else x.staged + n })
          let c := if last && !k.nulled then c.stageEnd k else c
          let acc := acc ++ [{ uid := k.uid, bytes := n, first, last }]
          if last && !k.nulled && k.mc.isNone && c.flag (Reg.STN_CTRL st) Bit.STN_CTRL_PACK_EN then
            c.fillCell st src q (room - n) fuel acc
          else (c, acc)

/-- A multicast packet with no target station is not staged: it is counted and is complete (R58). -/
def Chip.dropNoTarget (c : Chip) (st : Nat) : Chip :=
  (c.sw.pkts.filter (fun k => k.st == st && k.mc.isSome && k.fan.isEmpty && k.staged == 0 && k.whole)).foldl
    (fun c k => (c.dropPkt k.uid).ctrInc kStation st 57) c

/-- What a station has ingested ahead of its clock, in tenths of a cell (R76). DEDUCED (log 154): the manual gives rates of one
cell per station clock; TOWER_MATCH_CYCLE is one CT, in which a station at P0, P1 and P2 ingests 10, 8 and 6 tenths of a cell. -/
def Chip.ingestOf (c : Chip) (st : Nat) : Nat := SMap.get c.sw.ingest st 0

def Chip.ingested (c : Chip) (st : Nat) : Chip :=
  { c with sw := { c.sw with ingest := SMap.set c.sw.ingest st (c.ingestOf st + 10) 0 } }

/-- The operating point whose frequency a station runs at: a fall switches its multiplexer first, a rise last (R437). -/
def Chip.oppFreq (c : Chip) (st : Nat) : Nat :=
  match c.pwr.opp.find? (fun x => x.st == st && !x.rise) with
  | some x => x.target
  | none => c.fld (Reg.STN_ID st) Bit.STN_ID_OPP

/-- Tenths of a cell that a station ingests in one CT (R76). -/
def Chip.ingestRate (c : Chip) (st : Nat) : Nat := nth [10, 8, 6] (c.oppFreq st)

/-- A CT passes for a station's intake: 256, 204.8 or 153.6 GB/s at P0, P1, P2 (Table 16.2). -/
def Chip.ingestCt (c : Chip) (st : Nat) : Chip :=
  { c with sw := { c.sw with ingest := SMap.set c.sw.ingest st (c.ingestOf st - c.ingestRate st) 0 } }

/-- The packets of a cell that fails its check go no further; the Relay engine learns of its own (R38, R309). -/
def Chip.purgeSegs (c : Chip) (gs : List CellSeg) : Chip :=
  (gs.filterMap (fun g => c.pkt g.uid)).foldl (fun c k => (c.purgePkt k.uid).relayLost k) c

/-- One cell of a source goes to the queue that its packet takes, announced to the matcher (R45). A cell in which a nullified
packet ends has NULL = 1 (R40). -/
def Chip.stageFrom (c : Chip) (st src : Nat) (k : Pkt) : Chip :=
  let r := c.fillCell st src k.queue 128 5 []
  let c := r.1
  if r.2.isEmpty then c
  else
    let hdr := c.injected 2 (fun p => portStation p == st)
    let ok := r.2.all (fun g => match c.pkt g.uid with
      | some x => x.ihOk
      | none => false) && !hdr
    let c := if hdr then c.useInject else c
    if !ok then
      let c := (c.setBit (Reg.STN_STATUS st) Bit.STN_STATUS_CRC_FAIL)
      (c.purgeSegs r.2).hdrCrcFail st
    else
      let null := r.2.any (fun g => g.last && (match c.pkt g.uid with
        | some x => x.nulled
        | none => false))
      let cell : Cell := { st, src, null, mc := k.mc.isSome, segs := r.2 }
      let qc : QCell := { st, q := k.queue, mask := k.fan, cell }
      let c := { c with sw := { c.sw with announced := c.sw.announced ++ [qc], lastSrc := SMap.set c.sw.lastSrc st src 9 } }
      (c.ingested st).ctrInc kStation st 32

/-- Packets for a port of a station in reset go no further (R419). -/
def Chip.dropDown (c : Chip) (st : Nat) : Chip :=
  (c.sw.pkts.filter (fun k => k.st == st && k.mc.isNone && decide (k.egPort < 128) && k.staged == 0 && k.whole &&
    c.fldBit Reg.STN_RESET Bit.STN_RESET_BUSY (portStation k.egPort) && !c.needsCopy k)).foldl Chip.dropToward c

/-- PACKET_STAGED at a station: in the rotation of R24, the first source with a cell ready stages one cell, where the station's
clock lets it ingest another (R76). DESIGN CHOICE (log 185): R24 does not say where the rotation starts before a source was
served; here it is SRC_ID 0, and a station that has been reset starts so again. -/
def Chip.stage (c : Chip) (st : Nat) : Chip :=
  if st < 16 ∧ c.stSends st ∧ !c.bootFog ∧ c.ingestOf st < c.ingestRate st then
    let c := (c.dropNoTarget st).dropDown st
    let c := if c.stUp st then c.feedReplay st else c
    let from_ := SMap.get c.sw.lastSrc st 9 + 1
    let order := (List.range 10).map (fun i => (from_ + i) % 10)
    match order.findSome? (fun src => (c.nextOf st src).bind (fun k =>
        if k.fills 128 then some (src, k) else none)) with
    | some (src, k) => c.stageFrom st src k
    | none => c
  else c

/-- PACKET_STAGED. -/
def execPacketStaged (st : Nat) (s : State) : Host.Outcome State Fault Refusal :=
  .next { s with chip := s.chip.stage st }

/-! ## Custody copies (R205, R209 to R213) -/

/-- Every feed that is present is below its warning threshold: the store allocates no new copy (R463). -/
def Chip.feedsLow (c : Chip) : Bool := !c.pwr.present.isEmpty && c.pwr.present.all c.pwr.low.contains

/-- A copy is allocated with the ALT that its stream has now; where the packet was looked up with another, its egress port is
chosen again, so that it follows the stream's path (R33, R224). -/
def Chip.allocOn (c : Chip) (k : Pkt) (h : KHdr) : Chip :=
  let alt := c.altOf h.srcFa h.tc h.destFa
  if alt = h.alt then c.allocCopy k h
  else
    match c.lookBoth h.destFa h.srcFa h.tc alt with
    | .to q => c.allocCopy { k with egPort := q } h
    | .nowhere =>
      (((c.setBit Reg.KND_EVENT Bit.KND_EVENT_NO_ROUTE).stCtr k.inPort 52).log .noRoute [k.inPort] [h.destFa, h.srcFa]).allocCopy
        { k with egPort := 255 } h
    | .mismatch => c.misLook k.inPort

/-- The store gives the oldest packet of a source that may have one a copy, or holds guarded intake for want of room. -/
def Chip.allocNext (c : Chip) (st src : Nat) : Chip :=
  if c.feedsLow || !c.morRuns then c else
  let want := (c.sourceQueue st src).find? (fun k => c.needsCopy k && (match k.kh with
    | some h => c.streamReady h.srcFa h.tc h.destFa
    | none => false))
  match want with
  | none => c
  | some k =>
    let h := k.kh.getD {}
    let m := c.metaAccess h.srcFa h.tc h.destFa
    if !m.2 then m.1
    else if c.dieHasRoom k.granules then c.allocOn k h
    else c.holdIntake

/-- GUARDED_COPY_ALLOCATED. -/
def execGuardedCopyAllocated (st src : Nat) (s : State) : Host.Outcome State Fault Refusal :=
  .next { s with chip := s.chip.allocNext st src }

/-- The last cell of a FILLING copy is written, which its packet's last flit allows (R66, R67). A packet that no candidate
took leaves the pool: its copy stays (R178). -/
def Chip.copyFilled (c : Chip) (id : Nat) : Chip :=
  match c.copy id with
  | some k =>
    let whole := match c.pkt k.pkt.uid with
      | some x => x.whole
      | none => true
    if k.state == .filling && whole && c.morRuns then
      let c := match c.pkt k.pkt.uid with
        | some x => c.updCopy id (fun y => { y with pkt := { y.pkt with whole := true, ack := x.ack, rel := x.rel } })
        | none => c
      match c.copy id with
      | some k =>
        let c := c.copyComplete k
        match c.pkt k.pkt.uid with
        | some x => if x.egPort = 255 then c.dropPkt x.uid else c.updPkt x.uid (fun y => { y with ack := none, rel := none })
        | none => c
      | none => c
    else c
  | none => c

/-- COPY_HELD. -/
def execCopyHeld (id : Nat) (s : State) : Host.Outcome State Fault Refusal :=
  .next { s with chip := s.chip.copyFilled id }

/-- The oldest HELD copy has been moved to the overflow region (R211). -/
def Chip.spillOne (c : Chip) : Chip :=
  match c.mor.copies.find? (fun k => k.state == .held) with
  | some k =>
    if c.morRuns && c.flag Reg.MOR_STATUS Bit.MOR_STATUS_SPILLING && decide (c.ovfGran + k.gran ≤ c.ovfRoom) then
      ((c.updCopy k.id (fun k => { k with state := .spilled, ready := false })).ctrInc kMooring 0 1).updSpill
    else c
  | none => c

/-- SPILL_DONE. -/
def execSpillDone (s : State) : Host.Outcome State Fault Refusal := .next { s with chip := s.chip.spillOne }

/-- A spilled copy that a replay waits for has been read back (R213). -/
def Chip.readback (c : Chip) (id : Nat) : Chip :=
  match c.copy id with
  | some k =>
    if c.morRuns && k.state == .spilled && c.mor.streams.any (fun x => k.of x && k.epoch == x.epoch && x.replaying.contains k.n) then
      c.updCopy id (fun k => { k with ready := true })
    else c
  | none => c

/-- SPILLED_READBACK. -/
def execSpilledReadback (id : Nat) (s : State) : Host.Outcome State Fault Refusal :=
  .next { s with chip := s.chip.readback id }

end Sys2Proof.Machine
end

