-- ==== Sys2Proof/Machine/Tower.lean ====
section
/-!
DEFINITION. The Tower: the matcher with its two planes (R48 to R57), multicast turns (R59), and the arrival of cells in an
output buffer (R60 to R65, R68, R71).
-/
namespace Sys2Proof.Machine

/-! ## The matcher (R50 to R54) -/

/-- What the matcher of one plane has settled so far in a CT. -/
structure MatchSt where
  g : List Nat
  a : List Nat
  done : List Match := []
  inBusy : List Nat := []
  outBusy : List Nat := []
  deriving DecidableEq, Repr

/-- The first station at or after `from_`, counting upward mod 16, that satisfies `p`. -/
def firstFrom (from_ : Nat) (p : Nat → Bool) : Option Nat :=
  ((List.range 16).map (fun i => (from_ + i) % 16)).find? p

/-- One iteration of request, grant and accept (R52). `req i j` says that input i requests output j; `isMc i` that input i
takes a multicast turn, in which it accepts every grant and its accept pointer stands (R59). -/
def iterate (plane : Nat) (first : Bool) (req : Nat → Nat → Bool) (isMc : Nat → Bool) (m : MatchSt) : MatchSt :=
  let free := (List.range 16).filter (fun j => !m.outBusy.contains j)
  let grants := free.filterMap (fun j =>
    (firstFrom (nth m.g j) (fun i => !m.inBusy.contains i && req i j)).map (fun i => (i, j)))
  (List.range 16).foldl (fun m i =>
    let mine := (grants.filter (fun x => x.1 == i)).map (·.2)
    if mine.isEmpty then m
    else if isMc i then
      mine.foldl (fun m j =>
        { m with
          done := m.done ++ [{ plane, inp := i, out := j, mc := true }]
          outBusy := j :: m.outBusy
          g := if first then setNth m.g j ((i + 1) % 16) else m.g }) m
    else
      match firstFrom (nth m.a i) (fun j => mine.contains j) with
      | some j =>
        { done := m.done ++ [{ plane, inp := i, out := j, mc := false }]
          inBusy := i :: m.inBusy
          outBusy := j :: m.outBusy
          g := if first then setNth m.g j ((i + 1) % 16) else m.g
          a := if first then setNth m.a i ((j + 1) % 16) else m.a }
      | none => m) m

/-- The iterations of one plane in a CT. -/
def iterations (plane : Nat) (req : Nat → Nat → Bool) (isMc : Nat → Bool) : Nat → Bool → MatchSt → MatchSt
  | 0, _, m => m
  | k + 1, first, m => iterations plane req isMc k false (iterate plane first req isMc m)

/-- The cells of a queue, as it stands. -/
def Chip.voqCount (c : Chip) (i q : Nat) : Nat := (c.sw.voq.filter (fun x => x.st == i && x.q == q)).length
def Chip.annCount (c : Chip) (i q : Nat) : Nat := (c.sw.announced.filter (fun x => x.st == i && x.q == q)).length

/-- Take the head cell of a queue out of it. -/
def Chip.popVoq (c : Chip) (i q : Nat) : Option (QCell × Chip) :=
  (takeFirst (fun x => x.st == i && x.q == q) c.sw.voq).map (fun r => (r.1, { c with sw := { c.sw with voq := r.2 } }))

/-- Counters of the Tower (Table 19.1). -/
def cTwrUndone (j : Nat) : Nat := j
def cTwrMatch (plane : Nat) : Nat := 16 + plane
def cTwrMcTurns : Nat := 18
def cTwrHold : Nat := 19
def cTwrSlot (k : Nat) : Nat := 20 + k

/-- At the start of a CT a matched input sends a cell on its plane; with none there the grant is undone (R55, R56). -/
def Chip.sendMatch (c : Chip) (m : Match) : Chip :=
  let undone := (c.ctrInc kTower 0 (cTwrUndone m.out)).ctrInc kTower 0 (cTwrSlot 1)
  let moved := fun (c : Chip) (t : Transit) =>
    ({ c with sw := { c.sw with transit := c.sw.transit ++ [t] } }).ctrInc kTower 0 (cTwrSlot 0)
  if m.mc then
    match c.sw.voq.find? (fun x => x.st == m.inp && x.q == 16) with
    | some h =>
      if h.mask.contains m.out then
        let mask := h.mask.filter (· != m.out)
        match c.popVoq m.inp 16 with
        | some (_, c') =>
          let c := if mask.isEmpty then c'
            else { c' with sw := { c'.sw with voq := { h with mask } :: c'.sw.voq } }
          moved c { out := m.out, mc := true, cell := h.cell }
        | none => undone
      else undone
    | none => undone
  else
    match c.popVoq m.inp m.out with
    | some (x, c) => moved c { out := m.out, mc := false, cell := x.cell }
    | none => undone

/-- The cells announced in the last CT are written, but for those whose source crossing stalled (R45, R56). -/
def Chip.writeAnnounced (c : Chip) (stalled : List Nat) : Chip :=
  let go := c.sw.announced.filter (fun x => !stalled.contains x.st)
  let stay := c.sw.announced.filter (fun x => stalled.contains x.st)
  { c with sw := { c.sw with voq := c.sw.voq ++ go, announced := stay } }

/-- The matching of one CT for the next (R52), on predicted counts `pred i q`. DESIGN CHOICE (log 157): R59 says only that an
input with both kinds alternates its plane 0 turn; where it comes to hold both, unicast has the first turn, and the turn is
forgotten when one of them runs out. -/
def Chip.matchNext (c : Chip) (pred : Nat → Nat → Nat) : Chip :=
  let held := (List.range 16).filter (fun j => decide (c.obFree j < 64))
  let open_ := fun (j : Nat) => c.stUp j && !held.contains j
  let iter := max 1 (c.fld Reg.TWR_CTRL Bit.TWR_CTRL_ITER)
  let headMask := fun (i : Nat) => ((c.sw.voq.find? (fun x => x.st == i && x.q == 16)).map (·.mask)).getD []
  let hasMc := fun (i : Nat) => decide (0 < pred i 16) && !(headMask i).isEmpty
  let hasUni := fun (i : Nat) => (List.range 16).any (fun j => decide (0 < pred i j))
  let isMc := fun (i : Nat) => hasMc i && (!hasUni i || c.sw.mcTurn.contains i)
  let want0 := fun (i j : Nat) => c.stSends i && (if isMc i then (headMask i).contains j else decide (1 ≤ pred i j))
  let want1 := fun (i j : Nat) => c.stSends i && c.flag Reg.TWR_CTRL Bit.TWR_CTRL_PLANE1_EN && decide (2 ≤ pred i j)
  let m0 := iterations 0 (fun i j => want0 i j && open_ j) isMc iter true { g := c.sw.g0, a := c.sw.a0 }
  let m1 := iterations 1 (fun i j => want1 i j && open_ j) (fun _ => false) iter true { g := c.sw.g1, a := c.sw.a1 }
  let both := (List.range 16).filter (fun i => hasMc i && hasUni i)
  let turn := (List.range 16).filter (fun i => both.contains i && !isMc i)
  let c := { c with sw := { c.sw with
    matches_ := m0.done ++ m1.done, g0 := m0.g, a0 := m0.a, g1 := m1.g, a1 := m1.a, mcTurn := turn } }
  let c := c.setFld Reg.TWR_STATUS Bit.TWR_STATUS_OUT_HOLD ((held.map (fun j => 2 ^ j)).sum)
  let c := (c.ctrAdd kTower 0 cTwrHold held.length).ctrAdd kTower 0 cTwrMcTurns ((List.range 16).filter isMc).length
  let c := (c.ctrAdd kTower 0 (cTwrMatch 0) m0.done.length).ctrAdd kTower 0 (cTwrMatch 1) m1.done.length
  let idle := fun (want : Nat → Nat → Bool) (m : MatchSt) =>
    (List.range 16).filter (fun j => !m.outBusy.contains j && !held.contains j && !(List.range 16).any (fun i => want i j))
  let back := fun (want : Nat → Nat → Bool) (m : MatchSt) =>
    (List.range 16).filter (fun j => !m.outBusy.contains j && (held.contains j || (List.range 16).any (fun i => want i j)))
  let c := c.ctrAdd kTower 0 (cTwrSlot 2) ((idle want0 m0).length + (idle want1 m1).length)
  c.ctrAdd kTower 0 (cTwrSlot 3) ((back want0 m0).length + (back want1 m1).length)

/-- One CT of the Tower: matched inputs send, announced cells are written, and the next CT is matched on the predicted count
of each VOQ (R50): the cells there when the CT began, and those announced for writing in it, less those granted for it. A Tower that
is left on the IRO stands in reset, and its crossings hold their senders (R21, R434). -/
def Chip.towerCycle (c : Chip) (stalled : List Nat) : Chip :=
  if c.sw.g0.isEmpty || c.bootFog || !c.clocked 80 then c
  else
    let granted := fun (i q : Nat) => if q = 16 then 0 else (c.sw.matches_.filter (fun m => m.inp == i && m.out == q && !m.mc)).length
    let start := fun (i q : Nat) => c.voqCount i q + c.annCount i q
    let c' := (c.sw.matches_.foldl Chip.sendMatch { c with sw := { c.sw with matches_ := [] } }).writeAnnounced stalled
    let pred := fun (i q : Nat) => if q = 16 then c'.voqCount i 16 else start i q - granted i q
    c'.matchNext pred

/-- A CT in which the Relay engine stands at its ceiling of operations, or has no room in its read buffer (Table 19.1). -/
def Chip.relayCt (c : Chip) : Chip :=
  let c := if 16384 ≤ c.opsInFlight then c.ctrInc kRelay 0 19 else c
  if 262144 ≤ (c.rly.ops.map (·.units)).sum then c.ctrInc kRelay 0 20 else c

/-- A CT passes at every station's intake (R76). -/
def Chip.ingestCts (c : Chip) : Chip := (List.range 16).foldl Chip.ingestCt c

/-- TOWER_MATCH_CYCLE. -/
def execTowerMatchCycle (stalled : List Nat) (s : State) : Host.Outcome State Fault Refusal :=
  .next { s with chip := (s.chip.towerCycle stalled).relayCt.ingestCts }

/-! ## Arrival in an output buffer (R60, R61, R64, R68, R71) -/

/-- Marking threshold of a port in cells (R71). -/
def Chip.markAt (c : Chip) (p : Nat) : Nat :=
  let pct := c.tabF false (Reg.PORT_CFG (portStation p) (portLocal p)) Bit.PORT_CFG_MARK_PCT
  c.quota p * (if pct = 0 then 100 else pct) / 100

/-- The ports of a station that a packet is enqueued on: its egress port, or its multicast targets there (R60). -/
def Chip.targetsAt (c : Chip) (st : Nat) (k : Pkt) : List Nat :=
  match k.mc with
  | some i => (c.mcPorts i).filter (fun p => portStation p == st && !k.exclude.contains p)
  | none => if portStation k.egPort = st then [k.egPort] else []

/-- A cell is stored for a packet at a port: past STOP it goes into the reserve (R64). -/
def Chip.countReserve (c : Chip) (p : Nat) : Chip :=
  if c.stopped p then
    let st := portStation p
    (c.setBit (Reg.STN_STATUS st) Bit.STN_STATUS_RESERVE_USED).ctrInc kStation st 42
  else c

/-- Enqueue a packet on a port at the arrival of its first cell, marked when the port is deep (R61, R71). -/
def Chip.enqueue (c : Chip) (st p : Nat) (k : Pkt) : Chip :=
  let mark := c.flag (Reg.STN_CTRL st) Bit.STN_CTRL_MARK_EN && decide (c.markAt p < c.depth p)
  let e : ObEnt := { uid := k.uid, port := p, tc := k.tc, vsi := k.vsi, order := c.sw.nextOrder, marked := mark }
  let c := { c with sw := { c.sw with obq := c.sw.obq ++ [e], nextOrder := c.sw.nextOrder + 1 } }
  (if mark then c.ctrInc kStation st 38 else c).sndPoint k.uid 5

/-- A port that can send nothing treats what arrives for it as R98 or R166 treats what is queued. -/
def Chip.closedPort (c : Chip) (p : Nat) : Bool :=
  if c.isSpan p then c.spanState p != spUp && c.spanState p != spRecovery else !c.dlUp p

/-- A completion of a local request that reaches its requester's port after the link went down, or the VSI into reset, is
discarded as R95 says, and with it what it discharges. -/
def Chip.lateRequester (c : Chip) (p : Nat) (k : Pkt) : Bool :=
  k.otype == 2 && !c.isSpan p && k.kh.isNone && c.requesterDown p k.actVsi

def Chip.arrivedClosed (c : Chip) (p uid : Nat) : Chip :=
  match c.pkt uid with
  | some k =>
    if c.lateRequester p k then ((c.unqueue uid p).reqDiscard p k.tlp).dischargeOpt k.rel
    else if c.closedPort p then
      if k.otype = 1 then
        if c.isSpan p then c.spanDropNp p k else ((c.unqueue uid p).answerPkt p k (c.synth p)).stCtr p 47
      else c.discardQueued p k
    else c
  | none => c

/-- A packet whose last cell has NULL = 1: nullified on the wire when its transmission has begun, else never transmitted;
its cells are freed (R68). -/
def Chip.nullPacket (c : Chip) (p uid : Nat) : Chip :=
  match c.sw.obq.find? (fun e => e.uid == uid && e.port == p), c.pkt uid with
  | some e, some k =>
    let c :=
      if e.begun then
        if c.isSpan p then c.nullOut p uid
        else (c.emit (.tlp p k.tlp true)).ctrInc kPort p 12
      else c
    (((c.freeSink k).releaseCells uid p).sndEnd uid true).sweepPkt uid
  | _, _ => (c.releaseCells uid p).sweepPkt uid

/-- The bytes of one packet in an arrived cell. -/
def Chip.arriveSeg (c : Chip) (st : Nat) (cell : Cell) (g : CellSeg) : Chip :=
  match c.pkt g.uid with
  | none => c
  | some k =>
    let ports := if g.first then c.targetsAt st k
      else (c.sw.obq.filter (fun e => e.uid == g.uid && portStation e.port == st)).map (·.port)
    let c := if g.first then ports.foldl (fun c p => c.enqueue st p k) c else c
    let c := if g.first && ports.isEmpty && k.mc.isSome then c.ctrInc kStation st 57 else c
    let upd := fun (e : ObEnt) => { e with got := e.got + g.bytes, full := e.full || g.last, null := e.null || (g.last && cell.null) }
    let c := { c with sw := { c.sw with
      obq := mapIf (fun e => e.uid == g.uid && ports.contains e.port) upd c.sw.obq } }
    let c := c.sinkCell g.uid g.last
    let c := ports.foldl (fun c p =>
      if g.last && cell.null then c.nullPacket p g.uid
      else if g.last then c.arrivedClosed p g.uid
      else c) c
    ports.foldl (fun c p => ((c.updStop p).updNpStop p).syncPort p) c

/-- A reference count above 8 is a control error (R38, R60). One below zero cannot come about: the holders of a cell are listed,
and a port releases what it holds. -/
def refsOver (refs : List (Nat × Nat)) : Bool := refs.any (fun r => decide (8 < (refs.filter (fun x => x.1 == r.1)).length))

/-- A cell reaches its output buffer. Its tag and every internal header that starts in it are checked (R38); a cell with
no target is not stored (R60). -/
def Chip.arrive (c : Chip) (st : Nat) (tagOk : Bool) : Chip :=
  match takeFirst (fun t => t.out == st) c.sw.transit with
  | none => c
  | some (t, l) =>
    let c := { c with sw := { c.sw with transit := l } }
    let hdr := c.injected 2 (fun p => portStation p == st)
    let c := if hdr then c.useInject else c
    let heads := t.cell.segs.filter (·.first)
    let ok := tagOk && !hdr && heads.all (fun g => match c.pkt g.uid with
      | some k => k.ihOk
      | none => true)
    if !ok then
      let c := c.setBit (Reg.STN_STATUS st) Bit.STN_STATUS_CRC_FAIL
      (c.purgeSegs t.cell.segs).hdrCrcFail st
    else
      let refs := t.cell.segs.flatMap (fun g =>
        match c.pkt g.uid with
        | some k =>
          (if g.first then c.targetsAt st k
           else (c.sw.obq.filter (fun e => e.uid == g.uid && portStation e.port == st)).map (·.port)).map (fun p => (g.uid, p))
        | none => [])
      if refsOver refs then
        let c := c.setBit (Reg.STN_STATUS st) Bit.STN_STATUS_REFCNT_ERR
        (c.purgeSegs t.cell.segs).hdrCrcFail st
      else
      let x : ObCell := { st, segs := t.cell.segs, refs }
      let c := (refs.map (·.2)).dedup.foldl Chip.countReserve c
      let c := if refs.isEmpty then c else { c with sw := { c.sw with obCells := c.sw.obCells ++ [x] } }
      t.cell.segs.foldl (fun c g => c.arriveSeg st t.cell g) c

/-- CELL_ARRIVAL_OB. -/
def execCellArrivalOb (st : Nat) (tagOk : Bool) (s : State) : Host.Outcome State Fault Refusal :=
  .next { s with chip := s.chip.arrive st tagOk }

end Sys2Proof.Machine
end

