-- ==== Sys2Proof/Machine/Egress.lean ====
section
/-!
DEFINITION. The egress side of a station: the scheduler's choice (R311 to R317), transmission on PCIe and span ports (R60,
R69, R72, R73, R87, R171), and the Outstanding Request Table's entries for requests that leave (R85 to R88, R188, R191).
-/
namespace Sys2Proof.Machine

/-! ## Requester IDs (R87, Table 8.4) -/

/-- ORT_RID in force at a port (R87); before the first DL_Up it is the register's reset value. -/
def Chip.ridAt (c : Chip) (p : Nat) : Nat := SMap.get c.pci.ridInForce p (0xFF00 + p)

/-- The ID of a function of a VSI as its host numbers it: the vBridge's secondary bus, and the host device and function. -/
def Chip.hostId (c : Chip) (h : HostBind) : Nat := c.fld (Reg.VBR_STATE h.v h.vbr) Bit.VBR_STATE_SEC_BUS * 256 + h.devfn

/-- The requester ID that a request carries when it leaves through a PCIe port. -/
def Chip.outRid (c : Chip) (p : Nat) (k : Pkt) : Nat :=
  if !(c.port p).up then c.ridAt p
  else
    let v := (c.vsiOfPort p).getD 0
    let bind := c.vsi.hosts.find? (fun h => h.v == v && h.prid == k.tlp.rid &&
      (match k.kh with
       | some f => if c.faHere f.srcFa then h.local_ == some (faPort f.srcFa) else h.local_.isNone && h.targetFa == f.srcFa
       | none => h.local_ == some k.inPort))
    match bind with
    | some h => c.hostId h
    | none => k.tlp.rid

/-- The requester ID that R188 gives the requests that leave through a span port. -/
def Chip.fabRid (c : Chip) (p : Nat) : Nat := c.fld Reg.KND_FAB_RID Bit.KND_FAB_RID_BASE * 128 + p

/-- The requester of a packet is a function with a PEER binding at its port, whose requests keep its PRID in the frame (R250,
Table 8.4). -/
def Chip.isPeer (c : Chip) (k : Pkt) : Bool :=
  k.relay.isNone && c.vsi.peers.any (fun b => b.port == k.inPort && b.prid == k.tlp.rid)

/-- MAP_RID of a request that leaves through a port (R87, R188). DEDUCED (log 155): for a function with a PEER binding it is the
PRID, since R250 and R252 find the HOST binding of the frame by it. -/
def Chip.mapRid (c : Chip) (p : Nat) (k : Pkt) : Nat :=
  if c.isSpan p then (if c.isPeer k then k.tlp.rid else c.fabRid p) else c.outRid p k

/-! ## Transmission -/

/-- A congestion notice of a PCIe egress (R73). -/
def Chip.sendNotice (c : Chip) (p : Nat) (k : Pkt) : Chip :=
  let st := portStation p
  if !c.flag (Reg.STN_CTRL st) Bit.STN_CTRL_MARK_EN then c
  else
    let gap := (c.fld (Reg.NOTICE_CTRL st) Bit.NOTICE_CTRL_INTERVAL + 1) * 250
    let same := fun (e : Nat × Nat × Nat × Nat) => e.1 == k.noticeFa && e.2.1 == k.tc && e.2.2.1 == p
    if c.sw.noticeAt.any (fun e => same e && decide (c.now < e.2.2.2 + gap)) then c.ctrInc kStation st 40
    else
      let c := { c with sw := { c.sw with
        noticeAt := (k.noticeFa, k.tc, p, c.now) :: c.sw.noticeAt.filter (fun e => !same e) } }
      let c := c.ctrInc kStation st 39
      if c.faHere k.noticeFa then c.applyNotice (faPort k.noticeFa) k.tc (c.ownFa p)
      else c.sendSig st (.notice k.noticeFa k.tc (c.ownFa p) (min 255 (c.depth p * 100 / max 1 (c.quota p))))

/-- The header of a frame as it leaves on a span port (R171): HOPS, DESC, CONG. -/
def Chip.hopHdr (c : Chip) (p : Nat) (h : KHdr) (marked : Bool) : KHdr :=
  { h with hops := h.hops + 1, desc := h.desc || !(c.port p).facing, cong := h.cong || marked }

/-- A stream's frames last left through a port (Table at R219). -/
def Chip.setLastPort (c : Chip) (p : Nat) (k : Pkt) : Chip :=
  match k.kh with
  | some h =>
    if k.guarded && c.faHere h.srcFa then
      match c.stream h.srcFa h.tc h.destFa with
      | some x => c.putStream { x with lastPort := some p }
      | none => c
    else c
  | none => c

/-- A frame's transmission begins on a span port: the changed header fields and KH_CRC are written (R171, R172), and its delimiter
and its bytes, as they arrive, go into flits (Table 5.3). -/
def Chip.beginSpan (c : Chip) (p : Nat) (e : ObEnt) (k : Pkt) (uid : Option Nat) : Chip :=
  let h := c.hopHdr p (k.kh.getD {}) (k.marked || e.marked)
  let f : OutFrame := { uid, frame := Frame.seal { kh := h, tlp := k.tlp }, vc := vcOn (c.fld (Reg.SPAN_STATUS p) Bit.SPAN_STATUS_VC_USE) k.egVc
                        otype := k.otype, len := 16 + k.tlp.bytes }
  c.updSpan p (fun s => { s with out := s.out ++ [f] })

/-- A packet is handed in full to the link layer of a span port. -/
def Chip.handSpan (c : Chip) (p : Nat) (e : ObEnt) (k : Pkt) : Chip :=
  let c := if (c.span p).out.any (fun f => f.uid == some k.uid) then
      c.updSpan p (fun s => { s with out := mapIf (fun f => f.uid == some k.uid) (fun f => { f with uid := none }) s.out })
    else c.beginSpan p e k none
  c.setLastPort p k

/-- A packet is handed in full to the link layer of a PCIe port; a posted request takes its requester ID (R87). -/
def Chip.handPcie (c : Chip) (p : Nat) (e : ObEnt) (k : Pkt) : Chip :=
  let t := if k.otype = 0 then { k.tlp with rid := c.outRid p k } else k.tlp
  let cr := SMap.get c.sw.txCredit p []
  let cr := setNth (setNth cr (2 * k.otype) (nth cr (2 * k.otype) - t.creditH)) (2 * k.otype + 1)
    (nth cr (2 * k.otype + 1) - t.creditD)
  let u : Unacked := { port := p, uid := k.uid, rel := if k.otype = 1 then none else k.rel, otype := k.otype
                       srcVsi := (k.kh.map (·.srcVsi)).getD 0, addr := t.addr, bytes := t.bytes }
  let c := { c with
    sw := { c.sw with txCredit := SMap.set c.sw.txCredit p cr [] }
    pci := { c.pci with unacked := c.pci.unacked ++ [u] } }
  let c := ((c.emit (.tlp p t false)).ctrInc kPort p 1).ctrAdd kPort p 3 t.bytes
  if k.marked || e.marked || (k.kh.map (·.cong)).getD false then c.sendNotice p k else c

/-- A packet has been handed to the link layer: its cells are released at the port (R60), and a sounding ends (R503). -/
def Chip.transmit (c : Chip) (p : Nat) (e : ObEnt) (k : Pkt) : Chip :=
  let cells := (c.sw.obCells.filter (fun x => x.refs.any (fun r => r.1 == k.uid && r.2 == p))).length
  let c := (c.ctrAdd kStation (portStation p) 33 cells).sndPoint k.uid 7
  let c := if c.isSpan p then c.handSpan p e k else c.handPcie p e k
  let c := (c.sndPoint k.uid 8).sndEnd k.uid false
  (((c.releaseCells k.uid p).sweepPkt k.uid).updNpStop p).syncPort p

/-- A packet is in transmission at a port. -/
def Chip.busyPort (c : Chip) (p : Nat) : Bool := c.sw.obq.any (fun e => e.port == p && e.begun)

/-- PACKET_TRANSMITTED: the last cell of the packet in transmission is handed over (R313). -/
def Chip.transmitted (c : Chip) (p : Nat) : Chip :=
  match c.sw.obq.find? (fun e => e.port == p && e.begun) with
  | some e =>
    match c.pkt e.uid with
    | some k => if e.full && !e.null then c.transmit p e k else c
    | none => c
  | none => c

/-- PACKET_TRANSMITTED. -/
def execPacketTransmitted (p : Nat) (s : State) : Host.Outcome State Fault Refusal :=
  .next { s with chip := s.chip.transmitted p }

/-- The egress runs dry: the packet in transmission is nullified on the wire, keeps its cells, and will go out again whole
(R69). -/
def Chip.underrun (c : Chip) (p : Nat) : Chip :=
  match c.sw.obq.find? (fun e => e.port == p && e.begun) with
  | some e =>
    match c.pkt e.uid with
    | some k =>
      if e.full then c
      else
        let c := { c with sw := { c.sw with
          obq := mapIf (fun x => x.uid == e.uid && x.port == p) (fun x => { x with begun := false, underrun := true }) c.sw.obq } }
        let c := c.stCtr p 37
        if c.isSpan p then c.nullOut p e.uid
        else (c.emit (.tlp p k.tlp true)).ctrInc kPort p 12
    | none => c
  | none => c

/-- EGRESS_UNDERRUN. -/
def execEgressUnderrun (p : Nat) (s : State) : Host.Outcome State Fault Refusal :=
  .next { s with chip := s.chip.underrun p }

/-! ## The scheduler's choice -/

/-- A request takes an ORT entry where it leaves (R85): at a PCIe port always; at a span port when this module is its
ingress edge and it has no entry yet (R188, R224). -/
def Chip.needsEntry (c : Chip) (p : Nat) (k : Pkt) : Bool :=
  k.otype == 1 && (if c.isSpan p then k.mapped.isNone && (match k.kh with
    | some h => c.faHere h.srcFa
    | none => true) else true)

/-- SCHEDULER_CHOICE at a port (R311 to R317): the chosen packet is charged; a request that needs an entry joins the NP wait
list (R86), any other packet begins its transmission. -/
def Chip.choose (c : Chip) (p : Nat) : Chip :=
  if !c.portUp p || c.busyPort p then c
  else
    let c := c.syncPort p
    match c.classChoice p with
    | none => c
    | some k =>
      match c.classCand p k with
      | none => c
      | some x =>
        let c := (c.chargeChoice p k x).sndPoint x.1.uid 6
        let c :=
          if c.needsEntry p x.2 then
            ({ c with sw := { c.sw with npWait := c.sw.npWait ++ [(p, x.1.uid)] } }).updNpStop p
          else
            let begin_ := fun (e : ObEnt) => { e with begun := true }
            let c := if c.isSpan p then c.beginSpan p x.1 x.2 (some x.1.uid) else c
            { c with sw := { c.sw with obq := mapIf (fun e => e.uid == x.1.uid && e.port == p) begin_ c.sw.obq } }
        (c.tagsAfter p k x.1.vsi).syncPort p

/-- SCHEDULER_CHOICE. -/
def execSchedulerChoice (p : Nat) (s : State) : Host.Outcome State Fault Refusal :=
  .next { s with chip := s.chip.choose p }

/-! ## ORT entries (R86 to R88, R188, R191) -/

/-- The remapped tags of a port (R87). -/
def Chip.tagInPool (c : Chip) (p tag : Nat) : Bool :=
  if c.isSpan p || c.flag (Reg.PRT_STATUS p) Bit.PRT_STATUS_FLIT then decide (256 ≤ tag ∧ tag < 16384)
  else if c.flag (Reg.PRT_CTRL p) Bit.PRT_CTRL_TAG10 then decide (256 ≤ tag ∧ tag < 1024)
  else decide (tag < 256)

def Chip.tagFree (c : Chip) (p tag : Nat) : Bool :=
  c.tagInPool p tag && !c.pci.ort.any (fun e => e.port == p && e.mapTag == tag) &&
    !c.pci.quar.any (fun q => q.port == p && q.tag == tag)

/-- A requester ID that names no span port goes with a tag once on all of them: completion frames find its entry by the two
(`Chip.deliverCpl`). -/
def Chip.pairFree (c : Chip) (rid tag : Nat) : Bool :=
  !c.pci.ort.any (fun e => c.isSpan e.port && e.mapRid == rid && e.mapTag == tag) &&
    !c.pci.quar.any (fun q => c.isSpan q.port && q.rid == rid && q.tag == tag)

/-- Entries of a station's slice, and of a port. -/
def Chip.sliceEntries (c : Chip) (st : Nat) : Nat := (c.pci.ort.filter (fun e => portStation e.port == st)).length
def Chip.portEntries (c : Chip) (p : Nat) : Nat := (c.pci.ort.filter (fun e => e.port == p)).length

/-- Completions that have counted and still stand in the receive pool of a PCIe port: their credits leave the reservation when
they leave the pool (R88). -/
def Chip.cplsInPool (c : Chip) (p : Nat) : List Pkt :=
  c.sw.pkts.filter (fun k => k.otype == 2 && k.inPort == p && k.poolVc.isNone && !k.made && k.whole)

/-- Completion credits of a PCIe port are free for a reservation (R86, R88). -/
def Chip.creditRoom (c : Chip) (p : Nat) (r : Nat × Nat) : Bool :=
  let es := c.pci.ort.filter (fun e => e.port == p)
  let ks := c.cplsInPool p
  let adv := SMap.get c.pci.adv p []
  decide ((es.map (·.rsvH)).sum + (ks.map (·.poolH)).sum + r.1 ≤ nth adv 4 ∧
    (es.map (·.rsvD)).sum + (ks.map (·.poolD)).sum + r.2 ≤ nth adv 5)

/-- The requester's port of a request that goes to the fabric, where it reserves room for its completions (R191). -/
def Chip.sinkOf (c : Chip) (p : Nat) (k : Pkt) : Option Nat :=
  if c.isSpan p && k.relay.isNone then some k.inPort else none

/-- Everything that R86 asks for is at hand. -/
def Chip.entryOk (c : Chip) (p tag : Nat) (k : Pkt) : Bool :=
  decide (c.sliceEntries (portStation p) < 2048) &&
    decide (c.portEntries p < c.tabF false (Reg.ORT_LIMIT p) Bit.ORT_LIMIT_ENTRIES) && c.tagFree p tag &&
    (!c.isSpan p || !c.isPeer k || c.pairFree k.tlp.rid tag) && (c.isSpan p || c.creditRoom p (cplReserve (c.rcb p) k.tlp)) &&
    (match c.sinkOf p k with
     | some q => decide (c.depth q + c.sinkRsv q + sinkReserve k.tlp ≤ c.quota q)
     | none => true)

/-- A piece of a cut read whose request has ended (R187). -/
def Chip.pieceOver (c : Chip) (k : Pkt) : Bool :=
  match k.piece with
  | some (id, n) =>
    (match c.cut id with
     | some x => decide (x.pieces ≤ n)
     | none => true)
  | none => false

/-- Make the entry of a request, with its tag and reservations, and give the request its remapped ID and tag. DESIGN CHOICE (log
158): the manual does not say what a write to CTO_CFG does to an entry that runs; its timer starts here with the value then in
force. All packets of its custody copy take the same ID and tag (R224). The entry of a piece whose request has ended is over at
once, its tag in quarantine (R187). -/
def Chip.makeEntry (c : Chip) (p tag : Nat) (k : Pkt) : Chip × Pkt :=
  let rid := c.mapRid p k
  let r := if c.isSpan p then (0, 0) else cplReserve (c.rcb p) k.tlp
  let sink := c.sinkOf p k
  let e : OrtEnt := { port := p, mapRid := rid, mapTag := tag, origRid := k.tlp.rid, origTag := k.tlp.tag, dest := k.tlp.dest
                      destFa := k.kh.map (·.destFa), ret := c.retOf k
                      vsi := k.actVsi, addr := k.tlp.addr, remain := k.tlp.startRemain, tc := k.tc, attr := k.tlp.attr
                      kind := k.tlp.kind, tIssue := c.watchTime, rsvH := r.1, rsvD := r.2, tee := k.tlp.tee
                      zero := k.tlp.isZeroRead, copy := k.copy, piece := k.piece, relay := k.relay, sinkPort := sink
                      sinkCells := if sink.isSome then sinkReserve k.tlp else 0, rel := k.rel, hostId := k.hostId }
  let k' := { k with tlp := { k.tlp with rid, tag }, mapped := some (rid, tag) }
  let c := { c with pci := { c.pci with ort := c.pci.ort ++ [e] } }
  let c := match sink with
    | some q => (c.setSink q (c.sinkRsv q + sinkReserve k.tlp)).updStop q
    | none => c
  let c := match k.copy with
    | some id =>
      let map := fun (y : Pkt) => { y with tlp := k'.tlp, mapped := k'.mapped }
      (c.updCopy id (fun y => { y with entry := true, pkt := map y.pkt })).setPkts (mapIf (fun y => y.copy == some id) map c.sw.pkts)
    | none => c
  let c := ((c.arm (.cto p tag) (c.cto p)).stCtr p 45).updPkt k.uid (fun _ => k')
  (if c.pieceOver k then (c.endEntry e).quarantine e else c, k')

/-- ORT_ENTRY_ALLOCATE at a port, with the free tag that the port's pool gives: the head of the NP wait list gets its entry
and is transmitted (R86); a request that another packet of its copy has mapped meanwhile takes none (R224). -/
def Chip.allocEntry (c : Chip) (p tag : Nat) : Chip :=
  match c.sw.npWait.find? (fun w => w.1 == p) with
  | none => c
  | some w =>
    match c.sw.obq.find? (fun e => e.uid == w.2 && e.port == p), c.pkt w.2 with
    | some e, some k =>
      let held := c.inPortFog p || c.closedPort p ||
        (if c.isSpan p then c.spanState p != spUp || c.vcStopped p k || c.flag (Reg.SPAN_STATUS p) Bit.SPAN_STATUS_REPLAY_FULL
         else c.noCredit p k)
      if !c.portUp p || c.busyPort p || held || !e.full || e.null then c
      else if !c.needsEntry p k then c.transmit p e k
      else if !c.entryOk p tag k then c
      else
        let r := c.makeEntry p tag k
        r.1.transmit p e r.2
    | _, _ => c

/-- ORT_ENTRY_ALLOCATE. -/
def execOrtEntryAllocate (p tag : Nat) (s : State) : Host.Outcome State Fault Refusal :=
  .next { s with chip := s.chip.allocEntry p tag }

end Sys2Proof.Machine
end

