-- ==== Sys2Proof/Machine/SpanLink.lean ====
section
/-!
DEFINITION. The link layer of a span port: flits in both directions (R127 to R148), echoes and headroom (R149, R150, R157),
KINIT (R163), Recovery (R164) and the link timers (Table 5.12).
-/
namespace Sys2Proof.Machine

/-! ## Quotas and headroom (R146, R149, R150) -/

/-- RTT_FC in force. -/
def Chip.rttFc (c : Chip) (p : Nat) : Nat := c.fld (Reg.RTT_MEAS p) Bit.RTT_MEAS_RTT_FC

/-- The headroom for a given RTT_FC (R149). -/
def Chip.headroom (c : Chip) (p rtt : Nat) : Nat := ceilDiv (rtt * c.rate256 p) 256 + 4212

def Chip.vcBuf (c : Chip) (p v : Nat) : Nat := 16 * c.tabF false (Reg.VC_BUF p v) Bit.VC_BUF_UNITS
def Chip.vcQn (c : Chip) (p v : Nat) : Nat := 16 * c.tabF false (Reg.VC_SUBQ p v) Bit.VC_SUBQ_QN
def Chip.vcQc (c : Chip) (p v : Nat) : Nat := 16 * c.tabF false (Reg.VC_SUBQ p v) Bit.VC_SUBQ_QC

/-- Every VC in use keeps Q_P of at least 4,212 bytes under headroom `h` (R150). -/
def headroomOk (use h : Nat) (bufs qns qcs : List Nat) : Bool :=
  (bitsSet use 8).all (fun v => decide (4212 + nth qns v + nth qcs v + 2 * h ≤ nth bufs v))

/-! ## Flow-control maps (R147) -/

/-- h(Q). -/
def hyst (q : Nat) : Nat := min 8192 (q / 2)

/-- One map bit, set at the quota and cleared at the quota less its hysteresis. -/
def mapBit (was : Bool) (os qs : List Nat) : Bool :=
  if (List.range os.length).any (fun i => decide (nth qs i ≤ nth os i)) then true
  else if (List.range os.length).all (fun i => decide (nth os i ≤ nth qs i - hyst (nth qs i))) then false
  else was

/-- The maps that this receiver sends follow its occupancies (R147). -/
def Chip.updMaps (c : Chip) (p : Nat) : Chip :=
  let s := c.span p
  if s.qP.isEmpty then c
  else
    let x := c.fld (Reg.FC_STATE p) Bit.FC_STATE_XOFF_TX
    let n := c.fld (Reg.FC_STATE p) Bit.FC_STATE_NPX_TX
    let xs := (List.range 8).map (fun v =>
      b2n (mapBit (bitOf x v) [nth s.occ (3 * v), nth s.occ (3 * v + 1)] [nth s.qP v, nth s.qC v]) * 2 ^ v)
    let ns := (List.range 8).map (fun v => b2n (mapBit (bitOf n v) [nth s.occ (3 * v + 2)] [nth s.qN v]) * 2 ^ v)
    (c.setFld (Reg.FC_STATE p) Bit.FC_STATE_XOFF_TX xs.sum).setFld (Reg.FC_STATE p) Bit.FC_STATE_NPX_TX ns.sum

/-! ## KINIT (R163) -/

/-- The conditions on INIT flits and ECHO replies hold. -/
def Span.initDone (s : Span) : Bool := decide (8 ≤ s.initGood ∧ 8 ≤ s.initSent ∧ 8 ≤ s.echoGot)

/-- REVERT_HOLD in ns (R175). -/
def Chip.revertNs (c : Chip) : Nat := c.fld Reg.KND_CTRL Bit.KND_CTRL_REVERT_HOLD * 100 * us

/-- The headroom of a port fails its check (R150): the event, and its log record (R169). -/
def Chip.headroomFails (c : Chip) (p : Nat) : Chip :=
  (c.setBit (Reg.SPAN_EVENT p) Bit.SPAN_EVENT_HEADROOM_FAIL).log .headroomFail [p]

/-- The end of KINIT: the quotas and the headroom are computed from what was in force when it began (R145, R152), and the port
enters UP, or goes to HELD where the headroom fails (R150, R163). -/
def Chip.tryUp (c : Chip) (p : Nat) : Chip :=
  let s := c.span p
  if c.spanState p ≠ spKinit ∨ !s.initDone then c
  else
    let use := s.ownVcEn &&& s.peerVcEn
    let h := c.headroom p (c.rttFc p)
    let c := (c.setFld (Reg.SPAN_STATUS p) Bit.SPAN_STATUS_VC_USE use).setFld (Reg.HEADROOM p) Bit.HEADROOM_BYTES h
    if headroomOk use h s.kBuf s.kQn s.kQc then
      let qP := (List.range 8).map (fun v => nth s.kBuf v - nth s.kQn v - nth s.kQc v - 2 * h)
      let c := c.putSpan { port := p, occ := s.occ, qP, qN := s.kQn, qC := s.kQc, head := h, echoes := s.echoes
                           echoReplies := s.echoReplies, fcSel := s.fcSel, nakPend := s.nakPend, peerVcEn := s.peerVcEn
                           sigPart := s.sigPart, lostTail := s.lostTail
                           ownVcEn := s.ownVcEn, kBuf := s.kBuf, kQn := s.kQn, kQc := s.kQc, upSince := c.now }
      let c := (c.setFld (Reg.FC_STATE p) Bit.FC_STATE_XOFF_RX 0xFF).setFld (Reg.FC_STATE p) Bit.FC_STATE_NPX_RX 0xFF
      let c := (((c.setSpanState p spUp).disarm (.kinit p)).arm (.stale p) (64 * c.tFlit p)).arm (.echoReq p) ms
      ((c.arm (.revert p) c.revertNs).updMaps p).log .linkUp [p]
    else (((c.headroomFails p).disarm (.kinit p)).disarm (.echoReq p)).holdSpan p holdHeadroom

/-- A span port that reaches L0 enters KINIT (Table 5.9). VC_EN, and the VC_BUF and VC_SUBQ in force, act in this KINIT as they
stand now (R145, R152). -/
def Chip.startKinit (c : Chip) (p : Nat) : Chip :=
  let vs := List.range 8
  let c := (c.setSpanState p spKinit).putSpan {
    port := p, occ := (c.span p).occ, echoReq := true, ownVcEn := c.fld (Reg.SPAN_CTRL p) Bit.SPAN_CTRL_VC_EN
    kBuf := vs.map (c.vcBuf p), kQn := vs.map (c.vcQn p), kQc := vs.map (c.vcQc p) }
  (c.arm (.kinit p) ms).arm (.echoReq p) (2 * us)

/-! ## Echoes (R157) -/

/-- An ECHO reply has arrived.  DESIGN CHOICE (log 192): RTT_MEAS and RTT_FC stop at what their 16-bit fields hold. -/
def Chip.echoIn (c : Chip) (p tSend residence : Nat) : Chip :=
  let v := modSub (2 ^ 32) c.watchTime (tSend + residence)
  let es := (v :: (c.span p).echoes).take 8
  let c := c.updSpan p (fun s => { s with echoes := es, echoGot := s.echoGot + 1 })
  let rtt := min 65535 (es.foldl max 0)
  let fc := min 65535 (rtt + 4 * c.tFlit p)
  let c := (c.setFld (Reg.RTT_MEAS p) Bit.RTT_MEAS_RTT rtt).setFld (Reg.RTT_MEAS p) Bit.RTT_MEAS_RTT_FC fc
  if c.spanState p = spUp then
    let vs := List.range 8
    let s := c.span p
    if headroomOk (c.fld (Reg.SPAN_STATUS p) Bit.SPAN_STATUS_VC_USE) (c.headroom p fc)
        (vs.map (fun v => nth s.qP v + nth s.qN v + nth s.qC v + 2 * s.head)) s.qN s.qC then c
    else (c.headroomFails p).fullLinkReset p
  else c.tryUp p

/-! ## Signal slots received (R155, R156, R158) -/

/-- A whole message has been received; it waits to be routed. -/
def Chip.sigIn (c : Chip) (p : Nat) (m : SigMsg) : Chip := { c with knd := { c.knd with sigRx := c.knd.sigRx ++ [(p, m)] } }

/-- The bytes of the MGMT_DATA slots held. -/
def mgmtBytes (l : List Slot) : List Nat := l.flatMap (fun s => match s with
  | .mgmtData _ b => b
  | _ => [])

/-- A slot is of the message whose loss is counted already. -/
def ofLost : Option Slot → Slot → Bool
  | some (.farErr0 d t _ _ _ ser), .farErr1 d' t' _ ser' => d == d' && t == t' && ser == ser'
  | some (.mgmtHead ..), .mgmtData .. => true
  | some (.mgmtData sub _), .mgmtData sub' _ => decide (sub < sub')
  | _, _ => false

/-- A slot that continues no message held: its message is incomplete, and is counted once (R158). -/
def Chip.orphanSlot (c : Chip) (p : Nat) (s : Slot) : Chip :=
  let lost := c.updSpan p (fun x => { x with lostTail := some s })
  if ofLost (c.span p).lostTail s then lost
  else (lost.ctrInc kPort p cSigDrop).setBit (Reg.SPAN_EVENT p) Bit.SPAN_EVENT_SIG_DROP

/-- The first slot of a message of several. -/
def Chip.firstSlot (c : Chip) (p : Nat) (s : Slot) : Chip := c.updSpan p (fun x => { x with sigPart := [s], lostTail := none })

/-- One signal slot of a good flit. -/
def Chip.slotIn (c : Chip) (p : Nat) (s : Slot) : Chip :=
  match s, (c.span p).sigPart with
  | .farErr1 d t o ser, [.farErr0 d' t' st a v ser'] =>
    if d = d' ∧ t = t' ∧ ser = ser' then (c.updSpan p (fun x => { x with sigPart := [] })).sigIn p (.farErr d t st a v ser o)
    else (c.dropPart p).orphanSlot p s
  | .mgmtData sub b, .mgmtHead d o len id :: rest =>
    if sub = rest.length then
      if rest.length + 1 = ceilDiv len 15 then
        (c.updSpan p (fun x => { x with sigPart := [] })).sigIn p (.mgmt d o id ((mgmtBytes rest ++ b).take len))
      else c.updSpan p (fun x => { x with sigPart := x.sigPart ++ [.mgmtData sub b] })
    else (c.dropPart p).orphanSlot p s
  | s, _ =>
    let c := c.dropPart p
    match s with
    | .null => c
    | .castOff d t o e n r => c.sigIn p (.castOff d t o e n r)
    | .notice d t o q => c.sigIn p (.notice d t o q)
    | .refuse d t o e n k => c.sigIn p (.refuse d t o e n k)
    | .farErr0 .. => c.firstSlot p s
    | .mgmtHead .. => c.firstSlot p s
    | .farErr1 .. => c.orphanSlot p s
    | .mgmtData .. => c.orphanSlot p s
    | .echo false t _ => c.updSpan p (fun x => { x with echoReplies := x.echoReplies ++ [(t, c.watchTime)] })
    | .echo true t r => c.echoIn p t r
    | .reserved _ => c.ctrInc kPort p cSigBadType

/-! ## Replay (R141 to R144) -/

/-- REPLAY_TMO in ns (Table 5.18). -/
def Chip.replayTmo (c : Chip) (p : Nat) : Nat :=
  let t := c.fld (Reg.REPLAY_CFG p) Bit.REPLAY_CFG_TMO
  if t = 0 then 2 * c.rttFc p + 512 else t * 64

/-- The flits a port may keep unacknowledged (R137). -/
def Chip.replayShare (c : Chip) (p : Nat) : Nat := 2048 * widthLanes (c.port p).width / 16

def Chip.updReplayFull (c : Chip) (p : Nat) : Chip :=
  c.setFld (Reg.SPAN_STATUS p) Bit.SPAN_STATUS_REPLAY_FULL (b2n (decide (c.replayShare p ≤ (c.span p).replay.length)))

/-- A replay from the oldest unacknowledged flit is called for; once as many as the limit have been sent from it the link resets
instead (R144). What a NAK called for keeps its time when the replay timer calls again (R141). -/
def Chip.callReplay (c : Chip) (p ctrIdx : Nat) (nak : Option Nat) : Chip :=
  let s := c.span p
  let first := (s.lastAck + 1) % 65536
  let count := if s.replayFrom = first then s.replayCount else 0
  if s.replay.isEmpty then c
  else if c.fld (Reg.REPLAY_CFG p) Bit.REPLAY_CFG_NUM_LIMIT ≤ count then c.spanError p Bit.SPAN_EVENT_REPLAY_ROLLOVER
  else
    let c := c.updSpan p (fun s => { s with
      resend := s.replay.map (·.seq), replayFrom := first, replayCount := count, replayNew := true
      nakAt := match nak with
        | some n => some (n, c.now)
        | none => s.nakAt })
    (c.ctrInc kPort p ctrIdx).arm (.replay p) (c.replayTmo p)

/-- ACK_SEQ and NAK of a good flit (R141). -/
def Chip.ackIn (c : Chip) (p n : Nat) (nak : Bool) : Chip :=
  let s := c.span p
  let newest := modSub 65536 s.txSeq 1
  let d := modSub 65536 n s.lastAck
  if ahead16 n newest then
    (c.ctrInc kPort p cFramingErrs).spanError p Bit.SPAN_EVENT_FRAMING_ERR
  else
    let c :=
      if ahead16 n s.lastAck then
        let kept := s.replay.filter (fun f => decide (d < modSub 65536 f.seq s.lastAck))
        let c := c.updSpan p (fun x => { x with
          lastAck := n, replay := kept, replayCount := 0, replayNew := x.replayNew && !kept.isEmpty, resend := x.resend.filter (fun q => kept.any (fun f => f.seq == q)) })
        let c := if kept.isEmpty then c.disarm (.replay p) else c.arm (.replay p) (c.replayTmo p)
        c.updReplayFull p
      else c
    let s := c.span p
    if nak && s.lastAck == n then
      match s.nakAt with
      | some (m, t) => if m = n ∧ c.now < t + c.rttFc p then c else c.callReplay p cNakRcvd (some n)
      | none => c.callReplay p cNakRcvd (some n)
    else c

/-! ## Flits received (R134, R138, R139, R151) -/

def Chip.enterNak (c : Chip) (p : Nat) : Chip :=
  if (c.span p).nakPend then c else (c.updSpan p (fun s => { s with nakPend := true })).ctrInc kPort p cNakSent

/-- A framing error (R134). -/
def Chip.framingErr (c : Chip) (p : Nat) : Chip :=
  ((c.cutShort p).ctrInc kPort p cFramingErrs).spanError p Bit.SPAN_EVENT_FRAMING_ERR

/-- Room of a buffer part (R146, R151). -/
def Span.partRoom (s : Span) (vc part : Nat) : Bool :=
  if part = 2 then decide (nth s.occ (3 * vc + 2) ≤ nth s.qN vc + s.head)
  else decide (nth s.occ (3 * vc) + nth s.occ (3 * vc + 1) ≤ nth s.qP vc + nth s.qC vc + s.head)

/-- Bytes of a frame go into their buffer part, and the frame is whole when LEN bytes are complete (R133); `put` records what has
arrived. Without room the frame, its last bytes too, is discarded and the link resets (R151). -/
def Chip.takeBytes (c : Chip) (r : Rx) (n : Nat) (put : Rx → Chip → Chip) : Chip :=
  let part := vcPart r.tlp.otype
  let r' := { r with got := r.got + n, whole := decide (r.got + n = r.len) }
  if r.dead then put r' c
  else
    let c := c.addOcc r.port r.vc part n
    if (c.span r.port).partRoom r.vc part then put r' c
    else ((put { r' with whole := false } c).cutShort r.port).spanError r.port Bit.SPAN_EVENT_FC_ERR

/-! ## The order check (R214, R218, R219) -/

/-- The least recently used reclaimable context. -/
def Chip.lruCtx (c : Chip) : Option ECtx :=
  (c.mor.ctxs.filter (·.reclaimable c.now)).foldl (fun a x => match a with
    | none => some x
    | some y => if x.lastArr < y.lastArr then some x else some y) none

/-- A context is free or reclaimable (R219). -/
def Chip.ctxRoom (c : Chip) : Bool := decide (c.mor.ctxs.length < 65536) || c.lruCtx.isSome

/-- Close the least recently used reclaimable context when none is free. -/
def Chip.makeCtxRoom (c : Chip) : Chip :=
  if c.mor.ctxs.length < 65536 then c
  else match c.lruCtx with
    | some x => c.dropEctx x.srcFa x.tc x.port
    | none => c

def ctxAgeNs : Nat := 100 * ms

/-- A frame of a stream has arrived: its context is in use (R219). -/
def Chip.touchCtx (c : Chip) (x : ECtx) : Chip :=
  (c.putEctx { x with lastArr := c.now }).arm (.ctxAge x.srcFa x.tc x.port) ctxAgeNs

/-- A RESEND: a CAST_OFF slot with RESEND = 1 (R218). -/
def Chip.resendMsg (c : Chip) (srcFa tc port epoch n : Nat) : Chip :=
  c.sendSig (portStation port) (.castOff srcFa tc (c.ownFa port) epoch n true)

/-- A RESEND of a stream that has a context, at most one per RESEND_HOLD. -/
def Chip.resendCtx (c : Chip) (x : ECtx) (epoch n : Nat) : Chip :=
  match x.resendAt with
  | some t =>
    if c.now < t + resendHoldNs then c
    else (c.putEctx { x with resendAt := some c.now }).resendMsg x.srcFa x.tc x.port epoch n
  | none => (c.putEctx { x with resendAt := some c.now }).resendMsg x.srcFa x.tc x.port epoch n

/-- A RESEND of a stream without a context, limited by the table of 64 recent orphans. -/
def Chip.resendOrphan (c : Chip) (srcFa tc port epoch : Nat) : Chip :=
  let live := c.mor.orphans.filter (fun o => decide (c.now < o.2.2.2))
  let c := { c with mor := { c.mor with orphans := live } }
  if live.any (fun o => o.1 == srcFa && o.2.1 == tc && o.2.2.1 == port) ∨ 64 ≤ live.length then c
  else
    ({ c with mor := { c.mor with orphans := (srcFa, tc, port, c.now + resendHoldNs) :: live } }).resendMsg
      srcFa tc port epoch 0xFFFF

/-- When a stream without a context last had a RESEND sent, while the table of orphans holds it (R218). -/
def Chip.orphanAt (c : Chip) (srcFa tc port : Nat) : Option Nat :=
  (c.mor.orphans.find? (fun o => o.1 == srcFa && o.2.1 == tc && o.2.2.1 == port)).map (fun o => o.2.2.2 - resendHoldNs)

/-- Release the frame at E (DELIVER): E advances, and the frame is to be discharged. -/
def Chip.releaseFrame (c : Chip) (x : ECtx) : Chip × Option Rel :=
  let r : Rel := { srcFa := x.srcFa, tc := x.tc, port := x.port, epoch := x.epoch, n := x.e }
  (c.touchCtx { x with e := (x.e + 1) % 65536, pend := x.pend ++ [x.e] }, some r)

/-- The verdict of Table 7.4 on a guarded frame for local port `d`; a frame that is not released goes no further. -/
def Chip.orderVerdict (c : Chip) (d : Nat) (h : KHdr) : Chip × Option Rel :=
  if c.mor.bootHold then (c.ctrInc kMooring 0 12, none)
  else
    match c.ectx h.srcFa h.tc d with
    | some x =>
      if h.epoch = x.epoch then
        if h.n = x.e then c.releaseFrame x
        else if behind16 h.n x.e then
          let c := (c.ctrInc kMooring 0 10).touchCtx x
          match c.ectx h.srcFa h.tc d with
          | some x => (c.castDue x, none)
          | none => (c, none)
        else
          let c := (c.ctrInc kMooring 0 11).touchCtx x
          (c.resendCtx { x with lastArr := c.now } x.epoch (modSub 65536 x.e 1), none)
      else if epochNewer h.epoch x.epoch then
        if h.n = 0 then c.releaseFrame { srcFa := h.srcFa, tc := h.tc, port := d, epoch := h.epoch, e := 0, castAt := x.castAt, resendAt := x.resendAt }
        else
          let c := (c.ctrInc kMooring 0 12).touchCtx x
          (c.resendCtx { x with lastArr := c.now } h.epoch 0xFFFF, none)
      else ((c.ctrInc kMooring 0 13).touchCtx x, none)
    | none =>
      if c.ctxRoom then
        if h.n = 0 then
          (c.makeCtxRoom).releaseFrame
            { srcFa := h.srcFa, tc := h.tc, port := d, epoch := h.epoch, e := 0, resendAt := c.orphanAt h.srcFa h.tc d }
        else ((c.makeCtxRoom.ctrInc kMooring 0 12).resendOrphan h.srcFa h.tc d h.epoch, none)
      else if h.n = 0 then
        (((c.setBit Reg.MOR_EVENT Bit.MOR_EVENT_REFUSE_SENT).ctrInc kMooring 0 14).sendSig (portStation d) (.refuse h.srcFa h.tc (c.ownFa d) h.epoch 0 1), none)
      else (c, none)

/-- The order check: the context is read, with what an error of its code does (R359, R365), and the frame judged. -/
def Chip.orderCheck (c : Chip) (d : Nat) (h : KHdr) : Chip × Option Rel :=
  (if c.mor.bootHold then c else c.ctxAccess h.srcFa h.tc d).orderVerdict d h

/-- The order check would release a guarded frame for local port `d` now. -/
def Chip.isNext (c : Chip) (d : Nat) (h : KHdr) : Bool :=
  !c.mor.bootHold && c.morRuns && (match c.ectx h.srcFa h.tc d with
    | some x => if h.epoch = x.epoch then h.n == x.e else epochNewer h.epoch x.epoch && h.n == 0
    | none => c.ctxRoom && h.n == 0)

/-! ## Frames for this module that are cut through (R66, R199) -/

/-- The span port whose entry a completion frame is for: that which its requester ID names (R189); a requester ID that names none
may be the PRID of a function with a PEER binding, whose requests keep it (R250, Table 8.4). DEDUCED (log 155): R189 does not
speak of those; their entry, or its quarantine, is found by requester ID and tag. -/
def Chip.cplPort (c : Chip) (t : Tlp) : Option Nat :=
  let base := c.fld Reg.KND_FAB_RID Bit.KND_FAB_RID_BASE * 128
  let q := t.rid - base
  if base ≤ t.rid ∧ q < 128 then (if c.isSpan q then some q else none)
  else
    match c.pci.ort.find? (fun e => c.isSpan e.port && e.mapRid == t.rid && e.mapTag == t.tag) with
    | some e => some e.port
    | none => (c.pci.quar.find? (fun x => c.isSpan x.port && x.rid == t.rid && x.tag == t.tag)).map (·.port)

/-- A frame for this module that was cut through has passed its last check: a guarded one meets the order check, a completion
counts. One that is not released, or whose entry has ended meanwhile, closes with NULL = 1. -/
def Chip.frameWhole (c : Chip) (r : Rx) (f : Frame) : Chip :=
  if !c.faHere f.kh.destFa || f.kh.mc || r.uids.isEmpty || (!f.kh.guarded && f.tlp.otype != 2) then c
  else
    let o := if !f.kh.guarded then (c, none) else if c.morRuns then c.orderCheck (faPort f.kh.destFa) f.kh else (c, none)
    if f.kh.guarded && o.2.isNone then r.uids.foldl Chip.nullifyIn o.1
    else
      let mark := fun (k : Pkt) => { k with rel := if f.kh.guarded then o.2 else k.rel }
      let c := o.1.setPkts (mapIf (fun k => r.uids.contains k.uid) mark o.1.sw.pkts)
      if f.tlp.otype = 2 then (c.cutCounts ((c.cplPort f.tlp).getD r.port) f.tlp r.uids o.2).settleDue else c

/-- One share of a DATA flit's payload: bytes of one frame, with its delimiter where it starts, or the padding that a START of 0
opens (R133, R134). -/
def Chip.frameSeg (c : Chip) (p : Nat) (g : FrameSeg) : Chip :=
  if c.spanState p ≠ spUp then c
  else
    match g.start with
    | some f =>
      if f.start = 0 then c
      else if f.start ≠ 0x5A ∨ f.otype = 3 ∨ f.len < 16 ∨ 4208 < f.len ∨
          !c.fldBit (Reg.SPAN_STATUS p) Bit.SPAN_STATUS_VC_USE f.vc then c.framingErr p
      else
        let r : Rx := { port := p, tlp := f.frame.tlp, frame := some f.frame, vc := f.vc, len := f.len, t0 := c.now }
        c.takeBytes r (min g.bytes f.len) (fun r c => { c with sw := { c.sw with rx := c.sw.rx ++ [r] } })
    | none =>
      match c.sw.rx.find? (fun r => r.port == p && r.frame.isSome && !r.whole) with
      | none => c
      | some r =>
        let part := fun (x : Rx) => x.port == p && x.frame.isSome && !x.whole
        c.takeBytes r (min g.bytes (r.len - r.got)) (fun r' c =>
          let l := if r'.whole && r.looked then c.sw.rx.filter (fun x => !part x) else mapIf part (fun _ => r') c.sw.rx
          let grown := fun (k : Pkt) => { k with got := r'.got - 16, whole := r'.whole }
          let c := ({ c with sw := { c.sw with rx := l } }).setPkts (mapIf (fun k => r.uids.contains k.uid) grown c.sw.pkts)
          if r'.whole && r.looked && !r.dead then c.frameWhole r (r.frame.getD {}) else c)

/-- A DATA flit by its FLIT_SEQ (R138). -/
def Chip.dataIn (c : Chip) (p : Nat) (f : Flit) : Chip :=
  let e := (c.span p).rxE
  if f.seq = e then
    let c := c.updSpan p (fun s => { s with rxE := (e + 1) % 65536, nakPend := false })
    let c := if f.null then (c.cutShort p).ctrInc kPort p cNullFrames else c
    f.payload.foldl (fun c g => c.frameSeg p g) c
  else if behind16 f.seq e then c.ctrInc kPort p cDupFlit
  else (c.ctrInc kPort p cOosFlit).enterNak p

/-- The flow-control map of a good flit (R148). -/
def Chip.fcIn (c : Chip) (p : Nat) (f : Flit) : Chip :=
  let c := (c.updSpan p (fun s => { s with stale := false })).arm (.stale p) (64 * c.tFlit p)
  (if f.fcSel then c.setFld (Reg.FC_STATE p) Bit.FC_STATE_NPX_RX f.fcBits
   else c.setFld (Reg.FC_STATE p) Bit.FC_STATE_XOFF_RX f.fcBits).syncPort p

/-- A good flit in UP. -/
def Chip.upFlit (c : Chip) (p : Nat) (f : Flit) : Chip :=
  let c := c.fcIn p f
  let c := if f.ftype == .data || f.ftype == .signal then c.updSpan p (fun s => { s with gotFirst := true }) else c
  let c := match f.ftype with
    | .signal => f.slots.foldl (fun (c : Chip) s => c.slotIn p s) c
    | _ => c
  let c := c.slotIn p f.slot
  let c := if c.spanState p = spUp then c.ackIn p f.ackSeq f.nak else c
  if c.spanState p ≠ spUp then c
  else
    match f.ftype with
    | .data => (c.dataIn p f).updMaps p
    | .reserved => c.framingErr p
    | _ => c.updMaps p

/-- A good flit in KINIT (R163).  DEDUCED (log 193): FLIT_TYPE 11, RETRAIN and Fog start a full link reset in KINIT too. -/
def Chip.kinitFlit (c : Chip) (p : Nat) (f : Flit) : Chip :=
  let c := (f.slots ++ [f.slot]).foldl (fun c s => c.slotIn p s) c
  match f.ftype with
  | .init =>
    let c := c.setFld (Reg.PEER_ID p) Bit.PEER_ID_PEER_FA f.init.ownFa
    let c := c.setFld (Reg.PEER_ID p) Bit.PEER_ID_PEER_FACING (b2n f.init.facing)
    (c.updSpan p (fun s => { s with
      peerSeen := true, peerVcEn := f.init.vcEn, initGood := if f.init.peerSeen then s.initGood + 1 else 0 })).tryUp p
  | .reserved => c.framingErr p
  | _ => (c.updSpan p (fun s => { s with initGood := s.initGood + 1 })).tryUp p

/-- A flit arrives on a span port (R127, R138, R139). -/
def Chip.spanFlitIn (c : Chip) (p : Nat) (f : Flit) : Chip :=
  if !c.portUp p || !c.isSpan p then c
  else if c.spanState p = spUp then
    if f.good then c.upFlit p f else ((c.ctrInc kPort p cBadFlit).enterNak p).dropPart p
  else if c.spanState p = spKinit then
    if f.good then c.kinitFlit p f else ((c.ctrInc kPort p cBadFlit).enterNak p).dropPart p
  else c

/-- SPAN_FLIT_RECEIVED. -/
def execSpanFlitReceived (p : Nat) (f : Flit) (s : State) : Host.Outcome State Fault Refusal :=
  .next { s with chip := s.chip.spanFlitIn p f }

/-! ## Flits sent (R130, R131, R133, R137, R140, R159) -/

/-- Up to `n` slots from a signal queue. -/
def takeSlots : Nat → List SigEnt → List Slot × List SigEnt
  | 0, q => ([], q)
  | _ + 1, [] => ([], [])
  | n + 1, e :: q =>
    if e.slots.length ≤ n + 1 then
      let r := takeSlots (n + 1 - e.slots.length) q
      (e.slots ++ r.1, r.2)
    else (e.slots.take (n + 1), { e with mid := true, slots := e.slots.drop (n + 1) } :: q)

/-- A message is partway out. -/
def Span.midMsg (s : Span) : Bool := match s.sigq with
  | e :: _ => e.mid
  | [] => false

/-- The slots of the next flit: the rest of a message that is partway out, then ECHO replies, an ECHO request, and the queue
(R157 to R159). -/
def Span.slotsOut (s : Span) (now n : Nat) : List Slot × List Slot × Span :=
  let head := match s.sigq with
    | e :: _ => if e.mid then takeSlots n [e] else ([], [])
    | [] => ([], [])
  let rest := if s.midMsg then head.2 ++ s.sigq.drop 1 else s.sigq
  let room := if head.2.isEmpty then n - head.1.length else 0
  let reps := (s.echoReplies.take room).map (fun x => Slot.echo true x.1 (now - x.2))
  let room := room - reps.length
  let req : List Slot := if s.echoReq && decide (0 < room) then [.echo false (now % 2 ^ 32) 0] else []
  let r := takeSlots (room - req.length) rest
  (head.1, reps ++ req ++ r.1,
   { s with sigq := r.2, echoReplies := s.echoReplies.drop reps.length, echoReq := s.echoReq && req.isEmpty })

/-- The 14 slots of a SIGNAL flit in their order, 13 in PAYLOAD and then SLOT (R131): the rest of a message first, and what else
there is up to SLOT, which is never left NULL while the queue holds something for it (R159). DESIGN CHOICE (log 153): the manual
does not place the NULL slots of a SIGNAL flit that the queue does not fill. -/
def signalSlots (head others : List Slot) : List Slot :=
  head ++ List.replicate (14 - head.length - others.length) .null ++ others

/-- Bytes of a frame, delimiter included, that could go into a flit now. -/
def Chip.outAvail (c : Chip) (p : Nat) (f : OutFrame) : Nat :=
  match f.uid with
  | none => f.len + 4
  | some u =>
    match c.sw.obq.find? (fun e => e.uid == u && e.port == p) with
    | some e => if e.full then f.len + 4 else min (f.len + 4) (e.got - 16 + 4)
    | none => f.len + 4

/-- The transmitter may begin a frame (R148). -/
def Chip.mayBegin (c : Chip) (p : Nat) (f : OutFrame) : Bool :=
  !(c.span p).stale &&
    !(if f.otype = 1 then c.fldBit (Reg.FC_STATE p) Bit.FC_STATE_NPX_RX f.vc
      else c.fldBit (Reg.FC_STATE p) Bit.FC_STATE_XOFF_RX f.vc)

/-- The delimiter of a frame and its LEN bytes, as they go into payloads. -/
def OutFrame.start (f : OutFrame) : FrameStart := { vc := f.vc, otype := f.otype, len := f.len, frame := f.frame }

/-- Padding: a byte 0 where a delimiter would start (R133). -/
def padSeg : FrameSeg := { start := some { start := 0 }, wire := [0] }

/-- A frame may begin ahead of frames that wait for their maps: not a non-posted one ahead of a posted one of its VC (Table 3.3). -/
def OutFrame.passes (f : OutFrame) (held : List OutFrame) : Bool := !(held.any (fun g => g.vc == f.vc && g.otype != 1 && f.otype == 1))

/-- The frame that goes on, or the oldest that the maps let begin: a frame whose map holds it lets those pass that may (R148). With
it, the frames left. -/
def Chip.nextFrame (c : Chip) (p : Nat) : List OutFrame → List OutFrame → Option (OutFrame × List OutFrame)
  | _, [] => none
  | held, f :: rest =>
    if f.sent ≠ 0 ∨ (c.mayBegin p f = true ∧ f.passes held = true) then some (f, held ++ rest) else c.nextFrame p (held ++ [f]) rest

/-- Frames back to back into the `room` payload bytes that are left (R133): the shares of the flit, padding behind the last frame
that ends in it, and the frames left. `fuel` bounds how many frames a flit takes from. -/
def Chip.fillFlit (c : Chip) (p : Nat) : Nat → Nat → List OutFrame → List FrameSeg × List OutFrame
  | 0, _, l => ([], l)
  | fuel + 1, room, l =>
    let pad := if room < 220 then [padSeg] else []
    if room = 0 then ([], l)
    else
      match c.nextFrame p [] l with
      | none => (pad, l)
      | some (f, rest) =>
        let n := min room (f.len + 4 - f.sent)
        if c.outAvail p f < f.sent + n then (pad, l)
        else
          let head := decide (f.sent < 4 ∧ 4 ≤ f.sent + n)
          let g : FrameSeg := { start := if head then some f.start else none, bytes := (f.sent + n - 4) - (f.sent - 4)
                                wire := ((f.start.bytes ++ f.frame.wire).drop f.sent).take n }
          if f.sent + n = f.len + 4 then
            let r := c.fillFlit p fuel (room - n) rest
            (g :: r.1, r.2)
          else ([g], { f with sent := f.sent + n } :: rest)

/-- Waiting messages of this module try for room again (R160). -/
def Chip.retrySig (c : Chip) : Chip :=
  match c.knd.sigWait with
  | [] => c
  | m :: rest => ({ c with knd := { c.knd with sigWait := rest } }).sendSig (portStation (faPort m.origin)) m

/-- The header and slot that a flit carries at the moment it is sent (R130, R140, R142): `head` is the rest of a message that is
partway out. -/
def Chip.dressFlit (c : Chip) (p : Nat) (f : Flit) (head others : List Slot) : Flit :=
  let s := c.span p
  let l := if f.ftype == .signal then signalSlots head others else head ++ others
  { f with
    ackSeq := modSub 65536 s.rxE 1, nak := s.nakPend, fcSel := s.fcSel
    fcBits := if s.fcSel then c.fld (Reg.FC_STATE p) Bit.FC_STATE_NPX_TX else c.fld (Reg.FC_STATE p) Bit.FC_STATE_XOFF_TX
    slots := if f.ftype == .signal then l.take 13 else []
    slot := if f.ftype == .signal then (l.drop 13).headD .null else l.headD .null }

/-- Send a flit with up to `n` slots; FC_SEL alternates. The second copy of a FAR_ERR that leaves now is due four flit times
later (R161). -/
def Chip.putFlit (c : Chip) (p : Nat) (f : Flit) (n : Nat) : Chip :=
  let r := (c.span p).slotsOut c.watchTime n
  let c := c.putSpan r.2.2
  let c := c.emit (.flit p (c.dressFlit p f r.1 r.2.1))
  let c := (r.1 ++ r.2.1).foldl (fun c x => c.farLeft x (4 * c.tFlit p)) c
  ((c.updSpan p (fun s => { s with fcSel := !s.fcSel })).sigStatus p).retrySig

/-- A span port in UP sends its next flit. A flit time without a new DATA flit because its share of the replay buffer is full is
counted (R137). -/
def Chip.upSend (c : Chip) (p : Nat) : Chip :=
  let c := c.updMaps p
  let s := c.span p
  let mode := c.fld (Reg.SIGQ_STATUS p) Bit.SIGQ_STATUS_MODE
  let echoes := s.echoReplies.length + b2n s.echoReq
  let echo := decide (1 < echoes ∨ (s.midMsg ∧ 0 < echoes))
  let full := decide (c.replayShare p ≤ s.replay.length)
  let c := if full then c.ctrInc kPort p cReplayFull else c
  let signal := !s.gotFirst || mode == 2 || (mode == 1 && s.everySecond) || echo
  let c := if mode = 1 then c.updSpan p (fun s => { s with everySecond := !s.everySecond }) else c
  let idle := fun (c : Chip) => c.putFlit p { ftype := .signal } 14
  if signal then idle c
  else
    match s.resend with
    | n :: rest =>
      match s.replay.find? (fun f => f.seq == n) with
      | some f => ((c.updSpan p (fun s => { s with
          resend := rest, replayCount := s.replayCount + b2n s.replayNew, replayNew := false })).ctrInc kPort p cReplayFlits).putFlit p f 1
      | none => idle (c.updSpan p (fun s => { s with resend := rest }))
    | [] =>
      if full then idle c
      else
        let r := c.fillFlit p (s.out.length + 1) 220 s.out
        if r.1.isEmpty && !s.nullNext then idle c
        else
          let f : Flit := { ftype := .data, seq := s.txSeq, null := s.nullNext, payload := if r.1.isEmpty then [padSeg] else r.1 }
          let c := c.updSpan p (fun s => { s with
            out := r.2, txSeq := (s.txSeq + 1) % 65536, nullNext := false, replay := s.replay ++ [f] })
          let c := if c.armed (.replay p) then c else c.arm (.replay p) (c.replayTmo p)
          (c.putFlit p f 1).updReplayFull p

/-- A span port in KINIT sends an INIT flit (Table 5.11). -/
def Chip.kinitSend (c : Chip) (p : Nat) : Chip :=
  let s := c.span p
  let i : InitParams := { ownFa := c.ownFa p, facing := (c.port p).facing, vcEn := s.ownVcEn
                          peerSeen := s.peerSeen }
  let c := c.putFlit p { ftype := .init, init := i } 1
  (c.updSpan p (fun s => { s with initSent := if s.peerSeen then s.initSent + 1 else s.initSent })).tryUp p

/-- SPAN_FLIT_TRANSMIT. -/
def Chip.spanSend (c : Chip) (p : Nat) : Chip :=
  if !c.portUp p || !c.isSpan p then c
  else if c.spanState p = spUp then c.upSend p
  else if c.spanState p = spKinit then c.kinitSend p
  else c

def execSpanFlitTransmit (p : Nat) (s : State) : Host.Outcome State Fault Refusal :=
  .next { s with chip := s.chip.spanSend p }

/-! ## Timers and Recovery (R143, R148, R163, R164, R167) -/

/-- The link layer keeps its state and its timers run: in UP, and in Recovery (R164). -/
def Chip.linkRuns (c : Chip) (p : Nat) : Bool := c.spanState p == spUp || c.spanState p == spRecovery

/-- REPLAY_TIMER_EXPIRY (R143). In Recovery the replay it calls for waits for UP. -/
def Chip.replayExpiry (c : Chip) (p : Nat) : Chip :=
  if c.linkRuns p && c.due (.replay p) then c.callReplay p cReplayTmo none else c

def execReplayTimerExpiry (p : Nat) (s : State) : Host.Outcome State Fault Refusal :=
  .next { s with chip := s.chip.replayExpiry p }

/-- FC_STALENESS: no good flit for 64 flit times (R148), counted and logged (R169). -/
def Chip.fcStale (c : Chip) (p : Nat) : Chip :=
  if c.linkRuns p && c.due (.stale p) then
    ((((c.updSpan p (fun s => { s with stale := true })).setBit (Reg.SPAN_EVENT p) Bit.SPAN_EVENT_FC_STALE).ctrInc
      kPort p cFcStale).disarm (.stale p)).log .fcStale [p]
  else c

def execFcStaleness (p : Nat) (s : State) : Host.Outcome State Fault Refusal :=
  .next { s with chip := s.chip.fcStale p }

/-- KINIT_TIMEOUT: KINIT is not complete in 1 ms (Table 5.9). -/
def Chip.kinitExpiry (c : Chip) (p : Nat) : Chip :=
  if c.spanState p = spKinit && c.due (.kinit p) then c.spanError p Bit.SPAN_EVENT_KINIT_TMO else c

def execKinitTimeout (p : Nat) (s : State) : Host.Outcome State Fault Refusal :=
  .next { s with chip := s.chip.kinitExpiry p }

/-- RECOVERY_ENTRY: the PHY of a port in UP enters LTSSM Recovery; link-layer state is kept (Table 5.9). -/
def Chip.recoveryEntry (c : Chip) (p : Nat) : Chip :=
  if c.spanState p = spUp then
    let c := (c.setSpanState p spRecovery).ctrInc kPort p cRecoveries
    ((c.disarm (.echoReq p)).arm (.recovery p) (100 * us)).linkLossReplay p
  else if !c.isSpan p && c.dlUp p then c.ctrInc kPort p 9
  else c

def execRecoveryEntry (p : Nat) (s : State) : Host.Outcome State Fault Refusal :=
  .next { s with chip := s.chip.recoveryEntry p }

/-- RECOVERY_EXIT: the PHY leaves Recovery, to L0 at a width and rate, or to another state (`l0` none). The port returns to
UP only within 100 µs and with neither changed (R164). -/
def Chip.recoveryExit (c : Chip) (p : Nat) (l0 : Option (Nat × Nat)) : Chip :=
  if c.spanState p ≠ spRecovery then c
  else
    let same := match l0 with
      | some (w, r) => w == c.fld (Reg.SPAN_STATUS p) Bit.SPAN_STATUS_WIDTH && r == c.fld (Reg.SPAN_STATUS p) Bit.SPAN_STATUS_RATE
      | none => false
    if same && !c.due (.recovery p) then
      let c := ((c.setSpanState p spUp).disarm (.recovery p)).updSpan p (fun s => { s with upSince := c.now })
      (c.arm (.echoReq p) ms).arm (.revert p) c.revertNs
    else c.spanError p Bit.SPAN_EVENT_RECOVERY_FAIL

def execRecoveryExit (p : Nat) (l0 : Option (Nat × Nat)) (s : State) : Host.Outcome State Fault Refusal :=
  .next { s with chip := s.chip.recoveryExit p l0 }

/-- RECOVERY_TIMEOUT: the PHY is still in Recovery after 100 µs. -/
def Chip.recoveryExpiry (c : Chip) (p : Nat) : Chip :=
  if c.spanState p = spRecovery && c.due (.recovery p) then c.spanError p Bit.SPAN_EVENT_RECOVERY_FAIL else c

def execRecoveryTimeout (p : Nat) (s : State) : Host.Outcome State Fault Refusal :=
  .next { s with chip := s.chip.recoveryExpiry p }

/-- PHY_DETECT_ENTERED: the PHY of a port in RESET has entered Detect (Table 5.9). -/
def Chip.phyDetect (c : Chip) (p : Nat) : Chip := if c.spanState p = spReset then c.setSpanState p spDown else c

def execPhyDetectEntered (p : Nat) (s : State) : Host.Outcome State Fault Refusal :=
  .next { s with chip := s.chip.phyDetect p }

/-- ECHO_REQUEST_TIMER: every 2 µs in KINIT until eight replies have come, every 1 ms in UP (R157). -/
def Chip.echoTimer (c : Chip) (p : Nat) : Chip :=
  if !c.due (.echoReq p) then c
  else if c.spanState p = spUp then (c.updSpan p (fun s => { s with echoReq := true })).arm (.echoReq p) ms
  else if c.spanState p = spKinit && decide ((c.span p).echoGot < 8) then
    (c.updSpan p (fun s => { s with echoReq := true })).arm (.echoReq p) (2 * us)
  else c.disarm (.echoReq p)

def execEchoRequestTimer (p : Nat) (s : State) : Host.Outcome State Fault Refusal :=
  .next { s with chip := s.chip.echoTimer p }

def Chip.holdCause (c : Chip) (p : Nat) : Nat := c.fld (Reg.SPAN_STATUS p) Bit.SPAN_STATUS_HOLD_CAUSE

/-- HOLD_RETRY_EXPIRY: a port held for KAUND_RATE_FAIL tries again (R167). -/
def Chip.holdRetry (c : Chip) (p : Nat) : Chip :=
  if c.spanState p = spHeld && c.holdCause p == holdKaundRate && c.due (.holdRetry p) then c.leaveHeld p else c

def execHoldRetryExpiry (p : Nat) (s : State) : Host.Outcome State Fault Refusal :=
  .next { s with chip := s.chip.holdRetry p }

/-- What a write of 1 to RETRAIN does (R167, Table 5.15): it acts only on a port that trained as a span port, and on a port
in HELD only where the headroom failed. -/
def Chip.retrain (c : Chip) (p : Nat) : Chip :=
  if !c.isSpan p then c
  else if c.spanState p = spHeld then (if c.holdCause p = holdHeadroom then c.leaveHeld p else c)
  else c.fullLinkReset p

/-- REVERT_HOLD_EXPIRY: the port is a usable candidate from now on (R175); `usable` reads the time itself. -/
def execRevertHoldExpiry (p : Nat) (s : State) : Host.Outcome State Fault Refusal :=
  .next { s with chip := if s.chip.due (.revert p) then s.chip.disarm (.revert p) else s.chip }

end Sys2Proof.Machine
end

