-- ==== Sys2Proof/Machine/Frames.lean ====
section
/-!
DEFINITION. Frames from the fabric (R172 to R181, R189, R199, R214, R252) and routed signal messages (R158), with FAR_ERR
copies and filters (R161, R200).
-/
namespace Sys2Proof.Machine

/-! ## The egress edge (R189, R199, R252, Table 6.4) -/

/-- The binding check of R252: the local VSI that a request frame acts for. -/
def Chip.binds (c : Chip) (d : Nat) (h : KHdr) (t : Tlp) : Option Nat :=
  if (c.port d).up then
    match c.vsiOfPort d with
    | some v =>
      if c.vsi.hosts.any (fun b => b.v == v && b.local_.isNone && b.targetFa == h.srcFa && b.prid == t.rid &&
        b.peerVsi == h.srcVsi) then some v else none
    | none => none
  else
    match c.vsi.ports.find? (fun b => b.2.2 == d && !c.isManager b.1 &&
        (c.portOfVsi b.1).map c.ownFa == some h.srcFa) with
    | some b => some b.1
    | none =>
      (c.vsi.peers.find? (fun b => b.port == d && b.ownerFa == h.srcFa && b.ownerVsi == h.srcVsi &&
        (if t.isMem then b.bars.any (fun r => decide (r.1 ≤ t.addr ∧ t.addr < r.1 + r.2)) else b.prid == t.dest))).map (·.proxy)

/-- An undeliverable frame at the egress edge (Table 6.4): FAR_ERR or a completion frame. `status` is the completion's,
`far` the FAR_ERR's. -/
def Chip.undeliver (c : Chip) (d : Nat) (h : KHdr) (t : Tlp) (rel : Option Rel) (far status : Nat) : Chip :=
  if t.otype = 1 then
    c.sendCpl d (.fabric h.srcFa h.tc h.epoch h.n h.srcVsi h.guarded) (refuseTlp status t) true rel none none h.srcVsi
  else (c.genFarErr h.srcFa h.tc far t.addr h.srcVsi d).dischargeOpt rel

/-- What is still arriving of a frame that has been looked up stays in the list. -/
def Chip.keepRx (c : Chip) (r : Rx) (uids : List Nat) : Chip :=
  if r.whole then c
  else { c with sw := { c.sw with rx := c.sw.rx ++ [{ r with looked := true, uids, dead := uids.isEmpty }] } }

/-- A frame that goes no further leaves its buffer. -/
def Chip.goneRx (c : Chip) (r : Rx) : Chip := (c.dropRx r).keepRx r []

/-- The owner's module has written an FLR to a function of this module: it lasts 100 ms at most (Table 8.8, step 6). -/
def Chip.peerFlr (c : Chip) (p prid : Nat) : Chip :=
  let upd := fun (b : PeerBind) => { b with flrEnd := c.now + 100 * ms }
  { c with vsi := { c.vsi with peers := mapIf (fun b => b.port == p && b.prid == prid) upd c.vsi.peers } }

/-- A request frame that the order check released, or that is unguarded, for local port `d` (R199). DESIGN CHOICE (log 201): one
that fails the binding check of R252 sets RID_MISS in the VSI that owns the port, in the manager VSI where none does. -/
def Chip.deliver (c : Chip) (r : Rx) (d : Nat) (h : KHdr) (t : Tlp) (rel : Option Rel) : Chip :=
  let c' := c.goneRx r
  if !(c.port d).present || c.isSpan d then c'.undeliver d h t rel 1 stUR
  else
    match c.binds d h t with
    | none =>
      let v := (c.vsiOfPort d).getD c.manager
      (c'.setBit (Reg.VSI_EVENT v) Bit.VSI_EVENT_RID_MISS).undeliver d h t rel 1 stUR
    | some v =>
      if c.flag (Reg.PRT_STATUS d) Bit.PRT_STATUS_DPC_ACTIVE || c.inPortFog d then c'.undeliver d h t rel 2 (c.synth d)
      else if !c.dlUp d || !c.stUp (portStation d) then c'.undeliver d h t rel 3 (c.synth d)
      else
        let c := if t.initFlr then (c.endOrig d t.dest).peerFlr d t.dest else c
        let space := if (c.port d).up then (0, v) else (1, d)
        let verdict := if t.isMem then c.checkSector (some (portStation d)) (accessOf space t.addr v t) 3 else .pass c false
        match verdict with
        | .doubt c => c.goneRx r
        | .refused c => (c.goneRx r).undeliver d h t rel 2 stCA
        | .pass c _ =>
          let uid := c.sw.nextUid
          (c.addPktAt ({ st := portStation r.port, src := portLocal r.port, inPort := r.port, tlp := t, kh := some h, egPort := d
                         noticeFa := h.srcFa, egVc := c.egVc false h.tc, vsi := v, actVsi := v, wgen := some h.wgen
                         secGen := if t.isMem then some (c.fld Reg.SEC_ACTIVE_GEN Bit.SEC_ACTIVE_GEN_GEN) else none
                         poolVc := some (r.vc, r.len), got := r.got - 16, whole := r.whole, rel } : Pkt) r.t0).keepRx r [uid]

/-- A completion frame for this module is matched at the station of its span port (R189); `srcFa` is where it comes from (R173). At
a port in Fog it leaves the buffer, and its completion goes on as what the module itself sends (R94). -/
def Chip.deliverCpl (c : Chip) (r : Rx) (d srcFa : Nat) (t : Tlp) (rel : Option Rel) : Chip :=
  let fog := c.inPortFog r.port
  let back := fun (c : Chip) => (c.dropRx r).dischargeOpt rel
  let fill := fun (k : Pkt) =>
    if fog then { k with inPort := r.port, noticeFa := srcFa, rel }
    else { k with inPort := r.port, noticeFa := srcFa, made := false, poolVc := some (r.vc, r.len), rel }
  let c := if fog then c.dropRx r else c
  let r := if fog then { r with got := 0 } else r
  let m := match c.cplPort t with
    | some q => c.matchCpl q t fill back
    | none => none
  match m with
  | some c => c
  | none =>
    let at_ := if (c.port d).present && !c.isSpan d then d else r.port
    back (c.unexpCpl at_ t)

/-- A KH_CRC check fails at a port (R172): the frame goes no further, and the port enters Fog. -/
def Chip.khCrcFail (c : Chip) (p : Nat) : Chip :=
  ((c.setBit Reg.KND_EVENT Bit.KND_EVENT_KH_CRC_ERR).log .khCrc [p]).portFog p fogKhCrc

/-- The pipelines differ in the lookup of a frame of port `p` whose route they do not read: its EG_VC or its multicast masks
(R46, R47). -/
def Chip.frameMismatch (c : Chip) (p : Nat) : Chip :=
  let st := portStation p
  let c := (c.setBit (Reg.STN_STATUS st) Bit.STN_STATUS_LOOKUP_MISMATCH).ctrInc kStation st 55
  (c.log .lookupMismatch [p]).portFog p fogLookup

/-- A completion frame for this module whose header has arrived, and that matches an entry, is looked up so that it may be cut
through (R66); it counts when its last byte has passed its check. DEDUCED (log 169): one of a cut read, whose completions keep an
order (R186), and what is for the Relay engine or the module itself, waits until it is whole. -/
def Chip.cplFrameOpens (c : Chip) (r : Rx) (f : Frame) : Option Chip :=
  let t := f.tlp
  match if c.inPortFog r.port || (f.kh.guarded && !c.isNext (faPort f.kh.destFa) f.kh) then none
      else (c.cplPort t).bind (fun q => c.ortFor q t) with
  | none => none
  | some e =>
    let uid := c.sw.nextUid
    let c' := c.sendCpl e.port (c.cplRet e t) (c.cplRestored e t) (e.endsBy t) e.rel none none e.vsi
    match e.ret with
    | .own .. => none
    | _ =>
      if e.badCpl t || e.relay.isSome || e.piece.isSome || c'.sw.nextUid = uid then none
      else
        some ((c'.updPkt uid (fun k => ({ k with
          inPort := r.port, noticeFa := f.kh.srcFa, made := false, poolVc := some (r.vc, r.len), whole := false, got := r.got - 16
          mapped := some (e.mapRid, e.mapTag) } : Pkt).sealIh)).keepRx r [uid])

/-- A frame whose destination is this module (R174, R199); the egress edge checks KH_CRC before it removes the header (R172). -/
def Chip.localFrame (c : Chip) (r : Rx) (f : Frame) : Chip :=
  let d := faPort f.kh.destFa
  let flip := c.injected 1 (fun q => q == r.port)
  if !f.crcOk || c.injected 3 (fun q => q == d && q != r.port) then (c.useInject.goneRx r).khCrcFail d
  else if flip ∨ c.egVc false f.kh.tc ≠ c.egVc true f.kh.tc then
    ((if flip then c.useInject else c).goneRx r).frameMismatch r.port
  else
    match f.tlp.rmsg with
    | some _ =>
      let c := c.dropRx r
      { c with rly := { c.rly with msgs := c.rly.msgs ++ [(f.kh.srcFa, d, f.kh.tc, f.tlp)] } }
    | none =>
      let o := if f.kh.guarded && r.whole then c.orderCheck d f.kh else (c, none)
      if f.kh.guarded && r.whole && o.2.isNone then o.1.dropRx r
      else if f.tlp.otype = 2 && !r.whole then (c.cplFrameOpens r f).getD c
      else if f.tlp.otype = 2 then (o.1.deliverCpl r d f.kh.srcFa f.tlp o.2).settleDue
      else o.1.deliver r d f.kh f.tlp o.2

/-! ## Transit (R174 to R181) -/

/-- The frame is descending (R179). -/
def Chip.descending (c : Chip) (p : Nat) (h : KHdr) : Bool := (c.port p).facing || h.desc

/-- The checks before a frame leaves on span port `q` (R179): the events it sets, and the cause it contains its arrival port
for. -/
def Chip.leaveCheck (c : Chip) (p q : Nat) (h : KHdr) : Chip × Option Nat :=
  let st := portStation p
  if c.descending p h && (c.port q).facing then
    (((c.setBit Reg.KND_EVENT Bit.KND_EVENT_TURN_VIOL).ctrInc kStation st 53).log .turnViol [p] [h.destFa, h.srcFa], some fogTurn)
  else if c.fld Reg.KND_CTRL Bit.KND_CTRL_HOP_LIMIT ≤ h.hops then
    (((c.setBit Reg.KND_EVENT Bit.KND_EVENT_HOP_VIOL).ctrInc kStation st 54).log .hopViol [p] [h.destFa, h.srcFa], some fogHop)
  else (c, none)

/-- The packet of a frame that goes on. -/
def transitPkt (r : Rx) (f : Frame) : Pkt :=
  { st := portStation r.port, src := portLocal r.port, inPort := r.port, tlp := f.tlp, kh := some f.kh
    guarded := f.kh.guarded, noticeFa := f.kh.srcFa, vsi := f.kh.srcVsi, actVsi := f.kh.srcVsi
    wgen := some f.kh.wgen, poolVc := some (r.vc, r.len), got := r.got - 16, whole := r.whole }

/-- A frame for another module (R174 to R179). -/
def Chip.transitFrame (c : Chip) (r : Rx) (f : Frame) : Chip :=
  let p := r.port
  let h := f.kh
  match c.route p h.destFa h.srcFa h.tc h.alt with
  | .mismatch c => c.goneRx r
  | .none c =>
    let c := (c.setBit Reg.KND_EVENT Bit.KND_EVENT_NO_ROUTE).stCtr p 52
    let c := (c.log .noRoute [p] [h.destFa, h.srcFa]).goneRx r
    if !h.guarded && f.tlp.otype == 0 then c.genFarErr h.srcFa h.tc 3 f.tlp.addr h.srcVsi p else c
  | .to c q =>
    match c.leaveCheck p q h with
    | (c, some cause) => (c.goneRx r).portFog p cause
    | (c, none) =>
      let uid := c.sw.nextUid
      let k : Pkt := { transitPkt r f with egPort := q, egVc := c.egVc false h.tc }
      let c := (c.addPktAt k r.t0).keepRx r [uid]
      c.sndChoose (portStation p) uid p r.t0 k

/-- The copies of a fabric multicast frame that the egress edge stops at PCIe ports: one whose port has no binding for SRC_VSI
(R252, Table 6.4). -/
def Chip.mcUnbound (c : Chip) (ports : List Nat) (h : KHdr) (t : Tlp) : Chip :=
  ports.foldl (fun c q =>
    (c.setBit (Reg.VSI_EVENT ((c.vsiOfPort q).getD c.manager)) Bit.VSI_EVENT_RID_MISS).genFarErr h.srcFa h.tc 1 t.addr h.srcVsi q) c

/-- The sector check of a multicast frame at the PCIe ports that it reaches (R199, R336): the ports whose copy goes no further.
DEDUCED (log 208): the copy's space is its group, under this module's MC_INDEX (R331). -/
def Chip.mcSectors (c : Chip) (ports : List Nat) (idx : Nat) (h : KHdr) (t : Tlp) : Chip × List Nat :=
  ports.foldl (fun a q =>
    match a.1.checkSector (some (portStation q)) (accessOf (3, idx) t.addr ((a.1.binds q h t).getD 0) t) 3 with
    | .pass c _ => (c, a.2)
    | .refused c => (c.genFarErr h.srcFa h.tc 2 t.addr h.srcVsi q, q :: a.2)
    | .doubt c => (c, q :: a.2)) (c, [])

/-- A fabric multicast frame (R181): one copy to every port of its group's mask but the arrival port; a copy that fails a
check of R179, R172, R252 or R336 is contained or reported, the lowest cause where two checks fail (R356), and a port that can take
none has NO_ROUTE counted. -/
def Chip.mcFrame (c : Chip) (r : Rx) (f : Frame) : Chip :=
  let p := r.port
  let idx := 64 + f.kh.destFa % 4096
  let flip := c.injected 1 (fun q => q == p)
  if flip ∨ !c.mcAgree idx ∨ c.egVc false f.kh.tc ≠ c.egVc true f.kh.tc then
    ((if flip then c.useInject else c).goneRx r).frameMismatch p
  else
    let targets := (c.mcPorts idx).filter (· != p)
    let deaf := c.mcDeaf idx [p]
    let c := c.countDeaf (portStation p) deaf
    let live := targets.filter c.mcReach
    let checked := (live.filter c.isSpan).foldl (fun (a : Chip × List Nat × Option Nat) q =>
      match a.1.leaveCheck p q f.kh with
      | (c, some cause) => (c, q :: a.2.1, some (min cause (a.2.2.getD cause)))
      | (c, none) => (c, a.2.1, a.2.2)) (c, [], none)
    let c := match checked.2.2 with
      | some cause => checked.1.portFog p cause
      | none => checked.1
    let edge := live.filter (fun q => !c.isSpan q)
    let free := edge.filter (fun q => (c.binds q f.kh f.tlp).isNone)
    let c := c.mcUnbound free f.kh f.tlp
    let torn := (edge.filter (fun q => !free.contains q)).filter (fun q => c.injected 3 (fun x => x == q))
    let c := torn.foldl (fun c q => c.useInject.khCrcFail q) c
    let x := c.mcSectors (edge.filter (fun q => !free.contains q && !torn.contains q)) idx f.kh f.tlp
    if x.1.inModFog then x.1.goneRx r
    else
      let k : Pkt := { transitPkt r f with
        mc := some idx, fan := x.1.mcStations idx, egVc := x.1.egVc false f.kh.tc
        exclude := p :: deaf ++ checked.2.1 ++ free ++ torn ++ x.2 }
      x.1.addPktAt k r.t0

/-- A request frame for a PCIe port of this module whose checks at the egress edge all pass may be taken before it is whole, and
cut through (R66, R199). DEDUCED (log 169): a guarded one is taken so when the order check would release it, and meets that check
when it is whole, for a released frame cannot be taken back when its transmitter nullifies it; a guarded read, which is little
more than its header, is taken whole. -/
def Chip.cutHere (c : Chip) (f : Frame) : Bool :=
  let d := faPort f.kh.destFa
  let t := f.tlp
  (!f.kh.guarded || (t.otype == 0 && c.isNext d f.kh)) && t.rmsg.isNone && t.otype != 2 && !t.initFlr && c.portUp d && !c.isSpan d && c.dlUp d && !c.inPortFog d &&
    !c.flag (Reg.PRT_STATUS d) Bit.PRT_STATUS_DPC_ACTIVE &&
    (match c.binds d f.kh t with
     | some v =>
       !t.isMem || (match c.secCheck (portStation d) (accessOf (if (c.port d).up then (0, v) else (1, d)) t.addr v t) false with
         | .allowed _ => true
         | _ => false)
     | none => false)

/-- A span frame's header has arrived: the oldest frame of the port is checked and routed or delivered (R172). A frame that
is to be multicast, and most of those to be delivered here, is taken once it is whole; a guarded one for this module meets the
order check, for which the Mooring must run. At a port in Fog only completions that had passed their check go on (R94). -/
def Chip.frameIn (c : Chip) (p : Nat) : Chip :=
  if !c.portUp p then c
  else
    match takeFirst (fun r => r.port == p && r.frame.isSome && !r.looked) c.sw.rx with
    | none => c
    | some (r, l) =>
      if (c.inPortFog p || c.inModFog) && !c.rxCounts r then c
      else
      let f : Frame := r.frame.getD {}
      let here := c.faHere f.kh.destFa && !f.kh.mc
      let bad := !f.crcOk || c.injected 3 (fun q => q == p)
      if r.got < min r.len 32 ∨ (here && f.kh.guarded && !c.morRuns) ∨ (f.kh.mc && !r.whole) ∨
          (here && !r.whole && !c.cutHere f && (f.tlp.otype != 2 || (c.cplFrameOpens r f).isNone)) then c
      else
        let c := { c with sw := { c.sw with rx := l } }
        if bad then ((if f.crcOk then c.useInject else c).goneRx r).khCrcFail p
        else if f.kh.mc then c.mcFrame r f
        else if here then c.localFrame r f
        else c.transitFrame r f

/-- SPAN_FRAME_RECEIVED. -/
def execSpanFrameReceived (p : Nat) (s : State) : Host.Outcome State Fault Refusal :=
  .next { s with chip := s.chip.frameIn p }

/-- Completion frames that have passed their check are matched before a reset of station `s` ends their entries or empties their
buffers (R94). -/
def Chip.countFrames (c : Chip) (s : Nat) : Chip :=
  let due := fun (c : Chip) (r : Rx) => c.rxCounts r && (portStation r.port == s || (match r.frame with
    | some f => c.pci.ort.any (fun e => portStation e.port == s && c.isSpan e.port && e.mapRid == f.tlp.rid && e.mapTag == f.tlp.tag)
    | none => false))
  (c.sw.rx.filter (due c)).foldl (fun c r =>
    if due c r then ({ c with sw := { c.sw with rx := c.sw.rx.erase r } } : Chip).localFrame r (r.frame.getD {}) else c) c

/-- A guarded frame that still waits in a receive buffer after GUARD_RESIDENCE (R230). -/
def Chip.agedRx (c : Chip) (r : Rx) : Bool :=
  r.whole && !r.looked && decide (r.t0 + ms ≤ c.now) && (match r.frame with
    | some f => f.kh.guarded
    | none => false)

/-- A guarded frame that has stayed GUARD_RESIDENCE in this module without leaving or reaching its order check (R230). Custody
copies and released frames are exempt, and so is a frame whose transmission has begun: it is leaving. A frame that waits in a
receive buffer has no number yet: a number that no packet has names the oldest of them. -/
def Chip.residenceDrop (c : Chip) (uid : Nat) : Chip :=
  match c.pkt uid with
  | some k =>
    let atEdge := match k.kh with
      | some h => c.faHere h.srcFa && k.copy.isNone
      | none => true
    if k.guarded && k.rel.isNone && !atEdge && decide (k.t0 + ms ≤ c.now) && k.whole &&
        !c.sw.obq.any (fun e => e.uid == uid && e.begun) then
      let c := c.purgePkt uid
      let es := c.sw.obq.filter (fun e => e.uid == uid)
      let c := es.foldl (fun c e => c.unqueue uid e.port) c
      c.stCtr k.inPort 50
    else c
  | none =>
    match takeFirst c.agedRx c.sw.rx with
    | some (r, l) => (({ c with sw := { c.sw with rx := l } }).dropRx r).stCtr r.port 50
    | none => c

/-- GUARD_RESIDENCE_DROP. -/
def execGuardResidenceDrop (uid : Nat) (s : State) : Host.Outcome State Fault Refusal :=
  .next { s with chip := s.chip.residenceDrop uid }

/-! ## Signal messages (R158) -/

/-- A whole signal message of a span port is routed (R158). -/
def Chip.sigRoute (c : Chip) (p : Nat) : Chip :=
  if !c.portUp p || c.inPortFog p then c
  else
    match takeFirst (fun x => x.1 == p) c.knd.sigRx with
    | none => c
    | some ((_, m), l) =>
      let c := { c with knd := { c.knd with sigRx := l } }
      if c.faHere m.dest then { c with knd := { c.knd with delivered := c.knd.delivered ++ [m] } }
      else
        match c.route p m.dest m.origin m.tc 0 with
        | .mismatch c => c
        | .none c => c.sigNoRoute (portStation p) m
        | .to c q =>
          if (c.port p).facing && (c.port q).facing then
            let c := (c.setBit Reg.KND_EVENT Bit.KND_EVENT_TURN_VIOL).stCtr p 53
            (c.log .turnViol [p] [m.dest, m.origin]).portFog p fogTurn
          else c.queueSig q m false

/-- SIGNAL_MESSAGE_ROUTED. -/
def execSignalMessageRouted (p : Nat) (s : State) : Host.Outcome State Fault Refusal :=
  .next { s with chip := s.chip.sigRoute p }

/-! ## FAR_ERR (R161, R200) -/

/-- FAR_ERR_SECOND_COPY: the second copy goes out at least four flit times after the first. -/
def Chip.farAgain (c : Chip) (id : Nat) : Chip :=
  match c.knd.farSecond.find? (fun x => x.1 == id) with
  | some (_, m) =>
    if c.due (.farSecond id) then
      (({ c with knd := { c.knd with farSecond := c.knd.farSecond.filter (fun x => x.1 != id) } }).disarm (.farSecond id)).sendSig
        (portStation (faPort m.origin)) m
    else c
  | none => c

def execFarErrSecondCopy (id : Nat) (s : State) : Host.Outcome State Fault Refusal :=
  .next { s with chip := s.chip.farAgain id }

/-- The oldest delivered message of a kind. -/
def Chip.takeMsg (c : Chip) (f : SigMsg → Bool) : Option (SigMsg × Chip) :=
  (takeFirst f c.knd.delivered).map (fun r => (r.1, { c with knd := { c.knd with delivered := r.2 } }))

/-- The entries of a VSI's duplicate filter, oldest first. -/
def Chip.filterOf (c : Chip) (v : Nat) : List (Nat × Nat × Nat × Nat × Nat) := c.knd.farFilter.filter (fun x => x.1 == v)

/-- FAR_ERR_RECEIVED: the source VSI passes it through its duplicate filter of 64, and logs an accepted one (R161, R200). -/
def Chip.farErrIn (c : Chip) : Chip :=
  match c.takeMsg (fun m => m.stype == 4) with
  | some (.farErr _ _ status addr v ser origin, c) =>
    if (c.filterOf v).any (fun x => x.2.1 == origin && x.2.2.1 == ser && x.2.2.2.1 == addr && decide (c.now < x.2.2.2.2)) then c
    else
      let c := match c.filterOf v with
        | o :: rest =>
          if rest.length = 63 then
            ({ c with knd := { c.knd with farFilter := c.knd.farFilter.erase o } }).disarm (.farFilter v o.2.1 o.2.2.1 o.2.2.2.1)
          else c
        | [] => c
      let c := { c with knd := { c.knd with farFilter := c.knd.farFilter ++ [(v, origin, ser, addr, c.now + ms)] } }
      (c.arm (.farFilter v origin ser addr) ms).felAccept v status addr origin ser
  | some (_, c) => c
  | none => c

def execFarErrReceived (s : State) : Host.Outcome State Fault Refusal := .next { s with chip := s.chip.farErrIn }

/-- FAR_ERR_FILTER_EXPIRY: an entry of a duplicate filter leaves after 1 ms. -/
def Chip.farFilterEnd (c : Chip) (v origin ser addr : Nat) : Chip :=
  if c.due (.farFilter v origin ser addr) then
    ({ c with knd := { c.knd with farFilter := c.knd.farFilter.filter (fun x =>
      !(x.1 == v && x.2.1 == origin && x.2.2.1 == ser && x.2.2.2.1 == addr)) } }).disarm (.farFilter v origin ser addr)
  else c

def execFarErrFilterExpiry (v origin ser addr : Nat) (s : State) : Host.Outcome State Fault Refusal :=
  .next { s with chip := s.chip.farFilterEnd v origin ser addr }

end Sys2Proof.Machine
end

