-- ==== Sys2Proof/Machine/Bus.lean ====
section
/-!
DEFINITION. The register bus (chapter 20): whether an access reaches its register (R379, R441, R513 to R518), and the
shared commit pattern (R193).
-/
namespace Sys2Proof.Machine

/-- How a view shows a register. -/
inductive Seen where
  | full | readOnly | hidden
  deriving DecidableEq, Repr

/-- The slice whose context holds an offset. -/
def sliceAt (off : Nat) : Option Nat :=
  if 0x2100000 ≤ off ∧ off < 0x2200000 then some ((off - 0x2100000) / 0x100) else none

/-- Table 20.2: the BAR0 of a VSI other than the manager VSI. -/
def Chip.hostSees (c : Chip) (v off : Nat) : Seen :=
  if off = Reg.GLB_ID ∨ off = Reg.GLB_CAP then .full
  else if off = Reg.VSI_CTRL v then .readOnly
  else if off = Reg.VSI_ID v ∨ off = Reg.VSI_STATUS v ∨ off = Reg.VSI_EVENT v ∨
      (Reg.VBR_STATE v 0 ≤ off ∧ off ≤ Reg.VBR_STATE v 255 ∧ (off - Reg.VBR_STATE v 0) % 4 = 0) then .full
  else if off = Reg.FEL_CTRL v ∨ off = Reg.FEL_PTR v ∨ (Reg.FEL_ENT_W0 v 0 ≤ off ∧ off ≤ Reg.FEL_ENT_W3 v 63) then .full
  else if off = Reg.RF_STATUS v then .readOnly
  else
    match sliceAt off with
    | some s =>
      if c.slState s ≠ sUngranted ∧ c.slVsi s = v then
        (if off = Reg.CNT_PERM s then .readOnly else .full)
      else .hidden
    | none => .hidden

/-- A register of Kaund Span Links is reserved on a port whose port map entry does not set KAUND_ALLOW (R513, Table 20.7). -/
def Chip.regHere (c : Chip) (off : Nat) : Bool :=
  if 0x400000 ≤ off ∧ off < 0x600000 ∧ 0x100 ≤ (off - 0x400000) % 0x4000 then (c.port ((off - 0x400000) / 0x4000)).kaund
  else true

/-- How an agent sees a register (R514, R516, Table 20.3). -/
def Chip.sees (c : Chip) (ag : Agent) (off : Nat) : Seen :=
  if !c.regHere off then .hidden
  else
    match ag with
    | .vsi v => if c.isManager v then .full else c.hostSees v off
    | .keeper => .full
    | .mgmt _ => .full
    | .lampRoom => if 0x20000 ≤ off ∧ off < 0x40000 then .full else .hidden

/-- A host's access reaches BAR0: the Relay function's Memory Space Enable is set, and the station where the access enters the
bus has started and runs (R27, R267). -/
def Chip.hostEnters (c : Chip) (v : Nat) : Bool := c.relayMse v && (c.portOfVsi v).any (fun p => c.stUp (portStation p))

/-- The register bus runs for an agent: power is good, RESET_N is high, and the module is not DARK. The Lamp Room serves the PWE
block whenever the standby converter runs (R460, R480). A module endpoint answers once ADDR_SEL is latched (R474), and not from
step 1 of DARK entry on (R479). A host's access enters at the station of its upstream port (R27). -/
def Chip.busRuns (c : Chip) (ag : Agent) : Bool :=
  match ag with
  | .lampRoom => c.pwr.standby
  | .mgmt _ => c.pwr.standby && c.pwr.pgood && !c.pwr.resetLow && c.fld Reg.GLB_PWR_STATUS Bit.GLB_PWR_STATUS_STATE != 2 &&
      c.pwr.addrSel.isSome && c.pwr.darkStep == 0
  | .vsi v => c.pwr.standby && c.pwr.pgood && !c.pwr.resetLow && c.fld Reg.GLB_PWR_STATUS Bit.GLB_PWR_STATUS_STATE != 2 &&
      c.hostEnters v
  | .keeper => c.pwr.standby && c.pwr.pgood && !c.pwr.resetLow && c.fld Reg.GLB_PWR_STATUS Bit.GLB_PWR_STATUS_STATE != 2

/-- The Keeper is in reset or in steps 1 to 6 of its boot, for every agent that waits for it (R379, R477). DEDUCED (log 206): in
recovery, in which the Keeper accepts image and key commands and nothing else (R378), accesses end in the same way. -/
def Chip.keeperBusy (c : Chip) (ag : Agent) : Bool :=
  match ag with
  | .vsi _ => !c.keeperRuns
  | .mgmt _ => !c.keeperRuns
  | .keeper => false
  | .lampRoom => false

/-- The station, or the Relay (16), that an offset lies in. -/
def islandAt (off : Nat) : Option Nat :=
  if 0x200000 ≤ off ∧ off < 0x300000 then some ((off - 0x200000) / 0x10000)
  else if 0x400000 ≤ off ∧ off < 0x600000 then some ((off - 0x400000) / 0x4000 / 8)
  else if 0x2000000 ≤ off ∧ off < 0x3000000 then some 16
  else none

/-- An access to a gated station or Relay island opens its gate, which closes again no sooner than 1 ms later (R441); one that a
gate was requested for keeps running. -/
def Chip.openGate (c : Chip) (off : Nat) : Chip :=
  match islandAt off with
  | some i =>
    let f := if i < 16 then Bit.GATE_STATUS_STATION else Bit.GATE_STATUS_RELAY
    let k := if i < 16 then i else 0
    let isl := if i < 16 then 64 + i else 82
    let asked := c.pwr.darkStep == 0 && c.pwr.gateReq.contains isl
    if c.fldBit Reg.GATE_STATUS f k || asked then
      let c := c.putBit Reg.GATE_STATUS f k false
      { c with pwr := { c.pwr with
        gateReq := if asked then c.pwr.gateReq.erase isl else c.pwr.gateReq
        gateAfter := (isl, c.now + ms) :: c.pwr.gateAfter.filter (fun e => e.1 != isl) } }
    else c
  | none => c

/-- KEEPER_BUSY_CNT (R379). -/
def Chip.countBusy (c : Chip) : Chip := c.satInc Reg.KPR_EVENT Bit.KPR_EVENT_KEEPER_BUSY_CNT

/-- The number that stands for an agent in a log record. -/
def Agent.num : Agent → Nat
  | .vsi v => v
  | .keeper => 64
  | .mgmt k => 65 + k
  | .lampRoom => 67

/-! ## Accesses that a crossing holds (R21) -/

/-- The island, as GATE_LOG numbers them, whose registers lie at an offset. The MEM block is that of the four LPDDR6 controllers,
which one clock source drives. DEDUCED (log 60): an access to it enters at MC_0. -/
def clockIsland (off : Nat) : Option Nat :=
  match islandAt off with
  | some i => some (if i < 16 then 64 + i else 82)
  | none =>
    if 0x100000 ≤ off ∧ off < 0x200000 then some 80
    else if 0x600000 ≤ off ∧ off < 0x640000 then some ((off - 0x600000) / 0x1000)
    else if 0x700000 ≤ off ∧ off < 0x800000 then some 87
    else if 0xC00000 ≤ off ∧ off < 0x1000000 then some 81
    else if 0x3400000 ≤ off ∧ off < 0x3500000 then some 83
    else none

/-- The island an offset lies in is in reset: a station with its lane quads (Table 15.3) from STN_RESET.BUSY to the end of its
reset, any other island while it is left on the IRO (R434). -/
def Chip.islandHeld (c : Chip) (off : Nat) : Bool :=
  match clockIsland off with
  | some i => if i < 80 then c.fldBit Reg.STN_RESET Bit.STN_RESET_BUSY (if i < 64 then i / 4 else i - 64) else !c.clocked i
  | none => false

/-- GATE_LOG of an abandoned or forced gate. -/
def Chip.gateLog (c : Chip) (i : Nat) (forced : Bool) : Chip :=
  c.wr Reg.GATE_LOG (BitVec.ofNat 32 (i % 128 + 128 * b2n forced + c.watchTime / us % 2 ^ 24 * 256))

/-- An access waits at the crossing. -/
def Chip.holdAccess (c : Chip) (ag : Agent) (off : Nat) (k : AccessKind) : Chip :=
  { c with heldAcc := c.heldAcc ++ [⟨ag, off, k⟩] }

/-- The held accesses of an agent, selected by their offset, end under a forced gate (R439): all ones for a read, and nothing
is written. -/
def Chip.abortHeld (c : Chip) (sel : Nat → Bool) : Chip :=
  let gone := c.heldAcc.filter (fun h => sel h.off)
  if gone.isEmpty then c
  else
    let c := { c with heldAcc := c.heldAcc.filter (fun h => !sel h.off) }.setBit Reg.CLK_EVENT Bit.CLK_EVENT_GATED_ABORT
    gone.foldl (fun c h =>
      let c := c.gateLog ((clockIsland h.off).getD 0) true
      let c := match h.kind with
        | .read => c.emit (.regData h.ag h.off (2 ^ 32 - 1))
        | .write _ => c
        | .readMsg _ => c
        | .writeMsg _ => c
        | .page .. => c
      c.emit (.regError h.ag h.off .gatedAbort)) c

/-- The next access at an offset meets a parity error (R518). -/
def Chip.busUpset (c : Chip) (off : Nat) : Bool := c.saf.busUpset.contains off

/-- A parity error on the register bus ends the access with an error response, and is logged (R518, Table 12.1). -/
def Chip.parityEnd (c : Chip) (ag : Agent) (off : Nat) : Chip :=
  (({ c with saf := { c.saf with busUpset := c.saf.busUpset.filter (· != off) } }).log .busParity [ag.num, off]).emit
    (.regError ag off .busParity)

/-! ## A host's TLPs to the BARs of its Relay function (R265) -/

/-- The key under which Bus Master Enable of a bridge is kept. -/
def keyBme : Nat := 17

/-- Max_Payload_Size and Max_Read_Request_Size of the Relay function, in bytes: keys 40 and 41 of its configuration state
hold the code plus 1; at reset they are PCIe's 128 and 512 bytes. -/
def cfgMps : Nat := 40
def cfgMrrs : Nat := 41
def Chip.relayMps (c : Chip) (v : Nat) : Nat :=
  let k := (c.cfg v 1 cfgMps).toNat
  if k = 0 then 128 else codeBytes (k - 1)
def Chip.relayMrrs (c : Chip) (v : Nat) : Nat :=
  let k := (c.cfg v 1 cfgMrrs).toNat
  if k = 0 then 512 else codeBytes (k - 1)

/-- Bytes up to the next multiple of 4 KiB and of `m`. -/
def pieceLen (m addr left : Nat) : Nat := min left (min (4096 - addr % 4096) (m - addr % m))

/-! ## Answers -/

/-- The bytes that a read returns: a zero-length one is handled as a read of one DW (R536). -/
def Tlp.readLen (t : Tlp) : Nat := if t.len = 0 then 4 else t.len

/-- The completions of a read, cut at Max_Payload_Size of the Relay function (R267); the completer is the Relay function. That of a
zero-length read has Byte Count 1 (R536). -/
def Chip.barCpls (c : Chip) (r : Rx) (v : Nat) : Nat → Nat → List Byte → Chip
  | 0, _, _ => c
  | fuel + 1, a, data =>
    if data.isEmpty then c
    else
      let t := r.tlp
      let n := pieceLen (c.relayMps v) a data.length
      let x : Tlp := { kind := .cpl, hdr := 16, rid := t.rid, tag := t.tag, tc := t.tc, attr := t.attr, tee := t.tee, status := stSC
                       byteCount := if t.len = 0 then 1 else data.length, lower := a % 128, len := n, data := data.take n
                       cid := c.fld (Reg.VSI_STATUS v) Bit.VSI_STATUS_HOST_BUS * 256 + 1 }
      (c.emit (.tlp r.port x false)).barCpls r v fuel (a + n) (data.drop n)

/-- The access is over: its credits return and its TLP is acknowledged. -/
def Chip.barDone (c : Chip) (r : Rx) : Chip := (c.rxBack r).ackNow r []

def Chip.barRead (c : Chip) (r : Rx) (v : Nat) (data : List Byte) : Chip := (c.barCpls r v data.length r.tlp.addr data).barDone r

def leWord (n count : Nat) : List Byte := (leBytes count n).map (BitVec.ofNat 8)

/-- The BAR that the oldest waiting TLP of an upstream port names: the TLP, the others, the VSI and the BAR. -/
def Chip.barTlp (c : Chip) (p : Nat) : Option (Rx × List Rx × Nat × BarHit) :=
  if !(c.port p).up || c.inPortFog p then none
  else
    match takeFirst (c.rxReady p) c.sw.rx with
    | some (r, l) =>
      if r.tlp.isMem && !r.tlp.isMalformed then
        (c.vsiOfPort p).bind (fun v => (c.barHit v r.tlp.addr).map (fun h => (r, l, v, h)))
      else none
    | none => none

/-- A whole access to BAR0 that a host's TLP carries and that waits for an island ends under a forced gate as a held access does
(R434, R439): a read with all ones, and a write discarded. -/
def Chip.abortBars (c : Chip) (isl : Nat) : Chip :=
  ((List.range 64).filterMap c.portOfVsi).foldl (fun c p =>
    match c.barTlp p with
    | some (r, l, v, .regs off) =>
      if clockIsland off = some isl ∧ r.whole = true ∧ c.islandHeld off = true then
        let c := ({ c with sw := { c.sw with rx := l } }.setBit Reg.CLK_EVENT Bit.CLK_EVENT_GATED_ABORT).gateLog isl true
        let c := if r.tlp.kind = .mwr then c.barDone r else c.barRead r v (List.replicate r.tlp.readLen 0xFF)
        c.emit (.regError (.vsi v) off .gatedAbort)
      else c
    | _ => c) c

/-- A write access to one register: discarded while the Keeper is busy, ignored and logged outside the view, held while the
island is in reset where the access carries a word, or performed once the gate is open. It ends with a completion, or with the
error response of a parity error (R27, R518). -/
def Chip.busAccess (c : Chip) (ag : Agent) (off : Nat) (w : Option Word) (act : Chip → Chip) : Chip :=
  if !c.busRuns ag then c
  else if c.keeperBusy ag then c.countBusy.emit (.regDone ag off)
  else
    match c.sees ag off with
    | .full =>
      match w, c.islandHeld off with
      | some w, true => c.holdAccess ag off (.write w)
      | _, _ => if c.busUpset off then c.parityEnd ag off else (act (c.openGate off)).emit (.regDone ag off)
    | .readOnly => c.emit (.regDone ag off)
    | .hidden =>
      match ag with
      | .vsi v => (if c.isManager v then c else c.log .viewWrite [v, off]).emit (.regDone ag off)
      | _ => c.emit (.regDone ag off)

/-- A write to a register of an island that no reset holds. -/
def Chip.busWrite (c : Chip) (ag : Agent) (off : Nat) (act : Chip → Chip) : Chip := c.busAccess ag off none act

/-- A write of a word to a register of a station, the Relay, the Mooring or the Beacon. -/
def Chip.busWriteW (c : Chip) (ag : Agent) (off : Nat) (w : Word) (act : Chip → Chip) : Chip := c.busAccess ag off (some w) act

/-- The word that a write of one field carries, the other fields as they stand. -/
def Chip.wordWith (c : Chip) (off : Nat) (f : Fld) (v : Nat) : Word := setF (c.rd off) f v

/-! ## Commits (R193) -/

/-- The next generation of a commit register. -/
def Chip.nextGen (c : Chip) (active : Nat) : Nat := (c.fld active ⟨15, 0⟩ + 1) % 65536

/-- The generation goes into force. -/
def Chip.setGen (c : Chip) (active gen : Nat) : Chip := c.setFld active ⟨15, 0⟩ gen

end Sys2Proof.Machine
end

