-- ==== Sys2Proof/Machine/Ports.lean ====
section
/-!
DEFINITION. Events on PCIe ports and their lanes: link up and down (R82, R537), DPC release (R99), presence (R471),
PERST_N and the clock of a cable site (R101, R468 to R470), LINK_DISABLE (R167), PLL lock (R105), training (R109 to R117) and DIM standby (R443).
-/
namespace Sys2Proof.Machine

/-! ## Presence (R471) -/

/-- The Keeper reads the identity memory of a cable and logs it, or logs that the read failed (R472). -/
def Chip.readCable (c : Chip) (site : Nat) (ident : Option (List Nat)) : Chip :=
  match ident with
  | some bytes => c.log .cableId [site] bytes
  | none => c.log .cableCmFail [site]

/-- PRSNT_CHANGE. `low`: PRSNT_N reads low; `ident`: what the read of the identity memory returns, none when it fails. -/
def Chip.prsntChange (c : Chip) (site : Nat) (low : Bool) (ident : Option (List Nat)) : Chip :=
  if c.pci.prsnt.contains site == low then c
  else
    let l := if low then site :: c.pci.prsnt else c.pci.prsnt.erase site
    let c := { c with pci := { c.pci with prsnt := l, cableId := SMap.set c.pci.cableId site (if low then ident else none) none } }
    match c.leadOf site with
    | none => c
    | some p =>
      let c := { c with pci := { c.pci with cableBad := c.pci.cableBad.erase p } }
      let c := c.log .presence [site] [b2n low]
      let c := if low && c.keeperRuns then c.readCable site ident else c
      if (c.port p).up then c else c.syncPresence p

def execPrsntChange (site : Nat) (low : Bool) (ident : Option (List Nat)) (s : State) : Host.Outcome State Fault Refusal :=
  .next { s with chip := s.chip.prsntChange site low ident }

/-- CABLE_MISMATCH: the two PRSNT_N of a x16 port differ for 100 ms (R471). -/
def Chip.cableMismatch (c : Chip) (p : Nat) : Chip :=
  let ls := (c.sitesOf p).map (fun i => c.pci.prsnt.contains i)
  if (c.port p).present && (c.port p).width == 4 && ls.any id && ls.any not then
    let c := { c with pci := { c.pci with cableBad := p :: c.pci.cableBad.erase p } }
    let c := c.log .cableMismatch [p]
    if (c.port p).up then c else c.syncPresence p
  else c

def execCableMismatch (p : Nat) (s : State) : Host.Outcome State Fault Refusal :=
  .next { s with chip := s.chip.cableMismatch p }

/-! ## PERST_N and the clock of a cable site (R101, R468 to R470) -/

/-- PERST_N of a downstream site is asserted while any port on it asks for it. -/
def Chip.sitePerst (c : Chip) (site : Nat) : Bool :=
  (c.portsOfStation (site / 2)).any (fun p => (c.sitesOf p).contains site && !(c.port p).up &&
    (c.pci.perstHeld.contains p || c.flag (Reg.PRT_CTRL p) Bit.PRT_CTRL_PERST_ASSERT))

/-- CS_c_CLK_P/N of a site runs (R469): a downstream common-clock port with a lane on the site has CLK_OUT, and nothing of what
stops the output holds: PERST_N of the site, a station reset, DARK, RESET_N. CLKREQ_N does not stop it (R470). -/
def Chip.siteClock (c : Chip) (site : Nat) : Bool :=
  c.pwr.pgood && !c.pwr.resetLow && decide (c.fld Reg.GLB_PWR_STATUS Bit.GLB_PWR_STATUS_STATE < 2) && c.pwr.darkStep == 0 &&
    c.fldBit Reg.START_STATUS Bit.START_STATUS_STATION (site / 2) && !c.fldBit Reg.STN_RESET Bit.STN_RESET_BUSY (site / 2) &&
    !c.sitePerst site && (c.portsOfStation (site / 2)).any (fun p =>
      (c.sitesOf p).contains site && !(c.port p).up && !(c.port p).sris && (c.port p).clkOut)

/-- The downstream ports that share a cable site with a port. -/
def Chip.siteMates (c : Chip) (p : Nat) : List Nat :=
  (c.portsOfStation (portStation p)).filter (fun q =>
    !(c.port q).up && (c.sitesOf q).any (fun i => (c.sitesOf p).contains i))

/-- A write of one field of PRT_CTRL. -/
def Chip.prtCtrl (c : Chip) (ag : Agent) (p : Nat) (f : Fld) (v : Nat) (act : Chip → Chip) : Chip :=
  c.busWriteW ag (Reg.PRT_CTRL p) (c.wordWith (Reg.PRT_CTRL p) f v) act

/-- PERST_ASSERT is written (R101): PERST_N of the port's sites falls, and every link behind them is lost; or it rises when
no other port holds it. Ignored on upstream ports. -/
def Chip.setPerst (c : Chip) (p : Nat) (on : Bool) : Chip :=
  let c := c.setFld (Reg.PRT_CTRL p) Bit.PRT_CTRL_PERST_ASSERT (b2n on)
  if !(c.port p).present || (c.port p).up then c
  else
    let c := c.emit (.perst p ((c.sitesOf p).any c.sitePerst))
    if on then (c.siteMates p).foldl (fun c q => if c.isSpan q then c else (c.dropJoint q).linkDown q true) c else c

def execPerstAssert (ag : Agent) (p : Nat) (s : State) : Host.Outcome State Fault Refusal :=
  .next { s with chip := s.chip.prtCtrl ag p Bit.PRT_CTRL_PERST_ASSERT 1 (fun c => c.setPerst p true) }

/-! ## LINK_DISABLE (R92, R167) -/

/-- LINK_DISABLE is set. A port in HELD for another cause keeps that cause, and stays in HELD while LINK_DISABLE is set (DEDUCED,
log 191). -/
def Chip.linkDisable (c : Chip) (p : Nat) : Chip :=
  let was := c.flag (Reg.PRT_CTRL p) Bit.PRT_CTRL_LINK_DISABLE
  let c := (c.setBit (Reg.PRT_CTRL p) Bit.PRT_CTRL_LINK_DISABLE).dropJoint p
  if was || !(c.port p).present then c
  else if c.isSpan p || c.spanState p = spHeld then
    let st := c.spanState p
    if st = spKinit ∨ st = spUp ∨ st = spRecovery then
      (((c.fullLinkReset p).answerPort p).holdSpan p holdLinkDisable)
    else if st = spHeld then c
    else (c.answerPort p).holdSpan p holdLinkDisable
  else
    let c := c.emit (.linkIdle p)
    if c.dlUp p then c.linkDown p true else c.answerPort p

def execLinkDisableSet (ag : Agent) (p : Nat) (s : State) : Host.Outcome State Fault Refusal :=
  .next { s with chip := s.chip.prtCtrl ag p Bit.PRT_CTRL_LINK_DISABLE 1 (fun c => c.linkDisable p) }

/-- LINK_DISABLE is cleared: the link is released; a span port held for it leaves through a full link reset. -/
def Chip.linkEnable (c : Chip) (p : Nat) : Chip :=
  let c := c.clrFld (Reg.PRT_CTRL p) Bit.PRT_CTRL_LINK_DISABLE
  if c.spanState p = spHeld ∧ c.holdCause p = holdLinkDisable then c.leaveHeld p else c

def execLinkDisableClear (ag : Agent) (p : Nat) (s : State) : Host.Outcome State Fault Refusal :=
  .next { s with chip := s.chip.prtCtrl ag p Bit.PRT_CTRL_LINK_DISABLE 0 (fun c => c.linkEnable p) }

/-! ## PCIe links -/

/-- A link loss that the module did not cause (R537). -/
def LinkLoss.requested : LinkLoss → Bool
  | .ownerReset => true
  | .cable => false
  | .signal => false
  | .partner => false
  | .retrain => false

/-- PCIE_LINK_DOWN. -/
def Chip.pcieLinkDown (c : Chip) (p : Nat) (why : LinkLoss) : Chip :=
  if c.isSpan p then c else c.linkDown p why.requested

def execPcieLinkDown (p : Nat) (why : LinkLoss) (s : State) : Host.Outcome State Fault Refusal :=
  .next { s with chip := s.chip.pcieLinkDown p why }

/-- DPC_RELEASE: the owner clears DPC Trigger Status (R99); the link may train again. -/
def Chip.dpcRelease (c : Chip) (p : Nat) : Chip := c.clrFld (Reg.PRT_STATUS p) Bit.PRT_STATUS_DPC_ACTIVE

def execDpcRelease (p : Nat) (s : State) : Host.Outcome State Fault Refusal :=
  .next { s with chip := s.chip.dpcRelease p }

/-- The six committed credit values of a port, PH to CplD. -/
def Chip.poolCredits (c : Chip) (p : Nat) : List Nat :=
  [c.tabF false (Reg.POOL_PH p) Bit.POOL_PH_COUNT, c.tabF false (Reg.POOL_PD p) Bit.POOL_PD_COUNT,
   c.tabF false (Reg.POOL_NPH p) Bit.POOL_NPH_COUNT, c.tabF false (Reg.POOL_NPD p) Bit.POOL_NPD_COUNT,
   c.tabF false (Reg.POOL_CPLH p) Bit.POOL_CPLH_COUNT, c.tabF false (Reg.POOL_CPLD p) Bit.POOL_CPLD_COUNT]

/-- A ready VSI whose port is in DL_Active sends one Device Readiness Status (R257, R414). -/
def Chip.sendDrs (c : Chip) (v : Nat) : Chip :=
  if c.flag (Reg.VSI_STATUS v) Bit.VSI_STATUS_READY && c.flag (Reg.VSI_STATUS v) Bit.VSI_STATUS_LINK_UP &&
      !c.flag (Reg.VSI_STATUS v) Bit.VSI_STATUS_DRS_SENT && !c.inModFog then
    (c.setBit (Reg.VSI_STATUS v) Bit.VSI_STATUS_DRS_SENT).emit (.drs v)
  else c

/-- The link of a port may run: the port exists on a station that is up, nothing holds it, and an upstream port has a
VSI and a Keeper that is not in recovery (R378). -/
def Chip.mayTrain (c : Chip) (p : Nat) : Bool :=
  c.portUp p && !c.flag (Reg.PRT_CTRL p) Bit.PRT_CTRL_LINK_DISABLE && !c.inPortFog p &&
    !c.flag (Reg.PRT_STATUS p) Bit.PRT_STATUS_DPC_ACTIVE && c.pwr.darkStep == 0 &&
    c.spanState p == spDown && !c.pci.phyUp.contains p &&
    (c.quadsOf p).all (fun q => c.flag (Reg.LQ_STATUS q) Bit.LQ_STATUS_PLL_LOCK && !c.pwr.standbyQuads.contains q) &&
    (if (c.port p).up then (c.vsiOfPort p).isSome && !c.perstLow p && c.fld Reg.KPR_STATUS Bit.KPR_STATUS_STAGE != 2
     else !((c.sitesOf p).any c.sitePerst))

/-- PCIE_LINK_UP: a port whose PHY is in L0 reaches DL_Up (R82, R87). `credits`: what the link partner advertises. -/
def Chip.pcieLinkUp (c : Chip) (p : Nat) (credits : List Nat) : Chip :=
  if !c.pci.phyUp.contains p || c.dlUp p then c
  else
    let cr := c.poolCredits p
    let c := ((c.setBit (Reg.PRT_STATUS p) Bit.PRT_STATUS_DL_UP).emit (.advertise p cr)).log .linkUp [p]
    let rid := c.fld (Reg.ORT_RID p) Bit.ORT_RID_RID
    let c := { c with pci := { c.pci with
      adv := SMap.set c.pci.adv p cr []
      ridInForce := SMap.set c.pci.ridInForce p rid (0xFF00 + p) } }
    let c := { c with sw := { c.sw with txCredit := SMap.set c.sw.txCredit p credits [] } }
    if (c.port p).up then
      match c.vsiOfPort p with
      | some v => (c.setBit (Reg.VSI_STATUS v) Bit.VSI_STATUS_LINK_UP).sendDrs v
      | none => c
    else (c.syncPresence p).reportPort p true

def execPcieLinkUp (p : Nat) (credits : List Nat) (s : State) : Host.Outcome State Fault Refusal :=
  .next { s with chip := s.chip.pcieLinkUp p credits }

/-! ## Lane quads (R105) -/

/-- PLL_LOCK_LOST. -/
def Chip.pllLost (c : Chip) (q : Nat) : Chip :=
  if !c.flag (Reg.LQ_STATUS q) Bit.LQ_STATUS_PLL_LOCK then c
  else
    let c := c.clrFld (Reg.LQ_STATUS q) Bit.LQ_STATUS_PLL_LOCK
    let c := (c.setBit (Reg.LQ_EVENT q) Bit.LQ_EVENT_PLL_LOST).log .plLost [q]
    (c.portsOfQuad q).foldl (fun c p =>
      let c := c.dropJoint p
      if c.isSpan p then
        (if c.spanState p = spKinit ∨ c.spanState p = spUp ∨ c.spanState p = spRecovery then c.fullLinkReset p else c)
      else if c.dlUp p then c.linkDown p false
      else { c with pci := { c.pci with phyUp := c.pci.phyUp.erase p } }) c

def execPllLockLost (q : Nat) (s : State) : Host.Outcome State Fault Refusal := .next { s with chip := s.chip.pllLost q }

/-- PLL_RELOCKED: the quad's ports may train again. -/
def Chip.pllBack (c : Chip) (q : Nat) : Chip :=
  if q < 64 ∧ !c.flag (Reg.LQ_STATUS q) Bit.LQ_STATUS_PLL_LOCK ∧ (c.portsOfQuad q).any (fun p => c.stUp (portStation p)) then
    (c.setBit (Reg.LQ_STATUS q) Bit.LQ_STATUS_PLL_LOCK).log .pllBack [q]
  else c

def execPllRelocked (q : Nat) (s : State) : Host.Outcome State Fault Refusal := .next { s with chip := s.chip.pllBack q }

/-! ## Training (R109 to R117) -/

/-- Set a field of LQ_EVENT in every quad of a port. -/
def Chip.lqEvent (c : Chip) (p : Nat) (f : Fld) : Chip := (c.quadsOf p).foldl (fun c q => c.setBit (Reg.LQ_EVENT q) f) c

/-- A port fails to reach L0 and returns to Detect; every quad of it counts the failure (R109). -/
def Chip.trainFail (c : Chip) (p : Nat) : Chip :=
  ((c.quadsOf p).foldl (fun c q => c.satInc (Reg.LQ_EVENT q) Bit.LQ_EVENT_TRAIN_FAIL) c).log .trainFail [p]

/-- The lanes of a port as training uses them: logical lane i is physical lane o + w − 1 − i after a reversal, and a port that
downtrains uses its lowest logical lanes (R112). -/
def Chip.usedLanes (c : Chip) (p lanes : Nat) (reversed : Bool) : List Nat :=
  let w := widthLanes (c.port p).width
  (List.range (min lanes w)).map (fun i => c.firstLane p + (if reversed then w - 1 - i else i))

/-- What training found about a port's lanes: polarity of every lane by its place in the port, reversal, and, for the lanes in
use, presets and CTLE codes in logical order and the rate they hold for. -/
def Chip.laneResults (c : Chip) (p rate lanes : Nat) (reversed : Bool) (inverted : Nat) (eq : List (Nat × Nat)) : Chip :=
  let first := c.firstLane p
  let used := c.usedLanes p lanes reversed
  let c := (List.range (widthLanes (c.port p).width)).foldl (fun c i =>
    c.putBit (Reg.LQ_STATUS ((first + i) / 4)) Bit.LQ_STATUS_POL_INV ((first + i) % 4) (bitOf inverted i)) c
  let c := used.zipIdx.foldl (fun c l =>
    let r := Reg.LANE_EQ (l.1 / 4) (l.1 % 4)
    let c := match eq[l.2]? with
      | some e => (c.setFld r Bit.LANE_EQ_TX_PRESET e.1).setFld r Bit.LANE_EQ_CTLE e.2
      | none => c
    c.setFld r Bit.LANE_EQ_RATE rate) c
  let c := { c with pci := { c.pci with laneMap := SMap.set c.pci.laneMap p used [] } }
  (c.quadsOf p).foldl (fun c q =>
    if first ≤ 4 * q then c.setFld (Reg.LQ_STATUS q) Bit.LQ_STATUS_REVERSED (b2n reversed)
    else c.setFld (Reg.LQ_STATUS q) Bit.LQ_STATUS_REVERSED_HI (b2n reversed)) c

/-- PRT_ID.KAUND follows the training; a port that trains in a different mode clears its 16 counters and logs their last
values (R489). -/
def Chip.setMode (c : Chip) (p : Nat) (kaund : Bool) : Chip :=
  if c.isSpan p == kaund then c
  else
    let last := (List.range 16).map (c.ctr kPort p)
    ((c.setFld (Reg.PRT_ID p) Bit.PRT_ID_KAUND (b2n kaund)).log .portMode [p, b2n kaund] last).ctrClear kPort p

/-- The other x2 port of a shared quad. -/
def Chip.quadMate (c : Chip) (p : Nat) : Option Nat :=
  if (c.port p).width = 1 then
    ((c.quadsOf p).flatMap c.portsOfQuad).find? (fun q => q != p && (c.port q).width == 1)
  else none

/-- A port is in L0, as either kind, or in LTSSM Recovery, which keeps its rate (R103, R165). -/
def Chip.inL0 (c : Chip) (p : Nat) : Bool :=
  c.pci.phyUp.contains p || c.spanState p == spKinit || c.spanState p == spUp || c.spanState p == spRecovery

/-- The port is held for KAUND_RATE_FAIL, and tries again after HOLD_RETRY (R117, R167). -/
def Chip.rateFail (c : Chip) (p : Nat) : Chip :=
  ((((c.lqEvent p Bit.LQ_EVENT_KAUND_RATE_FAIL).log .rateFail [p]).setMode p true).holdSpan p holdKaundRate).arm
    (.holdRetry p) (c.fld (Reg.REPLAY_CFG p) Bit.REPLAY_CFG_HOLD_RETRY * 100 * ms)

/-- Default OVERHEAD of a mode and rate (Table 10.3). -/
def defaultOverhead (kaund flit : Bool) (rate : Nat) : Nat :=
  if kaund then 52 else if flit then 23 else if rate < 2 then 78 else 12

/-- OVERHEAD takes its default when a port trains (R314), in the shadow and in force. -/
def Chip.trainOverhead (c : Chip) (p v : Nat) : Chip :=
  let off := Reg.PORT_SCH p
  (c.setFld off Bit.PORT_SCH_OVERHEAD v).putTab off (setF (c.tab false off) Bit.PORT_SCH_OVERHEAD v)

/-- The port reaches L0 at `rate` in its mode: a span port enters KINIT (R163), a PCIe port awaits DL_Up. -/
def Chip.enterL0 (c : Chip) (p rate lanes : Nat) (flit kaund : Bool) : Chip :=
  let c := { c with pci := { c.pci with jointLeft := c.pci.jointLeft.erase p } }
  let c := c.trainOverhead p (defaultOverhead kaund flit rate)
  let c := ((c.setFld (Reg.PRT_STATUS p) Bit.PRT_STATUS_RATE rate).setFld (Reg.PRT_STATUS p) Bit.PRT_STATUS_WIDTH
    lanes).setFld (Reg.PRT_STATUS p) Bit.PRT_STATUS_FLIT (b2n flit)
  if kaund then
    if rate < 5 then c.rateFail p
    else
      let c := c.setMode p true
      let c := (c.setFld (Reg.SPAN_STATUS p) Bit.SPAN_STATUS_RATE (b2n (decide (rate = 6)))).setFld (Reg.SPAN_STATUS p)
        Bit.SPAN_STATUS_WIDTH lanes
      (c.setFld (Reg.SPAN_STATUS p) Bit.SPAN_STATUS_FACING (b2n (c.port p).facing)).startKinit p
  else
    let c := c.setMode p false
    { c with pci := { c.pci with phyUp := p :: c.pci.phyUp } }

/-- The equalization of a lane that changes its rate ends with a preset and a CTLE code that no command names: free values. -/
def Chip.reEqualized (c : Chip) (rate lane : Nat) : Chip :=
  let r := Reg.LANE_EQ (lane / 4) (lane % 4)
  let c := c.setFld r Bit.LANE_EQ_RATE rate
  if rate < 2 then c
  else
    let a := c.freeVal % 11
    let c := c.drew
    ((c.setFld r Bit.LANE_EQ_TX_PRESET a).setFld r Bit.LANE_EQ_CTLE (c.freeVal % 16)).drew

/-- The first port of a shared quad follows a quad rate that fell (R113). A span port does so in the training after its full
link reset, which holds it where the rate is below 64 GT/s (R117). -/
def Chip.followRate (c : Chip) (p rate : Nat) : Chip :=
  if c.isSpan p then c.fullLinkReset p
  else
    let c := (c.setFld (Reg.PRT_STATUS p) Bit.PRT_STATUS_RATE rate).ctrInc kPort p 9
    (SMap.get c.pci.laneMap p []).foldl (fun c l => c.reEqualized rate l) c

/-- The highest rate that a port may train to: its Light List maximum (R109), 32 GT/s without flit mode (R79), and RATE_CAP
where it trains for Kaund (R165). -/
def Chip.rateLimit (c : Chip) (p : Nat) (flit kaund : Bool) : Nat :=
  let a := if flit then (c.port p).maxRate else min 4 (c.port p).maxRate
  if kaund && c.flag (Reg.SPAN_CTRL p) Bit.SPAN_CTRL_RATE_CAP then min 5 a else a

/-- The most lanes that a port may train to: its width, and WIDTH_CAP where it trains for Kaund (R165). -/
def Chip.widthLimit (c : Chip) (p : Nat) (kaund : Bool) : Nat :=
  let w := widthLanes (c.port p).width
  let cap := c.fld (Reg.SPAN_CTRL p) Bit.SPAN_CTRL_WIDTH_CAP
  if kaund && decide (cap ≠ 0) then min w (widthLanes cap) else w

/-- What training found, within what the port allows. -/
def Chip.limited (c : Chip) (p : Nat) (r : TrainResult) : TrainResult :=
  match r with
  | .fail => .fail
  | .l0 rate lanes flit kaund role eqf rev inv ls =>
    let k := (c.port p).kaund && kaund
    .l0 (min rate (c.rateLimit p flit k)) (min lanes (c.widthLimit p k)) flit k role eqf rev inv ls

/-- What a port offers as it trains: flit mode, its highest rate, its width, the starting values of its lanes and No Equalization
Needed from the Light List (R79, R109, R110), and, where Kaund is allowed, the identifier, the usage value, version 1 and its
role bit: a down-facing port proposes (R114). -/
def Chip.offerOf (c : Chip) (p : Nat) : TrainOffer :=
  let e := c.port p
  { maxRate := c.rateLimit p true e.kaund, width := c.widthLimit p e.kaund, noEq := e.noEq
    lanes := (List.range (widthLanes e.width)).map (fun i =>
      let l := ((c.ll.map (·.lanes)).getD []).getD (c.firstLane p + i) {}
      (l.presets, l.ctle, l.taps))
    kaund := if e.kaund then some (Config.vomeonId, Config.kaundUsage, 1, !e.facing) else none }

/-- The partner takes the role of this port, which holds its link down (R114): it reaches no rate. -/
def Chip.sameRole (c : Chip) (p : Nat) (r : TrainResult) : Bool :=
  match r with
  | .fail => false
  | .l0 _ _ _ _ role _ _ _ _ => (c.port p).kaund && role == some (!(c.port p).facing)

/-- A port's result goes into effect at the given rate; a rate below what its partner allowed sets EQ_FALLBACK. R113 says so of
two ports that train together; that a second port held to the rate of the first does the same is a DESIGN CHOICE (log 162). -/
def Chip.applyTraining (c : Chip) (p rate : Nat) (r : TrainResult) : Chip :=
  match r with
  | .fail => c.trainFail p
  | .l0 own lanes flit kaund _ eqf rev inv ls =>
    if c.sameRole p r then
      ((c.lqEvent p Bit.LQ_EVENT_ROLE_CONFLICT).log .roleConflict [p]).holdSpan p holdRoleConflict
    else
      let c := if eqf then (c.lqEvent p Bit.LQ_EVENT_EQ_FALLBACK).log .eqFallback [p] else c
      let c := if rate < own then c.lqEvent p Bit.LQ_EVENT_EQ_FALLBACK else c
      let c := c.laneResults p rate lanes rev inv ls
      c.enterL0 p rate lanes flit kaund

def TrainResult.rate : TrainResult → Nat
  | .fail => 0
  | .l0 r .. => r

/-- A training result of a port, within its limits, alone or beside the other x2 port of its quad (R113). A port that holds its
link down for its role reaches no rate: it changes none of the other's, and a port that waited for it goes on alone. -/
def Chip.trained (c : Chip) (p : Nat) (r : TrainResult) : Chip :=
  match c.quadMate p with
  | none => c.applyTraining p r.rate r
  | some q =>
    if c.sameRole p r then
      let c := c.applyTraining p r.rate r
      match c.pci.joint.find? (fun j => j.1 == q) with
      | some j =>
        let c := c.dropJoint q
        if c.mayTrain q then c.applyTraining q j.2.rate j.2 else c
      | none => c
    else if c.inL0 q then
      let quad := c.fld (Reg.PRT_STATUS q) Bit.PRT_STATUS_RATE
      if r.rate < quad then (c.followRate q r.rate).applyTraining p r.rate r
      else c.applyTraining p quad r
    else
      match c.pci.joint.find? (fun j => j.1 == q) with
      | some j =>
        let c := c.dropJoint q
        if c.mayTrain q then
          let rate := min r.rate j.2.rate
          (c.applyTraining q rate j.2).applyTraining p rate r
        else c.applyTraining p r.rate r
      | none =>
        if !c.mayTrain q || c.pci.jointLeft.contains q then c.applyTraining p r.rate r
        else { c with pci := { c.pci with joint := (p, r) :: c.pci.joint } }

/-- LINK_TRAINING_DONE (R109 to R117): the port has made its offer, and its PHY has ended training. -/
def Chip.trainingDone (c : Chip) (p : Nat) (r : TrainResult) : Chip :=
  if !c.mayTrain p then c
  else
    let c := (c.dropJoint p).emit (.offer p (c.offerOf p))
    if r = .fail then c.trainFail p else c.trained p (c.limited p r)

def execLinkTrainingDone (p : Nat) (r : TrainResult) (s : State) : Host.Outcome State Fault Refusal :=
  .next { s with chip := s.chip.trainingDone p r }

/-- JOINT_TRAINING_TIMEOUT: after 24 ms in Detect a port with no partner leaves the joint training; the quad rate is the
other port's rate (R113). -/
def Chip.jointTimeout (c : Chip) (p : Nat) : Chip :=
  if !c.mayTrain p then c
  else
    match c.quadMate p with
    | none => c
    | some q =>
      let c := { c with pci := { c.pci with jointLeft := p :: c.pci.jointLeft.erase p } }
      match c.pci.joint.find? (fun j => j.1 == q) with
      | some j =>
        let c := c.dropJoint q
        if c.mayTrain q then c.applyTraining q j.2.rate j.2 else c
      | none => c

def execJointTrainingTimeout (p : Nat) (s : State) : Host.Outcome State Fault Refusal :=
  .next { s with chip := s.chip.jointTimeout p }

/-! ## DIM (R443) -/

/-- Every port of a quad is out of DL_Active and UP. -/
def Chip.quadIdle (c : Chip) (q : Nat) : Bool :=
  let ps := c.portsOfQuad q
  !ps.isEmpty && ps.all (fun p => !c.dlUp p && c.spanState p != spUp)

/-- DIM_RECEIVER_DETECT: every 12 ms an idle quad in standby looks for a partner; one that finds it leaves standby. -/
def Chip.dimDetect (c : Chip) (q : Nat) (partner : Bool) : Chip :=
  if c.fld Reg.GLB_PWR_STATUS Bit.GLB_PWR_STATUS_STATE ≠ 1 || !c.quadIdle q then c
  else
    let l := c.pwr.standbyQuads.erase q
    { c with pwr := { c.pwr with standbyQuads := if partner then l else q :: l } }

def execDimReceiverDetect (q : Nat) (partner : Bool) (s : State) : Host.Outcome State Fault Refusal :=
  .next { s with chip := s.chip.dimDetect q partner }

end Sys2Proof.Machine
end

