-- ==== Sys2Proof/Machine/Beacon.lean ====
section
/-!
DEFINITION. The Beacon Ring (R118 to R126), fabric time (R431), and the wake events of a DARK module (R445, R448).
-/
namespace Sys2Proof.Machine

/-! ## Wake events (R445, R448) -/

/-- Bits of WAKE_CAUSE. -/
def wakeAddr : Nat := 0
def wakeAlarm : Nat := 1
def wakeBeacon : Nat := 2
def wakeCmp (k : Nat) : Nat := 3 + k

/-- The enable of a source in WAKE_CTRL lies at its bit of WAKE_CAUSE. -/
def Chip.wakeEnabled (c : Chip) (src : Nat) : Bool := bitOf (c.rd Reg.WAKE_CTRL).toNat src

/-- Restore begins (Table 16.7). -/
def Chip.startRestore (c : Chip) : Chip :=
  let c := { c with pwr := { c.pwr with restoreStep := 1, restoreAt := c.now } }
  (c.arm .restore (2 * ms)).log .wake [(c.rd Reg.WAKE_CAUSE).toNat]

/-- A wake event of an enabled source: latched during entry, the start of restore in DARK, added to WAKE_CAUSE during
restore. -/
def Chip.wakeEvent (c : Chip) (src : Nat) : Chip :=
  if !c.wakeEnabled src then c
  else
    let cause := fun (c : Chip) => c.wr Reg.WAKE_CAUSE (setF (c.rd Reg.WAKE_CAUSE) ⟨src, src⟩ 1)
    if 0 < c.pwr.restoreStep then cause c
    else if c.pwr.darkStep = 6 then (cause (c.wr Reg.WAKE_CAUSE 0)).startRestore
    else if 0 < c.pwr.darkStep then { c with pwr := { c.pwr with latched := src :: c.pwr.latched.erase src } }
    else c

/-! ## Rings -/

def Chip.ring (c : Chip) (r : Nat) : Ring := if r = 0 then c.bcn.ring0 else c.bcn.ring1

def Chip.putRing (c : Chip) (r : Nat) (x : Ring) : Chip :=
  if r = 0 then { c with bcn := { c.bcn with ring0 := x } } else { c with bcn := { c.bcn with ring1 := x } }

def lockFld (r : Nat) : Fld := if r = 0 then Bit.BCN_STATUS_LOCK0 else Bit.BCN_STATUS_LOCK1
def delayFld (r : Nat) : Fld := if r = 0 then Bit.HOP_DELAY_DELAY0 else Bit.HOP_DELAY_DELAY1

def Chip.ringLocked (c : Chip) (r : Nat) : Bool := c.flag Reg.BCN_STATUS (lockFld r)

def Chip.isMaster (c : Chip) : Bool := c.flag Reg.BCN_STATUS Bit.BCN_STATUS_MASTER
def Chip.ownModule (c : Chip) : Nat := c.fld Reg.KND_ID Bit.KND_ID_MODULE

/-- The ring that the frame timer aligns to (R123). -/
def Chip.alignRing (c : Chip) : Nat := if c.ringLocked 0 then 0 else 1

/-- The Beacon island runs with its clock and the module is LIT or DIM. -/
def Chip.beaconRuns (c : Chip) : Bool :=
  c.flag Reg.START_STATUS Bit.START_STATUS_BEACON && c.clocked 87 && c.pwr.darkStep < 3 && !c.pwr.resetLow

/-- The module is a LIT candidate for time master (R123). -/
def Chip.masterCand (c : Chip) : Bool :=
  c.flag Reg.BCN_CTRL Bit.BCN_CTRL_MASTER_CAND && c.fld Reg.GLB_PWR_STATUS Bit.GLB_PWR_STATUS_STATE == 0

/-- An ECHO request to the upstream neighbour of a ring, on both rings (R121, R123).
DESIGN CHOICE (log 74): before the neighbour is known the request is a broadcast. -/
def Chip.echoTo (c : Chip) (r : Nat) : Chip :=
  let dest := (c.ring r).neighbour
  let c := c.beaconSend 4 (dest.getD 0) dest.isNone ([0] ++ leBytes 4 (c.rd Reg.BCN_FSN).toNat)
  c.putRing r { c.ring r with echoSent := some c.now }

/-- A ring gains lock: an ECHO goes out (Table 4.4). -/
def Chip.gainLock (c : Chip) (r : Nat) : Chip := (c.setBit Reg.BCN_STATUS (lockFld r)).echoTo r

/-- A ring loses lock (R122). -/
def Chip.loseLock (c : Chip) (r : Nat) : Chip :=
  (c.clrFld Reg.BCN_STATUS (lockFld r)).satInc Reg.BCN_ERR Bit.BCN_ERR_LOCK_LOSS

/-- A mark that is missing or not good (R122). -/
def Chip.badMark (c : Chip) (r : Nat) : Chip :=
  let x := c.ring r
  let c := c.putRing r { x with good := 0, bad := x.bad + 1 }
  if c.ringLocked r && decide (2 ≤ x.bad + 1) then c.loseLock r else c

/-- WATCH_TIME follows fabric time: it slews below 1 µs of difference and steps above (R431). -/
def Chip.followTime (c : Chip) (t : Nat) : Chip :=
  let c := { c with bcn := { c.bcn with timeBase := t, timeAt := c.now } }
  let d : Int := (t : Int) - (c.watchTime : Int)
  if d.natAbs < 1000 then { c with slew := d } else { c with watchTime := t, slew := 0 }

/-- A mark as it goes on: the same FSN and master, and the fabric time with HOP_DELAY added (R123).
DESIGN CHOICE (log 74): tenths of a nanosecond of HOP_DELAY are dropped. -/
def Chip.onward (c : Chip) (r : Nat) (m : BeaconMark) : BeaconMark :=
  BeaconMark.seal { fsn := m.fsn, time := m.time + c.fld Reg.HOP_DELAY (delayFld r) / 10, master := m.master }

/-- A LIT candidate that hears a master of a higher number is itself the lowest-numbered one (R123): it becomes master and goes
on with the FSN that it would have passed on.  DEDUCED (log 73): the rules give no moment for this. -/
def Chip.takesFrom (c : Chip) (m : BeaconMark) : Chip :=
  let c := c.setBit Reg.BCN_STATUS Bit.BCN_STATUS_MASTER
  let c := c.setFld Reg.BCN_STATUS Bit.BCN_STATUS_MASTER_MOD c.ownModule
  c.wr Reg.BCN_FSN (BitVec.ofNat 32 m.fsn - 1)

/-- A good mark (R122 to R124). -/
def Chip.goodMark (c : Chip) (r : Nat) (m : BeaconMark) : Chip :=
  let x := c.ring r
  let own := c.ownModule
  let time := (c.onward r m).time
  let c := c.putRing r { x with good := x.good + 1, bad := 0, goodSeen := true }
  let c := { c with bcn := { c.bcn with goodFsn := m.fsn } }
  let c := (c.clrFld Reg.BCN_STATUS Bit.BCN_STATUS_HOLDOVER).disarm .masterWait
  let c := if !c.ringLocked r && decide (3 ≤ x.good + 1) then c.gainLock r else c
  if c.isMaster && !decide (m.master < own) then c
  else
    let c := c.clrFld Reg.BCN_STATUS Bit.BCN_STATUS_MASTER
    let c := if r = c.alignRing then (c.setFld Reg.BCN_STATUS Bit.BCN_STATUS_MASTER_MOD m.master).followTime time else c
    if c.masterCand && c.ringLocked r && decide (own < m.master) then c.takesFrom m else c

/-- BEACON_MARK_RECEIVED (R122): a mark that can be read goes on whether or not it is good (R123).
DESIGN CHOICE (log 73): after a mark that cannot be read, the previous FSN is still that of the last readable mark. -/
def Chip.markIn (c : Chip) (r : Nat) (m : BeaconMark) : Chip :=
  if !c.beaconRuns then c
  else
    let x := c.ring r
    let next := match x.lastFsn with
      | some f => (f + 1) % 2 ^ 32 == m.fsn
      | none => false
    if m.codeOk && m.crcOk then
      let c := c.putRing r { x with seen := true, lastFsn := some m.fsn, fwd := some (c.onward r m) }
      if m.spacingOk && next then c.goodMark r m else c.badMark r
    else ((c.satInc Reg.BCN_ERR Bit.BCN_ERR_CODE_ERR).putRing r { x with seen := true }).badMark r

def execBeaconMarkReceived (r : Nat) (m : BeaconMark) (s : State) : Host.Outcome State Fault Refusal :=
  .next { s with chip := s.chip.markIn r m }

/-! ## Frames (R120) -/

/-- The messages that fit in a frame, and the rest. -/
def takeMsgs : Nat → List BeaconMsg → List BeaconMsg × List BeaconMsg
  | _, [] => ([], [])
  | room, m :: q =>
    if m.symbols ≤ room then let r := takeMsgs (room - m.symbols) q; (m :: r.1, r.2) else ([], m :: q)

/-- The mark of the next frame on a ring: the master's own, or the one received. Before any mark has come, a follower sends FSN 0
and fabric time 0 from its own frame timer (R122).
DESIGN CHOICE (log 73): such a mark names the sender's own module as master, and so does a frame that brought no readable mark
after marks have come, so that no module behind takes it for a good one (R124, R125). -/
def Chip.nextMark (c : Chip) (r : Nat) : BeaconMark :=
  if c.isMaster then BeaconMark.seal { fsn := (c.rd Reg.BCN_FSN).toNat, time := c.watchTime, master := c.ownModule }
  else (c.ring r).fwd.getD (BeaconMark.seal { master := c.ownModule })

/-- One frame on one ring: its mark and the messages that fit. -/
def Chip.frameOn (c : Chip) (r : Nat) : Chip :=
  let sent := takeMsgs 605 (c.ring r).q
  let c := c.emit (.beaconFrame r (c.nextMark r) sent.1)
  c.putRing r { c.ring r with q := sent.2, fwd := none }

/-- The end of a frame: one in which no mark arrived on a ring counts as a missing mark, and one without a good mark adds to
the frames since the last. -/
def Chip.missing (c : Chip) (r : Nat) : Chip :=
  let c := if (c.ring r).seen then c else c.badMark r
  let x := c.ring r
  c.putRing r { x with seen := false, goodSeen := false, quiet := if x.goodSeen then 0 else x.quiet + 1 }

/-- HEARTBEAT payload (Table 4.4): power state, Fog state, feed state, padded to 8 bytes. -/
def Chip.heartbeat (c : Chip) : List Nat :=
  [c.fld Reg.GLB_PWR_STATUS Bit.GLB_PWR_STATUS_STATE, b2n c.inModFog,
   (c.pwr.present.map (fun f => 2 ^ f)).sum + 4 * b2n (c.flag Reg.PWE_STATUS Bit.PWE_STATUS_WARN), 0, 0, 0, 0, 0]

/-- BEACON_FRAME_TIMER: every 1 µs (R120, R122, R123, R355). -/
def Chip.beaconFrame (c : Chip) : Chip :=
  if !c.beaconRuns then c
  else
    let n := c.bcn.frames + 1
    let c := { c with bcn := { c.bcn with frames := n } }
    let fsn :=
      if c.isMaster then c.rd Reg.BCN_FSN + 1 else BitVec.ofNat 32 (c.nextMark c.alignRing).fsn
    let c := c.wr Reg.BCN_FSN fsn
    let c := if n % 16 = 0 then c.beaconSend 1 0 true c.heartbeat else c
    let alerts := c.bcn.alerts
    let c := { c with bcn := { c.bcn with alerts := [] } }
    let c := alerts.foldl (fun c a => c.beaconSend 5 0 true [a.1, a.2.1, a.2.2, 0]) c
    let c := if n % 1024 = 0 then
        let c := if c.ringLocked 0 then c.echoTo 0 else c
        if c.ringLocked 1 then c.echoTo 1 else c
      else c
    (((c.frameOn 0).frameOn 1).missing 0).missing 1

def execBeaconFrameTimer (s : State) : Host.Outcome State Fault Refusal := .next { s with chip := s.chip.beaconFrame }

/-! ## Messages (R121, R126) -/

/-- A copy of an accepted message: its sequence number lies within the last 128 of its source. -/
def Chip.beaconDup (c : Chip) (m : BeaconMsg) : Bool := c.bcn.accepted.any (fun a => a.1 == m.src && a.2 == m.seq)

/-- A message is accepted: a newer number of its source drops those 128 and more behind it, an older one joins them. -/
def Chip.beaconAccept (c : Chip) (m : BeaconMsg) : Chip :=
  let newest := (c.bcn.accepted.find? (fun a => a.1 == m.src)).map (·.2)
  let older := match newest with
    | some n => decide (128 < modSub 256 m.seq n)
    | none => false
  let keep := c.bcn.accepted.filter (fun a => a.1 != m.src || decide (modSub 256 m.seq a.2 < 128))
  { c with bcn := { c.bcn with
      accepted := if older then c.bcn.accepted ++ [(m.src, m.seq)] else (m.src, m.seq) :: keep } }

/-- WAKE_REQ (R126, R448): a wake event when it names this module, a wake pattern toward a neighbour that it names. -/
def Chip.wakeReq (c : Chip) (module : Nat) : Chip :=
  let c := if module = c.ownModule then c.wakeEvent wakeBeacon else c
  let c := if c.bcn.ring0.neighbour = some module then c.emit (.wakePattern 1) else c
  if c.bcn.ring1.neighbour = some module then c.emit (.wakePattern 0) else c

/-- ECHO (R123): a request is answered toward its sender on both rings; the reply of the upstream neighbour gives HOP_DELAY as
half the round trip, in 0.1 ns. An ECHO that has passed no other module comes from the neighbour of its ring (R126). -/
def Chip.echoMsg (c : Chip) (r : Nat) (m : BeaconMsg) : Chip :=
  let x := c.ring r
  let c := if m.hops = 0 then c.putRing r { x with neighbour := some m.src } else c
  if m.payload.headD 0 = 0 then c.beaconSend 4 m.src false ([1] ++ (m.payload.drop 1).take 4)
  else
    match x.echoSent with
    | some t =>
      if m.hops = 0 then
        (c.setFld Reg.HOP_DELAY (delayFld r) (min ((c.now - t) * 5) 65535)).putRing r
          { x with neighbour := some m.src, echoSent := none }
      else c
    | none => c

/-- What a message does at a module that consumes it. -/
def Chip.beaconAct (c : Chip) (r : Nat) (m : BeaconMsg) : Chip :=
  if m.type = 2 then
    let id := nth m.payload 2 + 256 * nth m.payload 3
    { c with knd := { c.knd with delivered := c.knd.delivered ++ [.mgmt (c.ownFa 0) (beaconFa m.src) id m.payload] } }
  else if m.type = 3 then c.wakeReq (m.payload.headD 128)
  else if m.type = 4 then c.echoMsg r m
  else c

/-- BEACON_MESSAGE_RECEIVED.  DESIGN CHOICE (log 74): Table 4.3 has no field for the hops passed; the message carries the count. -/
def Chip.beaconIn (c : Chip) (r : Nat) (m : BeaconMsg) : Chip :=
  if !c.beaconRuns then c
  else if !m.ok then c.satInc Reg.BCN_ERR Bit.BCN_ERR_CODE_ERR
  else if m.src = c.ownModule && m.bcast then c
  else if c.beaconDup m then c
  else
    let mine := m.bcast || m.dest == c.ownModule
    let c := c.beaconAccept m
    let c := if mine then c.beaconAct r m else c
    if (m.bcast || !mine) && decide (m.hops + 1 < 128) then c.beaconQ r { m with hops := m.hops + 1 } else c

def execBeaconMessageReceived (r : Nat) (m : BeaconMsg) (s : State) : Host.Outcome State Fault Refusal :=
  .next { s with chip := s.chip.beaconIn r m }

/-! ## Holdover (R124) -/

/-- HOLDOVER: neither ring has delivered a good mark for 8 frames. A MASTER_CAND module starts its wait. -/
def Chip.holdover (c : Chip) : Chip :=
  if !c.beaconRuns || c.isMaster || c.flag Reg.BCN_STATUS Bit.BCN_STATUS_HOLDOVER ||
      !(decide (8 ≤ c.bcn.ring0.quiet ∧ 8 ≤ c.bcn.ring1.quiet)) then c
  else
    let c := c.setBit Reg.BCN_STATUS Bit.BCN_STATUS_HOLDOVER
    if c.flag Reg.BCN_CTRL Bit.BCN_CTRL_MASTER_CAND then c.arm .masterWait ((c.ownModule + 1) * us) else c

def execHoldover (s : State) : Host.Outcome State Fault Refusal := .next { s with chip := s.chip.holdover }

/-- MASTER_TAKEOVER: the wait is over and no good mark has come; FSN goes on from that of the last good mark with 1 for each
frame since. -/
def Chip.takeover (c : Chip) : Chip :=
  if c.beaconRuns && c.due .masterWait && c.flag Reg.BCN_STATUS Bit.BCN_STATUS_HOLDOVER &&
      c.fld Reg.GLB_PWR_STATUS Bit.GLB_PWR_STATUS_STATE == 0 then
    let c := (c.disarm .masterWait).setBit Reg.BCN_STATUS Bit.BCN_STATUS_MASTER
    let c := c.setFld Reg.BCN_STATUS Bit.BCN_STATUS_MASTER_MOD c.ownModule
    c.wr Reg.BCN_FSN (BitVec.ofNat 32 (c.bcn.goodFsn + min c.bcn.ring0.quiet c.bcn.ring1.quiet))
  else c

def execMasterTakeover (s : State) : Host.Outcome State Fault Refusal := .next { s with chip := s.chip.takeover }

/-- BEACON_WAKE_PATTERN: the listen receiver detects the wake pattern (R126, R445). -/
def execBeaconWakePattern (ring : Nat) (s : State) : Host.Outcome State Fault Refusal :=
  .next { s with chip := if ring < 2 then s.chip.wakeEvent wakeBeacon else s.chip }

end Sys2Proof.Machine
end

