-- ==== Sys2Proof/Machine/Streams.lean ====
section
/-!
DEFINITION. What a delivered signal message does at its module (R158), and the timers of both edges of Mooring (R217 to
R231, R395).
-/
namespace Sys2Proof.Machine

/-! ## Cast-offs, RESENDs, REFUSEs, notices -/

/-- CAST_OFF_RECEIVED (R220): every slot that reaches the store counts. The crossing into a Mooring in reset holds it (R21). -/
def Chip.castOffIn (c : Chip) : Chip :=
  if !c.morRuns then c else
  match c.takeMsg (fun m => match m with | .castOff _ _ _ _ _ r => !r | _ => false) with
  | some (.castOff d t o e n _, c) =>
    let m := (c.ctrInc kMooring 0 9).metaAccess d t o
    if m.2 then m.1.applyCastOff d t o e n else m.1
  | some (_, c) => c
  | none => c

def execCastOffReceived (s : State) : Host.Outcome State Fault Refusal := .next { s with chip := s.chip.castOffIn.relaySettle }

/-- RESEND_RECEIVED (R221). -/
def Chip.resendIn (c : Chip) : Chip :=
  if !c.morRuns then c else
  match c.takeMsg (fun m => match m with | .castOff _ _ _ _ _ r => r | _ => false) with
  | some (.castOff d t o e n _, c) => let m := c.metaAccess d t o; if m.2 then m.1.applyResend d t o e n else m.1
  | some (_, c) => c
  | none => c

def execResendReceived (s : State) : Host.Outcome State Fault Refusal := .next { s with chip := s.chip.resendIn.relaySettle }

/-- REFUSE_RECEIVED (R222). -/
def Chip.refuseIn (c : Chip) : Chip :=
  if !c.morRuns then c else
  match c.takeMsg (fun m => m.stype == 3) with
  | some (.refuse d t o e _ _, c) =>
    let m := (c.ctrInc kMooring 0 15).metaAccess d t o
    if m.2 then m.1.applyRefuse d t o e else m.1
  | some (_, c) => c
  | none => c

def execRefuseReceived (s : State) : Host.Outcome State Fault Refusal := .next { s with chip := s.chip.refuseIn }

/-- NOTICE_RECEIVED (R324). -/
def Chip.noticeIn (c : Chip) : Chip :=
  match c.takeMsg (fun m => m.stype == 2) with
  | some (.notice d t o _, c) => c.applyNotice (faPort d) t o
  | some (_, c) => c
  | none => c

def execNoticeReceived (s : State) : Host.Outcome State Fault Refusal := .next { s with chip := s.chip.noticeIn }

/-! ## MGMT (R395, Table 8.10) -/

/-- PORT_STATE: the VSIs with HOST bindings to a port that has left DL_Active take the report, once for each vBridge (Table 8.10).
A translated FLR of a function on it ends at once, without FRS (R263). DESIGN CHOICE (log 200): PRESENT and the link-active bit of
the vBridge stay as they were, for Table 8.10 gives the event bits alone. -/
def Chip.portState (c : Chip) (fa : Nat) (active : Bool) : Chip :=
  if active then c
  else
    let hs := c.vsi.hosts.filter (fun h => h.local_.isNone && h.targetFa == fa)
    let c := (hs.filter (fun h => decide (0 < h.flr ∧ h.flr < 7))).foldl (fun c h => c.endFlr h false) c
    (hs.map (fun h => (h.v, h.vbr))).dedup.foldl (fun c b =>
      (c.hotplug b.1 b.2 (c.flag (Reg.VBR_STATE b.1 b.2) Bit.VBR_STATE_PRESENT) false).aer b.1 (some b.2) .surpriseDown) c

/-- What a message asks of the Keeper, once for each (source, ID) within 16 ms. -/
def Chip.mgmtAct (c : Chip) (src id msg : Nat) (payload : List Nat) : Chip :=
  let seen := c.kpr.mgmtSeen.filter (fun x => decide (c.now < x.2.2 + 16 * ms))
  let again := seen.any (fun x => x.1 == src && x.2.1 == id)
  let c := { c with kpr := { c.kpr with mgmtSeen := if again then seen else (src, id, c.now) :: seen } }
  if again || msg != 2 then c
  else c.portState (nth payload 0 + 256 * nth payload 1 + 65536 * nth payload 2 + 2 ^ 24 * nth payload 3)
    (nth payload 4 != 0)

/-- MGMT_RECEIVED: an ACK ends the repeats of its message; any other message is acknowledged when it asks for it, and acted
upon once. A message that meets a Keeper that does not run is lost (R423). -/
def Chip.mgmtIn (c : Chip) : Chip :=
  match c.takeMsg (fun m => m.stype == 5) with
  | some (.mgmt _ o _ bytes, c) =>
    let msg := nth bytes 0
    let id := nth bytes 2 + 256 * nth bytes 3
    if !c.keeperRuns then c
    else if msg = 1 then
      ({ c with kpr := { c.kpr with mgmtPend := c.kpr.mgmtPend.filter (fun x => x.1 != id) } }).disarm (.mgmt id)
    else
      let c := if bitOf (nth bytes 1) 0 then
          c.sendMgmtMsg (.mgmt o (c.ownFa 0) id ([1, 0] ++ leBytes 2 id))
        else c
      c.mgmtAct o id msg (bytes.drop 4)
  | some (_, c) => c
  | none => c

def execMgmtReceived (s : State) : Host.Outcome State Fault Refusal := .next { s with chip := s.chip.mgmtIn }

/-- MGMT_REPEAT_TIMER: a message without its ACK is sent again, up to 8 sends; then it is lost. -/
def Chip.mgmtRepeat (c : Chip) (id : Nat) : Chip :=
  if c.due (.mgmt id) then
    match c.kpr.mgmtPend.find? (fun x => x.1 == id) with
    | some (_, m, n) =>
      if n < 8 then
        let l := mapIf (fun x => x.1 == id) (fun x => (x.1, x.2.1, x.2.2 + 1)) c.kpr.mgmtPend
        (({ c with kpr := { c.kpr with mgmtPend := l } }).arm (.mgmt id) ms).sendMgmtMsg m
      else
        let l := c.kpr.mgmtPend.filter (fun x => x.1 != id)
        ((({ c with kpr := { c.kpr with mgmtPend := l } }).disarm (.mgmt id)).setBit Reg.KPR_EVENT
          Bit.KPR_EVENT_MGMT_LOST).log .mgmtLost [m.dest, id]
    | none => c.disarm (.mgmt id)
  else c

def execMgmtRepeatTimer (id : Nat) (s : State) : Host.Outcome State Fault Refusal :=
  .next { s with chip := s.chip.mgmtRepeat id }

/-! ## Timers of the ingress edge -/

/-- The frame of a stream whose copy is still FILLING, and of which nothing is staged, takes the stream's new ALT, and its egress
port is chosen again: it follows the replay on its path (R33, R224). -/
def Chip.reAlt (c : Chip) (x : IStream) : Chip :=
  ((c.copiesOf x).filter (fun k => k.state == .filling)).foldl (fun c k =>
    match c.pkt k.pkt.uid with
    | some q =>
      if q.staged != 0 then c
      else
        let on := fun (c : Chip) (eg : Nat) =>
          let f := fun (y : Pkt) => ({ y with egPort := eg, kh := y.kh.map (fun h => { h with alt := x.alt }) } : Pkt).sealIh
          (c.updPkt q.uid f).updCopy k.id (fun y => { y with pkt := f y.pkt })
        match c.lookBoth x.destFa x.srcFa x.tc x.alt with
        | .to eg => on c eg
        | .nowhere =>
          on (((c.setBit Reg.KND_EVENT Bit.KND_EVENT_NO_ROUTE).stCtr q.inPort 52).log .noRoute [q.inPort] [x.destFa, x.srcFa]) 255
        | .mismatch => c.misLook q.inPort
    | none => c) c

/-- CUSTODY_TIMER_EXPIRY (R223): ALT advances, the timer doubles, and the stream replays from LOW. -/
def Chip.custodyExpiry (c : Chip) (s t d : Nat) : Chip :=
  if c.due (.custody s t d) then
    let m := c.metaAccess s t d
    let c := m.1
    match c.stream s t d with
    | some x =>
      if !m.2 then c
      else if (c.copiesOf x).isEmpty || x.failed then c.disarm (.custody s t d)
      else
        let x := { x with alt := (x.alt + 1) % 4, expo := x.expo + 1 }
        (((c.putStream x).armCustody x).reAlt x).startReplay x x.low (some cReplayTmr) true
    | none => c.disarm (.custody s t d)
  else c

def execCustodyTimerExpiry (srcFa tc destFa : Nat) (s : State) : Host.Outcome State Fault Refusal :=
  .next { s with chip := s.chip.custodyExpiry srcFa tc destFa }

/-- REFUSE_BACKOFF_EXPIRY (R222): the store replays from LOW; the refusal lasts until a cast-off frees copies. -/
def Chip.refuseExpiry (c : Chip) (s t d : Nat) : Chip :=
  if c.due (.refuse s t d) then
    let c := c.disarm (.refuse s t d)
    match c.stream s t d with
    | some x => c.startReplay x x.low none true
    | none => c
  else c

def execRefuseBackoffExpiry (srcFa tc destFa : Nat) (s : State) : Host.Outcome State Fault Refusal :=
  .next { s with chip := s.chip.refuseExpiry srcFa tc destFa }

/-- CUSTODY_LIMIT_EXPIRY (R226). -/
def Chip.limitExpiry (c : Chip) (s t d : Nat) : Chip :=
  if c.due (.limit s t d) then
    match c.stream s t d with
    | some x => if (c.copiesOf x).isEmpty || x.failed then c.disarm (.limit s t d) else c.failStream x causeLimit
    | none => c.disarm (.limit s t d)
  else c

def execCustodyLimitExpiry (srcFa tc destFa : Nat) (s : State) : Host.Outcome State Fault Refusal :=
  .next { s with chip := (s.chip.limitExpiry srcFa tc destFa).relaySettle }

/-- EPOCH_GAP_EXPIRY (R226): a failed stream may open its next epoch. -/
def execEpochGapExpiry (srcFa tc destFa : Nat) (s : State) : Host.Outcome State Fault Refusal :=
  .next { s with chip := if s.chip.due (.epochGap srcFa tc destFa) then s.chip.disarm (.epochGap srcFa tc destFa) else s.chip }

/-- DORMANT_RECORD_EXPIRY (R228): a dormant record ends after DORMANT_AGE; a stream that waits for a record takes its place. -/
def Chip.dormantEnd (c : Chip) (s t d : Nat) : Chip :=
  if c.due (.dormant s t d) then
    (({ c with mor := { c.mor with dormant := c.mor.dormant.filter (fun r =>
      !(r.srcFa == s && r.tc == t && r.destFa == d)) } }).disarm (.dormant s t d)).restWaiting
  else c

def execDormantRecordExpiry (srcFa tc destFa : Nat) (s : State) : Host.Outcome State Fault Refusal :=
  .next { s with chip := s.chip.dormantEnd srcFa tc destFa }

/-- BOOT_HOLD_END (R231): 250 ms after the start of the Watch the store may open streams. -/
def Chip.bootHoldEnd (c : Chip) : Chip :=
  if c.due .bootHold then
    (({ c with mor := { c.mor with bootHold := false } }).clrFld Reg.MOR_STATUS Bit.MOR_STATUS_BOOT_HOLD).disarm .bootHold
  else c

def execBootHoldEnd (s : State) : Host.Outcome State Fault Refusal := .next { s with chip := s.chip.bootHoldEnd }

/-! ## Timers of the egress edge -/

/-- CAST_GAP_EXPIRY (R217): a cast-off that waited for CAST_GAP goes out. -/
def Chip.castGapEnd (c : Chip) (s t p : Nat) : Chip :=
  if c.due (.castGap s t p) then
    let c := c.disarm (.castGap s t p)
    match c.ectx s t p with
    | some x => if x.castDue then c.castNow x else c
    | none => c
  else c

def execCastGapExpiry (srcFa tc port : Nat) (s : State) : Host.Outcome State Fault Refusal :=
  .next { s with chip := s.chip.castGapEnd srcFa tc port }

/-- EGRESS_CTX_AGE_CLOSE (R219): a context whose stream has sent no frame for CTX_AGE is closed. -/
def execEgressCtxAgeClose (srcFa tc port : Nat) (s : State) : Host.Outcome State Fault Refusal :=
  .next { s with chip := if s.chip.due (.ctxAge srcFa tc port) then s.chip.dropEctx srcFa tc port else s.chip }

end Sys2Proof.Machine
end

