-- ==== Sys2Proof/Machine/RelayCtl.lean ====
section
/-!
DEFINITION. The Relay engine: accesses of a slice (R34, R269, R270, R288), records and interrupts (R295 to R300), the slice
commands and doorbells (R268 to R280), and what Bus Master Enable, an FLR and an island reset do (R305 to R308).
-/
namespace Sys2Proof.Machine

/-! ## Accesses -/

/-- Counter indexes of the Relay engine (Table 19.1) and of a slice (R491). -/
def Chip.rlyCtr (c : Chip) (idx n : Nat) : Chip := c.ctrAdd kRelay 0 idx n
def Chip.slCtr (c : Chip) (s idx n : Nat) : Chip := c.ctrAdd kSlice s idx n

/-- Bus Master Enable of the Relay function of a VSI. -/
def Chip.bme (c : Chip) (v : Nat) : Bool := c.flag (Reg.RF_STATUS v) Bit.RF_STATUS_BME

/-- Operations of the debug master carry this number in place of a slice. -/
def dbgSlice : Nat := 4096

/-- The result of a debug access (Table 18.7): 0 done with its data, 1 DEBUG_DENIED, 3 an error status. -/
def Chip.dbgAnswer (c : Chip) (result : Nat) (data : List Byte) : Chip :=
  let bytes := ((data ++ List.replicate 8 0).take 8).map BitVec.toNat
  { c with kpr := { c.kpr with dbgResult := result } }.emit (.debugReply (result :: bytes))

/-- A 64-bit register pair. -/
def Chip.pair (c : Chip) (lo hi : Nat) : Nat := (c.rd lo).toNat + (c.rd hi).toNat * 2 ^ 32

/-- A TLP of a slice (R270): its REQ_RID, its TEE bit, and its PASID unless it is an interrupt. -/
def Chip.sliceTlp (c : Chip) (s : Nat) (kind : TlpKind) (addr len tc tag : Nat) (data : List Byte) (intr : Bool) : Tlp :=
  { kind, addr, len, tc, tag, data
    rid := c.fld (Reg.SLC_RID s) Bit.SLC_RID_REQ_RID
    tee := c.flag (Reg.SLC_BIND s) Bit.SLC_BIND_WORLD
    pasid := if !intr && c.flag (Reg.SLC_BIND s) Bit.SLC_BIND_PASID_EN
      then some (c.fld (Reg.SLC_PASID s) Bit.SLC_PASID_PASID) else none }

/-- Where an access of a slice leads, before it is issued. -/
structure RPath where
  port : Nat
  win : Option Win
  look : Look
  addr : Nat
  a : Access
  deriving DecidableEq, Repr

/-- The path of a TLP of VSI `v`'s Relay function: none when it resolves nowhere (R288). -/
def Chip.relayPath (c : Chip) (v : Nat) (t : Tlp) : Option RPath :=
  match c.portOfVsi v with
  | none => none
  | some p =>
    let r := c.lookMem false v (c.ownFa p) true t
    if r.1.isNone && r.2.kind == 0 then none
    else
      let addr := match r.1 with
        | some w => w.translate t.addr
        | none => t.addr
      some { port := p, win := r.1, look := r.2, addr, a := accessOf (c.spaceOf r.2 r.1) addr v t }

/-- A ring access must resolve to the upstream port of the slice's VSI (R278). -/
def RPath.toHost (r : RPath) : Bool := r.look.kind == 1 && r.look.port == r.port

/-- What became of an access: issued (the packets formed), resolving nowhere, refused by the sectors, or in doubt. -/
inductive RAcc where
  | issued (c : Chip) (uids : List Nat) (lost : Bool)
  | nowhere (c : Chip)
  | denied (c : Chip)
  | doubt (c : Chip)

/-- The Relay port of a station takes another packet: it is not full of packets that it has still to stage (Table 2.5), and the
Relay runs (R434). -/
def Chip.relayRoom (c : Chip) (v : Nat) : Bool :=
  c.clocked 82 && (match c.portOfVsi v with
    | some p => decide ((c.sw.pkts.filter (fun k => k.st == portStation p && k.src == 8 && decide (k.staged < k.size))).length ≤
        Config.relayPortRoom)
    | none => true)

/-- Issue an access that the sectors have allowed, through the Relay port of the VSI's station. -/
def Chip.relayIssue (c : Chip) (v op : Nat) (r : RPath) (t : Tlp) : RAcc :=
  let e : Entry := { st := portStation r.port, src := 8, port := r.port, v, path := 2, relay := some op, check := false }
  let x := c.submit e true t c.now
  .issued { x.c with rly := { x.c.rly with nextOp := op + 1 } } x.uids (x.uids.isEmpty)

/-- Check and issue an access of a slice (R288). `host`: it must resolve to the upstream port. -/
def Chip.relayAccess (c : Chip) (v op : Nat) (t : Tlp) (host : Bool) : RAcc :=
  match c.relayPath v t with
  | none => .nowhere c
  | some r =>
    if host && !r.toHost then .nowhere c
    else
      match c.checkSector none r.a 2 with
      | .doubt c => .doubt c
      | .refused c => .denied c
      | .pass c _ => c.relayIssue v op r t

/-! ## The scheduler of the slices (R325) -/

def Chip.rlyOvh (c : Chip) : Nat := c.tabF false Reg.RLY_CFG Bit.RLY_CFG_RLY_OVH
def Chip.sliceWt (c : Chip) (s : Nat) : Nat := c.tabF false (Reg.SLICE_WT s) Bit.SLICE_WT_WEIGHT

/-- The start of an access of `len` bytes takes its tokens. -/
def Chip.sliceCharge (c : Chip) (s len : Nat) : Chip :=
  c.charge (keySliceBucket s) (c.slicePace s) (c.sliceBurst s) (len + c.rlyOvh)

/-! ## Descriptors -/

/-- Descriptor `a` was fetched before descriptor `b`. -/
def idxBefore (a b : Nat) : Bool := let d := modSub (2 ^ 32) b a; decide (1 ≤ d ∧ d < 2 ^ 31)

def Chip.rdesc (c : Chip) (s idx : Nat) : Option RDesc := c.rly.descs.find? (fun d => d.slice == s && d.idx == idx)

def Chip.putRdesc (c : Chip) (d : RDesc) : Chip :=
  { c with rly := { c.rly with descs := mapIf (fun x => x.slice == d.slice && x.idx == d.idx) (fun _ => d) c.rly.descs } }

def Chip.opsOf (c : Chip) (d : RDesc) : List ROp := c.rly.ops.filter (fun o => o.slice == d.slice && o.idx == d.idx)

/-- A new operation. -/
def Chip.addOp (c : Chip) (o : ROp) : Chip :=
  { c with rly := { c.rly with ops := c.rly.ops ++ [o] } }

def Chip.dropOps (c : Chip) (f : ROp → Bool) : Chip :=
  { c with rly := { c.rly with ops := c.rly.ops.filter (fun o => !f o) } }

def Chip.updOps (c : Chip) (f : ROp → Bool) (g : ROp → ROp) : Chip :=
  { c with rly := { c.rly with ops := mapIf f g c.rly.ops } }

/-- A descriptor ends early at an offset with a status, unless a lower offset has failed; it issues no further piece, and
read data that it holds is discarded (R294, R297). -/
def Chip.failDesc (c : Chip) (d : RDesc) (status off addr : Nat) : Chip :=
  let lower := match d.status with
    | some _ => decide (off < d.failOff)
    | none => true
  let c := if lower then c.putRdesc { d with status := some status, failOff := off, faultAddr := addr } else c
  let c := c.dropOps (fun o => o.slice == d.slice && o.idx == d.idx && o.kind == .read && o.arrived)
  c.updOps (fun o => o.slice == d.slice && o.idx == d.idx && o.kind == .read) (fun o => { o with discard := true })

/-! ## Ring faults (R278) -/

def Chip.ringFault (c : Chip) (s cause addr : Nat) : Chip :=
  let c := c.wr (Reg.FAULT_ADDR_LO s) (BitVec.ofNat 32 addr)
  (c.wr (Reg.FAULT_ADDR_HI s) (BitVec.ofNat 32 (addr / 2 ^ 32))).haltSlice s cause

/-! ## Interrupts (R299, R300) -/

/-- The interrupt write of a slice. -/
def Chip.intrWrite (c : Chip) (s tc : Nat) : Chip :=
  let data := (leBytes 4 (c.rd (Reg.INT_DATA s)).toNat).map (BitVec.ofNat 8)
  let t := c.sliceTlp s .mwr (c.pair (Reg.INT_ADDR_LO s) (Reg.INT_ADDR_HI s)) 4 tc 0 data true
  match c.relayAccess (c.slVsi s) c.rly.nextOp t false with
  | .issued c _ _ => (c.rlyCtr 18 1).slCtr s 5 1
  | .nowhere c => c
  | .denied c => c
  | .doubt c => c

/-- A write of a slice waits for the scheduler behind those that wait (R327). -/
def Chip.addPost (c : Chip) (s : Nat) (k : RPostKind) : Chip :=
  { c with rly := { c.rly with posts := c.rly.posts ++ [⟨s, k⟩] } }

/-- A slice raises its interrupt: it waits for the scheduler, or becomes pending while masked, on the traffic class of the newest
record that asked for it (R35; that the newest decides, where records of several classes asked, is a DESIGN CHOICE, log 156). -/
def Chip.sliceIntr (c : Chip) (s tc : Nat) : Chip :=
  if c.flag (Reg.INT_CTRL s) Bit.INT_CTRL_MASK then
    (c.putRslice { c.rslice s with pendTc := tc }).setBit (Reg.INT_CTRL s) Bit.INT_CTRL_PENDING
  else c.addPost s (.intr tc)

/-- MASK is written (R300). A pending interrupt follows its record on that record's class (R35). -/
def Chip.setMask (c : Chip) (s : Nat) (on : Bool) : Chip :=
  let c := c.setFld (Reg.INT_CTRL s) Bit.INT_CTRL_MASK (b2n on)
  if !on && c.flag (Reg.INT_CTRL s) Bit.INT_CTRL_PENDING && c.bme (c.slVsi s) then
    (c.clrFld (Reg.INT_CTRL s) Bit.INT_CTRL_PENDING).addPost s (.intr (c.rslice s).pendTc)
  else c

/-! ## Records (R281, R295, R296) -/

def Chip.cqSize (c : Chip) (s : Nat) : Nat := 2 ^ c.fld (Reg.RING_CFG s) Bit.RING_CFG_CQ_LOG2
def Chip.sqSize (c : Chip) (s : Nat) : Nat := 2 ^ c.fld (Reg.RING_CFG s) Bit.RING_CFG_SQ_LOG2
def Chip.fetched (c : Chip) (s : Nat) : Nat := (c.rd (Reg.SQ_FETCHED s)).toNat
def Chip.written (c : Chip) (s : Nat) : Nat := (c.rd (Reg.CQ_WRITTEN s)).toNat

/-- Free slots of the completion ring. -/
def Chip.cqFree (c : Chip) (s : Nat) : Nat := c.cqSize s - modSub (2 ^ 32) (c.written s) (c.rslice s).cqRead

/-- Records owed: descriptors fetched and not yet completed. -/
def Chip.owed (c : Chip) (s : Nat) : Nat := modSub (2 ^ 32) (c.fetched s) (c.rslice s).completed

/-- The 32 bytes of a record (Table 9.9). -/
def Chip.recordBytes (c : Chip) (r : RRec) : List Nat :=
  let k := c.written r.slice / c.cqSize r.slice
  leBytes 2 r.sqIndex ++ leBytes 2 r.tag ++
    [r.status, (k + 1) % 2 + 2 * b2n r.specSide + 4 * b2n r.recv + 8 * b2n r.poison, r.opcode, 0] ++
    leBytes 4 r.doneLen ++ leBytes 2 (c.fetched r.slice % 65536) ++ leBytes 2 (r.srcSlice % 4096) ++
    leBytes 8 r.faultAddr ++ leBytes 8 c.watchTime

/-- Write a record into the next slot: its descriptor has completed. A fault of the ring halts the slice. The truth value says
that it was written. -/
def Chip.writeRecord (c : Chip) (r : RRec) : Chip × Bool :=
  let s := r.slice
  let addr := c.pair (Reg.CQ_BASE_LO s) (Reg.CQ_BASE_HI s) + c.written s % c.cqSize s * 32
  let t := c.sliceTlp s .mwr addr 32 r.tc 0 ((c.recordBytes r).map (BitVec.ofNat 8)) false
  match c.relayAccess (c.slVsi s) c.rly.nextOp t true with
  | .issued c _ _ =>
    let x := c.rslice s
    let c := if r.recv then c else c.putRslice { x with completed := (x.completed + 1) % 2 ^ 32 }
    (c.wr (Reg.CQ_WRITTEN s) (c.rd (Reg.CQ_WRITTEN s) + 1), true)
  | .nowhere c => (c.ringFault s haltCqFault addr, false)
  | .denied c => (c.ringFault s haltCqFault addr, false)
  | .doubt c => (c, false)

/-- A descriptor has reached its completion point: its record waits for the scheduler, or is held while Bus Master Enable is 0
(R305, R327). -/
def Chip.finishRecord (c : Chip) (r : RRec) : Chip :=
  if !c.bme (c.slVsi r.slice) then { c with rly := { c.rly with held := c.rly.held ++ [r] } } else c.addPost r.slice (.record r)

/-! ## Slice commands (R268, R272 to R276) -/

/-- Slice commands answer with a status of Table 13.8. -/
def stOk : Nat := 0
def stBadVsi : Nat := 1
def stNotDrained : Nat := 0x0C
def stSliceTaken : Nat := 0x0B
def stBadParam : Nat := 0x21

def sliceRange (first count : Nat) : List Nat := (List.range count).map (fun i => first + i)

def badRange (first count : Nat) : Bool := !(decide (1 ≤ count ∧ first + count ≤ 4096))

/-- SLICE_GRANT: the slices become STOPPED slices of the VSI, with their counters cleared. -/
def Chip.sliceGrant (c : Chip) (v first count : Nat) : Chip × Nat :=
  if badRange first count then (c, stBadParam)
  else if (c.portOfVsi v).isNone || c.flag (Reg.VSI_ID v) Bit.VSI_ID_PROXY || decide (64 ≤ v) then (c, stBadVsi)
  else if (sliceRange first count).any (fun s => c.slState s != sUngranted) then (c, stSliceTaken)
  else
    ((sliceRange first count).foldl (fun c s =>
      let c := (c.putRslice { slice := s }).ctrClear kSlice s
      (c.setFld (Reg.SLC_BIND s) Bit.SLC_BIND_VSI v).setFld (Reg.SLC_STATE s) Bit.SLC_STATE_STATE sStopped) c, stOk)

/-- SLICE_REVOKE: a halted or draining slice is reset first; the slices belong to no VSI. -/
def Chip.sliceRevoke (c : Chip) (first count : Nat) : Chip × Nat :=
  if badRange first count then (c, stBadParam)
  else if (sliceRange first count).any (fun s => c.slState s == sActive ||
      ((c.slState s == sDraining || c.slState s == sHalted) && c.inflight s != 0)) then (c, stNotDrained)
  else
    ((sliceRange first count).foldl (fun c s =>
      if c.slState s = sUngranted then c
      else
        let c := if c.slState s = sStopped then c else c.sliceReset s
        let c := { c with rly := { c.rly with slices := c.rly.slices.filter (fun x => x.slice != s) } }
        (c.ctrClear kSlice s).setFld (Reg.SLC_STATE s) Bit.SLC_STATE_STATE sUngranted) c, stOk)

/-- A ring of `bytes` bytes at `base`, a multiple of 4 KiB, resolves to the upstream port in each 4 KiB that it holds. -/
def Chip.ringOk (c : Chip) (s base bytes : Nat) : Bool :=
  base % 4096 == 0 && (List.range (ceilDiv bytes 4096)).all (fun i =>
    match c.relayPath (c.slVsi s) (c.sliceTlp s .mwr (base + 4096 * i) 1 0 0 [] false) with
    | some r => r.toHost
    | none => false)

/-- The host requester ID of a bound function (Table 8.4). -/
def Chip.hostRid (c : Chip) (h : HostBind) : Nat := c.fld (Reg.VBR_STATE h.v h.vbr) Bit.VBR_STATE_SEC_BUS * 256 + h.devfn

/-- REQ_RID is the ID of the Relay function, or the host ID of a function bound to the VSI (R269). -/
def Chip.ridOk (c : Chip) (s : Nat) : Bool :=
  let v := c.slVsi s
  let rid := c.fld (Reg.SLC_RID s) Bit.SLC_RID_REQ_RID
  rid == c.fld (Reg.VSI_STATUS v) Bit.VSI_STATUS_HOST_BUS * 256 + 1 ||
    c.vsi.hosts.any (fun h => h.v == v && c.hostRid h == rid)

def entryBytes (esize : Nat) : Nat := 256 * 2 ^ esize

/-- The checks of ENABLE (R273): the first that fails names LAST_STATUS. -/
def Chip.enableStatus (c : Chip) (s : Nat) : Nat :=
  let sq := c.fld (Reg.RING_CFG s) Bit.RING_CFG_SQ_LOG2
  let cq := c.fld (Reg.RING_CFG s) Bit.RING_CFG_CQ_LOG2
  let ra := c.fld (Reg.RING_CFG s) Bit.RING_CFG_RUN_AHEAD
  let ib := c.fld (Reg.IB_CFG s) Bit.IB_CFG_IB_LOG2
  let es := c.fld (Reg.IB_CFG s) Bit.IB_CFG_ESIZE
  if !(decide (6 ≤ sq ∧ sq ≤ 16 ∧ 6 ≤ cq ∧ cq ≤ 16 ∧ 1 ≤ ra ∧ ra ≤ 64)) then 3
  else if !(c.ringOk s (c.pair (Reg.SQ_BASE_LO s) (Reg.SQ_BASE_HI s)) (64 * 2 ^ sq) &&
      c.ringOk s (c.pair (Reg.CQ_BASE_LO s) (Reg.CQ_BASE_HI s)) (32 * 2 ^ cq)) then 3
  else if c.flag (Reg.IB_CFG s) Bit.IB_CFG_EN && !(decide (4 ≤ ib ∧ ib ≤ 12) &&
      c.ringOk s (c.pair (Reg.IB_BASE_LO s) (Reg.IB_BASE_HI s)) (entryBytes es * 2 ^ ib)) then 3
  else if !c.ridOk s then 4
  else if !c.bme (c.slVsi s) then 5
  else 0

/-- A command ends: CMD_SEQ advances and LAST_STATUS takes its result (R276). -/
def Chip.cmdDone (c : Chip) (s status : Nat) : Chip :=
  (c.setFld (Reg.SLC_STATE s) Bit.SLC_STATE_CMD_SEQ (c.fld (Reg.SLC_STATE s) Bit.SLC_STATE_CMD_SEQ + 1)).setFld
    (Reg.SLC_STATE s) Bit.SLC_STATE_LAST_STATUS status

/-- CMD ENABLE (R273). A slice that starts has a full bucket (R320). -/
def Chip.cmdEnable (c : Chip) (s : Nat) : Chip :=
  if c.slState s = sStopped then
    let st := c.enableStatus s
    let c := if st = 0 then (c.setFld (Reg.SLC_STATE s) Bit.SLC_STATE_STATE sActive).fillBucket (keySliceBucket s) else c
    c.cmdDone s st
  else c.cmdDone s 2

/-- CMD DRAIN (R274). -/
def Chip.cmdDrain (c : Chip) (s : Nat) : Chip :=
  if c.slState s = sActive then (c.setFld (Reg.SLC_STATE s) Bit.SLC_STATE_STATE sDraining).cmdDone s 0 else c.cmdDone s 2

/-- CMD RESET (R275, R276). -/
def Chip.cmdReset (c : Chip) (s : Nat) : Chip :=
  let st := c.slState s
  if st = sUngranted then c.cmdDone s 2
  else if st = sActive ∨ (st ≠ sStopped ∧ c.inflight s ≠ 0) then c.cmdDone s 1
  else (c.sliceReset s).cmdDone s 0

/-- SLC_CTRL.CMD is written; other values do nothing (Table 9.19). -/
def Chip.slcCmd (c : Chip) (s cmd : Nat) : Chip :=
  if cmd = 1 then c.cmdEnable s else if cmd = 2 then c.cmdDrain s else if cmd = 3 then c.cmdReset s else c

def execSliceEnable (ag : Agent) (slice : Nat) (s : State) : Host.Outcome State Fault Refusal :=
  .next { s with chip := s.chip.busWriteW ag (Reg.SLC_CTRL slice) 1 (fun c => c.cmdEnable slice) }

def execSliceDrain (ag : Agent) (slice : Nat) (s : State) : Host.Outcome State Fault Refusal :=
  .next { s with chip := s.chip.busWriteW ag (Reg.SLC_CTRL slice) 2 (fun c => c.cmdDrain slice) }

def execSliceReset (ag : Agent) (slice : Nat) (s : State) : Host.Outcome State Fault Refusal :=
  .next { s with chip := s.chip.busWriteW ag (Reg.SLC_CTRL slice) 3 (fun c => c.cmdReset slice) }

/-! ## Doorbells (R266, R279, R280) -/

/-- A write to a doorbell page by the host of VSI `v`, in BAR2 of its Relay function: the page must be of a slice granted to it,
the write 8 bytes aligned at the doorbell's offset `want`, the state ACTIVE or DRAINING and the generation in force. -/
def Chip.doorbell (c : Chip) (v slice off size want gen : Nat) (act : Chip → Chip) : Chip :=
  if !c.relayMse v then c
  else if c.slState slice = sUngranted ∨ c.slVsi slice ≠ v then c.satInc Reg.RLY_EVENT Bit.RLY_EVENT_FOREIGN_DB
  else if off ≠ want ∨ size ≠ 8 then c.setBit (Reg.SLC_EVENT slice) Bit.SLC_EVENT_DB_BAD
  else if !(c.slState slice = sActive ∨ c.slState slice = sDraining) ∨
      gen ≠ c.fld (Reg.RING_GEN slice) Bit.RING_GEN_GEN then c.setBit (Reg.SLC_EVENT slice) Bit.SLC_EVENT_DB_STALE
  else act c

/-- A count out of range is ignored and sets DB_RANGE; a repeat changes nothing. -/
def Chip.dbRange (c : Chip) (slice count cur : Nat) : Chip :=
  if count = cur then c else c.setBit (Reg.SLC_EVENT slice) Bit.SLC_EVENT_DB_RANGE

def Chip.dbTaken (c : Chip) (slice : Nat) : Chip := (c.rlyCtr 21 1).slCtr slice 6 1

/-- `count` is ahead of `cur` modulo 2^32. -/
def ahead32 (count cur : Nat) : Bool := let d := modSub (2 ^ 32) count cur; decide (1 ≤ d ∧ d < 2 ^ 31)

/-- SQ_DB. -/
def Chip.sqDb (c : Chip) (slice count : Nat) : Chip :=
  let seen := (c.rd (Reg.SQ_SEEN slice)).toNat
  if ahead32 count seen && decide (modSub (2 ^ 32) count (c.fetched slice) ≤ c.sqSize slice) then
    (c.wr (Reg.SQ_SEEN slice) (BitVec.ofNat 32 count)).dbTaken slice
  else c.dbRange slice count seen

/-- CQ_DB: records consumed, checked against the records written. -/
def Chip.cqDb (c : Chip) (slice count : Nat) : Chip :=
  let x := c.rslice slice
  if ahead32 count x.cqRead && decide (modSub (2 ^ 32) count x.cqRead ≤ modSub (2 ^ 32) (c.written slice) x.cqRead) then
    (c.putRslice { x with cqRead := count }).dbTaken slice
  else c.dbRange slice count x.cqRead

/-- IB_DB: inbox entries returned, checked against the entries used. -/
def Chip.ibDb (c : Chip) (slice count : Nat) : Chip :=
  let x := c.rslice slice
  if ahead32 count x.ibBack && decide (modSub (2 ^ 32) count x.ibBack ≤ modSub (2 ^ 32) x.ibUsed x.ibBack) then
    (c.putRslice { x with ibBack := count }).dbTaken slice
  else c.dbRange slice count x.ibBack

/-- The doorbell at an offset of the page takes COUNT (Table 9.5). -/
def Chip.ringDb (c : Chip) (want slice count : Nat) : Chip :=
  if want = 8 then c.cqDb slice (count % 2 ^ 32)
  else if want = 16 then c.ibDb slice (count % 2 ^ 32)
  else c.sqDb slice (count % 2 ^ 32)

/-- A doorbell write by the host of VSI `v`: slice page, offset in it, size, COUNT and GEN (Table 9.5). The crossing into a Relay
in reset holds it (R21). -/
def Chip.hostDb (c : Chip) (v slice off size want count gen : Nat) : Chip :=
  if c.relayMse v && !c.clocked 82 then c.holdAccess (.vsi v) Reg.RLY_CTRL (.page slice off size want count gen)
  else c.doorbell v slice off size want gen (fun c => c.ringDb want slice count)

def execSqDb (v slice off size count gen : Nat) (s : State) : Host.Outcome State Fault Refusal :=
  .next { s with chip := s.chip.hostDb v slice off size 0 count gen }

def execCqDb (v slice off size count gen : Nat) (s : State) : Host.Outcome State Fault Refusal :=
  .next { s with chip := s.chip.hostDb v slice off size 8 count gen }

def execIbDb (v slice off size count gen : Nat) (s : State) : Host.Outcome State Fault Refusal :=
  .next { s with chip := s.chip.hostDb v slice off size 16 count gen }

/-! ## Bus Master Enable (R305, R306) -/

/-- A descriptor whose every write piece was issued before the clear keeps its normal status, and so does a SEND in
flight. -/
def RDesc.keepsStatus (d : RDesc) : Bool :=
  d.status.isSome || (d.started && (d.sent || (decide (1 ≤ d.d.opcode ∧ d.d.opcode ≤ 4) && d.wr == d.d.len)))

/-- The waiting writes of a slice as Bus Master Enable is cleared (R305, R306): its records are held in their order, an interrupt is
pending, and a SEND that is not whole in its inbox is answered INBOX_OFF. -/
def Chip.holdPosts (c : Chip) (s : Nat) : Chip :=
  let ps := c.postsOf s
  let c := { c with rly := { c.rly with posts := c.rly.posts.filter (fun p => p.slice != s) } }
  ps.foldl (fun c p =>
    match p.what with
    | .record r => { c with rly := { c.rly with held := c.rly.held ++ [r] } }
    | .intr tc => (c.putRslice { c.rslice s with pendTc := tc }).setBit (Reg.INT_CTRL s) Bit.INT_CTRL_PENDING
    | .inbox x => c.sendReply x.from_ 0x0A) c

/-- Bus Master Enable of the Relay function of a VSI is cleared (R305). A fetch in flight brings descriptors that are ended too. -/
def Chip.bmeClear (c : Chip) (v : Nat) : Chip :=
  if !c.bme v then c
  else
    let c := c.clrFld (Reg.RF_STATUS v) Bit.RF_STATUS_BME
    (c.slicesOf v).foldl (fun c s =>
      let c := (c.updOps (fun o => o.slice == s && o.kind == .fetch) (fun o => { o with failed := true })).holdPosts s
      let gone := (c.slDescs s).filter (fun d => !d.keepsStatus && !d.noRecord)
      let c := gone.foldl (fun c d => (c.failDesc d 9 d.wr (d.d.dst + d.wr)).rlyCtr 14 1) c
      if gone.isEmpty then c else c.setBit (Reg.SLC_EVENT s) Bit.SLC_EVENT_BME_ABORT) c

/-- Held records of a slice are written in completion order, then one interrupt when any asked for it (R306). Where records of
several traffic classes asked, the interrupt takes the class of the first of them: R35 names one record (DESIGN CHOICE, log 156).
An interrupt that was pending when its mask was cleared goes out with them. -/
def Chip.flushHeld (c : Chip) (s : Nat) : Chip :=
  let rs := c.rly.held.filter (fun r => r.slice == s)
  let c := { c with rly := { c.rly with held := c.rly.held.filter (fun r => r.slice != s) } }
  let c := rs.foldl (fun c r => c.addPost s (.record { r with intr := false })) c
  let due := !c.flag (Reg.INT_CTRL s) Bit.INT_CTRL_MASK && c.flag (Reg.INT_CTRL s) Bit.INT_CTRL_PENDING
  let c := if due then c.clrFld (Reg.INT_CTRL s) Bit.INT_CTRL_PENDING else c
  match rs.find? (·.intr) with
  | some r => c.sliceIntr s r.tc
  | none => if due then c.addPost s (.intr (c.rslice s).pendTc) else c

/-- Bus Master Enable is set (R306). -/
def Chip.bmeSet (c : Chip) (v : Nat) : Chip :=
  if c.bme v then c
  else
    let c := c.setBit (Reg.RF_STATUS v) Bit.RF_STATUS_BME
    (c.slicesOf v).foldl (fun c s => c.flushHeld s) c

def execRelayBmeClear (v : Nat) (s : State) : Host.Outcome State Fault Refusal := .next { s with chip := s.chip.bmeClear v }

/-! ## Resets (R307, R308) -/

/-- RELAY_FUNCTION_FLR: the function's configuration state and every granted slice of the VSI (R307). -/
def Chip.relayFlr (c : Chip) (v : Nat) : Chip :=
  ((c.dropCfg v 1 2).clrFld (Reg.RF_STATUS v) Bit.RF_STATUS_BME).relayVsiReset v

def execRelayFunctionFlr (v : Nat) (s : State) : Host.Outcome State Fault Refusal :=
  .next { s with chip := s.chip.relayFlr v }

/-- The Relay scheduler as a reset of its island leaves it: no tags, V = 0, every P_s at its base, every bucket full (Table
10.4). -/
def Chip.relaySchedReset (c : Chip) : Chip :=
  (c.rly.slices.map (·.slice)).foldl (fun c s => (c.resetReg (Reg.SLICE_PACE s)).fillBucket (keySliceBucket s))
    { c with sw := { c.sw with wfqTag := c.sw.wfqTag.filter (fun e => decide (e.1 < keySlice 0))
                               wfqV := c.sw.wfqV.erase vkeyRly } }

/-- RELAY_ISLAND_RESET: every operation ends with no record (R308). A dump entry is written whole by one command, so
none is abandoned here (R494). -/
def Chip.relayIslandReset (c : Chip) : Chip :=
  let c := { c with rly := { c.rly with posts := [] } }
  let c := (c.rly.slices.map (·.slice)).foldl (fun c s => c.haltSlice s haltIslandReset) c
  let ids := c.rly.ops.map (·.id)
  let c := ids.foldl (fun c i => c.disarm (.send i)) c
  let c := (if c.kpr.dbgResult = 2 then c.dbgAnswer 3 [] else c).relaySchedReset
  ({ c with rly := { c.rly with descs := [], ops := [], held := [], cpls := [], msgs := [] } }).relaySettle

def execRelayIslandReset (s : State) : Host.Outcome State Fault Refusal :=
  .next { s with chip := s.chip.relayIslandReset }

end Sys2Proof.Machine
end

