-- ==== Sys2Proof/Machine/RelayRun.lean ====
section
/-!
DEFINITION. The Relay engine at work: descriptor fetch and start (R282 to R286), pieces and speculation (R287 to R294),
completion (R295 to R297), SEND and inboxes (R301 to R304), and what its scheduler may serve (R325).
-/
namespace Sys2Proof.Machine

/-! ## Descriptors in memory (Table 9.6) -/

/-- The number that `n` bytes from offset `o` hold, least significant byte first. -/
def leNat (l : List Byte) (o n : Nat) : Nat :=
  ((List.range n).map (fun i => (l.getD (o + i) 0).toNat * 256 ^ i)).sum

/-- A descriptor of 64 bytes. -/
def descOf (l : List Byte) : Desc :=
  let w0 := leNat l 0 4
  let w1 := leNat l 4 4
  { opcode := w0 % 256, intr := bitOf w0 8, tag := w0 / 2 ^ 16, len := w1 % 2 ^ 28, tc := w1 / 2 ^ 28 % 8
    src := leNat l 8 8, dst := leNat l 16 8, operand := (List.range 40).map (fun i => (l.getD (24 + i) 0).toNat)
    rsvd := w0 / 2 ^ 9 % 2 ^ 7 != 0 || w1 / 2 ^ 31 != 0 }

/-- OPERAND bytes that an opcode uses (Table 9.7). -/
def Desc.operandUsed (d : Desc) : Nat :=
  if d.opcode = 2 then d.len else if d.opcode = 3 then 8 else if d.opcode = 5 then 4 else 0

/-- LEN lies in the opcode's range. -/
def Desc.lenOk (d : Desc) : Bool :=
  if d.opcode = 0 ∨ d.opcode = 6 ∨ d.opcode = 7 then d.len == 0
  else if d.opcode = 2 then decide (1 ≤ d.len ∧ d.len ≤ 40)
  else if d.opcode = 5 then decide (1 ≤ d.len ∧ d.len ≤ 4080)
  else true

/-- The opcode reads its source. -/
def Desc.reads (d : Desc) : Bool := d.opcode == 1 || d.opcode == 4 || d.opcode == 5

/-- The start checks of R285: 0, or the status that the descriptor ends with. -/
def Chip.startStatus (c : Chip) (s : Nat) (d : Desc) : Nat :=
  let mc := fun (_ : Unit) =>
    match c.relayPath (c.slVsi s) (c.sliceTlp s .mwr d.dst 1 d.tc 0 [] false) with
    | some r => r.look.kind == 2
    | none => false
  if 7 < d.opcode then 1
  else if d.rsvd || !d.lenOk || (d.operand.drop d.operandUsed).any (· != 0) ||
      (d.opcode == 5 && decide (2 ^ 37 ≤ d.dst)) then 2
  else if !c.fldBit (Reg.SLC_BIND s) Bit.SLC_BIND_TC_MASK d.tc then 3
  else if (d.opcode = 1 ∨ d.opcode = 3) ∧ mc () = true then 4
  else if d.opcode = 4 ∧ mc () = false then 4
  else 0

/-! ## Order within a slice -/

/-- Descriptors of a slice fetched before one, and fetches before it that have not arrived. -/
def Chip.earlierDescs (c : Chip) (d : RDesc) : List RDesc := (c.slDescs d.slice).filter (fun x => idxBefore x.idx d.idx)

def Chip.earlierFetch (c : Chip) (d : RDesc) : Bool :=
  c.rly.ops.any (fun o => o.slice == d.slice && o.kind == .fetch && idxBefore o.idx d.idx)

/-- An earlier FENCE of the slice is pending (R286). -/
def Chip.fenced (c : Chip) (d : RDesc) : Bool :=
  (c.earlierDescs d).any (fun x => x.d.opcode == 6) || c.earlierFetch d

/-! ## The read buffer (R289) -/

def Chip.rdUnits (c : Chip) : Nat := (c.rly.ops.map (·.units)).sum

def rdRoom : Nat := 262144

/-- Units of a read piece of `len` bytes at `addr`. -/
def unitsOf (addr len : Nat) : Nat := ceilDiv (addr % 64 + len) 64


/-- The read operation that holds byte `off` of a descriptor's source. -/
def Chip.heldAtOff (c : Chip) (d : RDesc) (off : Nat) : Option ROp :=
  (c.opsOf d).find? (fun o => o.kind == .read && o.arrived && !o.discard && decide (o.off ≤ off ∧ off < o.off + o.len))

/-- Source bytes from `off` on are held, `len` of them. -/
def Chip.covers (c : Chip) (d : RDesc) : Nat → Nat → Nat → Bool
  | 0, _, len => len == 0
  | fuel + 1, off, len =>
    if len = 0 then true
    else
      match c.heldAtOff d off with
      | some o => let n := min len (o.off + o.len - off); c.covers d fuel (off + n) (len - n)
      | none => false

/-- The bytes that the write side takes. -/
def Chip.heldBytes (c : Chip) (d : RDesc) (off len : Nat) : List Byte :=
  (List.range len).map (fun i =>
    match c.heldAtOff d (off + i) with
    | some o => o.data.getD (off + i - o.off) 0
    | none => 0)

/-! ## Pieces that may be issued -/

/-- The descriptor has failed: its status, or the lowest write piece that was reported failed (R297). -/
def Chip.failure (c : Chip) (d : RDesc) : Option (Nat × Nat × Nat) :=
  let w := (c.opsOf d).filter (fun o => o.kind == .write && o.failed)
  let a := w.foldl (fun a o => match a with
    | none => some o
    | some x => if o.off < x.off then some o else some x) (none : Option ROp)
  match d.status, a with
  | none, none => none
  | some st, none => some (st, d.failOff, d.faultAddr)
  | none, some o => some (8, o.off, o.addr)
  | some st, some o => if o.off < d.failOff then some (8, o.off, o.addr) else some (st, d.failOff, d.faultAddr)

/-- The next write piece: offset, address, length. -/
def Chip.nextWrite (c : Chip) (d : RDesc) : Nat × Nat × Nat :=
  if d.d.opcode = 5 then (0, 0, d.d.len)
  else
    let a := (d.d.dst + d.wr) % 2 ^ 64
    (d.wr, a, pieceLen (c.relayMps (c.slVsi d.slice)) a (d.d.len - d.wr))

/-- A write piece is ready: its data is held, or lies in the descriptor (R294). -/
def Chip.writeReady (c : Chip) (d : RDesc) : Bool :=
  let n := (c.nextWrite d).2.2
  d.started && (c.failure d).isNone && !d.sent && decide (d.wr < d.d.len) &&
    decide (d.d.opcode = 2 ∨ d.d.opcode = 3 ∨ (d.d.reads = true ∧ c.covers d (c.rly.ops.length + 1) d.wr n = true))

/-- The next read piece: offset, address, length. -/
def Chip.nextRead (c : Chip) (d : RDesc) : Nat × Nat × Nat :=
  let a := (d.d.src + d.rd) % 2 ^ 64
  (d.rd, a, pieceLen (c.relayMrrs (c.slVsi d.slice)) a (d.d.len - d.rd))

/-- The write side takes the piece's data at once: every byte read has been written, or what has been read has arrived and the next
write piece needs more (R292); a piece that is read again may have been written in part (R293). For a SEND, all has arrived. -/
def Chip.takesNow (c : Chip) (d : RDesc) : Bool :=
  let arrived := !(c.opsOf d).any (fun o => o.kind == .read && !o.arrived)
  d.started && (if d.d.opcode = 5 then arrived
    else decide (d.rd ≤ d.wr) || (arrived && decide (d.rd < d.wr + (c.nextWrite d).2.2)))

/-- Bytes that the slice's reads are ahead of its writes (R291). -/
def Chip.readAhead (c : Chip) (s : Nat) : Nat := ((c.slDescs s).map (fun d => d.rd - d.wr)).sum

/-- A read piece may be issued: R291 where its sector is prefetchable, R292 where it is not. -/
def Chip.readAllowed (c : Chip) (d : RDesc) (pf : Bool) : Bool :=
  let n := (c.nextRead d).2.2
  if pf then
    (c.takesNow d || (!c.fenced d &&
      decide (c.readAhead d.slice + n ≤ c.fld (Reg.PREFETCH d.slice) Bit.PREFETCH_KIB * 1024))) &&
      (d.started || c.startStatus d.slice d.d == 0)
  else c.takesNow d && !(c.rly.ops.any (fun o => o.slice == d.slice && o.single && !o.arrived))

/-- A read piece has data to fetch and room to put it. -/
def Chip.readPending (c : Chip) (d : RDesc) : Bool :=
  let r := c.nextRead d
  d.d.reads && (c.failure d).isNone && !d.noRecord && decide (d.rd < d.d.len) &&
    decide (c.rdUnits + unitsOf r.2.1 r.2.2 ≤ rdRoom)

/-- The sector verdict of a read piece, if nothing is in doubt: refused, or allowed (prefetchable or not). -/
def Chip.readVerdict (c : Chip) (d : RDesc) : Option (Option Bool) :=
  let r := c.nextRead d
  match c.relayPath (c.slVsi d.slice) (c.sliceTlp d.slice .mrd r.2.1 r.2.2 d.d.tc 0 [] false) with
  | none => none
  | some p =>
    match c.secCheck secRelay p.a false with
    | .allowed pf => some (some pf)
    | .denied _ => some none
    | .doubt _ _ => some none

def Chip.readReady (c : Chip) (d : RDesc) : Bool :=
  c.readPending d && (match c.readVerdict d with
    | some (some pf) => c.readAllowed d pf
    | some none => d.started
    | none => d.started)

/-- The slice may issue pieces: it runs, Bus Master Enable is 1, the ceiling is not reached (R290, R305), the module is
not in Fog (R351), and the Relay port has room (R70). -/
def Chip.slIssues (c : Chip) (s : Nat) : Bool :=
  !c.inModFog && c.relayRoom (c.slVsi s) && (c.slState s == sActive || c.slState s == sDraining) && c.bme (c.slVsi s) && decide (c.opsInFlight < 16384)

/-- The completion point of a descriptor is reached, or it has failed and its issued pieces have finished (R284, R297). -/
def Chip.descFinished (c : Chip) (d : RDesc) : Bool :=
  !d.noRecord && !c.holdsPiece d &&
    ((c.failure d).isSome ||
      (d.started && (if d.d.opcode = 0 then true
        else if d.d.opcode = 6 ∨ d.d.opcode = 7 then (c.earlierDescs d).isEmpty && !c.earlierFetch d
        else if d.d.opcode = 5 then false
        else d.wr == d.d.len)))

/-- Records of received SENDs that wait to be written. -/
def Chip.recvWaiting (c : Chip) (s : Nat) : Nat :=
  ((c.postsOf s).filter (fun p => p.send.isSome)).length + (c.rly.held.filter (fun r => r.slice == s && r.recv)).length

/-- How many descriptors may be fetched now (R282, R290): up to 8, in one read that stays in the ring, in its 4 KiB and within the
Relay function's Max_Read_Request_Size, and for each a record slot and an operation. -/
def Chip.fetchCount (c : Chip) (s : Nat) : Nat :=
  let f := c.fetched s
  let i := f % c.sqSize s
  let addr := c.pair (Reg.SQ_BASE_LO s) (Reg.SQ_BASE_HI s) + i * 64
  let owed := c.owed s
  let want := modSub (2 ^ 32) (c.rd (Reg.SQ_SEEN s)).toNat f
  let m := c.relayMrrs (c.slVsi s)
  [8, want, c.sqSize s - i, 64 - addr % 4096 / 64, (m - addr % m) / 64, 16384 - c.opsInFlight,
   c.fld (Reg.RING_CFG s) Bit.RING_CFG_RUN_AHEAD - owed, c.cqFree s - owed - c.recvWaiting s].foldl min 8

def Chip.fetchReady (c : Chip) (s : Nat) : Bool :=
  !c.inModFog && c.relayRoom (c.slVsi s) && c.slState s == sActive && c.bme (c.slVsi s) &&
    decide (c.opsInFlight < 16384 ∧ 0 < c.fetchCount s)

/-! ## The scheduler of the slices (R325) -/

/-- The next descriptor of a slice to start: the oldest that has not started. -/
def Chip.toStart (c : Chip) (s : Nat) : Option RDesc :=
  ((c.slDescs s).filter (fun d => !d.started)).foldl (fun a d => match a with
    | none => some d
    | some x => if idxBefore d.idx x.idx then some d else some x) none

/-- The descriptor that may start when the scheduler serves the slice (R286). -/
def Chip.startable (c : Chip) (s : Nat) : Option RDesc :=
  (c.toStart s).filter (fun d => (c.slState s == sActive || c.slState s == sDraining) && c.bme (c.slVsi s) && !c.inModFog &&
    !c.fenced d && d.status.isNone && !d.noRecord)

/-- Bytes of the first access of a descriptor: a read piece, a write piece, or its record. -/
def Chip.firstAccess (c : Chip) (d : RDesc) : Nat :=
  if d.d.len = 0 then 32
  else if d.d.reads then (c.nextRead d).2.2
  else if d.d.opcode = 2 ∨ d.d.opcode = 3 then (c.nextWrite d).2.2
  else 32

/-- The write of a slice that waits longest, and its bytes (R325). -/
def Chip.nextPost (c : Chip) (s : Nat) : Option RPost := c.rly.posts.find? (fun p => p.slice == s)

def Chip.postLen (c : Chip) (p : RPost) : Nat :=
  match p.what with
  | .record _ => 32
  | .intr _ => 4
  | .inbox x => pieceLen (c.relayMps (c.slVsi p.slice)) x.addr x.data.length

/-- A waiting write of a slice may go: as a piece may, but for the ceiling of R290. -/
def Chip.mayPost (c : Chip) (s : Nat) : Bool :=
  !c.inModFog && c.relayRoom (c.slVsi s) && (c.slState s == sActive || c.slState s == sDraining) && c.bme (c.slVsi s)

/-- Bytes of the next access that a slice could issue, if it has one: a write that waits, a write piece, a read piece, the first
access of a descriptor that is to start, a fetch. -/
def Chip.nextAccess (c : Chip) (s : Nat) : Option Nat :=
  let ds := c.slDescs s
  let start := (c.startable s).map c.firstAccess
  match c.nextPost s with
  | some p => if c.mayPost s then some (c.postLen p) else none
  | none =>
    if c.slIssues s then
      match ds.find? c.writeReady with
      | some d => some (c.nextWrite d).2.2
      | none =>
        match ds.find? c.readReady with
        | some d => some (c.nextRead d).2.2
        | none => if start.isSome then start else if c.fetchReady s then some (64 * c.fetchCount s) else none
    else start

def Chip.sliceInc (c : Chip) (s len : Nat) : Nat := tagInc (len + c.rlyOvh) (c.sliceWt s)

/-- The tags of the slices follow their candidates. -/
def Chip.syncSlices (c : Chip) : Chip :=
  (c.rly.slices.map (·.slice)).foldl (fun c s =>
    let n := c.nextAccess s
    c.tagSync (keySlice s) vkeyRly n.isSome (if c.sliceOpen s then n.map (c.sliceInc s) else none)) c

/-- The slice that the scheduler serves. -/
def Chip.sliceChoice (c : Chip) : Option Nat :=
  let ss := ((c.rly.slices.map (·.slice)).filter (fun s =>
    (c.wtag (keySlice s)).has && !(c.wtag (keySlice s)).held)).insertionSort (· ≤ ·)
  (ss.foldl (fun a s => earlier c a (s, keySlice s)) none).map (·.1)

/-- The slice has been chosen: V and its tag follow (R315). -/
def Chip.servedTags (c : Chip) (s : Nat) : Chip :=
  let n := c.nextAccess s
  c.tagChosen (keySlice s) vkeyRly n.isSome (if c.sliceOpen s then n.map (c.sliceInc s) else none)

/-- The slice is served an access of `len` bytes, which takes its tokens. -/
def Chip.served (c : Chip) (s len : Nat) : Chip := (c.sliceCharge s len).servedTags s

/-- The write of a slice that waits longest is made: a record, with the interrupt and the reply that follow it (R299, R303); an
interrupt; a piece of an inbox entry, behind the last of which its record waits. -/
def Chip.issuePost (c : Chip) (p : RPost) : Chip :=
  let s := p.slice
  let c := { c with rly := { c.rly with posts := c.rly.posts.erase p } }
  let front := fun (c : Chip) (k : RPostKind) => { c with rly := { c.rly with posts := ⟨s, k⟩ :: c.rly.posts } }
  match p.what with
  | .record r =>
    match c.writeRecord r with
    | (c, true) =>
      let c := match r.reply with
        | some f => c.sendReply f 0
        | none => c
      (if r.intr then c.sliceIntr s r.tc else c).served s 32
    | (c, false) =>
      match r.reply with
      | some f => c.sendReply f 0x0A
      | none => c
  | .intr tc => (c.intrWrite s tc).served s 4
  | .inbox x =>
    let n := c.postLen p
    let t := { c.sliceTlp s .mwr x.addr n x.from_.tc 0 (x.data.take n) false with poison := x.poison }
    match c.relayAccess (c.slVsi s) c.rly.nextOp t false with
    | .issued c _ _ =>
      let rest := x.data.drop n
      (if rest.isEmpty then
        let m := x.from_.msg
        front c (.record { slice := s, sqIndex := x.index, tag := m.tag, status := 0, recv := true, poison := x.poison, opcode := 5
                           doneLen := m.len, srcSlice := m.srcSlice, faultAddr := x.from_.srcFa, tc := x.from_.tc
                           intr := c.flag (Reg.IB_CFG s) Bit.IB_CFG_INTR, reply := some x.from_ })
       else front c (.inbox { x with data := rest, addr := x.addr + n })).served s n
    | .nowhere c => c.sendReply x.from_ 5
    | .denied c => c.sendReply x.from_ 6
    | .doubt c => c

/-- Waiting writes go out while the scheduler's choice is a slice that has one (R325, R327). `fuel` bounds how many. -/
def Chip.pumpPosts : Nat → Chip → Chip
  | 0, c => c
  | fuel + 1, c =>
    let c := c.syncSlices
    match c.sliceChoice with
    | some s =>
      match c.nextPost s with
      | some p => if c.mayPost s then (c.issuePost p).pumpPosts fuel else c
      | none => c
    | none => c

/-- The most writes that what waits can make: an inbox entry of 4,096 bytes has 32 pieces at most, a record, an interrupt. -/
def Chip.relayPump (c : Chip) : Chip := if c.rly.posts.isEmpty then c else c.pumpPosts (34 * c.rly.posts.length)

/-- An access of a slice takes place when the scheduler serves the slice, and no write of it waits. Another slice may then be the
scheduler's choice. -/
def Chip.whenServed (c : Chip) (s : Nat) (act : Chip → Chip) : Chip :=
  let c := c.relayPump.syncSlices
  if c.sliceChoice == some s && (c.nextPost s).isNone then (act c).relayPump else c

/-- INT_UNMASK. -/
def execIntUnmask (ag : Agent) (slice : Nat) (s : State) : Host.Outcome State Fault Refusal :=
  .next { s with chip := s.chip.busWriteW ag (Reg.INT_CTRL slice) 0 (fun c => (c.setMask slice false).relayPump) }

def execRelayBmeSet (v : Nat) (s : State) : Host.Outcome State Fault Refusal := .next { s with chip := (s.chip.bmeSet v).relayPump }

/-! ## Fetching (R282) -/

/-- DESCRIPTOR_FETCH. -/
def Chip.descFetch (c : Chip) (s : Nat) : Chip :=
  if !c.fetchReady s then c
  else c.whenServed s (fun c =>
    let n := c.fetchCount s
    let f := c.fetched s
    let addr := c.pair (Reg.SQ_BASE_LO s) (Reg.SQ_BASE_HI s) + f % c.sqSize s * 64
    let op := c.rly.nextOp
    let t := c.sliceTlp s .mrd addr (64 * n) 0 (op % 1024) [] false
    match c.relayAccess (c.slVsi s) op t true with
    | .nowhere c => c.ringFault s haltSqFault addr
    | .denied c => c.ringFault s haltSqFault addr
    | .doubt c => c
    | .issued c uids lost =>
      if lost then c.ringFault s haltSqFault addr
      else
        let o : ROp := { id := op, slice := s, idx := f, kind := .fetch, addr, len := 64 * n, frames := uids.length
                         gen := c.fld Reg.SEC_ACTIVE_GEN Bit.SEC_ACTIVE_GEN_GEN
                         dest := ((c.portOfVsi (c.slVsi s)).map c.ownFa).getD 0 }
        let c := (c.addOp o).wr (Reg.SQ_FETCHED s) (BitVec.ofNat 32 (f + n))
        (c.rlyCtr 4 n).served s (64 * n))

def execDescriptorFetch (slice : Nat) (s : State) : Host.Outcome State Fault Refusal :=
  .next { s with chip := s.chip.descFetch slice }

/-! ## Starting (R285, R286) -/

/-- DESCRIPTOR_START: when the scheduler serves the slice, its next descriptor starts, or fails a check and is done with the
status. -/
def Chip.descStart (c : Chip) (s : Nat) : Chip :=
  match c.startable s with
  | some d =>
    c.whenServed s (fun c =>
      let st := c.startStatus s d.d
      let d := { d with started := true }
      if st = 0 then c.putRdesc d else (c.putRdesc d).failDesc d st 0 0)
  | none => c

def execDescriptorStart (slice : Nat) (s : State) : Host.Outcome State Fault Refusal :=
  .next { s with chip := s.chip.descStart slice }

/-! ## Read pieces (R287 to R292) -/

/-- Issue the next read piece of a descriptor. -/
def Chip.issueRead (c : Chip) (d : RDesc) : Chip :=
  let s := d.slice
  let r := c.nextRead d
  let op := c.rly.nextOp
  let spec := !c.takesNow d
  let single := c.readVerdict d == some (some false)
  let t := c.sliceTlp s .mrd r.2.1 r.2.2 d.d.tc (op % 1024) [] false
  match c.relayAccess (c.slVsi s) op t false with
  | .nowhere c => if d.started then c.failDesc d 5 r.1 r.2.1 else c
  | .denied c => if d.started then c.failDesc d 6 r.1 r.2.1 else c
  | .doubt c => c
  | .issued c uids lost =>
    if lost then c.failDesc d 7 r.1 r.2.1
    else
      let dest := match c.relayPath (c.slVsi s) t with
        | some p => match p.win with
          | some w => w.dest
          | none => c.ownFa p.look.port
        | none => 0
      let o : ROp := { id := op, slice := s, idx := d.idx, kind := .read, off := r.1, addr := r.2.1, len := r.2.2,
                       frames := uids.length, spec, single, gen := c.fld Reg.SEC_ACTIVE_GEN Bit.SEC_ACTIVE_GEN_GEN,
                       units := unitsOf r.2.1 r.2.2, dest, tc := d.d.tc }
      let c := (c.addOp o).putRdesc { d with rd := d.rd + r.2.2 }
      let c := ((c.rlyCtr 7 1).rlyCtr 9 r.2.2).slCtr s 2 r.2.2
      (if spec then c.rlyCtr 11 1 else c).served s r.2.2

/-! ## Write pieces (R287, R293, R294) -/

/-- The speculative reads whose data the next write piece would use and whose generation is past. -/
def Chip.staleReads (c : Chip) (d : RDesc) (off len : Nat) : List ROp :=
  (c.opsOf d).filter (fun o => o.kind == .read && o.arrived && o.spec &&
    o.gen != c.fld Reg.SEC_ACTIVE_GEN Bit.SEC_ACTIVE_GEN_GEN && decide (o.off < off + len ∧ off < o.off + o.len))

/-- R293 for one read: its data may be used, is read again, or ends the descriptor. The truth value says that the write may
go on. -/
def Chip.revalidate (c : Chip) (d : RDesc) (o : ROp) : Chip × Bool :=
  let s := d.slice
  let held := (c.opsOf d).filter (fun x => x.kind == .read && decide (o.off ≤ x.off))
  let side := fun (c : Chip) =>
    let c := ((c.setBit (Reg.SLC_EVENT s) Bit.SLC_EVENT_SPEC_SIDE).rlyCtr 12 held.length).rlyCtr 13 1
    (c.slCtr s 4 1).log .specSide [s] [o.addr, held.length]
  match c.relayPath (c.slVsi s) (c.sliceTlp s .mrd o.addr o.len d.d.tc 0 [] false) with
  | none => ((side c).failDesc { d with specSide := true } 6 o.off o.addr, false)
  | some p =>
    match c.secCheck secRelay p.a false with
    | .allowed true =>
      (c.updOps (fun x => x.id == o.id) (fun x => { x with gen := c.fld Reg.SEC_ACTIVE_GEN Bit.SEC_ACTIVE_GEN_GEN }), true)
    | .allowed false =>
      let c := (side c).dropOps (fun x => x.slice == s && x.idx == d.idx && x.kind == .read && x.arrived &&
        decide (o.off ≤ x.off))
      let c := c.updOps (fun x => x.slice == s && x.idx == d.idx && x.kind == .read && decide (o.off ≤ x.off))
        (fun x => { x with discard := true })
      (c.putRdesc { d with rd := o.off, specSide := true }, false)
    | .denied _ => ((side c).failDesc { d with specSide := true } 6 o.off o.addr, false)
    | .doubt x hits => (c.secDoubt x hits o.addr secRelay, false)

/-- The data of a write piece. -/
def Chip.writeData (c : Chip) (d : RDesc) (off len : Nat) : List Byte :=
  if d.d.opcode = 2 then ((d.d.operand.drop off).take len).map (BitVec.ofNat 8)
  else if d.d.opcode = 3 then (List.range len).map (fun i => BitVec.ofNat 8 (nth d.d.operand ((off + i) % 8)))
  else c.heldBytes d off len

/-- The packets of an issued write that are in custody: their cast-offs finish the piece. -/
def Chip.guardedOf (c : Chip) (uids : List Nat) : Nat :=
  (c.sw.pkts.filter (fun k => uids.contains k.uid && k.guarded)).length

/-- Issue the next write piece of a descriptor. -/
def Chip.issueWrite (c : Chip) (d : RDesc) : Chip :=
  let s := d.slice
  let w := c.nextWrite d
  let op := c.rly.nextOp
  let used := (c.opsOf d).filter (fun o => o.kind == .read && o.arrived && decide (o.off < w.1 + w.2.2 ∧ w.1 < o.off + o.len))
  let t := { c.sliceTlp s .mwr w.2.1 w.2.2 d.d.tc 0 (c.writeData d w.1 w.2.2) false with poison := used.any (·.poison) }
  match c.relayAccess (c.slVsi s) op t false with
  | .nowhere c => c.failDesc d 5 w.1 w.2.1
  | .denied c => c.failDesc d 6 w.1 w.2.1
  | .doubt c => c
  | .issued c uids _ =>
    let dest := match c.relayPath (c.slVsi s) t with
      | some p => match p.win with
        | some x => x.dest
        | none => c.ownFa p.look.port
      | none => 0
    let n := c.guardedOf uids
    let o : ROp := { id := op, slice := s, idx := d.idx, kind := .write, off := w.1, addr := w.2.1, len := w.2.2, frames := n,
                     gen := c.fld Reg.SEC_ACTIVE_GEN Bit.SEC_ACTIVE_GEN_GEN, dest, tc := d.d.tc }
    let c := if n = 0 then c else c.addOp o
    let c := c.putRdesc { d with wr := d.wr + w.2.2, poison := d.poison || t.poison }
    let c := c.dropOps (fun o => o.slice == s && o.idx == d.idx && o.kind == .read && o.arrived &&
      decide (o.off + o.len ≤ w.1 + w.2.2))
    (((c.rlyCtr 8 1).rlyCtr 10 w.2.2).slCtr s 3 w.2.2).served s w.2.2

/-! ## SEND (R302 to R304) -/

def Chip.sendTmo (c : Chip) : Nat := c.fld Reg.RLY_CTRL Bit.RLY_CTRL_SEND_TMO * 100 * us

/-- A SEND whose data is held goes out. -/
def Chip.issueSend (c : Chip) (d : RDesc) : Chip :=
  let s := d.slice
  let v := c.slVsi s
  match c.portOfVsi v with
  | none => c.failDesc d 5 0 d.d.dst
  | some p =>
    let data := c.heldBytes d 0 d.d.len
    let poison := (c.opsOf d).any (fun o => o.kind == .read && o.poison)
    let m : RelayMsg := { destSlice := d.d.dst / 2 ^ 25 % 4096, srcSlice := s, ref := d.idx % c.sqSize s, len := d.d.len,
                          key := nth d.d.operand 0 + 256 * nth d.d.operand 1 + 65536 * nth d.d.operand 2 +
                            2 ^ 24 * nth d.d.operand 3
                          tag := d.d.tag }
    let op := c.rly.nextOp
    let c := { c with rly := { c.rly with nextOp := op + 1 } }
    let o : ROp := { id := op, slice := s, idx := d.idx, kind := .send, len := d.d.len, dest := d.d.dst % 2 ^ 25, tc := d.d.tc }
    let c := (c.addOp o).putRdesc { d with sent := true, wr := d.d.len, poison := d.poison || poison }
    let c := c.dropOps (fun o => o.slice == s && o.idx == d.idx && o.kind == .read)
    (((c.sendRelayMsg v p (d.d.dst % 2 ^ 25) d.d.tc m data poison).arm (.send op) c.sendTmo).rlyCtr 15 1).served s d.d.len

/-- PIECE_ISSUE: the next write piece (`write`) or read piece of a descriptor. -/
def Chip.pieceIssue (c : Chip) (s idx : Nat) (write : Bool) : Chip :=
  match c.rdesc s idx with
  | none => c
  | some d =>
    if !c.slIssues s then c
    else if write then
      if !c.writeReady d then c
      else c.whenServed s (fun c =>
        let w := c.nextWrite d
        let r := (c.staleReads d w.1 w.2.2).foldl (fun (a : Chip × Bool) o => if a.2 then a.1.revalidate d o else a) (c, true)
        if !r.2 then r.1
        else if d.d.opcode = 5 then r.1.issueSend d
        else r.1.issueWrite d)
    else if !c.readReady d then c
    else c.whenServed s (fun c => c.issueRead d)

def execPieceIssue (slice idx : Nat) (write : Bool) (s : State) : Host.Outcome State Fault Refusal :=
  .next { s with chip := s.chip.pieceIssue slice idx write }

/-! ## Completions (R289) -/

/-- A fetch has arrived: its descriptors are in the store. They end at once where Bus Master Enable has been 0 since the
fetch (R305). -/
def Chip.fetchArrived (c : Chip) (o : ROp) : Chip :=
  let c := c.dropOps (fun x => x.id == o.id)
  if o.discard then c
  else
    let off := o.failed || !c.bme (c.slVsi o.slice)
    let ds := (List.range (o.len / 64)).map (fun i =>
      ({ slice := o.slice, idx := (o.idx + i) % 2 ^ 32, d := descOf (o.data.drop (64 * i))
         status := if off then some 9 else none } : RDesc))
    let c := if off then (c.rlyCtr 14 ds.length).setBit (Reg.SLC_EVENT o.slice) Bit.SLC_EVENT_BME_ABORT else c
    { c with rly := { c.rly with descs := c.rly.descs ++ ds } }

/-- A read piece has finished with its data, or with a status. -/
def Chip.readArrived (c : Chip) (o : ROp) : Chip :=
  if o.discard then c.dropOps (fun x => x.id == o.id)
  else c.updOps (fun x => x.id == o.id) (fun x => { x with arrived := true })

/-- The completion of a debug read. -/
def Chip.dbgCpl (c : Chip) (o : ROp) (t : Tlp) : Chip :=
  let c := c.dropOps (fun x => x.id == o.id)
  if c.kpr.dbgResult ≠ 2 then c
  else if t.status = stSC then c.dbgAnswer 0 ((t.data ++ List.replicate o.len 0).take o.len) else c.dbgAnswer 3 []

/-- A read of a descriptor that has failed by a piece may fail below that piece and lower its offset (R297). -/
def RDesc.readsFail (d : RDesc) : Bool :=
  !d.noRecord && (match d.status with
    | some st => decide (5 ≤ st ∧ st ≤ 8)
    | none => false)

/-- The completion `t` belongs to operation `o`; `ends`: its request has ended. -/
def Chip.opCompletion (c : Chip) (o : ROp) (t : Tlp) (ends : Bool) : Chip :=
  if t.status ≠ stSC then
    let c := c.dropOps (fun x => x.id == o.id)
    if o.kind = .fetch then (if o.discard then c else c.ringFault o.slice haltSqFault o.addr)
    else
      match c.rdesc o.slice o.idx with
      | some d => if o.discard && !d.readsFail then c else c.failDesc d 7 o.off o.addr
      | none => c
  else
    let o := { o with data := o.data ++ t.data.take t.len ++ List.replicate (t.len - t.data.length) 0
                      poison := o.poison || t.poison, frames := if ends then o.frames - 1 else o.frames }
    let c := c.updOps (fun x => x.id == o.id) (fun _ => o)
    if 0 < o.frames then c
    else if o.kind = .fetch then c.fetchArrived o
    else c.readArrived o

/-- RELAY_READ_COMPLETION: the oldest completion at the engine. -/
def Chip.relayCpl (c : Chip) : Chip :=
  match if c.clocked 82 then c.rly.cpls else [] with
  | [] => c
  | (id, t, ends) :: rest =>
    let c := { c with rly := { c.rly with cpls := rest } }
    match c.rly.ops.find? (fun o => o.id == id && (o.kind == .fetch || o.kind == .read)) with
    | some o => if o.slice = dbgSlice then c.dbgCpl o t else (c.opCompletion o t ends).relaySettle
    | none => c

def execRelayReadCompletion (s : State) : Host.Outcome State Fault Refusal := .next { s with chip := s.chip.relayCpl }

/-! ## Completion of descriptors (R284, R295 to R297) -/

/-- The record of a finished descriptor. -/
def Chip.recordOf (c : Chip) (d : RDesc) : RRec :=
  let f := c.failure d
  { slice := d.slice, sqIndex := d.idx % c.sqSize d.slice, tag := d.d.tag, specSide := d.specSide, poison := d.poison
    opcode := d.d.opcode, tc := d.d.tc, intr := d.d.intr || d.d.opcode == 7
    status := match f with
      | some x => x.1
      | none => 0
    doneLen := match f with
      | some x => x.2.1
      | none => d.d.len
    faultAddr := match f with
      | some x => x.2.2
      | none => 0 }

/-- DESCRIPTOR_COMPLETE: a descriptor at its completion point leaves the store, and its record waits for the scheduler. -/
def Chip.descComplete (c : Chip) (s idx : Nat) : Chip :=
  match c.rdesc s idx with
  | none => c
  | some d =>
    if !c.descFinished d || c.inModFog || !(c.slState s == sActive || c.slState s == sDraining) then c
    else
      let r := c.recordOf d
      let c := c.dropOps (fun o => o.slice == s && o.idx == idx)
      let c := { c with rly := { c.rly with descs := c.rly.descs.filter (fun x => !(x.slice == s && x.idx == idx)) } }
      let c := if r.status = 0 then (c.rlyCtr 5 1).slCtr s 0 1 else (c.rlyCtr 6 1).slCtr s 1 1
      (c.finishRecord r).relayPump

def execDescriptorComplete (slice idx : Nat) (s : State) : Host.Outcome State Fault Refusal :=
  .next { s with chip := s.chip.descComplete slice idx }

/-! ## Received messages (R303, R304) -/

/-- The oldest Relay message of a kind, while the Relay runs. -/
def Chip.takeRmsg (c : Chip) (reply : Bool) : Option ((Nat × Nat × Nat × Tlp) × RelayMsg × Chip) :=
  match takeFirst (fun x => match x.2.2.2.rmsg with
      | some m => m.reply == reply
      | none => false) (if c.clocked 82 then c.rly.msgs else []) with
  | some (x, l) => some (x, x.2.2.2.rmsg.getD {}, { c with rly := { c.rly with msgs := l } })
  | none => none

/-- The checks of R303: the status of a refusal, or the writes of an accepted message wait for the scheduler. -/
def Chip.inboxTake (c : Chip) (f : SendFrom) (data : List Byte) (poison : Bool) : Chip × Option Nat :=
  let m := f.msg
  let s := m.destSlice
  let x := c.rslice s
  let n := 2 ^ c.fld (Reg.IB_CFG s) Bit.IB_CFG_IB_LOG2
  let size := entryBytes (c.fld (Reg.IB_CFG s) Bit.IB_CFG_ESIZE)
  let open_ := (match if (c.port f.port).up then c.vsiOfPort f.port else none with
    | some v => c.slState s == sActive && c.slVsi s == v && c.flag (Reg.IB_CFG s) Bit.IB_CFG_EN && c.bme v
    | none => false)
  if !open_ then (c, some 0x0A)
  else if m.key ≠ (c.rd (Reg.IB_KEY s)).toNat then (c, some 0x0C)
  else if size < m.len then (c, some 0x0D)
  else if n ≤ modSub (2 ^ 32) x.ibUsed x.ibBack ∨ c.cqFree s ≤ c.owed s + c.recvWaiting s then (c, some 0x0B)
  else
    let i := x.ibUsed % n
    let c := (c.putRslice { x with ibUsed := (x.ibUsed + 1) % 2 ^ 32 }).rlyCtr 16 1
    (c.addPost s (.inbox { from_ := f, data := data.take m.len, index := i, poison
                           addr := c.pair (Reg.IB_BASE_LO s) (Reg.IB_BASE_HI s) + i * size }), none)

/-- SEND_RECEIVED: the message is checked, and is refused or taken (R303). -/
def Chip.sendIn (c : Chip) : Chip :=
  match c.takeRmsg false with
  | none => c
  | some ((srcFa, port, tc, t), msg, c) =>
    let f : SendFrom := { srcFa, port, tc, msg }
    match c.inboxTake f t.data t.poison with
    | (c, some status) => c.sendReply f status
    | (c, none) => c.relayPump

def execSendReceived (s : State) : Host.Outcome State Fault Refusal := .next { s with chip := s.chip.sendIn }

/-- A SEND ends with a status; a status other than SUCCESS is that of its only piece. -/
def Chip.endSend (c : Chip) (o : ROp) (status : Nat) : Chip :=
  let c := (c.disarm (.send o.id)).dropOps (fun x => x.id == o.id)
  match c.rdesc o.slice o.idx with
  | some d => c.putRdesc { d with status := some status, failOff := if status = 0 then d.d.len else 0,
                                  faultAddr := if status = 0 then 0 else d.d.dst }
  | none => c

/-- SEND_REPLY_RECEIVED (R304). -/
def Chip.replyIn (c : Chip) : Chip :=
  match c.takeRmsg true with
  | none => c
  | some (x, m, c) =>
    match c.rly.ops.find? (fun o => o.kind == .send && o.slice == m.srcSlice && o.idx % c.sqSize o.slice == m.ref &&
        o.dest == x.1) with
    | some o => (c.endSend o m.status).relaySettle
    | none => c.satInc Reg.RLY_EVENT Bit.RLY_EVENT_LATE_REPLY

def execSendReplyReceived (s : State) : Host.Outcome State Fault Refusal := .next { s with chip := s.chip.replyIn }

/-- SEND_TIMEOUT (R304). -/
def Chip.sendExpiry (c : Chip) (id : Nat) : Chip :=
  if c.due (.send id) then
    match c.rly.ops.find? (fun o => o.id == id && o.kind == .send) with
    | some o => ((c.endSend o 0x0E).rlyCtr 17 1).relaySettle
    | none => c.disarm (.send id)
  else c

def execSendTimeout (id : Nat) (s : State) : Host.Outcome State Fault Refusal :=
  .next { s with chip := s.chip.sendExpiry id }

end Sys2Proof.Machine
end

