-- ==== Sys2Proof/Machine/Ticks.lean ====
section
/-!
DEFINITION. What time alone does: the Watch and the operating hours (R430, R431, R505), token buckets (R320), and the recovery
of policers and slice pacing (R323, R326).
-/
namespace Sys2Proof.Machine

/-- BUCKET_REFILL: every bucket that is not full gains 32 ns of its rate, and held candidates may be released (R316). A
slice that its bucket holds counts the time (R491). -/
def Chip.bucketRefill (c : Chip) : Chip :=
  let held := (c.rly.slices.map (·.slice)).filter (fun s => !c.sliceOpen s && (c.nextAccess s).isSome)
  let c := held.foldl (fun c s => c.slCtr s 7 32) c
  let ports := ((c.sw.obq.map (·.port)).dedup)
  let c := ports.foldl (fun c p => c.syncPort p) c
  let c := { c with sw := { c.sw with oldRate := [] } }
  let c := (c.sw.tokens.map (·.1)).foldl (fun c k => let r := c.bucketRate k; c.refill k r.1 r.2) c
  ((ports.foldl (fun c p => c.syncPort p) c).syncSlices).relayPump

def execBucketRefill (s : State) : Host.Outcome State Fault Refusal := .next { s with chip := s.chip.bucketRefill }

/-- No decrease of a policer or a slice in the last RECOVER µs. -/
def Chip.quietFor (c : Chip) (key : Nat) : Bool :=
  match c.sw.lastDec.find? (fun e => e.1 == key) with
  | some e => decide (e.2 + c.recoverUs * us ≤ c.now)
  | none => true

/-- POLICER_RECOVER: every RECOVER µs, policers and slices below their base rise (R323, R326). -/
def Chip.policerRecover (c : Chip) : Chip :=
  let vk := (List.range 512).filter (fun i => (c.rd (Reg.POL_EFF (i / 8) (i % 8))).toNat != 0 &&
    c.quietFor (keyPol (i / 8) (i % 8)))
  let c := vk.foldl (fun c i =>
    c.setPolEff (i / 8) (i % 8) (increased (c.polEff (i / 8) (i % 8)) (c.polBase (i / 8) (i % 8)) c.incShift)) c
  let ss := (c.rly.slices.map (·.slice)).filter (fun s => (c.rd (Reg.SLICE_PACE s)).toNat != 0 &&
    c.quietFor (keySliceBucket s))
  ss.foldl (fun c s => c.setSlicePace s (increased (c.slicePace s) (c.sliceBase s) c.incShift)) c

def execPolicerRecover (s : State) : Host.Outcome State Fault Refusal := .next { s with chip := s.chip.policerRecover }

/-! ## The Watch -/

/-- What one cycle of the Lamp Room's clock adds to the Watch (R430). -/
def Chip.watchStep (c : Chip) : Nat := if c.flag Reg.CLK_STATUS Bit.CLK_STATUS_LAMP_ON_XTAL then 40 else 20

/-- The periods of a length that the Watch completes as it advances. -/
def passed (now d period : Nat) : Nat := (now + d) / period - now / period

/-- One step of slewing: 1 ns at each full microsecond (R431). -/
def slewBy (slew : Int) (n : Nat) : Int := if slew = 0 ∨ n = 0 then 0 else if 0 < slew then 1 else -1

/-- What stands to happen without a command: ports at which a lookup of the module's own found its pipelines different enter
Fog (R47, R350), entries whose completions have counted are answered (R94), and writes of the Relay engine that the scheduler
chooses go out (R325). -/
def Chip.settleAll (c : Chip) : Chip :=
  let ps := c.saf.contain
  (ps.foldl (fun (c : Chip) p => c.portFog p fogLookup) ({ c with saf := { c.saf with contain := [] } } : Chip)).settleDue.relayPump

/-- Operating time passes: every 0.1 h of it the power-entry controller updates the hours (R505). -/
def Chip.hoursPass (c : Chip) (d : Nat) : Chip :=
  let c := { c with pwr := { c.pwr with hourNs := (c.pwr.hourNs + d) % (360 * sec) } }
  if c.pwr.hourNs < d then c.satInc Reg.OP_HOURS Bit.OP_HOURS_HOURS else c

/-- One cycle of the Lamp Room's clock passes: the Watch advances, WATCH_TIME slews, and the operating hours rise every 0.1 h.
The Lamp Room runs from the standby converter, also while RESET_N is held; nothing counts before the converter starts. -/
def Chip.tick (c : Chip) : Chip :=
  if !c.pwr.standby then c
  else
    let d := c.watchStep
    let x := slewBy c.slew (passed c.watchUp d us)
    let c := { c with watchUp := (c.watchUp + d) % 2 ^ 64
                      watchTime := ((c.watchTime + d : Nat) + x).toNat % 2 ^ 64
                      slew := c.slew - x }
    (c.hoursPass d).settleAll

end Sys2Proof.Machine
end

