-- ==== Sys2Proof/Machine/ConfView.lean ====
section
/-!
DEFINITION. The host's configuration view of a VSI (R241, R245, R246, R249, R251), bound windows as the host sets them
(R247), translated FLRs (R262, R263), and the resets and readiness of VSIs (R257, R260, R261).
-/
namespace Sys2Proof.Machine

/-! ## Bound functions as the host sets them (R246, R247) -/

/-- One bound window of a function follows its BAR and Memory Space Enable. -/
def Chip.syncBar (c : Chip) (h : HostBind) (b : BarSt) : Chip :=
  if h.mse && b.lo && b.hi then c.validateWin h b else c.invalidateWin b.win

/-- The host writes a half of a BAR: address bits below the BAR's size are not writable. -/
def Chip.barWrite (c : Chip) (h : HostBind) (i : Nat) (hi : Bool) (value : Nat) : Chip :=
  let put := fun (b : BarSt) =>
    let a := if hi then b.addr % 2 ^ 32 + value % 2 ^ 32 * 2 ^ 32 else b.addr / 2 ^ 32 * 2 ^ 32 + value % 2 ^ 32 / 16 * 16
    { b with addr := a / max b.size 1 * b.size, lo := b.lo || !hi, hi := b.hi || hi }
  let h' := { h with bars := mapIf (fun b => b.idx == i) put h.bars }
  let c := c.putHost h'
  match h'.bars.find? (fun b => b.idx == i) with
  | some b => c.syncBar h' b
  | none => c

/-- The host writes Memory Space Enable: a change of it changes the bound windows. -/
def Chip.mseWrite (c : Chip) (h : HostBind) (on : Bool) : Chip :=
  if h.mse = on then c
  else
    let h' := { h with mse := on }
    h'.bars.foldl (fun c b => c.syncBar h' b) (c.putHost h')

/-- A host write to a bound function, unless the function is in a translated FLR (R258). -/
def Chip.onFunction (c : Chip) (v vbr devfn : Nat) (act : Chip → HostBind → Chip) : Chip :=
  match c.hostAt v vbr devfn with
  | some h => if 0 < h.flr then c else act c h
  | none => c

def execEmulatedBarWrite (v vbr devfn bar : Nat) (hi : Bool) (value : Nat) (s : State) : Host.Outcome State Fault Refusal :=
  .next { s with chip := s.chip.onFunction v vbr devfn (fun c h => c.barWrite h bar hi value) }

def execEmulatedMseWrite (v vbr devfn : Nat) (on : Bool) (s : State) : Host.Outcome State Fault Refusal :=
  .next { s with chip := s.chip.onFunction v vbr devfn (fun c h => c.mseWrite h on) }

/-! ## Translated FLR (R262, Table 8.8) -/

/-- A request of the VSI that goes to a bound function: a configuration request to its PRID, or an access in its BARs. -/
def HostBind.targets (h : HostBind) (kind : TlpKind) (addr dest : Nat) : Bool :=
  if kind = .cfgRd ∨ kind = .cfgWr then dest == h.prid
  else h.bars.any (fun b => decide (b.phys ≤ addr ∧ addr < b.phys + b.size))

/-- Such requests go to the function's port, or, for a function on another module, as frames to its FA on a span port. -/
def Chip.towardFn (c : Chip) (h : HostBind) (port : Nat) (destFa : Option Nat) : Bool :=
  match h.local_ with
  | some p => p == port
  | none => c.isSpan port && destFa == some h.targetFa

/-- Non-posted requests of the VSI in flight to the function: entries and packets (step 2). -/
def Chip.fnEntries (c : Chip) (h : HostBind) : List OrtEnt :=
  c.pci.ort.filter (fun e => e.vsi == h.v && c.towardFn h e.port e.destFa && h.targets e.kind e.addr e.dest)

def Chip.fnPackets (c : Chip) (h : HostBind) : List Pkt :=
  c.sw.pkts.filter (fun k => k.otype == 1 && k.actVsi == h.v && k.own.isNone && c.towardFn h k.egPort (k.kh.map (·.destFa)) &&
    h.targets k.tlp.kind k.tlp.addr k.tlp.dest && !(c.pci.ort.any (fun e => e.port == k.egPort &&
      k.mapped == some (e.mapRid, e.mapTag))))

/-- Custody copies made through the function's bound windows (step 3). -/
def Chip.fnCopies (c : Chip) (h : HostBind) : Bool :=
  c.mor.copies.any (fun k => match k.pkt.win with
    | some w => h.bars.any (fun b => b.win == w)
    | none => false)

/-- The quiesce of a function is complete. -/
def Chip.quiet (c : Chip) (h : HostBind) : Bool :=
  (c.fnEntries h).isEmpty && (c.fnPackets h).isEmpty && !c.fnCopies h

/-- A packet by which the module itself reaches a bound function (R251): a configuration request to its PRID on the
function's port, or an unguarded frame toward its module. -/
def Chip.ownRequest (c : Chip) (h : HostBind) (t : Tlp) : Chip :=
  match c.portOfVsi h.v with
  | none => c
  | some u =>
    let t := { t with dest := h.prid, rid := c.ownFa u % 65536 }
    let base : Pkt := { st := portStation u, src := portLocal u, inPort := u, tlp := t, vsi := h.v, actVsi := h.v,
                        noticeFa := c.ownFa u, egVc := c.egVc false t.tc, own := some (h.v, h.vbr, h.devfn) }
    match h.local_ with
    | some p => c.addPkt { base with egPort := p }
    | none =>
      let kh : KHdr := { destFa := h.targetFa, srcFa := c.ownFa u, srcVsi := h.v }
      match c.lookBoth h.targetFa kh.srcFa 0 0 with
      | .to q => c.addPkt { base with egPort := q, kh := some kh, wgen := some 0 }
      | .nowhere =>
        (((c.setBit Reg.KND_EVENT Bit.KND_EVENT_NO_ROUTE).stCtr u 52).log .noRoute [u] [h.targetFa, kh.srcFa]).ownCpl
          h.v h.vbr h.devfn stUR
      | .mismatch => (c.misLook u).ownCpl h.v h.vbr h.devfn stUR

/-- A function binding ends: its windows are invalid and return to the manager, slices that carry its host ID halt (R277),
and a vBridge without functions is EMPTY. -/
def Chip.removeHost (c : Chip) (h : HostBind) : Chip :=
  let rid := c.hostRid h
  let c := (c.slicesOf h.v).foldl (fun c s =>
    if c.fld (Reg.SLC_RID s) Bit.SLC_RID_REQ_RID = rid then c.haltSlice s haltRidGone else c) c
  let c := h.bars.foldl (fun c b => c.invalidateWin b.win) c
  let c := { c with vsi := { c.vsi with hosts := c.vsi.hosts.filter (fun x => !x.at h.v h.vbr h.devfn) } }
  let c := ((c.disarm (.quiesce h.v h.vbr h.devfn)).disarm (.frs h.v h.vbr h.devfn)).updFlrBusy h.v h.vbr
  let c := (c.disarm (.probe h.v h.vbr h.devfn)).disarm (.probeLimit h.v h.vbr h.devfn)
  if c.vsi.hosts.any (fun x => x.v == h.v && x.vbr == h.vbr) then c
  else
    let shown := c.flag (Reg.VBR_STATE h.v h.vbr) Bit.VBR_STATE_PRESENT
    let c := c.emptyVbr h.v h.vbr
    if shown then c.hotplug h.v h.vbr false false else c

/-- Steps 4 and 5: the entries of the function end at its module and its physical FLR is written; under UNBIND the binding is
removed instead (R255). -/
def Chip.quiesced (c : Chip) (h : HostBind) : Chip :=
  let c := c.disarm (.quiesce h.v h.vbr h.devfn)
  let c := match h.local_ with
    | some p => c.endOrig p h.prid
    | none => c
  if h.flr = 7 then c.removeHost h
  else (c.putHost { h with flr := 5 }).ownRequest { h with flr := 5 } { kind := .cfgWr, len := 4, initFlr := true }

/-- FLR_QUIESCE_DONE. -/
def Chip.flrQuiesceDone (c : Chip) (v vbr devfn : Nat) : Chip :=
  match c.hostAt v vbr devfn with
  | some h => if (h.flr = 1 ∨ h.flr = 7) ∧ c.quiet h = true then c.quiesced h else c
  | none => c

/-- QUIESCE_TIMEOUT: what is still in flight to the function is answered as R92 does, and the FLR goes on; its copies stay
in custody. An UNBIND waits on until they are delivered or failed (R255). -/
def Chip.quiesceExpiry (c : Chip) (v vbr devfn : Nat) : Chip :=
  if !c.due (.quiesce v vbr devfn) then c
  else
    match c.hostAt v vbr devfn with
    | some h =>
      if !(h.flr = 1 ∨ h.flr = 7) then c.disarm (.quiesce v vbr devfn)
      else
        let es := c.fnEntries h
        let ks := c.fnPackets h
        let c := es.foldl (fun c e => c.answerAfter e (c.synth e.port)) c
        let c := ks.foldl (fun c k => (c.withdraw k).answerPkt k.inPort k (c.synth k.egPort)) c
        let c := (c.setBit (Reg.VSI_EVENT v) Bit.VSI_EVENT_QUIESCE_TMO).log .quiesceTmo [v, vbr, devfn]
        if h.flr = 7 ∧ c.fnCopies h = true then c.disarm (.quiesce v vbr devfn) else c.quiesced h
    | none => c.disarm (.quiesce v vbr devfn)

/-- FLR_FRS_RECEIVED and FLR_FRS_TIMEOUT: steps 6 and 7. -/
def Chip.flrFrs (c : Chip) (v vbr devfn : Nat) : Chip :=
  match c.hostAt v vbr devfn with
  | some h => if h.flr = 5 ∨ h.flr = 6 then c.endFlr h true else c
  | none => c

def execFlrFrsReceived (v vbr devfn : Nat) (s : State) : Host.Outcome State Fault Refusal :=
  .next { s with chip := s.chip.flrFrs v vbr devfn }

def execFlrFrsTimeout (v vbr devfn : Nat) (s : State) : Host.Outcome State Fault Refusal :=
  .next { s with chip := if s.chip.due (.frs v vbr devfn) then s.chip.flrFrs v vbr devfn else s.chip }

/-- EMULATED_FLR: a second write while one is in progress starts nothing (R263). -/
def Chip.emulatedFlr (c : Chip) (h : HostBind) : Chip :=
  let c := c.polReset h.v
  if 0 < h.flr then c else c.startQuiesce h false false

def execEmulatedFlr (v vbr devfn : Nat) (s : State) : Host.Outcome State Fault Refusal :=
  .next { s with chip := s.chip.onFunction v vbr devfn Chip.emulatedFlr }

/-! ## Resets by the host (R260) -/

/-- HOT_RESET_RECEIVED. -/
def Chip.hotReset (c : Chip) (p : Nat) : Chip :=
  if !(c.port p).up then c
  else match c.vsiOfPort p with
    | some v => c.vsiReset v
    | none => c

def execHotResetReceived (p : Nat) (s : State) : Host.Outcome State Fault Refusal :=
  .next { s with chip := s.chip.hotReset p }

/-- The upstream ports with a lane on a cable site (R468). -/
def Chip.siteUps (c : Chip) (site : Nat) : List Nat :=
  (c.portsOfStation (site / 2)).filter (fun p => (c.port p).up && (c.sitesOf p).contains site)

/-- PERST_N of a cable site falls for an upstream port on it. The module did not ask for the loss of the link: SURPRISE_DOWN is set
(R537). -/
def Chip.perstFalls (c : Chip) (p : Nat) : Chip := (if c.dlUp p then c.linkDown p false else c).hotReset p

/-- UPSTREAM_PERST: PERST_N of an upstream cable site falls or rises, for every upstream port on it (R468). While it is low the VSI
stays in reset (R261). The level holds also before the site's station has started (R415). -/
def Chip.upstreamPerst (c : Chip) (site : Nat) (low : Bool) : Chip :=
  if !low then { c with pci := { c.pci with perstIn := c.pci.perstIn.erase site } }
  else
    let c := { c with pci := { c.pci with perstIn := site :: c.pci.perstIn.erase site } }
    (c.siteUps site).foldl Chip.perstFalls c

def execUpstreamPerst (site : Nat) (low : Bool) (s : State) : Host.Outcome State Fault Refusal :=
  .next { s with chip := s.chip.upstreamPerst site low }

/-- A Secondary Bus Reset in the upstream bridge (Table 8.7): everything below it; the policers of the VSI go to base (R328). On a
VSI in reset it has no further effect (R417). -/
def Chip.sbrUpstream (c : Chip) (v : Nat) : Chip := if c.vsiInReset v then c else (c.resetBelow v false).polReset v

/-- SBR_UPSTREAM_BRIDGE. -/
def execSbrUpstreamBridge (v : Nat) (s : State) : Host.Outcome State Fault Refusal :=
  .next { s with chip := if v < 64 then s.chip.sbrUpstream v else s.chip }

/-- SBR_VBRIDGE (Table 8.7), on a VSI that is not in reset (R417); the policers of the VSI go to base (R328). -/
def Chip.sbrVbridge (c : Chip) (v i : Nat) : Chip :=
  if c.vsiInReset v then c else
  let c := c.polReset v
  match c.vsi.ports.find? (fun b => b.1 == v && b.2.1 == i) with
  | some b =>
    if c.isManager v then c else (c.emit (.hotReset b.2.2)).answerPort b.2.2
  | none =>
    (c.vsi.hosts.filter (fun h => h.v == v && h.vbr == i)).foldl (fun c h =>
      if 0 < h.flr then c else c.startQuiesce h false false) c

def execSbrVbridge (v vbr : Nat) (s : State) : Host.Outcome State Fault Refusal :=
  .next { s with chip := s.chip.sbrVbridge v vbr }

/-! ## Readiness (R257, R261) -/

/-- The conditions of R257. -/
def Chip.vsiCanRun (c : Chip) (v : Nat) : Bool :=
  (match c.portOfVsi v with
   | some p => c.stUp (portStation p)
   | none => false) && c.flag Reg.START_STATUS Bit.START_STATUS_RELAY && c.vsi.loaded.contains v

/-- VSI_READY: the VSI is ready; with its link up and BOOT over it sends DRS. -/
def Chip.vsiReady (c : Chip) (v : Nat) : Chip :=
  if c.vsiCanRun v && !c.flag (Reg.VSI_STATUS v) Bit.VSI_STATUS_READY then
    let c := c.setBit (Reg.VSI_STATUS v) Bit.VSI_STATUS_READY
    let is := ((c.vsi.ports.filter (fun b => b.1 == v)).map (fun b => (b.2.1, some b.2.2))) ++
      ((c.vsi.hosts.filter (fun h => h.v == v && h.probe.isNone)).map (fun h => (h.vbr, h.local_)))
    (is.foldl (fun c i => c.showVbr v i.1 i.2) c).sendDrs v
  else c

def execVsiReady (v : Nat) (s : State) : Host.Outcome State Fault Refusal := .next { s with chip := s.chip.vsiReady v }

/-- VSI_LEAVE_RESET: PERST_N is high, the link is in DL_Active, every FLR that the reset started has reached step 5, and
every slice of the VSI is STOPPED (R261, R307). -/
def Chip.vsiLeaveReset (c : Chip) (v : Nat) : Chip :=
  let c := c.relaySettle
  let up := match c.portOfVsi v with
    | some p => !c.perstLow p && c.dlUp p
    | none => false
  if c.vsiInReset v && up && !(c.vsi.hosts.any (fun h => h.v == v && h.byReset && h.flr == 1)) &&
      (c.slicesOf v).all (fun s => c.slState s == sStopped) then
    c.clrFld (Reg.VSI_STATUS v) Bit.VSI_STATUS_IN_RESET
  else c

def execVsiLeaveReset (v : Nat) (s : State) : Host.Outcome State Fault Refusal :=
  .next { s with chip := s.chip.vsiLeaveReset v }

/-! ## Configuration requests (R241, R245, R246, R249, R251) -/

/-- The completion of a configuration request that the view itself answers. -/
def Chip.cfgAnswer (c : Chip) (r : Rx) (status value : Nat) : Chip :=
  let t := r.tlp
  let read := decide (t.kind = .cfgRd)
  let a : Tlp := { kind := .cpl, hdr := 16, rid := t.rid, tag := t.tag, tc := t.tc, attr := t.attr, status, byteCount := 4, cid := t.dest
                   len := if read && status = stSC then 4 else 0
                   data := if read && status = stSC then (leBytes 4 value).map (BitVec.ofNat 8) else [] }
  let c := if status = stUR then c.ctrInc kPort r.port 14 else c
  (((c.policeIn r).emit (.tlp r.port a false)).rxBack r).ackNow r []

/-- A register whose value the manual does not give reads as a free value; a write to it is taken. -/
def Chip.cfgFree (c : Chip) (r : Rx) : Chip := (c.cfgAnswer r stSC (c.freeVal % 2 ^ 32)).drew

/-- A configuration request goes on to a physical port, as a packet of the upstream port. `hostId`: the completer ID that its
completion takes (R251). -/
def Chip.cfgOnto (c : Chip) (r : Rx) (v p dest : Nat) (hostId : Option Nat) : Chip :=
  let u := r.port
  let k : Pkt := { st := portStation u, src := portLocal u, inPort := u, tlp := { r.tlp with dest }, egPort := p, hostId
                   egVc := c.egVc false r.tlp.tc, vsi := v, actVsi := v, noticeFa := c.ownFa u, poolH := 1, poolD := r.tlp.creditD }
  (c.addPktAt k r.t0).ackNow r []

/-- R251: a configuration request to an emulated function. -/
def Chip.cfgForward (c : Chip) (r : Rx) (h : HostBind) : Chip :=
  match h.local_ with
  | some p => c.cfgOnto r h.v p h.prid (some (c.hostRid h))
  | none =>
    let u := r.port
    let kh : KHdr := { destFa := h.targetFa, tc := r.tlp.tc, world := r.tlp.tee, srcFa := c.ownFa u, srcVsi := h.v }
    match c.lookBoth h.targetFa kh.srcFa r.tlp.tc 0 with
    | .to q =>
      let k : Pkt := { st := portStation u, src := portLocal u, inPort := u, tlp := { r.tlp with dest := h.prid }, egPort := q
                       vsi := h.v, actVsi := h.v, noticeFa := c.ownFa u, poolH := 1, poolD := r.tlp.creditD, kh := some kh
                       egVc := c.egVc false r.tlp.tc, wgen := some 0, hostId := some (c.hostRid h) }
      (c.addPktAt k r.t0).ackNow r []
    | .nowhere =>
      (((c.setBit Reg.KND_EVENT Bit.KND_EVENT_NO_ROUTE).stCtr u 52).log .noRoute [u] [h.targetFa, kh.srcFa]).cfgAnswer
        r stUR 0
    | .mismatch => (c.misLook u).rxBack r

/-- The value that a configuration write carries. -/
def cfgValue (t : Tlp) : Nat := leNat t.data 0 t.data.length

/-- What the next pointer at an extended capability reads as, where the module knows the list: SR-IOV is skipped (Table 8.3). -/
def FnInfo.next (f : FnInfo) (off : Nat) : Option Nat :=
  if f.caps.any (fun x => x.1 == off) then
    some ((((f.caps.dropWhile (fun x => x.1 != off)).drop 1).find? (fun x => !x.2)).map (·.1) |>.getD 0)
  else none

/-- The emulated fields of a bound function (Table 8.3). DESIGN CHOICE (log 197): the type bits of an emulated BAR read 0. -/
def Chip.cfgFunction (c : Chip) (r : Rx) (h : HostBind) (reg : CfgReg) : Chip :=
  let w := decide (r.tlp.kind = .cfgWr)
  let x := cfgValue r.tlp
  let ok := fun (c : Chip) (value : Nat) => c.cfgAnswer r stSC value
  if 0 < h.flr then c.cfgAnswer r stRRS 0
  else
    match reg with
    | .mse => if w then ok (c.mseWrite h (bitOf x 0)) 0 else ok c (b2n h.mse)
    | .bar i hi =>
      if w then ok (c.barWrite h i hi x) 0
      else
        let a := ((h.bars.find? (fun b => b.idx == i)).map (·.addr)).getD 0
        ok c (if hi then a / 2 ^ 32 else a % 2 ^ 32)
    | .vendorDevice =>
      match h.fn.vfIds with
      | some d => ok c d
      | none => if w then ok c 0 else c.cfgForward r h
    | .capNext off =>
      match h.fn.next off with
      | some n => ok c n
      | none => c.cfgForward r h
    | .intPin => ok c 0
    | .capPtr => c.cfgForward r h
    | .fixed _ => c.cfgForward r h
    | .slotCap => c.cfgForward r h
    | .slotStatus => c.cfgForward r h
    | .linkCap => c.cfgForward r h
    | .linkCtl => c.cfgForward r h
    | .linkStatus => c.cfgForward r h
    | .aerUnc => c.cfgForward r h
    | .aerCor => c.cfgForward r h
    | .aerSev => c.cfgForward r h
    | .acs => c.cfgForward r h
    | .headerType =>
      ok c (if h.devfn = 0 ∧ 1 < (c.vsi.hosts.filter (fun y => y.v == h.v && y.vbr == h.vbr)).length then 0x80 else 0)
    | .intDisable => ok c 1
    | .romBar => ok c 0
    | .srIov => ok c 0
    | .vfEnable => ok c 0
    | .numVfs => ok c 0
    | .vfBar _ => ok c 0
    | .flr => if w then (if bitOf x 0 then (ok c 0).emulatedFlr h else ok c 0) else ok c 0
    | .bme => c.cfgForward r h
    | .mcCtl => c.cfgForward r h
    | .mcBase _ => c.cfgForward r h
    | .mps => c.cfgForward r h
    | .mrrs => c.cfgForward r h
    | .secBus => c.cfgForward r h
    | .subBus => c.cfgForward r h
    | .sbr => c.cfgForward r h
    | .range _ _ => c.cfgForward r h
    | .dpcEn => c.cfgForward r h
    | .dpcCplCtl => c.cfgForward r h
    | .dpcStatus => c.cfgForward r h
    | .dpcSoft => c.cfgForward r h
    | .other _ => c.cfgForward r h

/-- A dword of a bridge or of the Relay function that is kept as the host wrote it. -/
def Chip.cfgStore (c : Chip) (r : Rx) (v fn key : Nat) : Chip :=
  if r.tlp.kind = .cfgWr then (c.setCfg v fn key (BitVec.ofNat 32 (cfgValue r.tlp))).cfgAnswer r stSC 0
  else c.cfgAnswer r stSC (c.cfg v fn key).toNat

/-- A register field of the module that a host reads and writes in its view. -/
def Chip.cfgField (c : Chip) (r : Rx) (off : Nat) (f : Fld) : Chip :=
  if r.tlp.kind = .cfgWr then (c.setFld off f (cfgValue r.tlp)).cfgAnswer r stSC 0
  else c.cfgAnswer r stSC (c.fld off f)


/-- Key of a bridge's Link Control. -/
def keyLinkCtl : Nat := 53

/-- The value of a capability bit that Table 3.1 fixes for a bridge of the view; MSI-X is that of the upstream bridge (Table
8.1). `fn` 0 is the upstream bridge, from 2 on a vBridge. -/
def FixedCap.bridge (f : FixedCap) (fn : Nat) : Nat :=
  match f with
  | .ecrcGen | .ecrcCheck | .dmwrRouting | .aspmL0s | .l12 | .egressControl | .linkIde | .l0p | .vc | .msi => 0
  | .aspmL1 | .l11 => 1
  | .maxPayload => 5
  | .ariForwarding => b2n (decide (2 ≤ fn))
  | .msix => b2n (fn == 0)
  | .mcGroups => 63

/-- Status bits that a host clears by writing 1. -/
def Chip.cfgClear (c : Chip) (r : Rx) (v fn key : Nat) : Chip :=
  let w := c.cfg v fn key
  if r.tlp.kind = .cfgWr then (c.setCfg v fn key (w &&& ~~~(BitVec.ofNat 32 (cfgValue r.tlp)))).cfgAnswer r stSC 0
  else c.cfgAnswer r stSC w.toNat

/-- Uncorrectable Error Severity, which is kept by what it differs in from its default. -/
def Chip.cfgSeverity (c : Chip) (r : Rx) (v fn : Nat) : Chip :=
  if r.tlp.kind = .cfgWr then (c.setCfg v fn keyAerSev (BitVec.ofNat 32 (cfgValue r.tlp ^^^ aerSevDefault))).cfgAnswer r stSC 0
  else c.cfgAnswer r stSC (c.aerSev v fn)

/-- A register of which the manual gives some bits: those as given, the rest free. -/
def Chip.cfgPart (c : Chip) (r : Rx) (bits : List (Fld × Nat)) : Chip :=
  let w := bits.foldl (fun (w : Word) b => setF w b.1 b.2) (BitVec.ofNat 32 c.freeVal)
  (c.cfgAnswer r stSC w.toNat).drew

/-- Link Capabilities of a bridge: ASPM L1 is supported and L0s is not (Table 3.1). PRESUMED (log 166): the place of the field, as
PCI Express has it. -/
def linkCapBits : List (Fld × Nat) := [(⟨11, 10⟩, 2)]

/-- Slot Capabilities (R100). PRESUMED (log 166): the places of the bits, as PCI Express has them. -/
def slotCapBits : List (Fld × Nat) := [(⟨6, 0⟩, 0x60), (⟨18, 17⟩, 2)]

/-- Link Status: the speed and the width of a port that has trained, and whether the link is active. PRESUMED (log 166): the
places of the fields, as PCI Express has them. -/
def Chip.linkBits (c : Chip) (port : Option Nat) (active : Bool) : List (Fld × Nat) :=
  (⟨13, 13⟩, b2n active) :: (match port with
    | some p => [(⟨3, 0⟩, c.fld (Reg.PRT_STATUS p) Bit.PRT_STATUS_RATE + 1), (⟨9, 4⟩, c.fld (Reg.PRT_STATUS p) Bit.PRT_STATUS_WIDTH)]
    | none => [])

/-- The upstream bridge: a Type 1 header, and a second function beside it. -/
def Chip.cfgUpstream (c : Chip) (r : Rx) (v : Nat) (reg : CfgReg) : Chip :=
  match reg with
  | .secBus => c.cfgField r (Reg.VSI_STATUS v) Bit.VSI_STATUS_INT_BUS
  | .subBus => c.cfgStore r v 0 3
  | .mse => c.cfgStore r v 0 keyMse
  | .bme => c.cfgStore r v 0 keyBme
  | .mcCtl => c.cfgStore r v 0 keyMcCtl
  | .mcBase hi => c.cfgStore r v 0 (keyMcBase hi)
  | .range n l => c.cfgStore r v 0 (64 + 2 * (n % 4) + b2n l)
  | .sbr => if r.tlp.kind = .cfgWr ∧ bitOf (cfgValue r.tlp) 0 = true then (c.cfgAnswer r stSC 0).sbrUpstream v else c.cfgAnswer r stSC 0
  | .headerType => c.cfgAnswer r stSC 0x81
  | .fixed f => c.cfgAnswer r stSC (f.bridge 0)
  | .aerUnc => c.cfgClear r v 0 keyAerUnc
  | .aerCor => c.cfgClear r v 0 keyAerCor
  | .aerSev => c.cfgSeverity r v 0
  | .linkCap => c.cfgPart r linkCapBits
  | .linkCtl => c.cfgStore r v 0 keyLinkCtl
  | .linkStatus => c.cfgPart r (c.linkBits (some r.port) true)
  | _ => c.cfgFree r

/-- The address bits of a BAR half of the Relay function that the host can write: BAR0 of 64 MiB, BAR2 of 32 MiB (Table 9.1). -/
def relayBarMask (i : Nat) (hi : Bool) : Word :=
  if i = 0 then (if hi then 0xFFFFFFFF else 0xFC000000) else if i = 2 then (if hi then 0xFFFFFFFF else 0xFE000000) else 0

/-- The bits of a BAR half that say its kind: 64-bit memory, not prefetchable. PRESUMED (log 166): the code is that of PCI. -/
def relayBarKind (i : Nat) (hi : Bool) : Nat := if (i = 0 ∨ i = 2) ∧ hi = false then 4 else 0

/-- A masked dword of the Relay function. -/
def Chip.cfgMasked (c : Chip) (r : Rx) (v key : Nat) (mask : Word) (kind : Nat) : Chip :=
  if r.tlp.kind = .cfgWr then (c.setCfg v 1 key (BitVec.ofNat 32 (cfgValue r.tlp) &&& mask)).cfgAnswer r stSC 0
  else c.cfgAnswer r stSC ((c.cfg v 1 key).toNat + kind)

/-- The value of a capability bit of the Relay function: it has no MSI or MSI-X capability (R267), the features that its port
does not support read 0 and those that it supports as Table 3.1 says (R2, R4); the manual gives it no multicast capability. -/
def FixedCap.relay (f : FixedCap) : Option Nat :=
  match f with
  | .mcGroups => none
  | .msix => some 0
  | .ecrcGen => some (f.bridge 1)
  | .ecrcCheck => some (f.bridge 1)
  | .dmwrRouting => some (f.bridge 1)
  | .aspmL0s => some (f.bridge 1)
  | .aspmL1 => some (f.bridge 1)
  | .l11 => some (f.bridge 1)
  | .l12 => some (f.bridge 1)
  | .egressControl => some (f.bridge 1)
  | .maxPayload => some (f.bridge 1)
  | .ariForwarding => some (f.bridge 1)
  | .linkIde => some (f.bridge 1)
  | .l0p => some (f.bridge 1)
  | .vc => some (f.bridge 1)
  | .msi => some (f.bridge 1)

/-- The Relay function (R265, R267): it has BAR0 and BAR2, of 64 bits each; the expansion ROM BAR has 4 MiB (R406). -/
def Chip.cfgRelay (c : Chip) (r : Rx) (v : Nat) (reg : CfgReg) : Chip :=
  let w := decide (r.tlp.kind = .cfgWr)
  let on := bitOf (cfgValue r.tlp) 0
  match reg with
  | .bme =>
    if w then (if on then (c.bmeSet v).relayPump else c.bmeClear v).cfgAnswer r stSC 0 else c.cfgAnswer r stSC (b2n (c.bme v))
  | .flr => if w && on then (c.cfgAnswer r stSC 0).relayFlr v else c.cfgAnswer r stSC 0
  | .mse => c.cfgMasked r v keyMse 1 0
  | .bar i hi =>
    if i = 0 ∨ i = 2 then c.cfgMasked r v (keyBar i hi) (relayBarMask i hi) (relayBarKind i hi) else c.cfgAnswer r stSC 0
  | .romBar => c.cfgMasked r v keyRom 0xFFC00001 0
  | .mps =>
    if w then (c.setCfg v 1 cfgMps (BitVec.ofNat 32 (min (cfgValue r.tlp) 5 + 1))).cfgAnswer r stSC 0
    else c.cfgAnswer r stSC ((c.cfg v 1 cfgMps).toNat - 1)
  | .mrrs =>
    if w then (c.setCfg v 1 cfgMrrs (BitVec.ofNat 32 (min (cfgValue r.tlp) 5 + 1))).cfgAnswer r stSC 0
    else c.cfgAnswer r stSC (if c.cfg v 1 cfgMrrs = 0 then 2 else (c.cfg v 1 cfgMrrs).toNat - 1)
  | .headerType => c.cfgAnswer r stSC 0x80
  | .intPin => c.cfgAnswer r stSC 0
  | .fixed f =>
    match f.relay with
    | some x => c.cfgAnswer r stSC x
    | none => c.cfgFree r
  | _ => c.cfgFree r

/-- A memory range of a vBridge. -/
def Chip.setRange (c : Chip) (v i n : Nat) (limit : Bool) (x : Nat) : Chip :=
  let b := (c.vsi.vbrs.find? (fun b => b.v == v && b.i == i)).getD { v, i }
  let rs := b.ranges ++ List.replicate (n + 1 - b.ranges.length) (1, 0)
  let old := rs.getD n (1, 0)
  let b := { b with ranges := rs.set n (if limit then (old.1, x) else (x, old.2)) }
  c.putVbrs (b :: c.vsi.vbrs.filter (fun y => !(y.v == v && y.i == i)))

/-- ACS Control of a vBridge: the services of Table 3.1; P2P Egress Control reads 0. -/
def Chip.cfgAcs (c : Chip) (r : Rx) (v i : Nat) : Chip :=
  if r.tlp.kind = .cfgWr then (c.setCfg v (2 + i) keyAcs (BitVec.ofNat 32 (cfgValue r.tlp) &&& 0x5F)).cfgAnswer r stSC 0
  else c.cfgAnswer r stSC (c.cfg v (2 + i) keyAcs).toNat

/-- The link below a vBridge is active: that of the bound port, or the presence of a bound function (R242). -/
def Chip.vbrActive (c : Chip) (v i : Nat) (port : Option Nat) : Bool :=
  match port with
  | some p => c.dlUp p
  | none => c.flag (Reg.VBR_STATE v i) Bit.VBR_STATE_PRESENT

/-- A vBridge: a Type 1 header. DPC exists only on kind PORT (Table 8.1), where DPC Completion Control and SYNTH_UR are one bit
(R92). -/
def Chip.cfgVbridge (c : Chip) (r : Rx) (v i : Nat) (reg : CfgReg) : Chip :=
  let w := decide (r.tlp.kind = .cfgWr)
  let x := cfgValue r.tlp
  let port := (c.vsi.ports.find? (fun b => b.1 == v && b.2.1 == i)).map (fun b => b.2.2)
  match reg with
  | .secBus => c.cfgField r (Reg.VBR_STATE v i) Bit.VBR_STATE_SEC_BUS
  | .subBus => c.cfgField r (Reg.VBR_STATE v i) Bit.VBR_STATE_SUB_BUS
  | .mse => c.cfgStore r v (2 + i) keyMse
  | .bme => c.cfgStore r v (2 + i) keyBme
  | .range n l =>
    let n := n % 4
    if w then (c.setRange v i n l x).cfgAnswer r stSC 0
    else
      let b := (c.vsi.vbrs.find? (fun b => b.v == v && b.i == i)).getD { v, i }
      let g := b.ranges.getD n (1, 0)
      c.cfgAnswer r stSC (if l then g.2 else g.1)
  | .sbr => if w && bitOf x 0 then (c.cfgAnswer r stSC 0).sbrVbridge v i else c.cfgAnswer r stSC 0
  | .headerType => c.cfgAnswer r stSC (if i % 8 = 0 ∧ i + 1 < c.fld (Reg.VSI_ID v) Bit.VSI_ID_VBR_COUNT then 0x81 else 1)
  | .fixed f => c.cfgAnswer r stSC (f.bridge (2 + i))
  | .aerUnc => c.cfgClear r v (2 + i) keyAerUnc
  | .aerCor => c.cfgClear r v (2 + i) keyAerCor
  | .aerSev => c.cfgSeverity r v (2 + i)
  | .acs => c.cfgAcs r v i
  | .slotCap => c.cfgPart r slotCapBits
  | .slotStatus =>
    if w then c.cfgClear r v (2 + i) keySlotStatus
    else c.cfgAnswer r stSC (setF (c.cfg v (2 + i) keySlotStatus) ⟨6, 6⟩ (c.fld (Reg.VBR_STATE v i) Bit.VBR_STATE_PRESENT)).toNat
  | .linkCap => c.cfgPart r linkCapBits
  | .linkCtl => c.cfgStore r v (2 + i) keyLinkCtl
  | .linkStatus => c.cfgPart r (c.linkBits port (c.vbrActive v i port))
  | .dpcEn => if port.isSome then c.cfgStore r v (2 + i) cfgDpcEn else c.cfgAnswer r stSC 0
  | .dpcCplCtl =>
    match port with
    | some p => c.cfgField r (Reg.PRT_CTRL p) Bit.PRT_CTRL_SYNTH_UR
    | none => c.cfgAnswer r stSC 0
  | .dpcStatus =>
    match port with
    | some p =>
      if w then (if bitOf x 0 then c.dpcRelease p else c).cfgAnswer r stSC 0
      else c.cfgAnswer r stSC (c.dpcWord p)
    | none => c.cfgAnswer r stSC 0
  | .dpcSoft =>
    match port with
    | some p => if w && bitOf x 0 && !c.shared p then (c.cfgAnswer r stSC 0).dpcSoftware p else c.cfgAnswer r stSC 0
    | none => c.cfgAnswer r stSC 0
  | _ => c.cfgFree r

/-- A manager write that would disturb a PF while a VF of it is bound to a VSI (R249). -/
def Chip.pfGuards (c : Chip) (p pf : Nat) (reg : CfgReg) (t : Tlp) : Bool :=
  let bound := c.vsi.hosts.any (fun h => h.local_ == some p && h.fn.pf == some pf) ||
    c.vsi.peers.any (fun b => b.port == p && b.pf == some pf)
  let x := cfgValue t
  decide (t.kind = .cfgWr) && bound && (match reg with
    | .vfEnable => !bitOf x 0
    | .numVfs => true
    | .vfBar _ => true
    | .flr => bitOf x 0
    | _ => false)

/-- What lies on or below the secondary bus of vBridge `i`. -/
def Chip.cfgBelow (c : Chip) (r : Rx) (v i dest : Nat) (reg : CfgReg) : Chip :=
  let ur := fun (c : Chip) => c.cfgAnswer r stUR 0
  match c.vsi.ports.find? (fun b => b.1 == v && b.2.1 == i) with
  | some b =>
    let p := b.2.2
    if dest / 256 = c.fld (Reg.ORT_RID p) Bit.ORT_RID_RID / 256 then ur c
    else if c.isManager v && c.pfGuards p dest reg r.tlp then
      ur (c.setBit (Reg.VSI_EVENT v) Bit.VSI_EVENT_PF_GUARD)
    else c.cfgOnto r v p dest none
  | none =>
    if dest / 256 ≠ c.fld (Reg.VBR_STATE v i) Bit.VBR_STATE_SEC_BUS then ur c
    else
      let devfn := if c.fld (Reg.VBR_STATE v i) Bit.VBR_STATE_KIND = 3
        then (if dest % 256 = 0 then (c.vsi.hosts.find? (fun h => h.v == v && h.vbr == i)).map (·.devfn) else none)
        else some (dest % 256)
      match devfn.bind (c.hostAt v i) with
      | some h =>
        if c.flag (Reg.VBR_STATE v i) Bit.VBR_STATE_PRESENT || decide (0 < h.flr) then c.cfgFunction r h reg else ur c
      | none => ur c

/-- The configuration view of Table 8.1. `type0`: the request names the link's own bus B. -/
def Chip.cfgView (c : Chip) (r : Rx) (v : Nat) (type0 : Bool) (reg : CfgReg) : Chip :=
  let t := r.tlp
  let ur := fun (c : Chip) => c.cfgAnswer r stUR 0
  if type0 && decide (2 ≤ t.dest % 256) then ur c
  else if !c.flag (Reg.VSI_STATUS v) Bit.VSI_STATUS_READY || c.vsiInReset v || c.bootFog then c.cfgAnswer r stRRS 0
  else if type0 then
    let c := if t.kind = .cfgWr then c.setFld (Reg.VSI_STATUS v) Bit.VSI_STATUS_HOST_BUS (t.dest / 256) else c
    if t.dest % 256 = 0 then c.cfgUpstream r v reg
    else c.cfgRelay r v reg
  else if t.dest / 256 = c.fld (Reg.VSI_STATUS v) Bit.VSI_STATUS_INT_BUS then
    if t.dest % 256 < c.fld (Reg.VSI_ID v) Bit.VSI_ID_VBR_COUNT then c.cfgVbridge r v (t.dest % 256) reg else ur c
  else
    match (List.range (c.fld (Reg.VSI_ID v) Bit.VSI_ID_VBR_COUNT)).find? (fun i =>
        decide (0 < c.fld (Reg.VBR_STATE v i) Bit.VBR_STATE_SEC_BUS ∧
          c.fld (Reg.VBR_STATE v i) Bit.VBR_STATE_SEC_BUS ≤ t.dest / 256 ∧
          t.dest / 256 ≤ c.fld (Reg.VBR_STATE v i) Bit.VBR_STATE_SUB_BUS)) with
    | some i => c.cfgBelow r v i t.dest reg
    | none => ur c

/-- CONFIG_REQUEST_RECEIVED: the oldest TLP of an upstream port, when it is a whole configuration request. -/
def Chip.configIn (c : Chip) (p : Nat) (type0 : Bool) (reg : CfgReg) : Chip :=
  if !(c.port p).up then c
  else
    match c.takeRx p (fun r => r.whole && (r.tlp.kind == .cfgRd || r.tlp.kind == .cfgWr)) with
    | some (r, c) =>
      match c.vsiOfPort p with
      | some v => c.cfgView r v type0 reg
      | none => c.cfgAnswer r stUR 0
    | none => c

def execConfigRequestReceived (p : Nat) (type0 : Bool) (reg : CfgReg) (s : State) : Host.Outcome State Fault Refusal :=
  .next { s with chip := s.chip.configIn p type0 reg }

end Sys2Proof.Machine
end

