-- ==== Sys2Proof/Machine/Binding.lean ====
section
/-!
DEFINITION. The binding commands of the Keeper (R240, R242 to R244, R247, R253 to R256, R404): what each does to the bindings
of chapter 8, its status (Table 8.6) and the RESULT bytes of its record (Table 13.24).
-/
namespace Sys2Proof.Machine

/-- What a completed command answers: STATUS, and the RESULT bytes from byte 8 of the record on. -/
structure KAns where
  status : Nat
  result : List Nat := []
  deriving DecidableEq, Repr

def kOk : KAns := { status := 0 }

/-- A binding command that fails: its status and the byte offset of the first failing field. -/
def kErr (status off : Nat) : KAns := { status, result := [off] }

def stVbrBusy : Nat := 2
def stNotShared : Nat := 3
def stPortTaken : Nat := 4
def stOwned : Nat := 5
def stNoEntry : Nat := 6
def stBarSmall : Nat := 7
def stProbeFail : Nat := 8
def stFlrBusy : Nat := 9
def stNotInReset : Nat := 10
def stBadCmd : Nat := 0x20

/-! ## What the bindings hold -/

/-- The owned VSIs take bindings; a proxy VSI has no configuration view (R240). -/
def Chip.ownedVsi (c : Chip) (v : Nat) : Bool :=
  decide (v < 64) && (c.portOfVsi v).isSome && !c.flag (Reg.VSI_ID v) Bit.VSI_ID_PROXY

def Chip.vbrKind (c : Chip) (v i : Nat) : Nat := c.fld (Reg.VBR_STATE v i) Bit.VBR_STATE_KIND

/-- The function (port, PRID) has a HOST or PEER binding (R249). -/
def Chip.fnOwned (c : Chip) (p prid : Nat) : Bool :=
  c.vsi.hosts.any (fun h => h.local_ == some p && h.prid == prid) ||
    c.vsi.peers.any (fun b => b.port == p && b.prid == prid)

/-- Function bindings in use: a module holds 16,384. -/
def Chip.bindCount (c : Chip) : Nat := c.vsi.hosts.length + c.vsi.peers.length

def Chip.downPort (c : Chip) (p : Nat) : Bool := (c.port p).present && !(c.port p).up

/-- VBR_STATE of a new binding (Table 8.16). -/
def Chip.putVbr (c : Chip) (v i kind : Nat) (target : Option Nat) : Chip :=
  let off := Reg.VBR_STATE v i
  let c := (c.setFld off Bit.VBR_STATE_KIND kind).setFld off Bit.VBR_STATE_REMOTE_TGT (b2n target.isNone)
  let c := c.setFld off Bit.VBR_STATE_SHARED (b2n (kind == 1 && c.isManager v))
  c.setFld off Bit.VBR_STATE_PORT (target.getD 0)

/-! ## BIND (R254) -/

/-- BIND of kind PORT takes effect at once. -/
def Chip.bindPort (c : Chip) (v i p : Nat) : Chip × KAns :=
  if !c.ownedVsi v then (c, kErr stBadVsi 4)
  else if c.fld (Reg.VSI_ID v) Bit.VSI_ID_VBR_COUNT ≤ i then (c, kErr stBadParam 5)
  else if c.vbrKind v i ≠ 0 then (c, kErr stVbrBusy 5)
  else if !c.downPort p then (c, kErr stBadParam 8)
  else if c.vsi.ports.any (fun b => b.2.2 == p) ||
      (!c.isManager v && c.vsi.hosts.any (fun h => h.local_ == some p)) ||
      (!c.isManager v && c.vsi.peers.any (fun b => b.port == p)) then (c, kErr stPortTaken 8)
  else
    let c := { c with vsi := { c.vsi with ports := (v, i, p) :: c.vsi.ports } }
    ((c.putVbr v i 1 (some p)).showVbr v i (some p), kOk)

/-- The function (port, PRID) is in a translated FLR. -/
def Chip.fnInFlr (c : Chip) (p prid : Nat) : Bool :=
  c.vsi.hosts.any (fun h => h.local_ == some p && h.prid == prid && decide (0 < h.flr)) ||
    c.vsi.peers.any (fun b => b.port == p && b.prid == prid && decide (c.now < b.flrEnd))

/-- The parameters of BIND for a function (Table 13.23), with what the Keeper reads of the function: its memory BARs
(number, physical address, size) and what else it needs of it. -/
structure BindFn where
  v : Nat
  vbr : Nat
  kind : Nat
  target : Nat
  prid : Nat
  devfn : Nat
  peer : Nat
  wins : List (Nat × Nat)
  bars : List (Nat × Nat × Nat)
  fn : FnInfo
  deriving DecidableEq, Repr

/-- The window that BIND names for a BAR. -/
def BindFn.winOf (b : BindFn) (bar : Nat) : Option Nat := (b.wins.find? (fun w => w.1 == bar)).map (·.2)

/-- A window is a bound window of some binding (R247). -/
def Chip.winBound (c : Chip) (w : Nat) : Bool := c.vsi.hosts.any (fun h => h.bars.any (fun b => b.win == w))

/-- The local target port, or none for another module. -/
def Chip.localTarget (c : Chip) (b : BindFn) : Option Nat := if c.faHere b.target then some (faPort b.target) else none

/-- The first check of BIND that fails, in the order of Table 8.6. -/
def Chip.bindFault (c : Chip) (b : BindFn) : Option KAns :=
  let kind := c.vbrKind b.v b.vbr
  let mates := c.vsi.hosts.filter (fun h => h.v == b.v && h.vbr == b.vbr)
  let loc := c.localTarget b
  let remoteSame := c.vsi.hosts.filter (fun h => h.local_.isNone && h.targetFa == b.target && h.prid == b.prid)
  if !c.ownedVsi b.v then some (kErr stBadVsi 4)
  else if c.fld (Reg.VSI_ID b.v) Bit.VSI_ID_VBR_COUNT ≤ b.vbr then some (kErr stBadParam 5)
  else if !(kind == 0 || (kind == 2 && b.kind == 2 && mates.all (fun h => h.targetFa == b.target))) then
    some (kErr stVbrBusy 5)
  else if mates.any (fun h => h.devfn == b.devfn) then some (kErr stVbrBusy 14)
  else if loc.isSome && b.kind == 2 then some (kErr stBadParam 8)
  else if loc.any (fun p => !c.downPort p) then some (kErr stBadParam 8)
  else if loc.any (fun p => !c.shared p) then some (kErr stNotShared 8)
  else if loc.isNone && remoteSame.any (fun h => decide (0 < h.flr)) then some (kErr stFlrBusy 12)
  else if loc.any (fun p => c.fnOwned p b.prid) || !remoteSame.isEmpty then some (kErr stOwned 12)
  else if 16384 ≤ c.bindCount then some (kErr stNoEntry 0)
  else match b.bars.find? (fun x => decide (x.2.2 < 4096) || (b.winOf x.1).isNone) with
    | some x => some (kErr stBarSmall (16 + 2 * x.1))
    | none =>
      match b.wins.find? (fun w => decide (8192 ≤ w.2) || c.winBound w.2 ||
          decide (1 < (b.wins.filter (fun y => y.2 == w.2)).length)) with
      | some w => some (kErr stBadParam (16 + 2 * w.1))
      | none => none

/-- A named window becomes a bound window: invalid, of the VSI, with the size of its BAR. -/
def Chip.takeWin (c : Chip) (v : Nat) (b : BarSt) : Chip :=
  let c := c.invalidateWin b.win
  let c := c.writeWin (Reg.WIN_SIZE b.win) (BitVec.ofNat 32 (b.size / 4096))
  c.writeWin (Reg.WIN_ATTR b.win) (setF (c.tab false (Reg.WIN_ATTR b.win)) Bit.WIN_ATTR_VSI v)

/-- Read the Vendor ID of the PRID through the fabric (R254 step 2); the next read is due in 1 ms. -/
def Chip.sendProbe (c : Chip) (h : HostBind) : Chip :=
  ((c.putHost { h with answer := none }).ownRequest h { kind := .cfgRd, len := 4 }).arm (.probe h.v h.vbr h.devfn) ms

/-- PROBE_LIMIT of a VSI, in ns. -/
def Chip.probeNs (c : Chip) (v : Nat) : Nat := (c.fld (Reg.VSI_CTRL v) Bit.VSI_CTRL_PROBE_LIMIT + 1) * 100 * ms

/-- The function of a vBridge of kind FUNCTION lies at device 0, function 0 (Table 8.2).
DEDUCED (log 198): whatever HOST_DEVFN its BIND names. -/
def BindFn.placed (b : BindFn) : BindFn := if b.kind = 3 then { b with devfn := 0 } else b

/-- BIND of kind REMOTE or FUNCTION: the HOST binding and its bound windows, then for a remote target the probe. No answer:
the command's action is not complete, or it waits for the end of the function's translated FLR (R256). -/
def Chip.bindFn (c : Chip) (b : BindFn) : Chip × Option KAns :=
  let b := b.placed
  match c.bindFault b with
  | some a => (c, if a.status == stOwned && (c.localTarget b).any (fun p => c.fnInFlr p b.prid) then none else some a)
  | none =>
    let loc := c.localTarget b
    let bars := b.bars.filterMap (fun x => (b.winOf x.1).map (fun w =>
      ({ idx := x.1, win := w, phys := x.2.1, size := x.2.2 } : BarSt)))
    let h : HostBind := { v := b.v, vbr := b.vbr, devfn := b.devfn, local_ := loc, targetFa := b.target, prid := b.prid
                          peerVsi := b.peer, bars, fn := b.fn
                          probe := if loc.isNone then some (c.now + c.probeNs b.v) else none }
    let c := (bars.foldl (fun c x => c.takeWin b.v x) c).putHost h
    let c := c.putVbr b.v b.vbr b.kind loc
    match loc with
    | some p => (c.showVbr b.v b.vbr (some p), some kOk)
    | none => ((c.arm (.probeLimit b.v b.vbr b.devfn) (c.probeNs b.v)).sendProbe h, none)

/-- BIND_PROBE_RETRY: the state of the probe of a function that BIND waits for. -/
def Chip.probeStep (c : Chip) (v vbr devfn : Nat) : Chip × Option KAns :=
  match c.hostAt v vbr devfn with
  | none => (c, none)
  | some h =>
    if h.probe.isNone then (c, none)
    else
      let fail := fun (c : Chip) => (c.removeHost h, some (kErr stProbeFail 8))
      match h.answer with
      | some st =>
        if st = stSC then
          let c := (c.disarm (.probe v vbr devfn)).disarm (.probeLimit v vbr devfn)
          ((c.putHost { h with probe := none, answer := none }).showVbr v vbr none, some kOk)
        else if st ≠ stRRS then fail c
        else if c.due (.probeLimit v vbr devfn) then fail c
        else if c.due (.probe v vbr devfn) then (c.sendProbe h, none)
        else (c, none)
      | none =>
        if c.due (.probeLimit v vbr devfn) then fail c
        else if c.due (.probe v vbr devfn) then (c.sendProbe h, none)
        else (c, none)

/-! ## BIND_PEER, UNBIND (R255) -/

/-- BIND_PEER. No answer: it waits for the end of the function's translated FLR (R256). -/
def Chip.bindPeer (c : Chip) (b : PeerBind) : Chip × Option KAns :=
  if !c.downPort b.port then (c, some (kErr stBadParam 4))
  else if decide (64 ≤ b.proxy) || !c.flag (Reg.VSI_ID b.proxy) Bit.VSI_ID_PROXY then (c, some (kErr stBadVsi 13))
  else if !c.shared b.port then (c, some (kErr stNotShared 4))
  else if c.fnInFlr b.port b.prid then (c, none)
  else if c.fnOwned b.port b.prid then (c, some (kErr stOwned 6))
  else if 16384 ≤ c.bindCount then (c, some (kErr stNoEntry 0))
  else if c.faHere b.ownerFa then (c, some (kErr stBadParam 8))
  else ({ c with vsi := { c.vsi with peers := b :: c.vsi.peers } }, some kOk)

/-- Steps 1 to 4 of Table 8.8 begin for each function of a VSI that loses its owner (R421). -/
def Chip.quiesceAll (c : Chip) (hs : List HostBind) : Chip := hs.foldl (fun c h => c.startQuiesce h true false) c

/-- UNBIND of a PORT binding: the VSI's requests of the port are answered, and the binding goes. -/
def Chip.unbindPort (c : Chip) (v i p : Nat) : Chip :=
  let c := (c.hideVbr v i).answerVsiAt p v
  let c := { c with vsi := { c.vsi with ports := c.vsi.ports.filter (fun b => !(b.1 == v && b.2.1 == i)) } }
  c.emptyVbr v i

/-- UNBIND of a whole vBridge. -/
def Chip.unbindVbr (c : Chip) (v i : Nat) : Chip × Option KAns :=
  if !c.ownedVsi v then (c, some (kErr stBadVsi 5))
  else match c.vsi.ports.find? (fun b => b.1 == v && b.2.1 == i) with
    | some b => (c.unbindPort v i b.2.2, some kOk)
    | none =>
      let hs := c.vsi.hosts.filter (fun h => h.v == v && h.vbr == i)
      if hs.isEmpty then (c, some (kErr stBadParam 6))
      else (c.startUnbind v i hs, none)

/-- UNBIND of one function of a REMOTE vBridge. -/
def Chip.unbindFn (c : Chip) (v i devfn : Nat) : Chip × Option KAns :=
  if !c.ownedVsi v then (c, some (kErr stBadVsi 5))
  else match c.hostAt v i devfn with
    | none => (c, some (kErr stBadParam 7))
    | some h =>
      if c.vbrKind v i ≠ 2 then (c, some (kErr stBadParam 6))
      else (c.startUnbind v i [h], none)

/-- UNBIND of a PEER binding: it waits while an FLR of the function lasts (R256); then every entry whose ORIG_RID is the PRID is
answered, and the binding goes. -/
def Chip.unbindPeer (c : Chip) (p prid : Nat) : Chip × Option KAns :=
  match c.vsi.peers.find? (fun b => b.port == p && b.prid == prid) with
  | none => (c, some (kErr stBadParam 8))
  | some b =>
    if c.now < b.flrEnd then (c, none)
    else
      let es := c.pci.ort.filter (fun e => e.origRid == prid && e.from p)
      let c := es.foldl (fun c e => c.answerAfter e (c.synth e.port)) c
      ({ c with vsi := { c.vsi with peers := c.vsi.peers.filter (fun b => !(b.port == p && b.prid == prid)) } }, some kOk)

/-- An UNBIND in progress is complete: no function of it is left. -/
def Chip.unbindDone (c : Chip) (v i : Nat) (devfn : Option Nat) : Bool :=
  !c.vsi.hosts.any (fun h => h.v == v && h.vbr == i && (match devfn with
    | some d => h.devfn == d
    | none => true))

/-! ## SET_PROXY, SET_VBR_COUNT, QUERY_BIND -/

def Chip.setProxy (c : Chip) (v : Nat) (on : Bool) : Chip × KAns :=
  if decide (64 ≤ v) || (c.portOfVsi v).isSome || (!on && !c.flag (Reg.VSI_ID v) Bit.VSI_ID_PROXY) then (c, kErr stBadVsi 4)
  else (c.setFld (Reg.VSI_ID v) Bit.VSI_ID_PROXY (b2n on), kOk)

/-- SET_VBR_COUNT (R242). DESIGN CHOICE (log 199): the bindings of vBridges at or above the new count stay as they are. -/
def Chip.setVbrCount (c : Chip) (v n : Nat) : Chip × KAns :=
  if !c.ownedVsi v then (c, kErr stBadVsi 4)
  else if !(decide (1 ≤ n ∧ n ≤ 256)) then (c, kErr stBadParam 6)
  else if !c.vsiInReset v then (c, kErr stNotInReset 4)
  else (c.setFld (Reg.VSI_ID v) Bit.VSI_ID_VBR_COUNT n, kOk)

/-- WIN[0] to WIN[5] as in BIND. -/
def winBytes (h : HostBind) : List Nat :=
  (List.range 6).flatMap (fun i => match h.bars.find? (fun b => b.idx == i) with
    | some b => leBytes 2 (b.win + 0x8000)
    | none => [0, 0])

/-- The RESULT of QUERY_BIND for a HOST binding. -/
def Chip.queryHost (c : Chip) (h : HostBind) : KAns :=
  let off := Reg.VBR_STATE h.v h.vbr
  { status := 0
    result := [c.vbrKind h.v h.vbr, c.fld off Bit.VBR_STATE_PRESENT + 2 * b2n (decide (0 < h.flr)) +
        4 * b2n (h.local_.any c.shared)] ++
      leBytes 2 h.prid ++ leBytes 4 (c.fnFa h) ++ [h.devfn, h.peerVsi, 0, h.local_.getD 0] ++ winBytes h }

def Chip.queryPort (c : Chip) (v i p : Nat) : KAns :=
  let off := Reg.VBR_STATE v i
  { status := 0
    result := [1, c.fld off Bit.VBR_STATE_PRESENT + 4 * c.fld off Bit.VBR_STATE_SHARED, 0, 0] ++ leBytes 4 (c.ownFa p) ++
      [0, 0, 0, p] }

def queryEmpty : KAns := { status := 0, result := [0] }

def Chip.queryVbr (c : Chip) (v i devfn : Nat) : KAns :=
  if !c.ownedVsi v then { status := stBadVsi }
  else match c.vsi.ports.find? (fun b => b.1 == v && b.2.1 == i) with
    | some b => c.queryPort v i b.2.2
    | none => match c.hostAt v i devfn with
      | some h => c.queryHost h
      | none => queryEmpty

def Chip.queryPeer (c : Chip) (p prid : Nat) : KAns :=
  match c.vsi.peers.find? (fun b => b.port == p && b.prid == prid) with
  | some b =>
    { status := 0
      result := [4, 4 * b2n (c.shared p)] ++ leBytes 2 prid ++ leBytes 4 b.ownerFa ++ [0, b.ownerVsi, b.proxy, p] }
  | none => match c.vsi.hosts.find? (fun h => h.local_ == some p && h.prid == prid) with
    | some h => c.queryHost h
    | none => queryEmpty

/-! ## Default bindings (R404) -/

/-- The default bindings of a VSI are loaded in order; one that BIND would refuse is skipped and logged with its index. -/
def Chip.loadBindings (c : Chip) (v : Nat) : Chip :=
  match c.ll with
  | none => c
  | some l =>
    let c := (l.bindings.zipIdx.filter (fun e => e.1.1 == v)).foldl (fun c e =>
      let r := c.bindPort v e.1.2.1 e.1.2.2
      if r.2.status = 0 then r.1 else r.1.log .llBindSkip [e.2] []) c
    { c with vsi := { c.vsi with loaded := v :: c.vsi.loaded.erase v } }

end Sys2Proof.Machine
end

