-- ==== Sys2Proof/Machine/Commits.lean ====
section
/-!
DEFINITION. Shadow-and-commit (R193 to R198, Table 20.5): every COMMIT register with its checks, the drain fence, the sector
drain, and the registers of the fabric and Mooring blocks that act at the write.
-/
namespace Sys2Proof.Machine

/-! ## Stations and the Tower -/

/-- The shadows of QUOTA_COMMIT. -/
def quotaOffs (s : Nat) : List Nat :=
  Reg.OB_RESERVE s :: (List.range 8).flatMap (fun k => [Reg.PORT_QUOTA s k, Reg.PORT_CFG s k])

/-- The checks of R62, on the shadow. -/
def Chip.quotaOk (c : Chip) (s : Nat) : Bool :=
  let ks := List.range 8
  let rsv := c.fld (Reg.OB_RESERVE s) Bit.OB_RESERVE_CELLS
  let q := fun k => c.fld (Reg.PORT_QUOTA s k) Bit.PORT_QUOTA_CELLS
  decide ((ks.map q).sum + rsv ≤ 65536) && decide (1024 ≤ rsv) &&
    ks.all (fun k => !(c.port (8 * s + k)).present ||
      decide (c.tabF false (Reg.NP_WAIT_QUOTA (8 * s + k)) Bit.NP_WAIT_QUOTA_CELLS ≤ q k)) &&
    ks.all (fun k => decide (c.fld (Reg.PORT_CFG s k) Bit.PORT_CFG_MARK_PCT ≤ 100))

/-- QUOTA_COMMIT of station `s`. -/
def Chip.quotaCommit (c : Chip) (s gen : Nat) : Chip :=
  if gen = c.nextGen (Reg.QUOTA_ACTIVE_GEN s) ∧ c.quotaOk s then
    let c := (quotaOffs s).foldl Chip.commitWord c
    ((List.range 8).foldl (fun c k => c.updStop (8 * s + k)) c).setGen (Reg.QUOTA_ACTIVE_GEN s) gen
  else c.setBit (Reg.STN_STATUS s) Bit.STN_STATUS_COMMIT_REJECT

def execQuotaCommit (ag : Agent) (st gen : Nat) (s : State) : Host.Outcome State Fault Refusal :=
  .next { s with chip := s.chip.busWriteW ag (Reg.QUOTA_COMMIT st) (BitVec.ofNat 32 gen) (fun c => c.quotaCommit st gen) }

/-- STN_MC_COMMIT: MC_PORT_MASK at indices 0 to 63; the only cause of rejection is BAD_GEN. -/
def Chip.stnMcCommit (c : Chip) (s gen : Nat) : Chip :=
  if gen = c.nextGen (Reg.STN_MC_ACTIVE_GEN s) then
    ((List.range 16).foldl (fun c i => c.commitWord (Reg.MC_PORT_MASK s i)) c).setGen (Reg.STN_MC_ACTIVE_GEN s) gen
  else c.setBit (Reg.STN_STATUS s) Bit.STN_STATUS_MC_COMMIT_REJECT

def execStnMcCommit (ag : Agent) (st gen : Nat) (s : State) : Host.Outcome State Fault Refusal :=
  .next { s with chip := s.chip.busWriteW ag (Reg.STN_MC_COMMIT st) (BitVec.ofNat 32 gen) (fun c => c.stnMcCommit st gen) }

/-- TWR_MC_COMMIT: MC_STATION_MASK at indices 0 to 63. -/
def Chip.twrMcCommit (c : Chip) (gen : Nat) : Chip :=
  if gen = c.nextGen Reg.TWR_MC_ACTIVE_GEN then
    ((List.range 32).foldl (fun c i => c.commitWord (Reg.MC_STATION_MASK i)) c).setGen Reg.TWR_MC_ACTIVE_GEN gen
  else c.setBit Reg.TWR_EVENT Bit.TWR_EVENT_COMMIT_REJECT

def execTwrMcCommit (ag : Agent) (gen : Nat) (s : State) : Host.Outcome State Fault Refusal :=
  .next { s with chip := s.chip.busWriteW ag Reg.TWR_MC_COMMIT (BitVec.ofNat 32 gen) (fun c => c.twrMcCommit gen) }

/-! ## Ports (R82, R152) -/

/-- Bytes of a PCIe share under a reading of the words (R81): 32 bytes a header credit, 16 a data credit. -/
def pciShare (f : Nat → Fld → Nat) (p : Nat) : Nat :=
  32 * (f (Reg.POOL_PH p) Bit.POOL_PH_COUNT + f (Reg.POOL_NPH p) Bit.POOL_NPH_COUNT +
      f (Reg.POOL_CPLH p) Bit.POOL_CPLH_COUNT) +
    16 * (f (Reg.POOL_PD p) Bit.POOL_PD_COUNT + f (Reg.POOL_NPD p) Bit.POOL_NPD_COUNT +
      f (Reg.POOL_CPLD p) Bit.POOL_CPLD_COUNT)

/-- Bytes of a port's Kaund VC buffers. -/
def vcShare (f : Nat → Fld → Nat) (p : Nat) : Nat :=
  16 * ((List.range 8).map (fun v => f (Reg.VC_BUF p v) Bit.VC_BUF_UNITS)).sum

/-- What a port counts toward the byte total: the larger of both where KAUND_ALLOW is set. -/
def Chip.portShare (c : Chip) (f : Nat → Fld → Nat) (p : Nat) : Nat :=
  if (c.port p).kaund then max (pciShare f p) (vcShare f p) else pciShare f p

/-- The byte total of R82 for a commit of port `p`. -/
def Chip.poolTotal (c : Chip) (p : Nat) : Nat :=
  ((c.portsOfStation (portStation p)).map (fun q => if q = p then c.portShare c.fld q else c.portShare (c.tabF false) q)).sum

/-- The shadows of POOL_COMMIT. -/
def poolOffs (p : Nat) : List Nat :=
  [Reg.ORT_LIMIT p, Reg.POOL_PH p, Reg.POOL_PD p, Reg.POOL_NPH p, Reg.POOL_NPD p, Reg.POOL_CPLH p, Reg.POOL_CPLD p,
    Reg.NP_WAIT_QUOTA p] ++ (List.range 8).flatMap (fun v => [Reg.VC_BUF p v, Reg.VC_SUBQ p v])

/-- POOL_COMMIT of port `p`; one that is accepted takes a port that waits in HELD for its headroom out of it (R150). -/
def Chip.poolCommit (c : Chip) (p gen : Nat) : Chip :=
  let lim := c.fld (Reg.ORT_LIMIT p) Bit.ORT_LIMIT_ENTRIES
  if gen = c.nextGen (Reg.POOL_ACTIVE_GEN p) ∧ c.poolTotal p ≤ 2097152 ∧
      c.fld (Reg.NP_WAIT_QUOTA p) Bit.NP_WAIT_QUOTA_CELLS ≤ c.quota p ∧ 1 ≤ lim ∧ lim ≤ 2048 then
    let c := (((poolOffs p).foldl Chip.commitWord c).setGen (Reg.POOL_ACTIVE_GEN p) gen).updNpStop p
    if c.spanState p = spHeld ∧ c.holdCause p = holdHeadroom then c.leaveHeld p else c
  else c.setBit (Reg.PRT_EVENT p) Bit.PRT_EVENT_COMMIT_REJECT

def execPoolCommit (ag : Agent) (p gen : Nat) (s : State) : Host.Outcome State Fault Refusal :=
  .next { s with chip := s.chip.busWriteW ag (Reg.POOL_COMMIT p) (BitVec.ofNat 32 gen) (fun c => c.poolCommit p gen) }

/-! ## The fabric block -/

def causeBadGen : Nat := 1
def causeOverlap : Nat := 2
def causeRange : Nat := 3
def causeNotSpan : Nat := 4
def causeMixed : Nat := 5
def causeGenWrap : Nat := 6

/-- A rejected commit of KND: its table, cause and first offending index (Table 6.8). -/
def Chip.kndReject (c : Chip) (table cause index : Nat) : Chip :=
  let c := (c.setFld Reg.KND_EVENT Bit.KND_EVENT_TABLE table).setFld Reg.KND_EVENT Bit.KND_EVENT_CAUSE cause
  (c.setFld Reg.KND_EVENT Bit.KND_EVENT_INDEX index).setBit Reg.KND_EVENT Bit.KND_EVENT_COMMIT_REJECT

/-- Offsets of route entries: REACH_ENT rising, then MOD_ENT rising. -/
def isRouteOff (off : Nat) : Bool :=
  (decide (Reg.REACH_ENT 0 ≤ off ∧ off ≤ Reg.REACH_ENT 2047) || decide (Reg.MOD_ENT 0 ≤ off ∧ off ≤ Reg.MOD_ENT 127))

def routeIndex (off : Nat) : Nat :=
  if off < Reg.MOD_ENT 0 then (off - Reg.REACH_ENT 0) / 4 else 0x1000 + (off - Reg.MOD_ENT 0) / 4

/-- The fault of a route entry (R180), or none. -/
def Chip.routeFault (c : Chip) (w : Word) : Option Nat :=
  let ps := entCands w
  if ps.any (fun p => !((c.port p).present && (c.port p).kaund)) then some causeNotSpan
  else if ps.any (fun p => (c.port p).facing) && ps.any (fun p => !(c.port p).facing) then some causeMixed
  else none

/-- The first offending route entry of the shadow. -/
def Chip.firstRouteFault (c : Chip) : Option (Nat × Nat) :=
  ((c.regs.filter (fun e => isRouteOff e.1)).filterMap (fun e =>
    (c.routeFault e.2).map (fun k => (k, routeIndex e.1)))).head?

/-- RT_COMMIT. -/
def Chip.rtCommit (c : Chip) (gen : Nat) : Chip :=
  if gen ≠ c.nextGen Reg.RT_ACTIVE_GEN then c.kndReject 0 causeBadGen 0
  else
    match c.firstRouteFault with
    | some f => c.kndReject 0 f.1 f.2
    | none => (c.commitWhere (fun off => isRouteOff off || off == Reg.KND_TCVC)).setGen Reg.RT_ACTIVE_GEN gen

def execRtCommit (ag : Agent) (gen : Nat) (s : State) : Host.Outcome State Fault Refusal :=
  .next { s with chip := s.chip.busWrite ag Reg.RT_COMMIT (fun c => c.rtCommit gen) }

/-- A valid window breaks a range of R182. -/
def Win.badRange (w : Win) : Bool :=
  w.size == 0 || decide (2 ^ 64 < w.base + w.size * 4096) ||
    decide (2 ^ 64 < (w.base + w.off) % 2 ^ 64 + w.size * 4096) || decide (5 < w.mps) || decide (5 < w.mrrs)

def Win.meets (a b : Win) : Bool :=
  a.idx != b.idx && a.vsi == b.vsi && decide (a.base < b.base + b.size * 4096 ∧ b.base < a.base + a.size * 4096)

/-- The first offending window of the shadow. -/
def Chip.firstWinFault (c : Chip) : Option (Nat × Nat) :=
  let ws := validWins c.regs c.rd
  (ws.filterMap (fun w =>
    if w.badRange then some (causeRange, w.idx)
    else if ws.any (fun x => w.meets x) then some (causeOverlap, w.idx) else none)).head?

/-- An item that the drain fence counts carries this window generation (R197, R198). -/
def Chip.wgenItems (c : Chip) (ok : Nat → Nat → Bool) : Nat :=
  (c.sw.pkts.filter (fun k => match k.wgen with
    | some w => ok k.actVsi w
    | none => false)).length +
  (c.mor.copies.filter (fun k => match k.pkt.wgen with
    | some w => ok k.pkt.actVsi w
    | none => false)).length

/-- Offsets of windows. -/
def isWinOff (off : Nat) : Bool := decide (0x810000 ≤ off ∧ off < 0x850000)

/-- WIN_COMMIT. -/
def Chip.winCommit (c : Chip) (gen : Nat) : Chip :=
  if gen ≠ c.nextGen Reg.WIN_ACTIVE_GEN then c.kndReject 1 causeBadGen 0
  else
    match c.firstWinFault with
    | some f => c.kndReject 1 f.1 f.2
    | none =>
      if 0 < c.wgenItems (fun _ w => w == modSub 65536 gen 32768) then c.kndReject 1 causeGenWrap 0
      else (c.commitWhere isWinOff).setGen Reg.WIN_ACTIVE_GEN gen

def execWinCommit (ag : Agent) (gen : Nat) (s : State) : Host.Outcome State Fault Refusal :=
  .next { s with chip := s.chip.busWrite ag Reg.WIN_COMMIT (fun c => c.winCommit gen) }

/-- Offsets of FMC_MASK, and the group of one. -/
def isFmcOff (off : Nat) : Bool := decide (Reg.FMC_MASK 0 0 ≤ off ∧ off ≤ Reg.FMC_MASK 4095 3)
def fmcGroup (off : Nat) : Nat := (off - Reg.FMC_MASK 0 0) / 16

/-- The Tower's and the stations' masks of a group follow its FMC_MASK (R181), in the shadow and in force. -/
def Chip.deriveMc (c : Chip) (g : Nat) : Chip :=
  let m := ((List.range 4).map (fun i => (c.tab false (Reg.FMC_MASK g i)).toNat * 2 ^ (32 * i))).sum
  let idx := 64 + g
  let st := ((List.range 16).map (fun s => b2n (m / 2 ^ (8 * s) % 256 != 0) * 2 ^ s)).sum
  let put := fun (c : Chip) (off hi lo v : Nat) => c.writeWin off (setF (c.tab false off) ⟨hi, lo⟩ v)
  let c := put c (Reg.MC_STATION_MASK (idx / 2)) (16 * (idx % 2) + 15) (16 * (idx % 2)) st
  (List.range 16).foldl (fun c s =>
    put c (Reg.MC_PORT_MASK s (idx / 4)) (8 * (idx % 4) + 7) (8 * (idx % 4)) (m / 2 ^ (8 * s) % 256)) c

/-- FMC_COMMIT. -/
def Chip.fmcCommit (c : Chip) (gen : Nat) : Chip :=
  if gen ≠ c.nextGen Reg.FMC_ACTIVE_GEN then c.kndReject 2 causeBadGen 0
  else
    let gs := (((c.regs ++ c.tabA).filter (fun e => isFmcOff e.1)).map (fun e => fmcGroup e.1)).dedup
    (gs.foldl Chip.deriveMc (c.commitWhere isFmcOff)).setGen Reg.FMC_ACTIVE_GEN gen

def execFmcCommit (ag : Agent) (gen : Nat) (s : State) : Host.Outcome State Fault Refusal :=
  .next { s with chip := s.chip.busWrite ag Reg.FMC_COMMIT (fun c => c.fmcCommit gen) }

/-! ## Sectors (R340 to R342) -/

/-- A sector breaks a range of R340. -/
def Chip.sectorBad (c : Chip) (x : Sector) : Bool :=
  x.size == 0 || decide (2 ^ 64 < x.base + x.size * 4096) ||
    (x.kind == 0 && decide (64 ≤ x.target)) ||
    (x.kind == 1 && (decide (128 ≤ x.target) || !(c.port x.target).present)) ||
    (x.kind == 3 && decide (4159 < x.target))

/-- Two entries that one access can match; an empty range meets none. -/
def Sector.meets (a b : Sector) : Bool :=
  a.idx != b.idx && a.kind == b.kind && a.target == b.target &&
    decide (0 < a.size ∧ 0 < b.size ∧ a.base < b.base + b.size * 4096 ∧ b.base < a.base + a.size * 4096) &&
    (!a.vsiEn || !b.vsiEn || a.vsi == b.vsi) && (!a.pasidEn || !b.pasidEn || a.pasid == b.pasid)

/-- A rejected sector commit: cause and index, and a log record that for OVERLAP names both entries. -/
def Chip.secReject (c : Chip) (cause index : Nat) (both : List Nat) : Chip :=
  let c := (c.setFld Reg.SEC_EVENT Bit.SEC_EVENT_CAUSE cause).setFld Reg.SEC_EVENT Bit.SEC_EVENT_INDEX index
  (c.setBit Reg.SEC_EVENT Bit.SEC_EVENT_COMMIT_REJECT).log .sectorReject [cause] both

/-- The first offending sector of the shadow: its cause, its index and what the record names. -/
def Chip.firstSecFault (c : Chip) : Option (Nat × Nat × List Nat) :=
  let xs := validSectors c.regs c.rd
  (xs.filterMap (fun x =>
    if c.sectorBad x then some (causeRange, x.idx, [x.idx])
    else match xs.find? (fun y => x.meets y) with
      | some y => some (causeOverlap, x.idx, [x.idx, y.idx])
      | none => none)).head?

def isSecOff (off : Nat) : Bool :=
  decide (0x3010000 ≤ off ∧ off < 0x3030000) || off == Reg.SEC_DEFAULT_0 || off == Reg.SEC_DEFAULT_1

/-- Items that were checked under an older generation (R342). -/
def Chip.secOld (c : Chip) : Nat :=
  let g := c.fld Reg.SEC_ACTIVE_GEN Bit.SEC_ACTIVE_GEN_GEN
  let old := fun (k : Pkt) => k.secGen.any (· != g)
  (c.sw.pkts.filter old).length + (c.rly.ops.filter (fun o => o.kind != .send && !o.done && o.gen != g)).length +
    (c.mor.copies.filter (fun k => old k.pkt)).length

/-- SEC_COMMIT. -/
def Chip.secCommit (c : Chip) (gen : Nat) : Chip :=
  if gen ≠ c.nextGen Reg.SEC_ACTIVE_GEN then c.secReject causeBadGen 0 []
  else
    match c.firstSecFault with
    | some f => c.secReject f.1 f.2.1 f.2.2
    | none =>
      let c := { c with saf := { c.saf with secDev := [] } }
      let c := (c.commitWhere isSecOff).setGen Reg.SEC_ACTIVE_GEN gen
      c.setFld Reg.SEC_DRAIN Bit.SEC_DRAIN_DRAINED (b2n (decide (c.secOld = 0)))

def execSecCommit (ag : Agent) (gen : Nat) (s : State) : Host.Outcome State Fault Refusal :=
  .next { s with chip := s.chip.busWrite ag Reg.SEC_COMMIT (fun c => c.secCommit gen) }

/-- SEC_DRAINED: no access admitted by an older table is left (R342). -/
def Chip.secDrained (c : Chip) : Chip :=
  if c.secOld = 0 then c.setBit Reg.SEC_DRAIN Bit.SEC_DRAIN_DRAINED else c

def execSecDrained (s : State) : Host.Outcome State Fault Refusal := .next { s with chip := s.chip.secDrained }

/-! ## Scheduling (R318) -/

/-- Offsets of POL_EFF and SLICE_PACE, which show rates and are no shadows (Table 10.13). -/
def isPaceOff (off : Nat) : Bool :=
  decide (0x3120000 ≤ off ∧ off < 0x3122000 ∧ 0x40 ≤ off % 0x80 ∧ off % 0x80 < 0x60) ||
    decide (0x3140000 ≤ off ∧ off < 0x3150000 ∧ off % 0x10 = 0xC)

/-- The shadows of SCH_COMMIT: every configurable register of the block but SCH_CTRL. -/
def isSchOff (off : Nat) : Bool := decide (Reg.REACT_CFG ≤ off ∧ off < 0x3200000) && !isPaceOff off

/-- The offset of a register of four weights, of a burst, or of a slice's weight, with a value that R318 rejects. -/
def schBad (off : Nat) (w : Word) : Bool :=
  let wt := [(7, 0), (15, 8), (23, 16), (31, 24)].any (fun f => getF w ⟨f.1, f.2⟩ == 0)
  if 0x3110000 ≤ off ∧ off < 0x3114000 then
    let r := (off - 0x3110000) % 0x80
    if r = 4 ∨ r = 8 then wt else if 0x40 ≤ r ∧ r % 8 = 4 then getF w Bit.PC_BURST_UNITS == 0 else false
  else if 0x3120000 ≤ off ∧ off < 0x3122000 then
    let r := (off - 0x3120000) % 0x80
    if r = 0 ∨ r = 4 then wt else if r = 0xC ∨ r = 0x10 then getF w Bit.VSI_BURST_UNITS == 0 else false
  else if 0x3140000 ≤ off ∧ off < 0x3150000 then
    let r := (off - 0x3140000) % 0x10
    if r = 0 then getF w Bit.SLICE_WT_WEIGHT == 0 else if r = 8 then getF w Bit.SLICE_BURST_UNITS == 0 else false
  else false

def Chip.schReject (c : Chip) (cause index : Nat) : Chip :=
  let c := (c.setFld Reg.SCH_EVENT Bit.SCH_EVENT_CAUSE cause).setFld Reg.SCH_EVENT Bit.SCH_EVENT_INDEX index
  c.setBit Reg.SCH_EVENT Bit.SCH_EVENT_COMMIT_REJECT

/-- A bucket across a change of its burst: tokens are cut to the lower burst; a full bucket does not grow at the commit. -/
def Chip.carryBucket (c : Chip) (key old new : Nat) : Chip :=
  if old = new then c else c.setTokens key new (min (c.tokensOf key old) (new * 256000 : Nat))

/-- Every bucket with its burst: class and VSI buckets of the existing ports, policers, slices. -/
def Chip.buckets (c : Chip) : List (Nat × Nat) :=
  c.allPorts.flatMap (fun p => (List.range 8).map (fun k => (keyPc p k, c.pcBurst p k)) ++
    (List.range 64).map (fun v => (keyVsiBucket p v, c.vsiBurst v))) ++
  (List.range 64).flatMap (fun v => (List.range 8).map (fun k => (keyPol v k, c.polBurst v))) ++
  (c.rly.slices.map (fun x => (keySliceBucket x.slice, c.sliceBurst x.slice)))

/-- The policers whose POL_RATE in force differs from that of `old` return to their base rate (R322). -/
def Chip.polFollow (c old : Chip) : Chip :=
  ((List.range 512).filter (fun i => c.tab false (Reg.POL_RATE (i / 8) (i % 8)) != old.tab false (Reg.POL_RATE (i / 8) (i % 8)))).foldl
    (fun c i => c.resetReg (Reg.POL_EFF (i / 8) (i % 8))) c

/-- Until the next refill a bucket goes on at the rate that `old` had (R318). -/
def Chip.keepRates (c old : Chip) : Chip :=
  let changed := (old.buckets.map (·.1)).filter (fun k => (old.bucketRate k).1 != (c.bucketRate k).1)
  { c with sw := { c.sw with
    oldRate := c.sw.oldRate ++ (changed.filter (fun k => !c.sw.oldRate.any (fun e => e.1 == k))).map (fun k => (k, (old.bucketRate k).1)) } }

/-- SCH_COMMIT. -/
def Chip.schCommit (c : Chip) (gen : Nat) : Chip :=
  if gen ≠ c.nextGen Reg.SCH_ACTIVE_GEN then c.schReject 1 0
  else
    match c.regs.find? (fun e => schBad e.1 e.2) with
    | some e => c.schReject 2 ((e.1 - 0x3100000) / 4)
    | none =>
      let d := c.commitWhere isSchOff
      let d := (c.buckets.zip d.buckets).foldl (fun d b => d.carryBucket b.1.1 b.1.2 b.2.2) d
      let d := (d.polFollow c).keepRates c
      (d.allPorts.foldl (fun d p => d.syncPort p) d).setGen Reg.SCH_ACTIVE_GEN gen

def execSchCommit (ag : Agent) (gen : Nat) (s : State) : Host.Outcome State Fault Refusal :=
  .next { s with chip := s.chip.busWrite ag Reg.SCH_COMMIT (fun c => c.schCommit gen) }

/-! ## The drain fence (R197) -/

/-- Items the fence counts. -/
def Chip.fenceCount (c : Chip) : Nat :=
  match c.knd.fence with
  | some (g, v) => c.wgenItems (fun x w => genOlder w g && (match v with
      | some y => x == y
      | none => true))
  | none => 0

/-- FENCE_REQ: a new fence replaces the one in progress. -/
def Chip.fenceReq (c : Chip) (gen v : Nat) (all : Bool) : Chip :=
  let c := { c with knd := { c.knd with fence := some (gen, if all then none else some v) } }
  (c.setBit Reg.FENCE_STATUS Bit.FENCE_STATUS_BUSY).clrFld Reg.FENCE_STATUS Bit.FENCE_STATUS_DONE

def execFenceReq (ag : Agent) (gen v : Nat) (all : Bool) (s : State) : Host.Outcome State Fault Refusal :=
  .next { s with chip := s.chip.busWrite ag Reg.FENCE_REQ (fun c => c.fenceReq gen v all) }

/-- FENCE_DONE: COUNT has reached 0. -/
def Chip.fenceDone (c : Chip) : Chip :=
  if c.knd.fence.isSome && c.fenceCount == 0 then
    let c := { c with knd := { c.knd with fence := none } }
    let c := (c.clrFld Reg.FENCE_STATUS Bit.FENCE_STATUS_BUSY).setBit Reg.FENCE_STATUS Bit.FENCE_STATUS_DONE
    c.setBit Reg.KND_EVENT Bit.KND_EVENT_FENCE_DONE
  else c

def execFenceDone (s : State) : Host.Outcome State Fault Refusal := .next { s with chip := s.chip.fenceDone }

/-! ## Registers that act at the write -/

/-- FEL_PTR.RD (R200): taken when WR − RD stays in 0 to 64, else logged. -/
def Chip.felRd (c : Chip) (v rd : Nat) : Chip :=
  if modSub 128 (c.fld (Reg.FEL_PTR v) Bit.FEL_PTR_WR) rd ≤ 64 then c.setFld (Reg.FEL_PTR v) Bit.FEL_PTR_RD rd
  else c.log .felRdBad [v, rd]

def execFelRdWrite (ag : Agent) (v rd : Nat) (s : State) : Host.Outcome State Fault Refusal :=
  .next { s with chip := s.chip.busWrite ag (Reg.FEL_PTR v) (fun c => c.felRd v rd) }

/-- KND_FAB_RID.BASE: ignored while a fabric entry or a quarantined fabric tag exists (Table 6.9). -/
def Chip.fabRidWrite (c : Chip) (base : Nat) : Chip :=
  if c.pci.ort.any (fun e => c.isSpan e.port) || c.pci.quar.any (fun q => c.isSpan q.port) then
    c.setBit Reg.KND_EVENT Bit.KND_EVENT_RID_BUSY
  else c.setFld Reg.KND_FAB_RID Bit.KND_FAB_RID_BASE base

def execKndFabRidWrite (ag : Agent) (base : Nat) (s : State) : Host.Outcome State Fault Refusal :=
  .next { s with chip := s.chip.busWrite ag Reg.KND_FAB_RID (fun c => c.fabRidWrite base) }

/-- GUARD_MAP acts on packets looked up after the write (R202). -/
def execGuardMapWrite (ag : Agent) (v mask : Nat) (s : State) : Host.Outcome State Fault Refusal :=
  let w := s.chip.wordWith (Reg.GUARD_MAP v) Bit.GUARD_MAP_TC_MASK mask
  .next { s with chip := s.chip.busWriteW ag (Reg.GUARD_MAP v) w (fun c => c.setFld (Reg.GUARD_MAP v) Bit.GUARD_MAP_TC_MASK mask) }

/-- RETRAIN (R166, R167). -/
def execRetrain (ag : Agent) (p : Nat) (s : State) : Host.Outcome State Fault Refusal :=
  let w := s.chip.wordWith (Reg.SPAN_CTRL p) Bit.SPAN_CTRL_RETRAIN 1
  .next { s with chip := s.chip.busWriteW ag (Reg.SPAN_CTRL p) w (fun c => c.retrain p) }

end Sys2Proof.Machine
end

