-- ==== Sys2Proof/Machine/Images.lean ====
section
/-!
DEFINITION. The flash and what the Keeper keeps there (R369 to R377, R396 to R405): firmware images, the commit record, the
Light List. Flash bytes are a canonical table; an unlisted byte reads 0xFF.
-/
namespace Sys2Proof.Machine

/-! ## Flash -/

/-- One byte of flash. -/
def Flash.byte (m : SMap Byte) (a : Nat) : Byte := SMap.get m a 0xFF#8

/-- `n` bytes from address `a`. -/
def Flash.bytes (m : SMap Byte) (a n : Nat) : List Byte := (List.range n).map (fun i => Flash.byte m (a + i))

/-- Erase `n` bytes from address `a`. -/
def Flash.erase (m : SMap Byte) (a n : Nat) : SMap Byte := m.filter (fun e => !(decide (a ≤ e.1) && decide (e.1 < a + n)))

/-- Program bytes from address `a`. -/
def Flash.program (m : SMap Byte) : Nat → List Byte → SMap Byte
  | _, [] => m
  | a, b :: bs => Flash.program (SMap.set m a b 0xFF#8) (a + 1) bs

/-- The slots of a KIND (Table 13.1): 0 firmware, 1 Light List; and their size. -/
def slotBase (kind slot : Nat) : Nat :=
  if kind = 0 then (if slot = 0 then 0x1000000 else 0x2000000) else (if slot = 0 then 0x3000000 else 0x3400000)
def slotSize (kind : Nat) : Nat := if kind = 0 then 0x1000000 else 0x400000

/-- SPDM certificate slot 1, in the certificate store. -/
def certSlot1 : Nat := 0x18000
def keepArea : Nat := 0x4000000

def bytesNat (l : List Byte) : List Nat := l.map (·.toNat)
def natBytes (l : List Nat) : List Byte := l.map (BitVec.ofNat 8)

/-- Bytes `a` to `b - 1` of a list. -/
def slice_ (l : List Byte) (a b : Nat) : List Byte := (l.drop a).take (b - a)

def allZero (l : List Byte) : Bool := l.all (· == 0)

/-- Bytes that hold ASCII text. -/
def isText (l : List Byte) (t : List Nat) : Bool := bytesNat l == t

/-- The first 64 bytes of SHAKE256 output. -/
def digest64 (l : List Byte) : List Nat := (Config.shake256 l).take 64

/-! ## The commit record (R374, R375) -/

/-- A valid commit record: its copy, SEQ, slots and FW_DIGEST. -/
structure CommitRec where
  copy : Nat
  seq : Nat
  fwSlot : Nat
  llSlot : Nat
  digest : List Nat
  deriving DecidableEq, Repr

/-- A copy of the record, when CHECK is correct. -/
def commitCopy (m : SMap Byte) (k : Nat) : Option CommitRec :=
  let b := Flash.bytes m (k * 0x1000) 128
  if bytesNat (slice_ b 96 128) = (Config.shake256 (slice_ b 0 96)).take 32 then
    some { copy := k, seq := leNat b 0 4, fwSlot := leNat b 4 1 % 2, llSlot := leNat b 4 1 / 2 % 2
           digest := bytesNat (slice_ b 32 96) }
  else none

/-- SEQ `a` is ahead of `b` modulo 2^32. -/
def seqAhead (a b : Nat) : Bool := let d := modSub (2 ^ 32) a b; decide (1 ≤ d ∧ d ≤ 2 ^ 31 - 1)

/-- The record in force. -/
def commitNow (m : SMap Byte) : Option CommitRec :=
  match commitCopy m 0, commitCopy m 1 with
  | some a, some b => if seqAhead b.seq a.seq then some b else some a
  | some a, none => some a
  | none, some b => some b
  | none, none => none

/-- The 128 bytes of a record. -/
def commitBytes (seq fwSlot llSlot : Nat) (digest : List Nat) : List Byte :=
  let b := natBytes (leBytes 4 seq ++ [fwSlot + 2 * llSlot] ++ List.replicate 27 0 ++ digest.take 64 ++
    List.replicate (64 - digest.length) 0)
  b ++ natBytes ((Config.shake256 b).take 32)

/-- Write the next record over the copy that is not in force (R375). -/
def commitWrite (m : SMap Byte) (seq fwSlot llSlot : Nat) (digest : List Nat) : SMap Byte :=
  let k := match commitNow m with
    | some r => 1 - r.copy
    | none => 0
  Flash.program (Flash.erase m (k * 0x1000) 0x1000) (k * 0x1000) (commitBytes seq fwSlot llSlot digest)

/-! ## Firmware images (R372, R373) -/

/-- What the Keeper takes from a verified firmware image. -/
structure FwImg where
  version : Nat
  svn : Nat
  key : Nat
  digest : List Nat
  deriving DecidableEq, Repr

def fwImg (h : List Byte) : FwImg :=
  { version := leNat h 12 4, svn := leNat h 8 4, key := leNat h 20 2, digest := bytesNat (slice_ h 1920 1984) }

/-- MAGIC, HDR_VER, the ranges of Table 13.3 and its reserved bytes. -/
def fwFormat (h : List Byte) : Bool :=
  let sl := leNat h 22 2
  isText (slice_ h 0 4) [0x47, 0x4B, 0x46, 0x57] && leNat h 4 4 == 1 && decide (leNat h 8 4 ≤ 127) &&
    decide (1 ≤ leNat h 16 4 ∧ leNat h 16 4 ≤ 6291456) && decide (leNat h 20 2 ≤ 1) && decide (1 ≤ sl ∧ sl ≤ 1462) &&
    allZero (slice_ h 24 64) && allZero (slice_ h 1857 1920) && allZero (slice_ h (1984 + sl) 4096)

/-- The checks of R373 on a slot, in its order. The answer is 0, or the number of the check that failed (Table 13.24). -/
def Chip.fwCheck (c : Chip) (m : SMap Byte) (slot : Nat) : Nat :=
  let base := slotBase 0 slot
  let h := Flash.bytes m base 4096
  let img := fwImg h
  let pub := slice_ h 64 1857
  if !fwFormat h then 1
  else if digest64 pub ≠ Config.romFwDigest img.key then 3
  else if bitOf c.kpr.revoke img.key then 6
  else if digest64 (slice_ h 0 1920 ++ Flash.bytes m (base + 4096) (leNat h 16 4)) ≠ img.digest then 2
  else if !Config.falconVerify pub img.digest (slice_ h 1984 (1984 + leNat h 22 2)) then 4
  else if img.svn < c.kpr.svn then 5
  else 0

def fwImgAt (m : SMap Byte) (slot : Nat) : FwImg := fwImg (Flash.bytes m (slotBase 0 slot) 4096)

/-! ## The Light List (R396 to R405) -/

/-- A section: type, offset, length. -/
structure Section where
  type : Nat
  off : Nat
  len : Nat
  deriving DecidableEq, Repr

def sectionsOf (b : List Byte) : List Section :=
  (List.range (leNat b 0x46 2)).map (fun i =>
    { type := leNat b (0x80 + 16 * i) 2, off := leNat b (0x84 + 16 * i) 4, len := leNat b (0x88 + 16 * i) 4 })

/-- The LENGTH that Table 14.5 allows. -/
def Section.lenOk (x : Section) : Bool :=
  if x.type = 1 then x.len == 1024
  else if x.type = 2 then x.len == 4096
  else if x.type = 3 then x.len == 16
  else if x.type = 4 then x.len == 144
  else if x.type = 5 then x.len % 4 == 0 && decide (x.len ≤ 512)
  else if x.type = 6 then x.len % 8 == 0 && decide (x.len ≤ 128)
  else if x.type = 7 then x.len == 72
  else true

/-- Pairwise: no type twice, no overlap. -/
def sectionsApart : List Section → Bool
  | [] => true
  | x :: xs => xs.all (fun y => y.type != x.type && (decide (y.off + y.len ≤ x.off) || decide (x.off + x.len ≤ y.off))) &&
      sectionsApart xs

/-- The expansion ROM header (Table 14.1). -/
def romHeaderOk (b : List Byte) : Bool :=
  leNat b 0 2 == 0xAA55 && allZero (slice_ b 2 0x18) && leNat b 0x18 2 == 0x20 && allZero (slice_ b 0x1A 0x20)

def sectionAt (b : List Byte) (ss : List Section) (type : Nat) : List Byte :=
  match ss.find? (fun x => x.type == type) with
  | some x => slice_ b x.off (x.off + x.len)
  | none => []

def vbrCountsOf (fab : List Byte) : List Nat := (List.range 64).map (fun v => leNat fab (16 + 2 * v) 2)

/-- R398: format, LL_LEN, sections, and the VBR_COUNT range of R403. -/
def llFormat (b : List Byte) : Bool :=
  let n := leNat b 0x46 2
  let body := leNat b 0x48 4
  let ss := sectionsOf b
  isText (slice_ b 0x40 0x44) [0x47, 0x4B, 0x4C, 0x4C] && leNat b 0x44 2 == 1 && decide (1 ≤ n ∧ n ≤ 32) &&
    allZero (slice_ b 0x50 0x80) && romHeaderOk b && body % 512 == 0 && decide (body + 4096 ≤ 4194304) &&
    ss.all (fun x => decide (0x80 + 16 * n ≤ x.off ∧ x.off + x.len ≤ body)) && sectionsApart ss &&
    [1, 2, 3, 4, 7].all (fun t => ss.any (fun x => x.type == t)) && ss.all Section.lenOk &&
    (vbrCountsOf (sectionAt b ss 4)).all (fun k => decide (1 ≤ k ∧ k ≤ 256))

/-- The digest of the operator key in the highest enrolled slot (R371). -/
def enrolled (k0 k1 : KeyFuse) : Option (List Nat) := if k1.en then k1.digest else if k0.en then k0.digest else none

/-- R377 and R398 on the image in a slot: 0, or the number of the check that failed. -/
def Chip.llCheck (c : Chip) (m : SMap Byte) (slot : Nat) : Nat :=
  let b := Flash.bytes m (slotBase 1 slot) 4194304
  let body := leNat b 0x48 4
  let t := slice_ b body (body + 4096)
  let dg := bytesNat (slice_ t 0 64)
  let sl := leNat t 65 2
  let pub := slice_ t 67 1860
  if !llFormat b then 1
  else if digest64 (slice_ b 0 body) ≠ dg then 2
  else
    match enrolled c.kpr.opLl0 c.kpr.opLl1 with
    | none => 0
    | some d =>
      if leNat t 64 1 ≠ 1 then 4
      else if digest64 pub ≠ d then 3
      else if decide (1 ≤ sl ∧ sl ≤ 1462) && Config.falconVerify pub dg (slice_ t 1860 (1860 + sl)) then 0
      else 4

/-- A PORTMAP entry (Table 14.6). -/
def portCfgOf (e : List Byte) : PortCfg :=
  let b0 := leNat e 0 1
  let b1 := leNat e 1 1
  let b2 := leNat e 2 1
  let b4 := leNat e 4 1
  { index := b0 % 8, present := bitOf b0 3, width := b0 / 16 % 8, up := bitOf b0 7, offset := b1 % 16
    maxRate := b1 / 16 % 8, sris := bitOf b1 7, kaund := bitOf b2 0, facing := bitOf b2 1, noEq := bitOf b2 2
    clkOut := bitOf b2 3, vcEn := leNat e 3 1, vsi := b4 % 64, vsiSet := bitOf b4 6
    clean := b2 / 16 == 0 && !bitOf b4 7 && allZero (slice_ e 5 8) && (bitOf b0 3 || allZero e) }

def signed (w n : Nat) : Int := if n < 2 ^ (w - 1) then n else (n : Int) - 2 ^ w

/-- A LANE_EQ entry (R401). -/
def laneCfgOf (e : List Byte) : LaneCfg :=
  { presets := (List.range 5).map (fun i => leNat e i 1), ctle := leNat e 5 1
    taps := (List.range 8).map (fun i => signed 8 (leNat e (6 + i) 1)), clean := allZero (slice_ e 14 16) }

/-- The Light List of a slot, as the Keeper takes it. -/
def lightListOf (m : SMap Byte) (slot : Nat) : LightList :=
  let b := Flash.bytes m (slotBase 1 slot) 4194304
  let body := leNat b 0x48 4
  let ss := sectionsOf b
  let pm := sectionAt b ss 1
  let eq := sectionAt b ss 2
  let bc := sectionAt b ss 3
  let fb := sectionAt b ss 4
  let bi := sectionAt b ss 5
  let cal := sectionAt b ss 6
  let br := sectionAt b ss 7
  { serial := leNat b 0x4C 4, len := body + 4096, image := b.take (body + 4096), slot
    ports := (List.range 128).map (fun p => portCfgOf (slice_ pm (8 * p) (8 * p + 8)))
    lanes := (List.range 256).map (fun n => laneCfgOf (slice_ eq (16 * n) (16 * n + 16)))
    beacon := (List.range 4).map (fun i => leNat bc i 1 % (if i < 2 then 8 else 16)), masterCand := bitOf (leNat bc 4 1) 0
    reach := leNat fb 0 2 % 2048, module := leNat fb 2 1 % 128, manager := leNat fb 3 1 % 64, seed := leNat fb 4 2
    vbrCounts := vbrCountsOf fb
    bindings := (List.range (bi.length / 4)).map (fun i =>
      (leNat bi (4 * i) 1 % 64, leNat bi (4 * i + 1) 1, leNat bi (4 * i + 3) 1 % 128))
    cal := (List.range (cal.length / 8)).map (fun i =>
      (leNat cal (8 * i) 1, leNat cal (8 * i + 2) 2, signed 32 (leNat cal (8 * i + 4) 4)))
    breaker := (List.range 8).map (fun i => (leNat br (8 * i) 4, leNat br (8 * i + 4) 4))
    retryCount := leNat br 64 1, retryDelay := leNat br 66 2, warnA := leNat br 68 2, warnB := leNat br 70 2
    digest := bytesNat (slice_ b body (body + 64)) }

/-! ## The stages of an update (R385) -/

def stIdle : Nat := 0
def stWriting : Nat := 1
def stVerified : Nat := 2

def stageFld (kind : Nat) : Fld := if kind = 0 then Bit.KPR_STATUS_FW_STAGE else Bit.KPR_STATUS_LL_STAGE

def Chip.kStage (c : Chip) (kind : Nat) : Nat := c.fld Reg.KPR_STATUS (stageFld kind)
def Chip.setKStage (c : Chip) (kind st : Nat) : Chip := c.setFld Reg.KPR_STATUS (stageFld kind) st

/-- The inactive slot of a KIND: the one that the record in force does not name; after a FALLBACK, until a commit of the KIND, the
one that does not run, for the record then names the slot just written (R386). Where no image of the KIND verified (R378), none
runs. -/
def Chip.inactive (c : Chip) (m : SMap Byte) (kind : Nat) : Nat :=
  let fell := !c.kpr.committed.contains kind &&
    (if kind = 0 then c.flag Reg.KPR_STATUS Bit.KPR_STATUS_FALLBACK && decide (c.kpr.fwKey < 2)
     else c.flag Reg.KPR_STATUS Bit.KPR_STATUS_LL_FALLBACK && c.fld Reg.KPR_STATUS Bit.KPR_STATUS_STAGE != 2)
  let runs := if kind = 0 then c.fld Reg.KPR_STATUS Bit.KPR_STATUS_FW_SLOT else c.fld Reg.KPR_STATUS Bit.KPR_STATUS_LL_SLOT
  if fell then 1 - runs
  else match commitNow m with
    | some r => 1 - (if kind = 0 then r.fwSlot else r.llSlot)
    | none => 1

/-- FUSE_STATUS shows the fuses (Table 13.17). -/
def Chip.syncFuses (c : Chip) : Chip :=
  let c := (c.setFld Reg.FUSE_STATUS Bit.FUSE_STATUS_SVN c.kpr.svn).setFld Reg.FUSE_STATUS Bit.FUSE_STATUS_KEY_REVOKE
    c.kpr.revoke
  let c := c.setFld Reg.FUSE_STATUS Bit.FUSE_STATUS_OP_LL_EN (b2n c.kpr.opLl0.en + 2 * b2n c.kpr.opLl1.en)
  c.setFld Reg.FUSE_STATUS Bit.FUSE_STATUS_OP_DBG_EN (b2n c.kpr.opDbg0.en + 2 * b2n c.kpr.opDbg1.en)

/-- The first slot whose EN bit is clear and that is not spoiled; none when both are enrolled or spoiled (R371). -/
def freeSlot (k0 k1 : KeyFuse) : Option Nat :=
  if !k0.en && k0.digest.isNone then some 0 else if !k1.en && k1.digest.isNone then some 1 else none

/-- Enrol a key: digest first, EN last. -/
def Chip.enroll (c : Chip) (kind slot : Nat) (key : List Byte) : Chip :=
  let f : KeyFuse := { digest := some (digest64 key), en := true }
  let k := c.kpr
  let k := if kind = 0 then (if slot = 0 then { k with opLl0 := f } else { k with opLl1 := f })
    else (if slot = 0 then { k with opDbg0 := f } else { k with opDbg1 := f })
  ({ c with kpr := k }).syncFuses

end Sys2Proof.Machine
end

