-- ==== Sys2Proof/Machine/Log.lean ====
section
/-!
DEFINITION. The Keeper's Log in flash and as it is read (R504 to R512): the bytes of a record, the Keep area, final words,
summaries, the freeze, LOG_RD_SEL.
-/
namespace Sys2Proof.Machine

/-! ## Records as bytes (Table 19.7) -/

def LogRec.number (r : LogRec) : Nat :=
  (if r.kind = 0 then Config.logCode r.code.ctorIdx else Config.logCode (256 + nth r.key 0)) % 65536

/-- Bytes 32 to 63: for an event the free layout of its key and details, else the bins or the extremes. -/
def LogRec.data (r : LogRec) : List Nat :=
  if r.kind = 0 then (List.range 32).map (fun i => Config.logData r.key r.det i % 256)
  else (r.det ++ List.replicate 32 0).take 32

/-- The 64 bytes of a record. -/
def LogRec.bytes (r : LogRec) : List Nat :=
  leBytes 2 r.number ++ [r.kind % 4 + 4 * b2n r.fsnValid + 8 * b2n r.kept, r.source % 256] ++ leBytes 2 r.rep ++
    leBytes 2 r.cycles ++ leBytes 4 (r.hours % 2 ^ 24) ++ leBytes 4 r.fsn ++ leBytes 8 r.tFirst ++ leBytes 8 r.tLast ++ r.data

/-! ## The Keep area (R509, R510) -/

def keepSlot (k : Nat) : Nat := keepArea + 64 * k
def wordsSlot (k : Nat) : Nat := keepArea + 0x10000 + 0x800 * k

/-- The Recent copy of the record that a Keep-area slot is for. -/
def Chip.slotRec (c : Chip) (k : Nat) : Option LogRec := c.tel.recent.find? (fun r => r.slot == some k)

/-- A record enters its slot of the Keep area, and its Recent copy is marked KEPT. -/
def State.keepPut (s : State) (k : Nat) (r : LogRec) : State :=
  let r' := { r with kept := true }
  let c := s.chip
  let c := { c with tel := { c.tel with recent := mapIf (fun x => x.slot == some k) (fun x => { x with kept := true }) c.tel.recent
                                        keepPend := c.tel.keepPend.erase k } }
  { s with chip := (c.setFld Reg.LOG_STATUS Bit.LOG_STATUS_KEEP_USED (k + 1)).disarm (.keep k)
           flash := Flash.program s.flash (keepSlot k) (natBytes r'.bytes) }

/-- The oldest record that is owed to the Keep area is programmed, 1 ms after it was made; not during a freeze (R511). -/
def State.keepProgram (s : State) : State :=
  match s.chip.tel.keepPend with
  | [] => s
  | k :: _ =>
    if s.chip.keeperRuns && s.chip.due (.keep k) && !s.chip.flag Reg.LOG_CTRL Bit.LOG_CTRL_FREEZE then
      match s.chip.slotRec k with
      | some r => s.keepPut k r
      | none => s
    else s

def execKeepAreaProgram (s : State) : Host.Outcome State Fault Refusal := .next s.keepProgram

/-- What the header of a final-words slot holds. -/
def Chip.wordsHeader (c : Chip) (trigger count : Nat) : List Nat :=
  let h := [trigger, min (c.rd Reg.POWER_CYCLES).toNat 65535, c.fld Reg.OP_HOURS Bit.OP_HOURS_HOURS, c.watchTime,
    (c.rd Reg.BCN_FSN).toNat, count, c.fld Reg.LOG_CTRL Bit.LOG_CTRL_FREEZE]
  (List.range 64).map (fun i => Config.wordsHeader h i % 256)

/-- At least 32 final-words slots stay erased: the block that holds the oldest 32 is erased. -/
def State.keepErased (s : State) : State :=
  let t := s.chip.tel
  if 480 - t.fwUsed < 32 then
    let oldest := (t.fwNext + 480 - t.fwUsed) % 480 / 32 * 32
    let t' := { t with fwUsed := t.fwUsed - 32 }
    { s with chip := { s.chip with tel := t' }, flash := Flash.erase s.flash (wordsSlot oldest) 0x10000 }
  else s

/-- A Keep write (R510), which the Keeper makes in recovery too (R388): the pending records first, then the newest, up to 20,
behind a header. The pending records then go into the Keep area as soon as they can. -/
def State.keepWrite (s : State) (trigger : Nat) : State :=
  let c := s.chip
  let seq := (c.rd Reg.LOG_SEQ).toNat
  if !(c.keeperRuns || c.fld Reg.KPR_STATUS Bit.KPR_STATUS_STAGE == 2) || c.tel.lastKeep == some seq then s
  else
    let pend := c.tel.keepPend.filterMap (fun k => (c.slotRec k).map (fun r => (k, r)))
    let rest := c.tel.recent.filter (fun r => !(r.slot.any c.tel.keepPend.contains))
    let recs := (pend.map (·.2) ++ rest).take 20
    let bytes := c.wordsHeader trigger recs.length ++ recs.flatMap LogRec.bytes
    let k := c.tel.fwNext
    let t := c.tel
    let t := { t with lastKeep := some seq, fwNext := (k + 1) % 480, fwUsed := t.fwUsed + 1, lastWords := pend.take 20 }
    let c := { c with tel := t }
    let c := c.tel.keepPend.foldl (fun (c : Chip) n => c.arm (.keep n) 0) c
    let s := ({ s with chip := c, flash := Flash.program s.flash (wordsSlot k) (natBytes bytes) } : State).keepErased
    { s with chip := s.chip.setFld Reg.LOG_STATUS Bit.LOG_STATUS_FW_FREE (480 - s.chip.tel.fwUsed) }

/-- The records that a loss of power kept from the Keep area and that the newest final words hold (R510): programmed at the
next boot, in the order of their slots. -/
def State.keepRecover (s : State) : State :=
  let todo := s.chip.tel.lastWords.filter (fun e => decide (s.chip.tel.made ≤ e.1))
  let s := todo.foldl (fun (s : State) e =>
    if e.1 = s.chip.tel.made then
      let s := s.keepPut e.1 e.2
      { s with chip := { s.chip with tel := { s.chip.tel with made := e.1 + 1 } } }
    else s) s
  let c := { s.chip with tel := { s.chip.tel with lastWords := [] } }
  let c := c.setFld Reg.LOG_STATUS Bit.LOG_STATUS_KEEP_USED (c.tel.made - c.tel.keepPend.length)
  { s with chip := c.setFld Reg.LOG_STATUS Bit.LOG_STATUS_FW_FREE (480 - c.tel.fwUsed) }

/-- Events that waited in the Lamp Room during a Keeper reset are logged in order; one LOG_LOST record follows lost ones
(R508). -/
def Chip.replayQueue (c : Chip) : Chip :=
  let q := c.tel.queue
  let c := { c with tel := { c.tel with queue := [] } }
  let c := q.foldl Chip.logNow c
  if 0 < c.fld Reg.LOG_EVENT Bit.LOG_EVENT_QUEUE_LOST then
    c.logNow (c.mkRec .logLost 90 [] [c.fld Reg.LOG_EVENT Bit.LOG_EVENT_QUEUE_LOST])
  else c

/-! ## Summaries (R507) -/

def le32 (x : Int) : List Nat := leBytes 4 (x % 2 ^ 32).toNat

/-- The HISTOGRAM and EXTREME records of a quantity over the span that ends now. -/
def Chip.summaryOf (c : Chip) (q : Nat) : Chip :=
  let a := c.tel.qty.getD q {}
  let bins := (a.bins ++ List.replicate 16 0).take 16
  let base := { c.mkRec .histogram 90 [q] [] with tFirst := c.tel.qtyTime }
  let mean := if a.count = 0 then 0 else a.sum / a.count
  let c := c.addRec { base with kind := 1, det := bins.flatMap (leBytes 2) }
  c.addRec { base with code := .extreme, kind := 2
                       det := le32 a.mn ++ le32 a.mx ++ le32 mean ++ leBytes 4 a.count ++ leBytes 8 a.tMax }

/-- Every enabled quantity is written and restarted. -/
def Chip.summary (c : Chip) : Chip :=
  let qs := bitsSet (c.fld Reg.LOG_CTRL Bit.LOG_CTRL_QTY_EN) 8
  let c := qs.foldl Chip.summaryOf c
  let qty := c.tel.qty.zipIdx.map (fun e => if qs.contains e.2 then ({} : Qty) else e.1)
  { c with tel := { c.tel with qty, qtyStart := c.now, qtyTime := c.watchTime } }

/-- SUM_PERIOD seconds have passed since the span began. -/
def Chip.summaryDue (c : Chip) : Bool :=
  decide (c.tel.qtyStart + c.fld Reg.LOG_CTRL Bit.LOG_CTRL_SUM_PERIOD * sec ≤ c.now)

def execLogSummary (s : State) : Host.Outcome State Fault Refusal :=
  .next { s with chip :=
    if s.chip.keeperRuns && s.chip.summaryDue && !s.chip.flag Reg.LOG_CTRL Bit.LOG_CTRL_FREEZE then s.chip.summary
    else s.chip }

/-! ## The freeze (R511) -/

/-- LOG_CTRL.FREEZE is written. A summary that fell due during the freeze is written when it ends. -/
def Chip.setFreeze (c : Chip) (on : Bool) : Chip :=
  let was := c.flag Reg.LOG_CTRL Bit.LOG_CTRL_FREEZE
  let c := (c.setFld Reg.LOG_CTRL Bit.LOG_CTRL_FREEZE (b2n on)).setFld Reg.LOG_STATUS Bit.LOG_STATUS_FROZEN (b2n on)
  if on then (if was then c else c.arm .freeze (60 * sec))
  else if was then
    let c := c.disarm .freeze
    if c.keeperRuns && c.summaryDue then c.summary else c
  else c

def execLogFreeze (ag : Agent) (on : Bool) (s : State) : Host.Outcome State Fault Refusal :=
  .next { s with chip := s.chip.busWrite ag Reg.LOG_CTRL (fun c => c.setFreeze on) }

def execFreezeTimeout (s : State) : Host.Outcome State Fault Refusal :=
  .next { s with chip := if s.chip.due .freeze then s.chip.setFreeze false else s.chip }

/-! ## Reading the log (R512) -/

/-- The 64 bytes at an address of flash, when something is programmed there. -/
def flashRec (m : SMap Byte) (a : Nat) : Option (List Nat) :=
  if m.any (fun e => decide (a ≤ e.1 ∧ e.1 < a + 64)) then some (bytesNat (Flash.bytes m a 64)) else none

/-- The record that LOG_RD_SEL names. -/
def State.logRecord (s : State) (area index : Nat) : Option (List Nat) :=
  let t := s.chip.tel
  if area = 0 then (t.recent[index]?).map LogRec.bytes
  else if area = 1 then (if index < 256 then flashRec s.flash (keepSlot index) else none)
  else
    let age := index / 32
    if age < t.fwUsed then flashRec s.flash (wordsSlot ((t.fwNext + 479 - age) % 480) + 64 * (index % 32)) else none

/-- LOG_RD_SEL is written: the record it names goes into LOG_RD_DATA. AREA 3 loads nothing. -/
def Chip.logRdSel (c : Chip) (area index : Nat) (r : Option (List Nat)) : Chip :=
  let c := (c.setFld Reg.LOG_RD_SEL Bit.LOG_RD_SEL_INDEX index).setFld Reg.LOG_RD_SEL Bit.LOG_RD_SEL_AREA area
  if area = 3 then c
  else
    let b := (r.getD []).map (BitVec.ofNat 8)
    let c := (List.range 16).foldl (fun (c : Chip) i => c.wr (Reg.LOG_RD_DATA i) (BitVec.ofNat 32 (leNat b (4 * i) 4))) c
    (c.setFld Reg.LOG_RD_STATUS Bit.LOG_RD_STATUS_RD_VALID (b2n r.isSome)).setFld Reg.LOG_RD_STATUS
      Bit.LOG_RD_STATUS_RD_EMPTY (b2n r.isNone)

def execLogRdSel (ag : Agent) (area index : Nat) (s : State) : Host.Outcome State Fault Refusal :=
  .next { s with chip := s.chip.busWrite ag Reg.LOG_RD_SEL (fun c => c.logRdSel area index (s.logRecord area index)) }

end Sys2Proof.Machine
end

