-- ==== Sys2Proof/Machine/Collector.lean ====
section
/-!
DEFINITION. The Counter Collector (R493 to R497), the Soundings FIFO (R503), and the counter window pages (R498).
-/
namespace Sys2Proof.Machine

/-! ## Dump entries (R495) -/

/-- The counters that COL_SEL selects, in the order of R495; those of a port that does not exist read 0. -/
def Chip.dumpValues (c : Chip) : List Nat :=
  let all := fun (kind inst n : Nat) => (List.range n).map (fun i => c.ctr kind inst i)
  let f := fun (b : Fld) => c.flag Reg.COL_SEL b
  (bitsSet (c.fld Reg.COL_SEL Bit.COL_SEL_STATION) 16).flatMap (fun s =>
      all kStation s 64 ++ (List.range 8).flatMap (fun k =>
        if (c.port (8 * s + k)).present then all kPort (8 * s + k) 16 else List.replicate 16 0)) ++
    (if f Bit.COL_SEL_TOWER then all kTower 0 32 else []) ++ (if f Bit.COL_SEL_RELAY then all kRelay 0 64 else []) ++
    (if f Bit.COL_SEL_MOORING then all kMooring 0 16 else []) ++
    (bitsSet (c.fld Reg.COL_SEL Bit.COL_SEL_MC) 4).flatMap (fun n => all kMc n 16)

/-- The entry of a snapshot taken now. -/
def Chip.dumpEntry (c : Chip) : DumpEnt :=
  let vs := c.dumpValues
  let locked := c.flag Reg.BCN_STATUS Bit.BCN_STATUS_LOCK0 || c.flag Reg.BCN_STATUS Bit.BCN_STATUS_LOCK1
  { seq := c.tel.colSeq % 2 ^ 32, tTime := c.watchTime, tUp := c.watchUp, fsn := if locked then (c.rd Reg.BCN_FSN).toNat else 0
    sel := (c.rd Reg.COL_SEL).toNat, missed := c.tel.colMissed % 2 ^ 32, len := 64 + 8 * vs.length, values := vs }

/-- The 64 bytes of an entry's header (Table 19.2). -/
def DumpEnt.header (d : DumpEnt) (phase : Bool) : List Nat :=
  leBytes 4 d.seq ++ [b2n phase, 0, 0, 0] ++ leBytes 8 d.tTime ++ leBytes 8 d.tUp ++ leBytes 4 d.fsn ++ leBytes 4 d.sel ++
    leBytes 4 d.missed ++ leBytes 4 d.len ++ List.replicate 24 0

/-! ## The rings (R496) -/

/-- A skipped snapshot adds 1 to MISSED, in COL_EVENT and in the next entry. -/
def Chip.dumpMiss (c : Chip) : Chip :=
  let c := c.satInc Reg.COL_EVENT Bit.COL_EVENT_MISSED
  { c with tel := { c.tel with colMissed := c.tel.colMissed + 1 } }

/-- The Collector stops. -/
def Chip.colStop (c : Chip) : Chip := (c.clrFld Reg.COL_CTRL Bit.COL_CTRL_EN).disarm .collect

def Chip.dumpSlots (c : Chip) : Nat := 2 ^ c.fld Reg.DUMP_CFG Bit.DUMP_CFG_LOG2

/-- A slot of the host ring is free. -/
def Chip.dumpFree (c : Chip) : Bool :=
  decide (modSub (2 ^ 32) (c.rd Reg.DUMP_WR).toNat (c.rd Reg.DUMP_RD).toNat < c.dumpSlots)

/-- The manager VSI's host memory is reached: its upstream port is up. -/
def Chip.managerUp (c : Chip) : Bool :=
  match c.portOfVsi c.manager with
  | some p => c.dlUp p && c.portUp p
  | none => false

/-- The Collector runs in the Relay island (R494). -/
def Chip.collectorRuns (c : Chip) : Bool := c.flag Reg.START_STATUS Bit.START_STATUS_RELAY && c.clocked 82

/-- An entry goes into the next slot of the host ring: its body, then its header; DUMP_WR advances. -/
def Chip.dumpWrite (c : Chip) (d : DumpEnt) : Chip :=
  let n := modSub (2 ^ 32) (c.rd Reg.DUMP_WR).toNat c.tel.colBase
  let addr := c.pair Reg.DUMP_BASE_LO Reg.DUMP_BASE_HI + n % c.dumpSlots * (ceilDiv d.len 64 * 64)
  let phase := (n / c.dumpSlots + 1) % 2 == 1
  let c := c.emit (.hostWrite c.manager (addr + 64) (d.values.flatMap (leBytes 8)))
  (c.emit (.hostWrite c.manager addr (d.header phase))).wr Reg.DUMP_WR (c.rd Reg.DUMP_WR + 1)

/-- A dump write that fails clears EN. -/
def Chip.dumpFail (c : Chip) : Chip := (c.setBit Reg.COL_EVENT Bit.COL_EVENT_WRITE_FAIL).colStop

/-- Bytes in the staging ring, and its size. -/
def Chip.stagedBytes (c : Chip) : Nat := (c.tel.staged.map (fun d => ceilDiv d.len 64 * 64)).sum
def Chip.stageRoom (c : Chip) : Nat := c.fld Reg.DUMP_CFG Bit.DUMP_CFG_STAGE_MIB * 2 ^ 20

/-- One snapshot: every selected counter latches, and the entry is written, staged or missed. While the Relay island does not
run it is missed. -/
def Chip.snapshot (c : Chip) : Chip :=
  let d := c.dumpEntry
  let c := { c with tel := { c.tel with colSeq := c.tel.colSeq + 1 } }
  let taken := fun (c : Chip) => { c with tel := { c.tel with colMissed := 0 } }
  if !c.collectorRuns then c.dumpMiss
  else if c.flag Reg.COL_CTRL Bit.COL_CTRL_LOC then
    if c.stagedBytes + ceilDiv d.len 64 * 64 ≤ c.stageRoom then
      taken { c with tel := { c.tel with staged := c.tel.staged ++ [d] } }
    else c.dumpMiss
  else if !c.dumpFree then c.dumpMiss
  else if !c.managerUp then c.dumpMiss.dumpFail
  else taken (c.dumpWrite d)

/-- EN is written (R493): the first snapshot is due at once. The Relay gate opens, and stays open while EN is set (R494). -/
def Chip.colEnable (c : Chip) (on : Bool) : Chip :=
  if !on then c.colStop
  else if c.flag Reg.COL_CTRL Bit.COL_CTRL_EN then c
  else
    let c := { c with tel := { c.tel with colSeq := 0, colMissed := 0, colBase := (c.rd Reg.DUMP_WR).toNat } }
    ((c.openGate Reg.RLY_CTRL).setBit Reg.COL_CTRL Bit.COL_CTRL_EN).arm .collect 0

def execColEnable (ag : Agent) (s : State) : Host.Outcome State Fault Refusal :=
  .next { s with chip := s.chip.busWrite ag Reg.COL_CTRL (fun c => c.colEnable true) }

/-- The instant after T at which the next snapshot is due: one PERIOD on, whenever the command for T comes (R493). -/
def Chip.nextSnap (c : Chip) : Chip :=
  let t := ((c.timers.find? (fun e => decide (e.1 = .collect))).map (·.2)).getD c.now
  { c.disarm .collect with
    timers := (.collect, t + c.fld Reg.COL_PERIOD Bit.COL_PERIOD_US * us) :: (c.disarm .collect).timers }

/-- SNAPSHOT: at T0 + k × PERIOD. -/
def Chip.snapTick (c : Chip) : Chip :=
  if c.flag Reg.COL_CTRL Bit.COL_CTRL_EN && c.due .collect then c.nextSnap.snapshot else c

def execSnapshot (s : State) : Host.Outcome State Fault Refusal := .next { s with chip := s.chip.snapTick }

/-- SNAP_NOW is written. -/
def Chip.snapNow (c : Chip) : Chip := if c.flag Reg.COL_CTRL Bit.COL_CTRL_EN then c.snapshot else c

def execSnapNow (ag : Agent) (s : State) : Host.Outcome State Fault Refusal :=
  .next { s with chip := s.chip.busWrite ag Reg.SNAP_NOW Chip.snapNow }

def execDumpRdWrite (ag : Agent) (n : Nat) (s : State) : Host.Outcome State Fault Refusal :=
  .next { s with chip := s.chip.busWrite ag Reg.DUMP_RD (fun c => c.wr Reg.DUMP_RD (BitVec.ofNat 32 n)) }

/-- STAGED_DUMP_MOVE: the oldest staged entry goes to the host ring when a slot there is free. A write that fails skips its
snapshot: the entry is lost and counts as missed (R496). -/
def Chip.stagedMove (c : Chip) : Chip :=
  match c.tel.staged with
  | [] => c
  | d :: ds =>
    if !c.dumpFree || !c.collectorRuns then c
    else
      let c := { c with tel := { c.tel with staged := ds } }
      if c.managerUp then c.dumpWrite d else c.dumpMiss.dumpFail

def execStagedDumpMove (s : State) : Host.Outcome State Fault Refusal := .next { s with chip := s.chip.stagedMove }

/-! ## Soundings (R503) -/

/-- The 32 bytes of a result (Table 19.6). -/
def SndRes.bytes (r : SndRes) : List Nat :=
  leBytes 4 r.t1 ++ r.d.flatMap (leBytes 2) ++ [r.inPort, r.egPort, r.flags] ++ leBytes 2 r.len ++ List.replicate 9 0

def Chip.sndPop (c : Chip) : Chip := { c with tel := { c.tel with sndFifo := c.tel.sndFifo.drop 1 } }

def execSndPop (ag : Agent) (s : State) : Host.Outcome State Fault Refusal :=
  .next { s with chip := s.chip.busWrite ag Reg.SND_POP Chip.sndPop }

/-! ## Counters as they are read (R492, R498) -/

/-- The counter that CNT_SEL names; 0 when it names none. -/
def Chip.cntSelected (c : Chip) : Nat :=
  let k := c.fld Reg.CNT_SEL Bit.CNT_SEL_KIND
  let n := c.fld Reg.CNT_SEL Bit.CNT_SEL_INSTANCE
  let i := c.fld Reg.CNT_SEL Bit.CNT_SEL_INDEX
  let lim := nth [16, 128, 1, 1, 1, 4, 4096] k
  let cnt := nth [64, 16, 32, 64, 16, 16, 8] k
  if n < lim ∧ i < cnt then c.ctr k n i else 0

/-- The counter at an 8-byte word of a slice's counter window page (Table 19.3). -/
def Chip.cntPage (c : Chip) (s w : Nat) : Nat :=
  let open_ := fun (g : Nat) => c.fldBit (Reg.CNT_PERM s) Bit.CNT_PERM_GROUPS g
  let ofPort := fun (f : Nat → Nat) => ((c.portOfVsi (c.slVsi s)).map f).getD 0
  if w < 8 then (if open_ 0 then c.ctr kSlice s w else 0)
  else if w < 24 then (if open_ 1 then ofPort (fun p => c.ctr kPort p (w - 8)) else 0)
  else if w < 28 then (if open_ 2 then ofPort (fun p => c.ctr kStation (portStation p) (4 * portLocal p + (w - 24))) else 0)
  else if 32 ≤ w ∧ w < 96 then (if open_ 3 then ofPort (fun p => c.ctr kStation (portStation p) (w - 32)) else 0)
  else if 96 ≤ w ∧ w < 160 then (if open_ 4 then c.ctr kRelay 0 (w - 96) else 0)
  else 0

end Sys2Proof.Machine
end

