-- ==== Sys2Proof/Machine/Islands.lean ====
section
/-!
DEFINITION. What the resets of Table 15.3 do to the islands (R416 to R423): the registers they put back, the loss of every
island's state, the Keeper reset, the station reset of Table 15.4, and the start of a station (R106, R107, R237, R400, R467).
-/
namespace Sys2Proof.Machine

/-! ## Registers put back -/

/-- The word of a register after a reset that keeps RWS bits (R416). -/
def keptBits (off : Nat) (w : Word) : Word :=
  match regAt off with
  | some (row, ix) => (row.resetWord ix &&& ~~~(BitVec.ofNat 32 row.sticky)) ||| (w &&& BitVec.ofNat 32 row.sticky)
  | none => 0

/-- The selected registers take their reset values, RWS bits apart. -/
def Chip.resetWhere (c : Chip) (sel : Nat → Bool) : Chip :=
  { c with regs := c.regs.filterMap (fun e =>
      if sel e.1 then
        (if keptBits e.1 e.2 = resetWordAt e.1 then none else some (e.1, keptBits e.1 e.2))
      else some e) }

/-- Registers of the Lamp Room and the power-entry controller, and those of the Keeper's Log and the Keeper that count since
power-on. -/
def lampOff (off : Nat) : Bool :=
  decide (0x10000 ≤ off ∧ off < 0x40000) || off == Reg.OP_HOURS || off == Reg.POWER_CYCLES || off == Reg.LAST_RESET ||
    off == Reg.LOG_SEQ

/-- Timers of the Lamp Room and the power-entry controller. -/
def TimerId.ofLamp : TimerId → Bool
  | .crystal => true
  | .ramp => true
  | .retryDelay => true
  | .tripDecay => true
  | _ => false

/-- What fuses and flash hold of the Keeper and of its log. -/
def Kpr.fuses (k : Kpr) : Kpr :=
  { svn := k.svn, revoke := k.revoke, opLl0 := k.opLl0, opLl1 := k.opLl1, opDbg0 := k.opDbg0, opDbg1 := k.opDbg1
    idSeed := k.idSeed }

def Tel.inFlash (t : Tel) : Tel :=
  { made := t.made - t.keepPend.length, fwNext := t.fwNext, fwUsed := t.fwUsed, lastWords := t.lastWords }

/-- Every island but the Lamp Room and the power-entry controller loses its state (Table 15.3, row RESET_N). Pins keep their
levels, the islands' multiplexers select the IRO (R425), accesses that wait at a crossing end (R439), FOG_N is asserted with cause
BOOT, and PERST_N of the downstream sites is driven low. -/
def Chip.islandsOff (c : Chip) : Chip :=
  let c := c.abortHeld (fun _ => true)
  let down := c.allPorts.filter (fun p => !(c.port p).up)
  let drove := c.flag Reg.SAF_STATUS Bit.SAF_STATUS_FOG_N_DRIVE
  let w := c.pwr
  let n : Chip :=
    { regs := (c.resetWhere (fun o => !lampOff o)).regs
      watchUp := c.watchUp, watchTime := c.watchTime
      timers := c.timers.filter (fun t => t.1.ofLamp)
      out := c.out, freeCtr := c.freeCtr
      pci := { prsnt := c.pci.prsnt, cableId := c.pci.cableId, perstIn := c.pci.perstIn }
      saf := { pinOutside := c.saf.pinOutside, pinHigh := c.saf.pinHigh, keeperPull := true, lampPull := true
               standing := c.saf.standing.filter (· == fogThermal) }
      kpr := c.kpr.fuses
      pwr := { standby := w.standby, present := w.present, pgood := w.pgood, resetLow := w.resetLow, ckg := w.ckg
               pweNv := w.pweNv, ovHold := w.ovHold, railLow := w.railLow, hourNs := w.hourNs
               cal := w.cal, inlet := w.inlet, pole1 := w.pole1, pole2 := w.pole2
               lost := allIslands ++ w.lost.filter (· == 89), low := w.low, warnHold := w.warnHold, addrSel := w.addrSel, dyn := w.dyn
               lrStatus := w.lrStatus }
      tel := { c.tel.inFlash with queue := c.tel.queue } }
  let n := if drove then n else n.emit (.pin .fogN false)
  down.foldl (fun n p => n.emit (.perst p true)) n

/-! ## Keeper reset (R423) -/

/-- Registers that a Keeper reset puts back: the KPR block but START_STATUS, STN_RESET, LAST_RESET and FUSE_STATUS, and the
controls of the log. -/
def keeperOff (off : Nat) : Bool :=
  (decide (0x40000 ≤ off ∧ off < 0x80000) && !(off == Reg.START_STATUS || off == Reg.STN_RESET || off == Reg.LAST_RESET ||
    off == Reg.FUSE_STATUS)) ||
  off == Reg.LOG_CTRL || off == Reg.LOG_EVENT || decide (Reg.LOG_RD_SEL ≤ off ∧ off < Reg.OP_HOURS)

def TimerId.ofKeeper : TimerId → Bool
  | .mgmt _ => true
  | .unlock => true
  | .freeze => true
  | .probe .. => true
  | .probeLimit .. => true
  | _ => false

/-- The Keeper resets with a cause of LAST_RESET: its SRAM is cleared, and every other island keeps its state.
FOG_N is asserted until the boot has ended (R376). -/
def Chip.keeperReset (c : Chip) (cause : Nat) : Chip :=
  let c := c.resetWhere keeperOff
  let c := (c.setFld Reg.LAST_RESET Bit.LAST_RESET_CAUSE cause).satInc Reg.LAST_RESET Bit.LAST_RESET_COUNT
  let c := { c with timers := c.timers.filter (fun t => !t.1.ofKeeper) }
  let c := { c with kpr := { c.kpr.fuses with fogRelease := c.kpr.fogRelease } }
  ((c.vsi.hosts.filter (fun h => h.probe.isSome)).foldl Chip.removeHost c).syncFogN

/-! ## The port map of a station (R106, R400, R401, R467) -/

/-- An entry of the port map is well formed by itself (Table 14.6). -/
def PortCfg.ok (e : PortCfg) (p : Nat) : Bool :=
  e.clean && (!e.present ||
    (e.index == p % 8 && decide (1 ≤ e.width ∧ e.width ≤ 4) && e.offset % widthLanes e.width == 0 &&
      decide (e.offset + widthLanes e.width ≤ 16) && decide (e.maxRate ≤ 6) && (e.kaund || !e.facing) &&
      (!e.clkOut || (!e.up && !e.sris)) && bitOf e.vcEn 0))

def PortCfg.lanes (e : PortCfg) : List Nat := (List.range 16).filter (fun i => decide (e.offset ≤ i ∧ i < e.offset + widthLanes e.width))

/-- Two ports of a station may stand together: no shared lane, one clock mode in a quad, one direction at a cable site. -/
def PortCfg.agrees (a b : PortCfg) : Bool :=
  a.lanes.all (fun i => b.lanes.all (fun j =>
    i != j && (i / 4 != j / 4 || a.sris == b.sris) && (i / 8 != j / 8 || a.up == b.up)))

def allAgree : List PortCfg → Bool
  | [] => true
  | a :: l => l.all a.agrees && allAgree l

/-- A LANE_EQ entry keeps its ranges (R401). -/
def LaneCfg.ok (e : LaneCfg) : Bool :=
  e.clean && e.presets.all (fun x => decide (x ≤ 10)) && decide (e.ctle ≤ 15) &&
    e.taps.all (fun x => decide (-63 ≤ x ∧ x ≤ 63))

/-- The eight entries of a station. -/
def LightList.station (l : LightList) (s : Nat) : List PortCfg := (List.range 8).map (fun k => l.ports.getD (8 * s + k) {})

/-- The station's map passes R106, R400, R401 and R467. -/
def LightList.stationOk (l : LightList) (s : Nat) : Bool :=
  let es := l.station s
  let live := es.filter (·.present)
  es.zipIdx.all (fun e => e.1.ok e.2) && allAgree live &&
    live.all (fun e => e.lanes.all (fun i => (l.lanes.getD (16 * s + i) {}).ok))

/-- A map of the module in which a station's entries are the given ones. -/
def mapOf (map : List PortCfg) (s : Nat) (es : List PortCfg) : List PortCfg :=
  let m := (List.range 128).map (fun p => map.getD p {})
  m.take (8 * s) ++ es ++ m.drop (8 * s + 8)

/-- The station reads the given entries. -/
def Chip.setMap (c : Chip) (s : Nat) (es : List PortCfg) : Chip := { c with map := mapOf c.map s es }

/-! ## VSI numbers (R237, R238, R421) -/

/-- A number that no VSI owns and that is no proxy. -/
def Chip.vsiFree (c : Chip) (v : Nat) : Bool :=
  !c.flag (Reg.VSI_ID v) Bit.VSI_ID_OWNED && !c.flag (Reg.VSI_ID v) Bit.VSI_ID_PROXY

/-- An upstream port takes its listed number, or the lowest free number that no other upstream port lists. -/
def Chip.takeVsi (c : Chip) (l : LightList) (p : Nat) : Chip :=
  let e := c.port p
  let listed := fun (v : Nat) => l.ports.zipIdx.any (fun x => x.1.present && x.1.up && x.1.vsiSet && x.1.vsi == v && x.2 != p)
  let want := if e.vsiSet then (if c.vsiFree e.vsi then some e.vsi else none)
    else (List.range 64).find? (fun v => c.vsiFree v && !listed v)
  if (c.vsiOfPort p).isSome then c
  else match want with
    | some v => (c.setFld (Reg.VSI_ID v) Bit.VSI_ID_PORT p).setBit (Reg.VSI_ID v) Bit.VSI_ID_OWNED
    | none => c.log .noVsi [p]

/-- Upstream ports take their numbers: those with listed numbers first, in rising order of the ports (R237). -/
def Chip.takeVsis (c : Chip) (l : LightList) (ups : List Nat) : Chip :=
  let c := (ups.filter (fun p => (c.port p).vsiSet)).foldl (fun c p => c.takeVsi l p) c
  (ups.filter (fun p => !(c.port p).vsiSet)).foldl (fun c p => c.takeVsi l p) c

/-- A VSI loses its owner: its bindings are removed with the steps of R255, its slices end in STOPPED. -/
def Chip.vsiOrphan (c : Chip) (v : Nat) : Chip :=
  let c := c.relayVsiReset v
  let c := (c.vsi.ports.filter (fun b => b.1 == v)).foldl (fun c b => c.unbindPort v b.2.1 b.2.2) c
  let c := c.quiesceAll (c.vsi.hosts.filter (fun h => h.v == v))
  let c := { c with vsi := { c.vsi with loaded := c.vsi.loaded.erase v } }
  (c.clrFld (Reg.VSI_ID v) Bit.VSI_ID_OWNED).clrFld (Reg.VSI_ID v) Bit.VSI_ID_PORT

/-- An entry keeps what its VSI depends on. -/
def PortCfg.sameOwner (a b : PortCfg) : Bool := a.present == b.present && a.up == b.up && a.vsi == b.vsi && a.vsiSet == b.vsiSet

/-! ## The start of a station -/

/-- Quotas, credits, VC buffers and identity of a port at the start (R63, Table 3.2, R153). -/
def Chip.portDefaults (c : Chip) (p : Nat) : Chip :=
  let e := c.port p
  let w := widthLanes e.width
  let put := fun (c : Chip) (off v : Nat) => c.writeWin off (BitVec.ofNat 32 v)
  let c := put c (Reg.PORT_QUOTA (portStation p) (portLocal p)) (57344 * w / 16)
  let c := [(Reg.POOL_PH p, 2048), (Reg.POOL_PD p, 47104), (Reg.POOL_NPH p, 1024), (Reg.POOL_NPD p, 4096),
    (Reg.POOL_CPLH p, 4080), (Reg.POOL_CPLD p, 65520), (Reg.ORT_LIMIT p, 2048)].foldl (fun c x => put c x.1 (x.2 * w / 16)) c
  let c := (c.setFld (Reg.PRT_ID p) Bit.PRT_ID_DIR (b2n e.up)).setFld (Reg.PRT_ID p) Bit.PRT_ID_CFG_WIDTH e.width
  if e.kaund then
    let n := (bitsSet e.vcEn 8).length
    let c := (List.range 8).foldl (fun c v =>
      let c := put c (Reg.VC_BUF p v) (if bitOf e.vcEn v then 131024 * w / (16 * n) else 0)
      put c (Reg.VC_SUBQ p v) (16384 * w / 16 / 16 + 32768 * w / 16 / 16 * 65536)) c
    (c.setFld (Reg.SPAN_CTRL p) Bit.SPAN_CTRL_VC_EN e.vcEn).setFld (Reg.SPAN_STATUS p) Bit.SPAN_STATUS_FACING (b2n e.facing)
  else c

/-- The lane quads of a port start: their PLLs lock, and their lanes take the Light List's values (R104, R110). -/
def Chip.quadDefaults (c : Chip) (l : LightList) (p : Nat) : Chip :=
  let first := c.firstLane p
  let c := (c.quadsOf p).foldl (fun c q =>
    let c := { c with pwr := { c.pwr with gated := c.pwr.gated.erase q, gateReq := c.pwr.gateReq.erase q } }
    (c.setBit (Reg.LQ_STATUS q) Bit.LQ_STATUS_PLL_LOCK).setFld (Reg.LQ_STATUS q) Bit.LQ_STATUS_SRIS (b2n (c.port p).sris)) c
  (List.range (widthLanes (c.port p).width)).foldl (fun c i =>
    let n := first + i
    let e := l.lanes.getD n {}
    let r := Reg.LANE_EQ (n / 4) (n % 4)
    (c.setFld r Bit.LANE_EQ_TX_PRESET (nth e.presets 0)).setFld r Bit.LANE_EQ_CTLE e.ctle) c

/-- The cable of a site that a port of the station claims is read as the station starts (R472). -/
def Chip.readSite (c : Chip) (site : Nat) : Chip :=
  match c.leadOf site with
  | some _ => c.readCable site (SMap.get c.pci.cableId site none)
  | none => c

/-- A station leaves reset and reads its port map (step 5 and 6 of Table 15.4). One that breaks R106 stays in electrical idle,
with START_STATUS at 0. At the start of the module the VSI numbers have been given before (R237, R238). -/
def Chip.startStation (c : Chip) (l : LightList) (s : Nat) : Chip :=
  let first := c.pwr.starting.contains s
  let c := c.putBit Reg.STN_RESET Bit.STN_RESET_BUSY s false
  let c := { c with pwr := { c.pwr with stnWait := c.pwr.stnWait.erase s, starting := c.pwr.starting.erase s } }
  let c := c.disarm (.stnReset s)
  let c := { c with sw := { c.sw with lastSrc := c.sw.lastSrc.erase s } }
  if !l.stationOk s then (c.setMap s (List.replicate 8 {})).log .stationCfgErr [s]
  else
    let es := l.station s
    let gone := (List.range 8).filterMap (fun k =>
      if (c.goodMap.getD (8 * s + k) {}).sameOwner (es.getD k {}) then none else c.vsiOfPort (8 * s + k))
    let c := (gone.foldl Chip.vsiOrphan c).setMap s es
    let c := { c with goodMap := mapOf c.goodMap s es }
    let ps := c.portsOfStation s
    let c := ps.foldl (fun c p => (c.portDefaults p).quadDefaults l p) c
    let c := c.setFld (Reg.STN_ID s) Bit.STN_ID_NPORTS ps.length
    let c := if first then c else c.takeVsis l (ps.filter (fun p => (c.port p).up))
    let c := c.putBit Reg.START_STATUS Bit.START_STATUS_STATION s true
    let c := { c with saf := { c.saf with secDev := c.saf.secDev.filter (fun x => x.isl != s) } }
    let c := { c with pci := { c.pci with perstHeld := c.pci.perstHeld.filter (fun p => !ps.contains p) } }
    let c := (ps.filter (fun p => !(c.port p).up)).foldl (fun c p => c.emit (.perst p ((c.sitesOf p).any c.sitePerst))) c
    let c := [2 * s, 2 * s + 1].foldl Chip.readSite c
    let vs := (ps.filterMap c.vsiOfPort).filter (fun v => !c.vsi.loaded.contains v)
    let c := vs.foldl Chip.loadBindings c
    ps.foldl (fun c p => if (c.port p).up then c else c.syncPresence p) c

/-! ## Station reset (R418 to R420) -/

/-- Registers of a station, of its ports and of its lane quads. -/
def stationOff (s off : Nat) : Bool :=
  decide (0x200000 + s * 0x10000 ≤ off ∧ off < 0x200000 + (s + 1) * 0x10000) ||
  decide (0x400000 + s * 0x20000 ≤ off ∧ off < 0x400000 + (s + 1) * 0x20000) ||
  (List.range 4).any (fun k => off == Reg.LQ_STATUS (4 * s + k) || off == Reg.LQ_EVENT (4 * s + k) ||
    decide (Reg.LANE_EQ (4 * s + k) 0 ≤ off ∧ off ≤ Reg.LANE_EQ (4 * s + k) 3))

/-- Quotas and credits of a station in force: everything of its shadows but the multicast masks, which are a table. -/
def stationTab (s off : Nat) : Bool :=
  stationOff s off && !(decide (Reg.MC_PORT_MASK s 0 ≤ off ∧ off < 0x200000 + (s + 1) * 0x10000))

/-- Steps 1 and 2: the station stops, R92 answers at each of its ports, what it had received goes no further, and the vBridges
bound to its ports report presence 0 (R258). What a replay had staged is gone, and its copies stay for the next (R232). -/
def Chip.stationStop (c : Chip) (s : Nat) : Chip :=
  let ps := c.portsOfStation s
  let c := (c.putBit Reg.STN_RESET Bit.STN_RESET_BUSY s true).putBit Reg.START_STATUS Bit.START_STATUS_STATION s false
  let c := c.countFrames s
  let c := ps.foldl Chip.answerPort c
  let c := ps.foldl Chip.fogIntake c
  let mine := c.sw.pkts.filter (fun k => k.st == s && decide (8 ≤ k.src) && !(c.sw.obq.any (fun e => e.uid == k.uid && e.full)))
  let c := mine.foldl (fun c k => if k.src = 9 then c.purgePkt k.uid else (c.purgePkt k.uid).relayLost k) c
  let toward := c.sw.pkts.filter (fun k => k.mc.isNone && decide (k.egPort < 128) && portStation k.egPort == s &&
    decide (0 < k.staged) && !(c.sw.obq.any (fun e => e.uid == k.uid && e.full)))
  let c := toward.foldl Chip.dropToward c
  ((ps.filter (fun p => !(c.port p).up)).flatMap c.boundTo).foldl (fun c b => c.hideVbr b.1 b.2) c

/-- Step 3: PERST_N falls at the downstream sites, the links drop, and the VSIs of the upstream ports enter reset. -/
def Chip.stationLinks (c : Chip) (s : Nat) : Chip :=
  (c.portsOfStation s).foldl (fun c p =>
    let c := if (c.port p).up then c
      else { c with pci := { c.pci with perstHeld := p :: c.pci.perstHeld.erase p } }.emit (.perst p true)
    let c := if c.isSpan p then (c.fullLinkReset p).setSpanState p spDown else c.linkDown p true
    match c.vsiOfPort p with
    | some v => c.vsiReset v
    | none => c) c

/-- Step 4: an entry whose answer still waited for a completion frame is answered; the station's memories are cleared and its
registers take their reset values; port Fog of its ports ends (R357), and its gate opens (Table 16.3). Quarantine and counters
stay (R420). -/
def Chip.stationClear (c : Chip) (s : Nat) : Chip :=
  let ps := c.portsOfStation s
  let c := (c.pci.ort.filter (fun e => portStation e.port == s)).foldl (fun c e => c.answerEntry e (e.ansDue.getD stCA)) c
  let c := ps.foldl Chip.endPortFog c
  let c := ps.foldl Chip.resetSched c
  let here := fun (p : Nat) => portStation p == s
  let c := { c with sw := { c.sw with
    rx := c.sw.rx.filter (fun r => !here r.port)
    announced := c.sw.announced.filter (fun q => q.st != s || q.cell.segs.any (fun g => (c.pkt g.uid).any Pkt.formed))
    voq := c.sw.voq.filter (fun q => q.st != s || q.cell.segs.any (fun g => (c.pkt g.uid).any Pkt.formed))
    matches_ := c.sw.matches_.filter (fun m => m.out != s)
    transit := c.sw.transit.filter (fun t => t.out != s)
    lastSrc := c.sw.lastSrc.erase s
    ingest := c.sw.ingest.erase s
    obCells := c.sw.obCells.filter (fun x => x.st != s)
    obq := c.sw.obq.filter (fun e => !here e.port)
    npWait := c.sw.npWait.filter (fun w => !here w.1)
    txCredit := c.sw.txCredit.filter (fun e => !here e.1) } }
  let c := { c with pci := { c.pci with
    ort := c.pci.ort.filter (fun e => !here e.port)
    adv := c.pci.adv.filter (fun e => !here e.1)
    ridInForce := c.pci.ridInForce.filter (fun e => !here e.1)
    ackWait := c.pci.ackWait.filter (fun a => !here a.1)
    phyUp := c.pci.phyUp.filter (fun p => !here p)
    joint := c.pci.joint.filter (fun j => !here j.1)
    jointLeft := c.pci.jointLeft.filter (fun p => !here p) } }
  let c := { c with knd := { c.knd with spans := c.knd.spans.filter (fun x => !here x.port) } }
  let c := { c with
    tabA := c.tabA.filter (fun e => !stationTab s e.1)
    tabB := c.tabB.filter (fun e => !stationTab s e.1)
    tabRef := c.tabRef.filter (fun e => !stationTab s e.1) }
  let c := (c.sw.pkts.map Pkt.uid).foldl Chip.sweepPkt c
  (c.putBit Reg.GATE_STATUS Bit.GATE_STATUS_STATION s false).resetWhere (stationOff s)

/-- A station reset begins (R417, R418); its steps 5 and 6 are due 1.002 ms later. -/
def Chip.stationReset (c : Chip) (s : Nat) : Chip :=
  if 16 ≤ s ∨ c.fldBit Reg.STN_RESET Bit.STN_RESET_BUSY s then c
  else (((c.stationStop s).stationLinks s).stationClear s).arm (.stnReset s) (1002 * us)

/-- STN_RESET is written: each bit of REQ starts a reset of its station. -/
def Chip.stnResetWrite (c : Chip) (mask : Nat) : Chip := (bitsSet mask 16).foldl Chip.stationReset c

def execStnReset (ag : Agent) (mask : Nat) (s : State) : Host.Outcome State Fault Refusal :=
  .next { s with chip := s.chip.busWrite ag Reg.STN_RESET (fun c => c.stnResetWrite mask) }

/-- STATION_STARTED: a station that step 9 of Table 15.1 starts, or that has reached step 5 of Table 15.4, reads its port map;
while the Keeper is in reset a station reset waits there (R417), and while the station is left on the IRO it stays in reset
(R434). -/
def Chip.stationStarted (c : Chip) (s : Nat) : Chip :=
  let reset := c.fldBit Reg.STN_RESET Bit.STN_RESET_BUSY s && c.due (.stnReset s)
  match c.ll with
  | none => c
  | some l =>
    if !c.clocked (64 + s) then c
    else if c.keeperRuns then (if reset || c.pwr.starting.contains s then c.startStation l s else c)
    else if reset then
      { c with pwr := { c.pwr with stnWait := s :: c.pwr.stnWait.erase s } }.disarm (.stnReset s)
    else c

/-- STATION_RESET_RESUME: the Keeper has reached step 7 of its boot, and every station reset that waits goes on. -/
def Chip.stationResume (c : Chip) : Chip :=
  match c.ll with
  | some l =>
    if c.keeperRuns then (c.pwr.stnWait.filter (fun s => c.clocked (64 + s))).foldl (fun c s => c.startStation l s) c else c
  | none => c

end Sys2Proof.Machine
end

