-- ==== Sys2Proof/Machine/PowerEntry.lean ====
section
/-!
DEFINITION. Power entry (chapter 17) and the beginning and end of power (R408, R449): feeds, the gate ramp, trips, retries
and latch-off, the thermal model of the hot-swap FET, the settings, early warning.
-/
namespace Sys2Proof.Machine

/-! ## Sources of the islands' clocks (Table 16.1) and the limits of a restore -/

/-- The Lamp Room's number among the islands of GATE_LOG. -/
def islLamp : Nat := 89

/-- The source of an island's operating clock runs: the crystal for the LPDDR6 and Beacon PLLs, the CKG for the others
(Table 16.1). -/
def Chip.sourceRuns (c : Chip) (i : Nat) : Bool :=
  if 83 ≤ i ∧ i ≤ 87 then c.flag Reg.CLK_STATUS Bit.CLK_STATUS_XTAL_OK else c.pwr.ckg

/-- The islands on the IRO take their operating clock as its source runs (R433, R434), those that are in reset as they leave it. -/
def Chip.reclock (c : Chip) : Chip :=
  if c.pwr.resetLow || !c.pwr.pgood then c
  else { c with pwr := { c.pwr with lost := c.pwr.lost.filter (fun i => i == islLamp || !c.sourceRuns i) } }

/-- The limits of Table 16.7. -/
def restoreLimit (n : Nat) : Nat := nth [0, 2 * ms, 500 * us, 2 * ms, 5 * ms] n

/-! ## Settings in force (R405, Tables 17.13 to 17.15) -/

/-- The setting at an offset, as the controller's non-volatile storage holds it; the factory value when nothing was stored. -/
def Chip.pwe (c : Chip) (off : Nat) : Word := SMap.get c.pwr.pweNv off (resetWordAt off)
def Chip.pweF (c : Chip) (off : Nat) (f : Fld) : Nat := getF (c.pwe off) f

/-- The registers that PWE_APPLY stores. -/
def pweOffs : List Nat :=
  [Reg.RETRY_CFG, Reg.WARN_THR, Reg.THERM_CFG] ++ (List.range 8).flatMap (fun i => [Reg.CURVE_T i, Reg.CURVE_I i])

/-- The limits of R405 and of Tables 17.13 to 17.15, on the words written. -/
def curveOk (t i : Nat → Nat) : Bool :=
  (List.range 7).all (fun k => decide (t k < t (k + 1) ∧ i (k + 1) < i k)) && (List.range 8).all (fun k => decide (i k ≤ 40000))

def Chip.applyOk (c : Chip) : Bool :=
  let d := c.fld Reg.RETRY_CFG Bit.RETRY_CFG_DELAY
  let a := c.fld Reg.WARN_THR Bit.WARN_THR_A
  let b := c.fld Reg.WARN_THR Bit.WARN_THR_B
  let trip := c.fld Reg.THERM_CFG Bit.THERM_CFG_T_TRIP
  let retry := c.fld Reg.THERM_CFG Bit.THERM_CFG_T_RETRY
  curveOk (fun k => (c.rd (Reg.CURVE_T k)).toNat) (fun k => c.fld (Reg.CURVE_I k) Bit.CURVE_I_MA) &&
    decide (1 ≤ d ∧ d ≤ 600 ∧ 400 ≤ a ∧ a ≤ 540 ∧ 400 ≤ b ∧ b ≤ 540 ∧ 100 ≤ trip ∧ trip ≤ 175 ∧ 40 ≤ retry ∧
      retry + 20 ≤ trip)

/-- PWE_APPLY.GO: the settings written are checked and stored, or APPLY_REJECT is set. -/
def Chip.pweApply (c : Chip) (v : Nat) : Chip :=
  if v % 256 ≠ 0xA5 then c
  else if c.applyOk then
    { c with pwr := { c.pwr with pweNv := pweOffs.foldl (fun m o => SMap.set m o (c.rd o) (resetWordAt o)) c.pwr.pweNv } }
  else c.setBit Reg.PWE_EVENT Bit.PWE_EVENT_APPLY_REJECT

def execPweApply (ag : Agent) (v : Nat) (s : State) : Host.Outcome State Fault Refusal :=
  .next { s with chip := s.chip.busWrite ag Reg.PWE_APPLY (fun c => c.pweApply v) }

/-! ## State of the controller -/

def Chip.pweOn (c : Chip) : Bool := c.flag Reg.PWE_STATUS Bit.PWE_STATUS_FET_ON
def Chip.latched (c : Chip) : Bool := c.flag Reg.PWE_STATUS Bit.PWE_STATUS_LATCHED
def Chip.tripCount (c : Chip) : Nat := c.fld Reg.PWE_STATUS Bit.PWE_STATUS_TRIP_COUNT
def Chip.retryNs (c : Chip) : Nat := c.pweF Reg.RETRY_CFG Bit.RETRY_CFG_DELAY * 100 * ms

/-- A temperature of 0.01 °C in the 0.1 °C of FET_TEMP, two's complement. -/
def tenths (t : Int) : Nat := (t / 10 % 65536).toNat

/-- T_model in 0.01 °C. -/
def Chip.tModel (c : Chip) : Int := c.pwr.inlet + (c.pwr.pole1 + c.pwr.pole2) / 10000

/-- The diode reading in 0.01 °C, as FET_TEMP holds it. -/
def Chip.tDiode (c : Chip) : Int :=
  let d := c.fld Reg.FET_TEMP Bit.FET_TEMP_DIODE
  (if d < 32768 then (d : Int) else (d : Int) - 65536) * 10

/-- The governing temperature (R456). -/
def Chip.tGov (c : Chip) : Int := max c.tDiode c.tModel

def Chip.showTemp (c : Chip) : Chip := c.setFld Reg.FET_TEMP Bit.FET_TEMP_MODEL (tenths c.tModel)

/-- The model's state is set to a temperature (R456, R459). How the two poles share the difference is open: a free value. -/
def Chip.setModel (c : Chip) (t : Int) : Chip :=
  let d := (t - c.tModel) * 10000
  if d = 0 then c.showTemp
  else
    let a : Int := (c.freeVal : Int) % (d.natAbs + 1) * d.sign
    ({ c with pwr := { c.pwr with pole1 := c.pwr.pole1 + a, pole2 := c.pwr.pole2 + (d - a) } }).drew.showTemp

/-- The model's state is raised to a temperature (R456). -/
def Chip.raiseModel (c : Chip) (t : Int) : Chip := if t ≤ c.tModel then c.showTemp else c.setModel t

/-! ## Ramp (R451 to R453) -/

/-- The conditions of R451, the 0.7 ms apart. -/
def Chip.mayRamp (c : Chip) : Bool :=
  c.pwr.standby && !c.pwr.present.isEmpty && !c.pweOn && !c.latched && !c.flag Reg.PWE_STATUS Bit.PWE_STATUS_RETRY_WAIT &&
    !c.pwr.ovHold && !c.pwr.railLow && !c.flag Reg.PWE_STATUS Bit.PWE_STATUS_INLET_HOLD &&
    decide (c.tGov ≤ (c.pweF Reg.THERM_CFG Bit.THERM_CFG_T_RETRY * 100 : Nat))

/-- The gate ramp starts. -/
def Chip.rampStart (c : Chip) : Chip :=
  if c.mayRamp then
    let c := c.raiseModel c.tGov
    let c := (c.setBit Reg.PWE_STATUS Bit.PWE_STATUS_FET_ON).setBit Reg.PWE_STATUS Bit.PWE_STATUS_RAMPING
    (c.emit (.pin .hotSwapFet true)).arm .ramp (20 * ms)
  else c

def execRampStart (s : State) : Host.Outcome State Fault Refusal := .next { s with chip := s.chip.rampStart }

/-- The gate is fully enhanced: power-good goes to the regulators, and PGOOD rises. -/
def Chip.gateFull (c : Chip) : Chip :=
  if c.flag Reg.PWE_STATUS Bit.PWE_STATUS_RAMPING then
    let c := (c.clrFld Reg.PWE_STATUS Bit.PWE_STATUS_RAMPING).setBit Reg.PWE_STATUS Bit.PWE_STATUS_GATE_FULL
    let c := ((c.disarm .ramp).arm .tripDecay (60 * sec)).emit (.pin .regulators true)
    let c := if c.mor.bootHold && !c.armed .bootHold then c.arm .bootHold (250 * ms) else c
    ({ c with pwr := { c.pwr with pgood := true } }.reclock).emit (.pin .pgood true)
  else c

def execGateFullyEnhanced (s : State) : Host.Outcome State Fault Refusal := .next { s with chip := s.chip.gateFull }

/-! ## Trips (R454, R458, R482) -/

/-- The hot-swap FET opens: power-good falls, and the islands behind the regulators lose their state. -/
def Chip.fetOpen (c : Chip) : Chip :=
  let c := (c.clrFld Reg.PWE_STATUS Bit.PWE_STATUS_FET_ON).clrFld Reg.PWE_STATUS Bit.PWE_STATUS_RAMPING
  let c := (((c.clrFld Reg.PWE_STATUS Bit.PWE_STATUS_GATE_FULL).disarm .ramp).disarm .tripDecay).emit (.pin .hotSwapFet false)
  if c.pwr.pgood then
    let c := { c with pwr := { c.pwr with pgood := false } }.islandsOff
    (c.emit (.pin .regulators false)).emit (.pin .pgood false)
  else c

/-- LAST_TRIP and the event of a trip; the FET opens. `ma` is the rail current in mA. -/
def Chip.tripLoad (c : Chip) (cause point ma : Nat) : Chip :=
  let t := min (c.tGov / 100).toNat 1023
  let c := (c.wr Reg.LAST_TRIP (BitVec.ofNat 32
    (cause + point * 8 + min (ma / 100) 1023 * 256 + t * 262144))).setBit Reg.PWE_EVENT Bit.PWE_EVENT_TRIP
  c.fetOpen.log .trip [cause] [point, ma, t]

/-- The controller latches off. -/
def Chip.latchOff (c : Chip) (cause : Nat) : Chip :=
  let c := (c.setBit Reg.PWE_STATUS Bit.PWE_STATUS_LATCHED).setFld Reg.PWE_STATUS Bit.PWE_STATUS_LATCH_CAUSE cause
  (c.log .latchOff [cause]).raiseIbi 1 [128 + cause]

/-- The rail current in mA as last measured: the sum of FEED_A.CURR and FEED_B.CURR. -/
def Chip.railMa (c : Chip) : Nat := (c.fld Reg.FEED_A Bit.FEED_A_CURR + c.fld Reg.FEED_B Bit.FEED_B_CURR) * 10

/-- A counted trip: TRIP_COUNT rises, and a retry delay starts or the controller latches off. -/
def Chip.pweTrip (c : Chip) (cause point ma : Nat) : Chip :=
  let c := (c.tripLoad cause point ma).satInc Reg.PWE_STATUS Bit.PWE_STATUS_TRIP_COUNT
  if c.tripCount ≤ c.pweF Reg.RETRY_CFG Bit.RETRY_CFG_COUNT then
    ((c.setBit Reg.PWE_STATUS Bit.PWE_STATUS_RETRY_WAIT).arm .retryDelay c.retryNs).raiseIbi 1 [cause]
  else c.latchOff cause

def tripCurve : Nat := 1
def tripShort : Nat := 2
def tripSoa : Nat := 3
def tripRampTmo : Nat := 4
def tripFetCmp : Nat := 5
def tripDoubt : Nat := 6
def tripOv : Nat := 7

def Chip.rampTimeout (c : Chip) : Chip :=
  if c.due .ramp && c.flag Reg.PWE_STATUS Bit.PWE_STATUS_RAMPING then c.pweTrip tripRampTmo 0 c.railMa else c

def execRampTimeout (s : State) : Host.Outcome State Fault Refusal := .next { s with chip := s.chip.rampTimeout }

/-- CURVE_TRIP: the rail current has been `ma` mA, above I_i, for `t` µs. -/
def Chip.curveTrip (c : Chip) (point ma t : Nat) : Chip :=
  if point < 8 ∧ c.flag Reg.PWE_STATUS Bit.PWE_STATUS_GATE_FULL ∧ c.pweF (Reg.CURVE_I point) Bit.CURVE_I_MA < ma ∧
      c.pweF (Reg.CURVE_T point) Bit.CURVE_T_US ≤ t then c.pweTrip tripCurve point ma
  else c

def execCurveTrip (point ma t : Nat) (s : State) : Host.Outcome State Fault Refusal :=
  .next { s with chip := s.chip.curveTrip point ma t }

/-- SHORT_TRIP: the rail current is above 40 A. -/
def Chip.shortTrip (c : Chip) (ma : Nat) : Chip := if 40000 < ma ∧ c.pweOn then c.pweTrip tripShort 0 ma else c

def execShortTrip (ma : Nat) (s : State) : Host.Outcome State Fault Refusal := .next { s with chip := s.chip.shortTrip ma }

/-! ## The thermal model (R456, R457) -/

/-- A measured value with the gain and offset of SENSOR_CAL for its quantity. -/
def Chip.calibrated (c : Chip) (q : Nat) (x : Int) : Int :=
  match c.pwr.cal.find? (fun e => e.1 == q) with
  | some e => x * e.2.1 / 16384 + e.2.2
  | none => x

/-- Two-decimal units of FEED_A and FEED_B from mV and mA. -/
def hundredths (x : Int) : Nat := min (x / 10).toNat 65535

/-- What the feeds' voltages in mV tell: a feed above 38 V is present (R450); one below its warning threshold counts as low
(R462, R463); and the higher feed, which carries the rail, permits a ramp from 38 V rising to 35 V falling (Table 17.1). -/
def Chip.feedsAt (c : Chip) (va vb : Int) : Chip :=
  let w := c.pwr
  let feed := fun (f : Nat) (v : Int) (l : List Nat) => if 38000 < v then f :: l.erase f else l
  let present := feed 1 vb (feed 0 va w.present)
  let thr := fun (f : Fld) => ((c.pweF Reg.WARN_THR f * 100 : Nat) : Int)
  let low := (if va < thr Bit.WARN_THR_A then [0] else []) ++ (if vb < thr Bit.WARN_THR_B then [1] else [])
  let rail := max va vb
  { c with pwr := { w with present, low, railLow := if 38000 < rail then false else if rail < 35000 then true else w.railLow } }

/-- Feeds, diode and inlet as measured. -/
def Chip.takeMeas (c : Chip) (m : PweMeas) : Chip :=
  let c := c.feedsAt (c.calibrated 1 m.va) (c.calibrated 2 m.vb)
  let feed := fun (c : Chip) (off : Nat) (v i : Int) => c.wr off (BitVec.ofNat 32 (hundredths v + hundredths i * 65536))
  let c := feed c Reg.FEED_A (c.calibrated 1 m.va) (c.calibrated 3 m.ca)
  let c := feed c Reg.FEED_B (c.calibrated 2 m.vb) (c.calibrated 4 m.cb)
  let c := c.setFld Reg.FET_TEMP Bit.FET_TEMP_DIODE (tenths (c.calibrated 5 m.diode))
  { c with pwr := { c.pwr with inlet := c.calibrated 6 m.inlet } }

/-- One period of 10 µs: each pole moves toward its resistance times the power by 1 − e^(−10 µs / τ). -/
def Chip.modelStep (c : Chip) (m : PweMeas) : Chip :=
  let p : Int := (m.vds : Int) * m.ids
  let t1 := p * 4 / 100
  let t2 := p * 20 / 100
  let w := c.pwr
  { c with pwr := { w with pole1 := w.pole1 + (t1 - w.pole1) * 19801 / 1000000
                           pole2 := w.pole2 + (t2 - w.pole2) * 199980 / 1000000000 } }.showTemp

/-- SOA_MODEL_UPDATE: the FET opens when the governing temperature has reached T_TRIP. -/
def Chip.soaUpdate (c : Chip) (m : PweMeas) : Chip :=
  if !c.pwr.standby then c
  else
    let c := (c.takeMeas m).modelStep m
    if c.pweOn && decide ((c.pweF Reg.THERM_CFG Bit.THERM_CFG_T_TRIP * 100 : Nat) ≤ c.tGov) then c.pweTrip tripSoa 0 m.ids else c

def execSoaModelUpdate (m : PweMeas) (s : State) : Host.Outcome State Fault Refusal :=
  .next { s with chip := s.chip.soaUpdate m }

/-! ## Overvoltage (R454) -/

/-- OV_TRIP: the rail has been above 63 V for 10 µs. Not counted; no ramp until the rail has recovered. -/
def Chip.ovTrip (c : Chip) (mv ma : Nat) : Chip :=
  if c.pwr.standby ∧ 63000 < mv then
    let c := c.setBit Reg.PWE_EVENT Bit.PWE_EVENT_OV
    let c := { c with pwr := { c.pwr with ovHold := true } }
    if c.pweOn then (c.tripLoad tripOv 0 ma).raiseIbi 1 [tripOv] else c
  else c

/-- A rail beyond the absolute maximum rating of Table 21.1, for which R521 assures nothing, stops the model. -/
def execOvTrip (mv ma : Nat) (s : State) : Host.Outcome State Fault Refusal :=
  if 75000 < mv then .fault .beyondAbsoluteMaximum else .next { s with chip := s.chip.ovTrip mv ma }

/-- OV_RECOVER: the rail has been below 61 V for 100 ms. -/
def Chip.ovRecover (c : Chip) : Chip := { c with pwr := { c.pwr with ovHold := false } }

def execOvRecover (s : State) : Host.Outcome State Fault Refusal := .next { s with chip := s.chip.ovRecover }

/-! ## Retries (R458 to R461) -/

def Chip.retryExpiry (c : Chip) : Chip :=
  if c.due .retryDelay then
    (((c.clrFld Reg.PWE_STATUS Bit.PWE_STATUS_RETRY_WAIT).disarm .retryDelay).log .retry [c.tripCount]).rampStart
  else c

def execRetryDelayExpiry (s : State) : Host.Outcome State Fault Refusal := .next { s with chip := s.chip.retryExpiry }

def Chip.tripDecay (c : Chip) : Chip :=
  if c.due .tripDecay && c.flag Reg.PWE_STATUS Bit.PWE_STATUS_GATE_FULL then
    (c.clrFld Reg.PWE_STATUS Bit.PWE_STATUS_TRIP_COUNT).disarm .tripDecay
  else c

def execTripCountDecay (s : State) : Host.Outcome State Fault Refusal := .next { s with chip := s.chip.tripDecay }

/-- PWE_LATCH.CLEAR: 0x5A ends the latch, the count and any retry delay; then the controller ramps (R460). -/
def Chip.latchClear (c : Chip) (v : Nat) : Chip :=
  if v % 256 = 0x5A then
    let c := (c.clrFld Reg.PWE_STATUS Bit.PWE_STATUS_TRIP_COUNT).clrFld Reg.PWE_STATUS Bit.PWE_STATUS_LATCHED
    let c := (c.clrFld Reg.PWE_STATUS Bit.PWE_STATUS_LATCH_CAUSE).clrFld Reg.PWE_STATUS Bit.PWE_STATUS_RETRY_WAIT
    (c.disarm .retryDelay).rampStart
  else c

def execPweLatchClear (ag : Agent) (v : Nat) (s : State) : Host.Outcome State Fault Refusal :=
  .next { s with chip := s.chip.busWrite ag Reg.PWE_LATCH (fun c => c.latchClear v) }

/-! ## Early warning (R450, R462, R463, R388) -/

/-- Feeds: 0 A, 1 B. -/
def armedFld (f : Nat) : Fld := if f = 0 then Bit.PWE_STATUS_ARMED_A else Bit.PWE_STATUS_ARMED_B
def Chip.armed_ (c : Chip) (f : Nat) : Bool := c.flag Reg.PWE_STATUS (armedFld f)

/-- FEED_WARN_N falls, unless it is low already. -/
def Chip.feedWarn (c : Chip) : Chip :=
  if c.flag Reg.PWE_STATUS Bit.PWE_STATUS_WARN then c
  else (c.setBit Reg.PWE_STATUS Bit.PWE_STATUS_WARN).emit (.pin .feedWarnN false)

/-- FEED_WARN_N is low. -/
def Chip.warned (c : Chip) : Bool := c.flag Reg.PWE_STATUS Bit.PWE_STATUS_WARN

/-- FEED_WARN_N falls during an update: the update returns to IDLE, and the Keeper writes the Keep area (R388). -/
def State.warnUpdate (s : State) (trigger : Nat) : State :=
  let c := s.chip
  if c.kStage 0 = stIdle ∧ c.kStage 1 = stIdle then s
  else ({ s with chip := (c.setKStage 0 stIdle).setKStage 1 stIdle } : State).keepWrite trigger

/-- What a Keep write is for, in the header of its final words. -/
def keepWarn : Nat := 1
def keepFeedLoss : Nat := 2
def keepDoubt : Nat := 3
def keepMate : Nat := 4

/-- A warning: what an update does as FEED_WARN_N falls; where it was low already (`was`), nothing. -/
def State.warnFalls (s : State) (was : Bool) : State := if was then s else s.warnUpdate keepWarn

/-- A reverse-current event on a feed. -/
def Chip.reverse (c : Chip) (f : Nat) : Chip :=
  let c := c.setBit Reg.PWE_EVENT (if f = 0 then Bit.PWE_EVENT_REV_A else Bit.PWE_EVENT_REV_B)
  ({ c with pwr := { c.pwr with warnHold := c.now + ms } }.feedWarn).log .reverse [f]

def execReverseCurrent (feed : Nat) (s : State) : Host.Outcome State Fault Refusal :=
  .next (if s.chip.pwr.standby && decide (feed < 2) then
    ({ s with chip := s.chip.reverse feed } : State).warnFalls s.chip.warned else s)

/-- A feed that is present falls below its warning threshold; an armed one gives the warning. -/
def Chip.feedBelow (c : Chip) (f : Nat) : Chip :=
  let c := { c with pwr := { c.pwr with low := f :: c.pwr.low.erase f } }
  if c.armed_ f then
    ((c.setBit Reg.PWE_EVENT (if f = 0 then Bit.PWE_EVENT_WARN_A else Bit.PWE_EVENT_WARN_B)).feedWarn).log .feedLow [f]
  else c

def execFeedBelowWarning (feed : Nat) (s : State) : Host.Outcome State Fault Refusal :=
  .next (if s.chip.pwr.standby && decide (feed < 2) then
    (if s.chip.armed_ feed then ({ s with chip := s.chip.feedBelow feed } : State).warnFalls s.chip.warned
     else { s with chip := s.chip.feedBelow feed }) else s)

/-- A feed has been above its threshold for 100 ms. -/
def Chip.feedArm (c : Chip) (f : Nat) : Chip :=
  if c.pwr.standby && decide (f < 2) then
    let c := { c with pwr := { c.pwr with present := f :: c.pwr.present.erase f, low := c.pwr.low.erase f } }
    if c.armed_ f then c else (c.setBit Reg.PWE_STATUS (armedFld f)).log .feedArmed [f]
  else c

def execFeedArmed (feed : Nat) (s : State) : Host.Outcome State Fault Refusal := .next { s with chip := s.chip.feedArm feed }

/-- FEED_WARN_RELEASE: every armed feed has been 1.0 V above its threshold for 1 ms, and 1 ms has passed since the last
reverse-current event. -/
def Chip.warnRelease (c : Chip) : Chip :=
  if c.flag Reg.PWE_STATUS Bit.PWE_STATUS_WARN && decide (c.pwr.warnHold ≤ c.now) then
    let c := { c with pwr := { c.pwr with low := c.pwr.low.filter (fun f => !c.armed_ f) } }
    (c.clrFld Reg.PWE_STATUS Bit.PWE_STATUS_WARN).emit (.pin .feedWarnN true)
  else c

def execFeedWarnRelease (s : State) : Host.Outcome State Fault Refusal := .next { s with chip := s.chip.warnRelease }

/-- A feed below its threshold for 10 s is disarmed. -/
def Chip.feedDisarm (c : Chip) (f : Nat) : Chip :=
  if decide (f < 2) && c.armed_ f && c.pwr.low.contains f then
    ((c.clrFld Reg.PWE_STATUS (armedFld f)).setBit Reg.PWE_EVENT Bit.PWE_EVENT_FEED_DISARMED).log .feedDisarmed [f]
  else c

def execFeedDisarm (feed : Nat) (s : State) : Host.Outcome State Fault Refusal := .next { s with chip := s.chip.feedDisarm feed }

/-! ## The beginning and the end of power (R408, R449, R450, R459) -/

/-- What survives without power: fuses, flash, the controller's non-volatile registers, and the levels that others give the pins. -/
def Chip.unpowered (c : Chip) : Chip :=
  let n : Chip :=
    { out := c.out, freeCtr := c.freeCtr, kpr := c.kpr.fuses, tel := c.tel.inFlash
      pci := { prsnt := c.pci.prsnt, cableId := c.pci.cableId, perstIn := c.pci.perstIn }
      saf := { pinOutside := c.saf.pinOutside }
      pwr := { pweNv := c.pwr.pweNv, lost := allIslands } }
  let n := pweOffs.foldl (fun (n : Chip) o => n.wr o (c.pwe o)) n
  let n := (n.setFld Reg.PWE_STATUS ⟨11, 4⟩ (c.fld Reg.PWE_STATUS ⟨11, 4⟩)).wr Reg.LAST_TRIP (c.rd Reg.LAST_TRIP)
  (n.wr Reg.OP_HOURS (c.rd Reg.OP_HOURS)).wr Reg.POWER_CYCLES (c.rd Reg.POWER_CYCLES)

/-- The standby converter starts with a stored trip count (R459). -/
def Chip.standbyStart (c : Chip) (diode inlet : Int) : Chip :=
  let c := { c with pwr := { c.pwr with standby := true, inlet } }.setFld Reg.FET_TEMP Bit.FET_TEMP_DIODE (tenths diode)
  if c.tripCount = 0 then c.showTemp
  else
    let c := c.setModel (if diode ≤ inlet + 1000 then diode else (c.pweF Reg.THERM_CFG Bit.THERM_CFG_T_TRIP * 100 : Nat))
    if c.latched then c
    else (c.setBit Reg.PWE_STATUS Bit.PWE_STATUS_RETRY_WAIT).arm .retryDelay c.retryNs

/-- The first feed after both were absent: the standby converter starts, the Watch starts at 0 on the IRO, and BOOT_HOLD
begins. -/
def Chip.powerOn (c : Chip) (feed : Nat) (diode inlet : Int) : Chip :=
  if c.pwr.standby ∨ 2 ≤ feed then c
  else
    let n := c.unpowered
    let n := n.wr Reg.POWER_CYCLES (n.rd Reg.POWER_CYCLES + 1)
    let n := { n with pwr := { n.pwr with present := [feed] } }.standbyStart diode inlet
    ((n.emit (.pin .fogN false)).arm .crystal (10 * ms)).arm .bootHold (250 * ms)

def execPowerOn (feed : Nat) (diode inlet : Int) (s : State) : Host.Outcome State Fault Refusal :=
  .next { s with chip := s.chip.powerOn feed diode inlet }

/-- STANDBY_CONVERTER_STOP: both feeds are gone and the hold-up is spent; all volatile state is lost. -/
def Chip.standbyStop (c : Chip) : Chip :=
  if c.pwr.standby then
    let n := c.unpowered
    let n := if c.pweOn then n.emit (.pin .hotSwapFet false) else n
    let n := if c.pwr.pgood then (n.emit (.pin .regulators false)).emit (.pin .pgood false) else n
    n.emit (.pin .standbyOut false)
  else c

def execStandbyConverterStop (s : State) : Host.Outcome State Fault Refusal := .next { s with chip := s.chip.standbyStop }

/-! ## RESET_N (R422) -/

/-- The module is DARK, or its logic islands are still without power in a restore. -/
def Chip.isDark (c : Chip) : Bool :=
  c.fld Reg.GLB_PWR_STATUS Bit.GLB_PWR_STATUS_STATE == 2 && decide (c.pwr.restoreStep < 4)

/-- RESET_N falls in DARK (R422): the Lamp Room restores power by steps 1 to 3 of Table 16.7, and the module then starts as after
RESET_N. DEDUCED (log 205): a restore in progress goes on from its step. -/
def Chip.resetInDark (c : Chip) : Chip :=
  let step := max 1 c.pwr.restoreStep
  let n := c.islandsOff
  let n := { n with pwr := { n.pwr with darkStep := 6, restoreStep := step, restoreAt := c.now, resetStart := true } }
  ((n.setFld Reg.GLB_PWR_STATUS Bit.GLB_PWR_STATUS_STATE 2).setBit Reg.GLB_PWR_STATUS Bit.GLB_PWR_STATUS_BUSY).arm .restore
    (restoreLimit step)

/-- RESET_N has been low for 10 µs. -/
def Chip.resetFall (c : Chip) : Chip :=
  if c.pwr.resetLow then c
  else
    let c := { c with pwr := { c.pwr with resetLow := true } }
    if c.pwr.standby then (if c.isDark then c.resetInDark else c.islandsOff) else c

def execResetNFall (s : State) : Host.Outcome State Fault Refusal := .next { s with chip := s.chip.resetFall }

/-- The Watch starts again at 0: what the Lamp Room and the power-entry controller time goes on. -/
def Chip.watchRestart (c : Chip) : Chip :=
  { c with
    timers := c.timers.map (fun t => (t.1, t.2 - c.watchUp))
    pwr := { c.pwr with warnHold := c.pwr.warnHold - c.watchUp }
    watchUp := 0
    watchTime := 0
    slew := 0 }

/-- A start as after RESET_N: the Keeper will boot with cause RESET_N, BOOT_HOLD runs again, and the crystal may be used
again (R427, R428). The islands leave reset on the IRO and move to their PLLs as these are locked (R425, R433). -/
def Chip.startAgain (c : Chip) : Chip :=
  let c := (c.setFld Reg.LAST_RESET Bit.LAST_RESET_CAUSE 1).satInc Reg.LAST_RESET Bit.LAST_RESET_COUNT
  let c := { c.watchRestart with pwr := { c.watchRestart.pwr with lost := allIslands } }.reclock.arm .bootHold (250 * ms)
  if c.flag Reg.CLK_STATUS Bit.CLK_STATUS_XTAL_OK then c.clrFld Reg.CLK_STATUS Bit.CLK_STATUS_CKG_REF
  else c.arm .crystal (10 * ms)

def Chip.resetRise (c : Chip) : Chip :=
  if c.pwr.resetLow then
    let c := { c with pwr := { c.pwr with resetLow := false } }
    if c.pwr.standby then c.startAgain else c
  else c

def execResetNRise (s : State) : Host.Outcome State Fault Refusal := .next { s with chip := s.chip.resetRise }

end Sys2Proof.Machine
end

