-- ==== Sys2Proof/Machine/Clocks.lean ====
section
/-!
DEFINITION. Clock sources, operating points, clock gates and power states (chapter 16): the crystal and the PCIe reference,
the trim of the IRO, the station sequencers, DIM and DARK, wakes and the restore.
-/
namespace Sys2Proof.Machine

/-! ## Sources (R426 to R429) -/

/-- The PLLs of the CKG lock to a source: 0 the crystal, 1 the PCIe reference. -/
def Chip.ckgLock (c : Chip) (ref : Nat) : Chip :=
  ({ c with pwr := { c.pwr with ckg := true } }.setFld Reg.CLK_STATUS Bit.CLK_STATUS_CKG_REF ref).reclock

/-- CRYSTAL_QUALIFIED. A crystal that was lost does not return before the next power-on or RESET_N (R428), and a CKG that
has taken the PCIe reference keeps it until the next power-on or RESET_N (R427). -/
def Chip.crystalQualified (c : Chip) : Chip :=
  if !c.pwr.standby || c.flag Reg.CLK_STATUS Bit.CLK_STATUS_XTAL_OK || c.pwr.lost.contains islLamp then c
  else
    let c := (c.setBit Reg.CLK_STATUS Bit.CLK_STATUS_XTAL_OK).setBit Reg.CLK_STATUS Bit.CLK_STATUS_LAMP_ON_XTAL
    if c.pwr.ckg && !c.armed .crystal then c.reclock else (c.disarm .crystal).ckgLock 0

/-- CRYSTAL_QUALIFY_TIMEOUT: 10 ms from the start of the IRO. -/
def Chip.crystalTimeout (c : Chip) : Chip :=
  if c.due .crystal && !c.flag Reg.CLK_STATUS Bit.CLK_STATUS_XTAL_OK then
    let c := ((c.setBit Reg.CLK_EVENT Bit.CLK_EVENT_XTAL_FAIL).disarm .crystal).log .crystalFail []
    if c.flag Reg.CLK_STATUS Bit.CLK_STATUS_REFCLK_OK then c.ckgLock 1 else c
  else c

/-- REFCLK_QUALIFIED: the CKG takes the PCIe reference where the crystal has not qualified in its 10 ms, or was lost. -/
def Chip.refclkQualified (c : Chip) : Chip :=
  if !c.pwr.standby || c.flag Reg.CLK_STATUS Bit.CLK_STATUS_REFCLK_OK then c
  else
    let c := (c.setBit Reg.CLK_STATUS Bit.CLK_STATUS_REFCLK_OK).log .refclk []
    if !c.armed .crystal && !c.flag Reg.CLK_STATUS Bit.CLK_STATUS_XTAL_OK then c.ckgLock 1 else c

/-- CRYSTAL_LOST: the Lamp Room and the Watch move to the IRO by a forced switch, and the clock counts as lost (R361, R428, R435).
Without a qualified PCIe reference the PLLs of the CKG lose lock. -/
def Chip.crystalLost (c : Chip) : Chip :=
  if !c.flag Reg.CLK_STATUS Bit.CLK_STATUS_XTAL_OK then c
  else
    let c := (c.setBit Reg.CLK_EVENT Bit.CLK_EVENT_XTAL_LOST).setBit Reg.CLK_EVENT Bit.CLK_EVENT_FORCED_SWITCH
    let c := (c.setBit Reg.MON_STATUS Bit.MON_STATUS_XTAL).clrFld Reg.CLK_STATUS Bit.CLK_STATUS_LAMP_ON_XTAL
    let c := c.setBit Reg.SAF_EVENT Bit.SAF_EVENT_CLOCK_LOSS
    let c := c.clrFld Reg.CLK_STATUS Bit.CLK_STATUS_XTAL_OK
    let c := { c with pwr := { c.pwr with lost := islLamp :: c.pwr.lost } }
    let c :=
      if c.flag Reg.CLK_STATUS Bit.CLK_STATUS_REFCLK_OK then c.setFld Reg.CLK_STATUS Bit.CLK_STATUS_CKG_REF 1
      else { c with pwr := { c.pwr with ckg := false } }
    c.log .crystalLost []

def execCrystalLost (s : State) : Host.Outcome State Fault Refusal := .next { s with chip := s.chip.crystalLost }

/-- The first reference that is available: 1 the crystal, 2 the PCIe reference, 3 the Beacon, 0 none. -/
def Chip.trimSource (c : Chip) : Nat :=
  if c.flag Reg.CLK_STATUS Bit.CLK_STATUS_XTAL_OK then 1
  else if c.flag Reg.CLK_STATUS Bit.CLK_STATUS_REFCLK_OK then 2
  else if c.ringLocked 0 || c.ringLocked 1 then 3
  else 0

/-- IRO_TRIM_WINDOW: the IRO was measured `err` thousandths of a percent fast. The trim code moves against the error, by up
to 32 steps of 0.01 %. -/
def Chip.iroTrim (c : Chip) (err : Int) : Chip :=
  let src := c.trimSource
  let c := c.setFld Reg.CLK_STATUS Bit.CLK_STATUS_TRIM_SRC src
  if !c.pwr.standby || src = 0 then c
  else
    let c := c.setFld Reg.IRO_TRIM Bit.IRO_TRIM_ERR ((err % 4096).toNat)
    let c := c.setFld Reg.CLK_STATUS Bit.CLK_STATUS_TRIM_LOCKED (b2n (decide (-50 ≤ err ∧ err ≤ 50)))
    if c.flag Reg.IRO_TRIM Bit.IRO_TRIM_AUTO then
      let step : Int := max (-32) (min 32 (err.tdiv 10))
      let code : Int := max 0 (min 1023 ((c.fld Reg.IRO_TRIM Bit.IRO_TRIM_CODE : Int) - step))
      c.setFld Reg.IRO_TRIM Bit.IRO_TRIM_CODE code.toNat
    else c

def execIroTrimWindow (err : Int) (s : State) : Host.Outcome State Fault Refusal :=
  .next { s with chip := if s.chip.pwr.standby then s.chip.iroTrim err else s.chip }

/-! ## Operating points (R436 to R438) -/

def Chip.oppNow (c : Chip) (s : Nat) : Nat := c.fld (Reg.STN_ID s) Bit.STN_ID_OPP

def Chip.oppOf (c : Chip) (s : Nat) : Option OppSeq := c.pwr.opp.find? (fun x => x.st == s)

/-- The field of a station in OPP_LIT and OPP_DIM. -/
def oppFld (s : Nat) : Fld := ⟨2 * s + 1, 2 * s⟩

/-- GLB_PWR_STATUS.BUSY: a transition or DARK entry is in progress. -/
def Chip.syncBusy (c : Chip) : Chip :=
  c.setFld Reg.GLB_PWR_STATUS Bit.GLB_PWR_STATUS_BUSY
    (b2n (!c.pwr.opp.isEmpty || decide (0 < c.pwr.darkStep ∧ c.pwr.darkStep < 6) || decide (0 < c.pwr.restoreStep)))

/-- A change of operating point begins; the regulator has 100 µs. A target that arrives during a change waits. -/
def Chip.oppStart (c : Chip) (s target : Nat) : Chip :=
  match c.oppOf s with
  | some _ => { c with pwr := { c.pwr with opp := mapIf (fun x => x.st == s) (fun x => { x with newer := some target }) c.pwr.opp } }
  | none =>
    if target = c.oppNow s then c
    else
      let x : OppSeq := { st := s, target, rise := decide (target < c.oppNow s) }
      let c := { c with pwr := { c.pwr with opp := x :: c.pwr.opp } }
      ((c.putBit Reg.OPP_STATUS Bit.OPP_STATUS_BUSY s true).arm (.opp s) (100 * us)).syncBusy

/-- The change in progress ends at a point; the newest target follows. -/
def Chip.oppEnd (c : Chip) (x : OppSeq) (point : Nat) : Chip :=
  let c := { c with pwr := { c.pwr with opp := c.pwr.opp.filter (fun y => y.st != x.st) } }
  let c := (c.putBit Reg.OPP_STATUS Bit.OPP_STATUS_BUSY x.st false).disarm (.opp x.st)
  let c := (c.setFld (Reg.STN_ID x.st) Bit.STN_ID_OPP point).syncBusy
  match x.newer with
  | some t => c.oppStart x.st t
  | none => c

/-- The regulator of a rise is ready at the voltage of a target that is no longer the newest: the sequencer goes straight to the
newest (R438), a fall from that voltage or a further rise, and the multiplexer skips the point between. -/
def Chip.oppTurn (c : Chip) (x : OppSeq) (t : Nat) : Chip :=
  let f := fun (y : OppSeq) => { y with target := t, rise := decide (t < x.target), newer := none }
  { c with pwr := { c.pwr with opp := mapIf (fun y => y.st == x.st) f c.pwr.opp } }.arm (.opp x.st) (100 * us)

/-- The regulator is ready: the step in progress ends (R437, R438). -/
def Chip.oppReady (c : Chip) (s : Nat) : Chip :=
  match c.oppOf s with
  | some x =>
    match x.newer with
    | some t => if x.rise && t != x.target then c.oppTurn x t else c.oppEnd x x.target
    | none => c.oppEnd x x.target
  | none => c

def execOppRegulatorReady (st : Nat) (s : State) : Host.Outcome State Fault Refusal :=
  .next { s with chip := s.chip.oppReady st }

/-- The regulator was not ready in time: the lower frequency stands, which a rise has not left and a fall has taken. -/
def Chip.oppTimeout (c : Chip) (s : Nat) : Chip :=
  match c.oppOf s with
  | some x =>
    if c.due (.opp s) then
      ((c.putBit Reg.OPP_STATUS Bit.OPP_STATUS_OPP_FAIL s true).log .oppTimeout [s]).oppEnd x (if x.rise then c.oppNow s else x.target)
    else c
  | none => c

def execOppRegulatorTimeout (st : Nat) (s : State) : Host.Outcome State Fault Refusal :=
  .next { s with chip := s.chip.oppTimeout st }

/-- Every station's sequencer starts toward its point of OPP_LIT or OPP_DIM. -/
def Chip.oppAll (c : Chip) (dim : Bool) : Chip :=
  (List.range 16).foldl (fun c s => c.oppStart s (c.fld (if dim then Reg.OPP_DIM else Reg.OPP_LIT) (oppFld s))) c

/-! ## Power states (R442 to R444) -/

def Chip.pwrState (c : Chip) : Nat := c.fld Reg.GLB_PWR_STATUS Bit.GLB_PWR_STATUS_STATE

def refuseCustody : Nat := 1
def refuseRelay : Nat := 2
def refuseFog : Nat := 3
def refuseGate : Nat := 4

/-- Entry into DARK is aborted: the module stays in its state, its links train again, and its gates are open. -/
def Chip.darkAbort (c : Chip) (cause : Nat) : Chip :=
  let w := c.pwr
  let c := { c with pwr := { w with darkStep := 0, latched := [], gateReq := []
                                    gated := w.gated.filter (fun i => decide (i < 64) && (c.portsOfQuad i).isEmpty) } }
  ((c.setFld Reg.GLB_PWR_STATUS Bit.GLB_PWR_STATUS_LAST_REFUSE cause).syncBusy).log .pwrRefused [cause]

/-- The first check of step 2 of Table 16.5 that fails. -/
def Chip.darkCheck (c : Chip) : Option Nat :=
  if c.inModFog then some refuseFog
  else if !c.mor.copies.isEmpty || !c.mor.streams.isEmpty then some refuseCustody
  else if (c.rly.slices.any (fun x => c.slState x.slice == sActive || c.slState x.slice == sDraining)) then some refuseRelay
  else none

/-- Step 1 at one port: its link is held down as LINK_DISABLE holds it. -/
def Chip.darkLink (c : Chip) (p : Nat) : Chip :=
  if c.isSpan p then (c.fullLinkReset p).answerPort p
  else
    let c := c.emit (.linkIdle p)
    if c.dlUp p then c.linkDown p true else c.answerPort p

/-- The islands that run and are gated for DARK: stations, Tower, Mooring, Relay, memory controllers, Beacon, Keeper, and the
lane quads with a claimed lane. -/
def Chip.darkIslands (c : Chip) : List Nat :=
  let st := ((List.range 16).filter (fun s => !c.fldBit Reg.GATE_STATUS Bit.GATE_STATUS_STATION s)).map (64 + ·)
  let relay := if c.flag Reg.GATE_STATUS Bit.GATE_STATUS_RELAY then [] else [82]
  let quads := (List.range 64).filter (fun q => !(c.portsOfQuad q).isEmpty && !c.pwr.gated.contains q)
  quads ++ st ++ [80, 81] ++ relay ++ [83, 84, 85, 86, 87, 88]

/-- Steps 1 to 3 of Table 16.5: the links, the checks, the requests to gate. -/
def Chip.darkRequest (c : Chip) : Chip :=
  if 1 < c.pwrState ∨ 0 < c.pwr.darkStep ∨ 0 < c.pwr.restoreStep then c
  else
    let c := { c with pwr := { c.pwr with darkStep := 1, latched := [] } }.syncBusy
    let c := c.allPorts.foldl Chip.darkLink c
    match c.darkCheck with
    | some cause => c.darkAbort cause
    | none => { c with pwr := { c.pwr with darkStep := 3, gateReq := c.darkIslands } }

/-- GLB_PWR_CTRL.TARGET is written (R443, R444). In DIM the idle lane quads go into standby, and the
module, no longer LIT, is not the time master (R123). A target that arrives during DARK entry does not interrupt it. -/
def Chip.setTarget (c : Chip) (t : Nat) : Chip :=
  if 3 ≤ t then c
  else
    let c := c.setFld Reg.GLB_PWR_CTRL Bit.GLB_PWR_CTRL_TARGET t
    if t = 2 then c.darkRequest
    else if 1 < c.pwrState ∨ 0 < c.pwr.darkStep then c
    else
      let idle := if t = 0 then [] else if c.pwrState = 0 then (List.range 64).filter c.quadIdle else c.pwr.standbyQuads
      let c := c.setFld Reg.GLB_PWR_STATUS Bit.GLB_PWR_STATUS_STATE t
      let c := { c with pwr := { c.pwr with standbyQuads := idle } }
      let c := if t = 0 then c else c.clrFld Reg.BCN_STATUS Bit.BCN_STATUS_MASTER
      c.oppAll (t == 1)

def execPwrTargetLit (ag : Agent) (s : State) : Host.Outcome State Fault Refusal :=
  .next { s with chip := s.chip.busWrite ag Reg.GLB_PWR_CTRL (fun c => c.setTarget 0) }

def execPwrTargetDim (ag : Agent) (s : State) : Host.Outcome State Fault Refusal :=
  .next { s with chip := s.chip.busWrite ag Reg.GLB_PWR_CTRL (fun c => c.setTarget 1) }

def execPwrTargetDark (ag : Agent) (s : State) : Host.Outcome State Fault Refusal :=
  .next { s with chip := s.chip.busWrite ag Reg.GLB_PWR_CTRL (fun c => c.setTarget 2) }

/-! ## Gates (R439 to R441) -/

/-- The Beacon receivers go into listen mode, in which no mark reaches them (R126): each ring loses its lock, and the module, no
longer LIT, is not the time master (R123). DEDUCED (log 210). -/
def Chip.listenMode (c : Chip) : Chip :=
  let c := c.clrFld Reg.BCN_STATUS Bit.BCN_STATUS_MASTER
  [0, 1].foldl (fun (c : Chip) r =>
    let c := c.putRing r { c.ring r with good := 0, bad := 0, seen := false, goodSeen := false, lastFsn := none, fwd := none }
    if c.ringLocked r then c.loseLock r else c) c

/-- The module is DARK (step 6 of Table 16.5); each LPDDR6 controller that had started counts its
self-refresh entry. A wake that was latched during entry is replayed (R448). -/
def Chip.darkEnter (c : Chip) : Chip :=
  let c := ((c.log .darkEnter []).setFld Reg.GLB_PWR_STATUS Bit.GLB_PWR_STATUS_STATE 2).listenMode
  let l := c.pwr.latched
  let c := { c with pwr := { c.pwr with darkStep := 6, latched := [] } }.syncBusy
  let c := (bitsSet (c.fld Reg.START_STATUS Bit.START_STATUS_MC) 4).foldl (fun (c : Chip) n => c.ctrInc kMc n 5) c
  if l.isEmpty then c
  else
    let c := l.foldl (fun (c : Chip) i => c.wr Reg.WAKE_CAUSE (setF (c.rd Reg.WAKE_CAUSE) ⟨i, i⟩ 1)) (c.wr Reg.WAKE_CAUSE 0)
    (c.setBit Reg.WAKE_CAUSE Bit.WAKE_CAUSE_LATCHED).startRestore

/-- The case of Table 16.3 holds for an island that is not gated, and its last gate opened no less than 1 ms ago. The Relay
gate stays open while the Collector is on (R494). -/
def Chip.mayGate (c : Chip) (i : Nat) : Bool :=
  let rested := c.pwr.gateAfter.all (fun e => e.1 != i || decide (e.2 ≤ c.now))
  let case_ :=
    if i < 64 then (c.portsOfQuad i).isEmpty && !c.pwr.gated.contains i
    else if i < 80 then
      let s := i - 64
      c.fldBit Reg.GATE_CTRL Bit.GATE_CTRL_STN_GATE_EN s && !c.fldBit Reg.GATE_STATUS Bit.GATE_STATUS_STATION s &&
        (c.portsOfStation s).isEmpty && !c.fldBit Reg.STN_RESET Bit.STN_RESET_BUSY s && !c.pwr.starting.contains s
    else i == 82 && c.flag Reg.GATE_CTRL Bit.GATE_CTRL_RELAY_GATE_EN && !c.flag Reg.GATE_STATUS Bit.GATE_STATUS_RELAY &&
      c.rly.slices.all (fun x => c.slState x.slice == sUngranted) && c.opsInFlight == 0 && !c.flag Reg.COL_CTRL Bit.COL_CTRL_EN
  c.keeperRuns && c.pwr.darkStep == 0 && rested && case_ && !c.pwr.gateReq.contains i

def Chip.gateRequest (c : Chip) (i : Nat) : Chip :=
  if c.mayGate i then { c with pwr := { c.pwr with gateReq := i :: c.pwr.gateReq } } else c

def execGateRequest (island : Nat) (s : State) : Host.Outcome State Fault Refusal :=
  .next { s with chip := s.chip.gateRequest island }

/-- GATE_ACK: the island has acknowledged, and its gate closes. With the last gate of DARK entry the module is DARK. -/
def Chip.gateAck (c : Chip) (i : Nat) : Chip :=
  if !c.pwr.gateReq.contains i then c
  else
    let c := { c with pwr := { c.pwr with gateReq := c.pwr.gateReq.erase i } }
    if c.pwr.darkStep = 3 then
      let c := { c with pwr := { c.pwr with gated := i :: c.pwr.gated } }
      if c.pwr.gateReq.isEmpty then c.darkEnter else c
    else if i < 64 then { c with pwr := { c.pwr with gated := i :: c.pwr.gated } }
    else if i < 80 then c.putBit Reg.GATE_STATUS Bit.GATE_STATUS_STATION (i - 64) true
    else c.setBit Reg.GATE_STATUS Bit.GATE_STATUS_RELAY

def execGateAck (island : Nat) (s : State) : Host.Outcome State Fault Refusal := .next { s with chip := s.chip.gateAck island }

/-- GATE_ABANDON: 4,096 cycles of the island have passed. -/
def Chip.gateAbandon (c : Chip) (i : Nat) : Chip :=
  if !c.pwr.gateReq.contains i then c
  else
    let c := { c with pwr := { c.pwr with
      gateReq := c.pwr.gateReq.erase i
      gateAfter := (i, c.now + ms) :: c.pwr.gateAfter.filter (fun e => e.1 != i) } }
    let c := ((c.setBit Reg.CLK_EVENT Bit.CLK_EVENT_GATE_ABANDON).gateLog i false).log .gateAbandon [i]
    if c.pwr.darkStep = 3 then c.darkAbort refuseGate else c

def execGateAbandon (island : Nat) (s : State) : Host.Outcome State Fault Refusal :=
  .next { s with chip := s.chip.gateAbandon island }

/-! ## Wakes (R432, R445 to R448, R532) -/

/-- WATCH_ALARM: WATCH_TIME has reached the alarm value, and the alarm fires once. -/
def Chip.watchAlarm (c : Chip) : Chip :=
  if c.pwr.standby && c.flag Reg.WAKE_CTRL Bit.WAKE_CTRL_ALARM_ARMED &&
      decide (c.pair Reg.WATCH_ALARM_LO Reg.WATCH_ALARM_HI ≤ c.watchTime) then
    let c := c.clrFld Reg.WAKE_CTRL Bit.WAKE_CTRL_ALARM_ARMED
    let c :=
      if c.pwrState = 2 then c
      else (c.setBit Reg.WAKE_CAUSE Bit.WAKE_CAUSE_ALARM).log .wake [wakeAlarm]
    c.wakeEvent wakeAlarm
  else c

def execWatchAlarm (s : State) : Host.Outcome State Fault Refusal := .next { s with chip := s.chip.watchAlarm }

/-- WAKE_ADDRESS_MATCH: the module's own address on the primary or secondary I3C port. -/
def execWakeAddressMatch (s : State) : Host.Outcome State Fault Refusal :=
  .next { s with chip := s.chip.wakeEvent wakeAddr }

/-- COMPARATOR_TRIP: comparator 0 feed A, 1 feed B, 2 FET temperature, 3 inlet temperature trips, or comes back. The FET
comparator opens the FET (FET_CMP of Table 17.2), the inlet comparator holds the next ramp (R451). -/
def Chip.comparatorTrip (c : Chip) (k : Nat) (tripped : Bool) : Chip :=
  if !c.pwr.standby || decide (4 ≤ k) then c
  else
    let c := if k = 3 then c.setFld Reg.PWE_STATUS Bit.PWE_STATUS_INLET_HOLD (b2n tripped) else c
    if !tripped then c
    else
      let c := if k = 3 && decide (c.pwrState ≠ 2) then c.log .thermWarn [3] else c
      let c := c.wakeEvent (wakeCmp k)
      if k = 2 ∧ c.pweOn then c.pweTrip tripFetCmp 0 c.railMa else c

def execComparatorTrip (k : Nat) (tripped : Bool) (s : State) : Host.Outcome State Fault Refusal :=
  .next { s with chip := s.chip.comparatorTrip k tripped }

/-! ## Restore (R446, R447) -/

/-- The end of step 4: the module is LIT, its stations at OPP_LIT, its gates open. A change of operating point that the entry
into DARK cut off is over. -/
def Chip.restored (c : Chip) : Chip :=
  let t := min ((c.now - c.pwr.restoreAt) / us) 65535
  let w := c.pwr
  let c := w.opp.foldl (fun c x => (c.putBit Reg.OPP_STATUS Bit.OPP_STATUS_BUSY x.st false).disarm (.opp x.st)) c
  let c := { c with pwr := { w with darkStep := 0, restoreStep := 0, standbyQuads := [], opp := []
                                    gated := w.gated.filter (fun i => decide (i < 64) && (c.portsOfQuad i).isEmpty) } }
  let c := (c.disarm .restore).setFld Reg.RESTORE_TIME Bit.RESTORE_TIME_US t
  let c := c.setFld Reg.GLB_PWR_STATUS Bit.GLB_PWR_STATUS_STATE 0
  let c := (List.range 16).foldl (fun c s =>
    c.setFld (Reg.STN_ID s) Bit.STN_ID_OPP (c.fld Reg.OPP_LIT (oppFld s))) c
  c.syncBusy.log .darkExit [t]

/-- Power is back after a RESET_N that fell in DARK (R422): what follows is the start as after RESET_N. -/
def Chip.powerBack (c : Chip) : Chip :=
  ({ c with pwr := { c.pwr with darkStep := 0, restoreStep := 0, resetStart := false } }.disarm .restore).setFld
    Reg.GLB_PWR_STATUS Bit.GLB_PWR_STATUS_STATE 0 |>.syncBusy

/-- RESTORE_STEP_READY: the step in progress is ready, and the next begins. -/
def Chip.restoreReady (c : Chip) : Chip :=
  let n := c.pwr.restoreStep
  if n = 0 then c
  else if 3 ≤ n ∧ c.pwr.resetStart = true then c.powerBack
  else if n < 4 then { c with pwr := { c.pwr with restoreStep := n + 1 } }.arm .restore (restoreLimit (n + 1))
  else c.restored

def execRestoreStepReady (s : State) : Host.Outcome State Fault Refusal := .next { s with chip := s.chip.restoreReady }

/-- RESTORE_TIMEOUT: a step has passed its limit; the module starts as after RESET_N, at its rise where it is low. -/
def Chip.restoreTimeout (c : Chip) : Chip :=
  if 0 < c.pwr.restoreStep && c.due .restore then
    let n := ((c.setBit Reg.CLK_EVENT Bit.CLK_EVENT_WAKE_FAIL).log .wakeFail [c.pwr.restoreStep]).islandsOff
    if n.pwr.resetLow then n else n.startAgain
  else c

def execRestoreTimeout (s : State) : Host.Outcome State Fault Refusal := .next { s with chip := s.chip.restoreTimeout }

end Sys2Proof.Machine
end

