-- ==== Sys2Proof/Machine/Safe.lean ====
section
/-!
DEFINITION. Functional safety (chapter 12) and the debug master (R343, R344, R484): debug accesses, background compares and
scrubs, FOG_CMD, FOG_RELEASE, lockstep, clock monitors, power doubt, self-tests, fault injection, temperature.
-/
namespace Sys2Proof.Machine

/-! ## The debug master (R343, R344, R484) -/

/-- A sector with a LOCKED, DEBUG_VIS and rights of its own as one copy of the table holds it. -/
structure DbgSector where
  idx : Nat
  locked : Bool
  vis : Bool
  r : Bool
  w : Bool
  deriving DecidableEq, Repr

/-- The sectors of one copy that hold the first byte of a debug access. The access has no VSI and no PASID, so no sector
with a filter matches. -/
def Chip.dbgHits (c : Chip) (b : Bool) (a : Access) : List DbgSector :=
  ((c.secCopy secRelay b).filter (fun x => x.covers a && !x.vsiEn && !x.pasidEn)).map (fun x =>
    let acc := c.secWord secRelay b (Reg.SECTOR_ACC x.idx)
    { idx := x.idx, locked := getF acc Bit.SECTOR_ACC_LOCKED = 1, vis := getF acc Bit.SECTOR_ACC_DEBUG_VIS = 1, r := x.r, w := x.w })

/-- Steps 1 to 4 of R343 on the matches of one copy. -/
def dbgAllowed (unlocked write : Bool) : List DbgSector → Bool
  | [x] => !x.locked && unlocked && x.vis && (if write then x.w else x.r)
  | _ => false

/-- A refusal: no bus access is made (R343). One that a check gave also loads DENY_ADDR and DENY_INFO (R345); the VSI field
is open, for the access has none. -/
def Chip.dbgDeny (c : Chip) (a : Access) (hits : List Nat) (checked : Bool) : Chip :=
  let c :=
    if checked then
      let c := c.recordDeny a hits 4 none
      (c.setFld Reg.DENY_INFO Bit.DENY_INFO_VSI c.freeVal).drew
    else c
  ((c.setBit Reg.SEC_EVENT Bit.SEC_EVENT_DEBUG_DENIED).log .debugDenied [a.addr] hits).dbgAnswer 1 []

/-- The port at which the module itself stands as the source of a debug access: the manager's upstream port. -/
def Chip.dbgPort (c : Chip) : Nat := (c.portOfVsi c.manager).getD 0

/-- Where a debug access leads: a packet, nowhere, a destination without a usable candidate (R178), or two lookups that differ
(R46). -/
inductive DbgWay where
  | to (k : Pkt)
  | nowhere
  | noRoute (srcFa : Nat)
  | mismatch
  deriving DecidableEq, Repr

/-- Where an access to a space leads: a local port, a span port and a header, or a multicast. No window forms it, so its WGEN is 0
(Table 6.1). -/
def Chip.dbgPath (c : Chip) (a : Access) : DbgWay :=
  let u := c.dbgPort
  let base : Pkt := { st := portStation u, src := 8, inPort := u, noticeFa := c.ownFa u, vsi := c.manager, actVsi := c.manager
                      egVc := c.egVc false 0, secGen := some (c.fld Reg.SEC_ACTIVE_GEN Bit.SEC_ACTIVE_GEN_GEN) }
  let kh : KHdr := { destFa := a.target, srcFa := c.ownFa u, srcVsi := c.manager }
  let multi := fun (h : Option KHdr) =>
    if c.mcAgree a.target then
      DbgWay.to { base with
        kh := h, wgen := h.map (·.wgen), mc := some a.target, fan := c.mcStations a.target, egPort := 255
        exclude := if a.target < 64 then [u] else c.mcDeaf a.target [] }
    else .mismatch
  if a.kind = 0 then
    match c.portOfVsi a.target with
    | some p => .to { base with egPort := p }
    | none => .nowhere
  else if a.kind = 1 then
    if (c.port a.target).present && !(c.port a.target).up && !c.isSpan a.target then .to { base with egPort := a.target }
    else .nowhere
  else if a.kind = 2 then
    match c.lookBoth a.target kh.srcFa 0 0 with
    | .to q => .to { base with egPort := q, kh := some kh, wgen := some 0 }
    | .nowhere => .noRoute kh.srcFa
    | .mismatch => .mismatch
  else if a.read then .nowhere
  else multi (if a.target < 64 then none else some { kh with destFa := a.target - 64, mc := true })

/-- Step 5: the access is issued, with TEE bit 0 and no PASID. One that leads nowhere, and any while the module is in Fog, ends
with an error; one whose destination has no usable candidate is reported as R178 says, a write by FAR_ERR too. -/
def Chip.dbgIssue (c : Chip) (a : Access) (len : Nat) (data : List Byte) : Chip :=
  match c.dbgPath a with
  | .mismatch => (c.misLook c.dbgPort).dbgAnswer 3 []
  | .to k =>
    if c.inModFog then c.dbgAnswer 3 []
    else
      let op := c.rly.nextOp
      let t : Tlp := { kind := if a.write then .mwr else .mrd, addr := a.addr, len, rid := c.ownFa k.inPort % 65536
                       data := if a.write then (data ++ List.replicate len 0).take len else [] }
      let c := if k.mc.any (64 ≤ ·) then c.countDeaf k.st k.exclude else c
      let c := c.addPkt { k with tlp := t, relay := some op }
      let c := { c with rly := { c.rly with nextOp := op + 1 } }
      if a.write then c.dbgAnswer 0 []
      else ({ c with kpr := { c.kpr with dbgResult := 2 } }).addOp
        { id := op, slice := dbgSlice, idx := 0, kind := .read, addr := a.addr, len, frames := 1
          gen := c.fld Reg.SEC_ACTIVE_GEN Bit.SEC_ACTIVE_GEN_GEN }
  | .nowhere => c.dbgAnswer 3 []
  | .noRoute srcFa =>
    let u := c.dbgPort
    let c := ((c.setBit Reg.KND_EVENT Bit.KND_EVENT_NO_ROUTE).stCtr u 52).log .noRoute [u] [a.target, srcFa]
    (if a.write then c.genFarErr srcFa 0 3 a.addr c.manager u else c).dbgAnswer 3 []

/-- The debug unlock in force has scope DEBUG_MASTER. -/
def Chip.dbgUnlocked (c : Chip) : Bool := c.flag Reg.DBG_STATUS Bit.DBG_STATUS_DEBUG_MASTER

/-- DBG_ACCESS at Update-DR. A request that meets a BUSY one is discarded. -/
def Chip.dbgAccess (c : Chip) (kind target addr len : Nat) (write : Bool) (data : List Byte) : Chip :=
  let a : Access := { kind, target, addr, read := !write, write, vsi := 0 }
  if !c.busRuns .keeper then c
  else if c.kpr.dbgResult = 2 then c.emit (.debugReply [2])
  else if !(decide (1 ≤ len ∧ addr % 8 + len ≤ 8)) then c.dbgDeny a [] false
  else
    let ha := c.dbgHits false a
    let hb := c.dbgHits true a
    let differ := decide (ha.map (·.idx) ≠ hb.map (·.idx) ∨ dbgAllowed c.dbgUnlocked write ha ≠ dbgAllowed c.dbgUnlocked write hb)
    let double := if 1 < ha.length then ha.map (·.idx) else if 1 < hb.length then hb.map (·.idx) else []
    if differ || !double.isEmpty then (c.secDoubt differ double addr secRelay).dbgAnswer 1 []
    else if dbgAllowed c.dbgUnlocked write ha then c.dbgIssue a len data
    else c.dbgDeny a (ha.map (·.idx)) true

def execDbgAccess (kind target addr len : Nat) (write : Bool) (data : List Byte) (s : State) : Host.Outcome State Fault Refusal :=
  .next { s with chip := s.chip.dbgAccess kind target addr len write data }

/-! ## Lockstep (R360) -/

/-- The Keeper cores differ: its clock stops, the Lamp Room places the module in Fog, and a Keeper reset starts. -/
def Chip.lockstep (c : Chip) : Chip :=
  if c.pwr.pgood && !c.pwr.resetLow && c.clocked 88 && !c.kpr.halted then
    ((c.keeperReset 2).setBit Reg.SAF_EVENT Bit.SAF_EVENT_LOCKSTEP).moduleFog fogLockstep 88
  else c

def execLockstepMismatch (s : State) : Host.Outcome State Fault Refusal := .next { s with chip := s.chip.lockstep }

/-! ## Background passes (R338, R363, R365) -/

/-- SEC_DEFAULT and the sectors. -/
def isSectorOff (off : Nat) : Bool :=
  off == Reg.SEC_DEFAULT_0 || off == Reg.SEC_DEFAULT_1 || (sectorIdxAt off).isSome ||
    decide (Reg.SECTOR_BASE_LO 0 ≤ off ∧ off < Reg.SECTOR_BASE_LO 0 + 32 * 4096)

/-- Offsets at which the two copies differ. -/
def Chip.tabDiff (c : Chip) (sel : Nat → Bool) : List Nat :=
  (((c.tabA.map (·.1)) ++ (c.tabB.map (·.1))).dedup).filter (fun o => sel o && c.tab false o != c.tab true o)

/-- The sector that a word of the table belongs to. -/
def sectorNo (off : Nat) : Nat := (off - Reg.SECTOR_BASE_LO 0) / 32

/-- A bit error strikes a word of the sector table in a copy of a checking island. -/
def Chip.strikeSec (c : Chip) (u : Upset) : Chip :=
  match u with
  | .sector isl b off w =>
    if isl ≤ secRelay ∧ isSectorOff off = true then
      let keep := c.saf.secDev.filter (fun x => !(x.isl == isl && x.b == b && x.off == off))
      { c with saf := { c.saf with secDev := { isl, b, off, word := w } :: keep } }
    else c
  | _ => c

/-- The words of the sector table at which the two copies of some checking island differ. -/
def Chip.secDiff (c : Chip) : List Nat :=
  c.tabDiff isSectorOff ++
    (c.saf.secDev.filter (fun x => c.secWord x.isl false x.off != c.secWord x.isl true x.off)).map (·.off)

/-- A bit error strikes an entry in one copy of the tables. -/
def Chip.strike (c : Chip) (b : Bool) (off : Nat) (w : Word) : Chip :=
  if b then { c with tabB := SMap.set c.tabB off w (resetWordAt off) }
  else { c with tabA := SMap.set c.tabA off w (resetWordAt off) }

def Chip.strikeIf (c : Chip) (sel : Nat → Bool) (u : Upset) : Chip :=
  match u with
  | .table b off w => if sel off then c.strike b off w else c
  | _ => c

/-- SECTOR_BACKGROUND_COMPARE: a difference between the two copies places the module in Fog. `found` are bit errors that
have struck the copies. -/
def Chip.sectorCompare (c : Chip) (found : List Upset) : Chip :=
  let c := found.foldl Chip.strikeSec c
  match c.secDiff with
  | [] => c
  | o :: _ => c.secDoubt true [] o (sectorNo o)

def execSectorBackgroundCompare (found : List Upset) (s : State) : Host.Outcome State Fault Refusal :=
  .next { s with chip := if s.chip.busRuns .keeper then s.chip.sectorCompare found else s.chip }

/-- An error strikes the SECDED code of an entry that is in use. -/
def Chip.strikeEcc (c : Chip) (u : Upset) : Chip :=
  let sev := fun (hard : Bool) => if hard then 2 else 1
  match u with
  | .late (.ort p tag hard) =>
    { c with pci := { c.pci with ort := mapIf (fun e => e.port == p && e.mapTag == tag) (fun e => { e with ecc := sev hard }) c.pci.ort } }
  | .late (.metadata s t d hard) =>
    { c with mor := { c.mor with streams := mapIf (·.is s t d) (fun x => { x with ecc := sev hard }) c.mor.streams } }
  | .late (.ctx s t p hard) =>
    { c with mor := { c.mor with ctxs := mapIf (·.is s t p) (fun x => { x with ecc := sev hard }) c.mor.ctxs } }
  | _ => c

/-- The errors that an earlier pass has not seen and that no use has met. -/
def Chip.latent (c : Chip) : List Upset :=
  (c.pci.ort.filter (fun e => e.ecc != 0)).map (fun e => .ort e.port e.mapTag (e.ecc == 2)) ++
    (c.mor.streams.filter (fun x => x.ecc != 0)).map (fun x => .metadata x.srcFa x.tc x.destFa (x.ecc == 2)) ++
    (c.mor.ctxs.filter (fun x => x.ecc != 0)).map (fun x => .ctx x.srcFa x.tc x.port (x.ecc == 2))

/-- What a scrub does with one error: a single-bit error is corrected, any other has the reaction of Table 12.7. -/
def Chip.scrubOne (c : Chip) (u : Upset) : Chip :=
  match u with
  | .table .. => c
  | .sector .. => c
  | .late _ => c
  | .ort p tag hard =>
    match c.pci.ort.find? (fun e => e.port == p && e.mapTag == tag) with
    | some e =>
      if hard then (c.setBit (Reg.PRT_EVENT p) Bit.PRT_EVENT_ORT_ERR).portFog p fogOrtEcc
      else (c.putEnt { e with ecc := 0 }).corrected
    | none => c
  | .metadata s t d hard =>
    match c.stream s t d with
    | some x => if hard then c.metaFail x else (c.putStream { x with ecc := 0 }).corrected
    | none => c
  | .ctx s t p hard =>
    match c.ectx s t p with
    | some x => if hard then c.ctxEcc s t p else (c.putEctx { x with ecc := 0 }).corrected
    | none => c
  | .link st hard => if hard then c.hdrCrcFail st else c.corrected
  | .bus off => { c with saf := { c.saf with busUpset := off :: c.saf.busUpset.filter (· != off) } }
  | .sram hard => if hard then c.lockstep else c.corrected

/-- An entry that differs is rewritten in both copies from the Keeper's reference image. -/
def Chip.repair (c : Chip) (off : Nat) : Chip :=
  let c := c.putTab off (SMap.get c.tabRef off (resetWordAt off))
  let c := (c.setBit Reg.SAF_EVENT Bit.SAF_EVENT_TABLE_REPAIRED).satInc Reg.SCRUB_STATUS Bit.SCRUB_STATUS_REPAIRS
  (c.log .tableRepaired [off]).corrected

/-- SCRUB_PASS: one pass of `t` ms over every protected structure and the tables of the pipelines. -/
def Chip.scrub (c : Chip) (found : List Upset) (t : Nat) : Chip :=
  let sel := fun (o : Nat) => !isSectorOff o
  let c := found.foldl (fun c u => c.strikeIf sel u) c
  let c := found.foldl Chip.strikeEcc ((c.latent ++ found).foldl Chip.scrubOne c)
  let c := if c.keeperRuns then (c.tabDiff sel).foldl Chip.repair c else c
  (c.satInc Reg.SCRUB_STATUS Bit.SCRUB_STATUS_PASSES).setFld Reg.SCRUB_STATUS Bit.SCRUB_STATUS_LAST_MS (min t 10)

def execScrubPass (found : List Upset) (t : Nat) (s : State) : Host.Outcome State Fault Refusal :=
  .next { s with chip := if s.chip.busRuns .keeper && s.chip.keeperRuns then (s.chip.scrub found t).relaySettle else s.chip }

/-! ## FOG_CMD and FOG_RELEASE (R357, R358, R481) -/

def execFogCmdPortFog (ag : Agent) (p : Nat) (s : State) : Host.Outcome State Fault Refusal :=
  .next { s with chip := s.chip.busWrite ag Reg.FOG_CMD (fun c => if (c.port p).present then c.portFog p fogSoftware else c) }

/-- FOG_CMD with OP 2. `trigger`: a trigger for the port is detected in the same cycle, and it wins. -/
def Chip.fogClear (c : Chip) (p : Nat) (trigger : Bool) : Chip :=
  if c.inModFog || trigger then c.setBit Reg.SAF_EVENT Bit.SAF_EVENT_FOG_CMD_REFUSED else c.endPortFog p

def execFogCmdClear (ag : Agent) (p : Nat) (trigger : Bool) (s : State) : Host.Outcome State Fault Refusal :=
  .next { s with chip := s.chip.busWrite ag Reg.FOG_CMD (fun c => c.fogClear p trigger) }

def execFogCmdModuleFog (ag : Agent) (s : State) : Host.Outcome State Fault Refusal :=
  .next { s with chip := s.chip.busWrite ag Reg.FOG_CMD (fun c => c.moduleFog fogSoftware 0) }

/-- The Lamp Room endpoint answers: the standby converter runs and ADDR_SEL is latched (R474, R480). -/
def Chip.lampAnswers (c : Chip) : Bool := c.pwr.standby && c.pwr.addrSel.isSome

/-- A Lamp Room command ends with a status (Table 18.5). -/
def Chip.lampStatus (c : Chip) (st : Nat) : Chip := { c with pwr := { c.pwr with lrStatus := st } }.emit (.endpointReply 1 [st])

/-- FOG_RELEASE with its parameter bytes. One that meets a Keeper reset in progress is absorbed by it. -/
def Chip.fogRelease (c : Chip) (params : List Nat) (pecOk : Bool) : Chip :=
  if !c.lampAnswers then c
  else if !pecOk then c.lampStatus 4
  else if params ≠ [0xC3] then c.lampStatus 1
  else if !c.inModFog then c.lampStatus 2
  else
    let c := { c with kpr := { c.kpr with fogRelease := true } }
    let c := if c.keeperRuns && c.pwrState != 2 then c.keeperReset 3 else c
    c.lampStatus 0

def execFogRelease (params : List Nat) (pecOk : Bool) (s : State) : Host.Outcome State Fault Refusal :=
  .next { s with chip := s.chip.fogRelease params pecOk }

/-! ## Clock monitors (R361, R434) -/

/-- The bit of MON_STATUS of an island. -/
def Chip.monBit (c : Chip) (i : Nat) : Chip :=
  if i < 80 then c.putBit Reg.MON_STATUS Bit.MON_STATUS_STATION (i - 64) true
  else if i = 80 then c.setBit Reg.MON_STATUS Bit.MON_STATUS_TOWER
  else if i = 81 then c.setBit Reg.MON_STATUS Bit.MON_STATUS_MOORING
  else if i = 82 then c.setBit Reg.MON_STATUS Bit.MON_STATUS_RELAY
  else if i < 87 then c.putBit Reg.MON_STATUS Bit.MON_STATUS_MC (i - 83) true
  else if i = 87 then c.setBit Reg.MON_STATUS Bit.MON_STATUS_BEACON
  else c.setBit Reg.MON_STATUS Bit.MON_STATUS_KEEPER

/-- What a lost clock does to its island. -/
def Chip.clockAct (c : Chip) (i : Nat) : Chip :=
  if i < 80 then (c.stationFog (i - 64) fogClockLoss).stationReset (i - 64)
  else if i = 81 then c.replayAll
  else if i = 82 then c.relayIslandReset
  else if i = 87 then (c.loseLock 0).loseLock 1
  else if i = 88 then (c.keeperReset 5).moduleFog fogIslandClock i
  else c.moduleFog fogIslandClock i

/-- An island whose clock source does not run either is left on the IRO, where it stays in reset (R434). -/
def Chip.leftOnIro (c : Chip) (i : Nat) : Chip :=
  if c.sourceRuns i then c else { c with pwr := { c.pwr with lost := i :: c.pwr.lost.erase i } }

/-- CLOCK_LOST: no edge, or a frequency outside ±10 %, for 2 µs. A lane quad acts under R105, the crystal under R428. The forced
switch ends the accesses that wait for the island (R434). The monitors of the islands run in the Keeper, that of the Keeper in the
Lamp Room; no island but the Lamp Room has a clock in DARK. -/
def Chip.clockLost (c : Chip) (i : Nat) : Chip :=
  if i = islLamp then c.crystalLost
  else if !c.busRuns .keeper || decide (89 < i) then c
  else if i < 64 then c.pllLost i
  else if !c.keeperRuns && i != 88 then c
  else
    let c := (c.setBit Reg.SAF_EVENT Bit.SAF_EVENT_CLOCK_LOSS).monBit i
    let c := (c.setBit Reg.CLK_EVENT Bit.CLK_EVENT_FORCED_SWITCH).gateLog i true
    let c := (c.abortHeld (fun off => clockIsland off == some i)).abortBars i
    ((c.log .clockLost [i]).clockAct i).leftOnIro i

def execClockLost (island : Nat) (s : State) : Host.Outcome State Fault Refusal :=
  .next { s with chip := (s.chip.clockLost island).relaySettle }

/-! ## Power doubt and loss of the feeds (R362, R364) -/

/-- Power doubt: module Fog, a Keep write, then the hot-swap FET opens and the controller latches off. -/
def State.powerDoubt (s : State) : State :=
  let c := s.chip
  if !c.pwr.standby then s
  else
    let dark := c.pwrState == 2
    let c := (c.setBit Reg.SAF_EVENT Bit.SAF_EVENT_POWER_DOUBT).setBit Reg.SAF_STATUS Bit.SAF_STATUS_POWER_DOUBT
    let c := (c.log .powerDoubt []).moduleFog fogPowerDoubt 0
    let s := { s with chip := c }
    let s := if dark then s else s.keepWrite keepDoubt
    { s with chip := (s.chip.tripLoad tripDoubt 0 s.chip.railMa).latchOff tripDoubt }

def execPowerDoubt (s : State) : Host.Outcome State Fault Refusal := .next s.powerDoubt

/-- FEED_LOSS: every feed has been below its warning threshold for 1 µs. -/
def State.feedLoss (s : State) : State :=
  let c := s.chip
  if !c.pwr.standby || !c.feedsLow || c.pwrState == 2 then s
  else ({ s with chip := (c.log .feedLoss []).moduleFog fogFeedLoss 0 } : State).keepWrite keepFeedLoss

def execFeedLoss (s : State) : Host.Outcome State Fault Refusal := .next s.feedLoss

/-- COMPARATOR_SELFTEST: the comparators whose output did not change (0 feed A, 1 feed B, 2 FET temperature, 3 inlet
temperature). Where both causes arise in one test the lower one, POWER_DOUBT, is recorded (R356). -/
def State.selftest (s : State) (failed : List Nat) : State :=
  if !s.chip.pwr.standby then s
  else
    let s := if failed.contains 0 || failed.contains 1 || failed.contains 2 then s.powerDoubt else s
    if failed.contains 3 then
      let c := (s.chip.setBit Reg.SAF_EVENT Bit.SAF_EVENT_SELFTEST_FAIL).log .selftestFail [3]
      { s with chip := c.moduleFog fogSelftest 3 }
    else { s with chip := { s.chip with saf := { s.chip.saf with standing := s.chip.saf.standing.erase fogSelftest } } }

def execComparatorSelftest (failed : List Nat) (s : State) : Host.Outcome State Fault Refusal := .next (s.selftest failed)

/-! ## FOG_N readback (R354) -/

/-- FOG_N_STUCK: the pin has read high for 1 ms while the module drives it low. -/
def Chip.stuckFogN (c : Chip) : Chip :=
  if c.pwr.standby && (c.saf.keeperPull || c.saf.lampPull) then
    let c := { c with saf := { c.saf with pinHigh := true, pinOutside := false } }
    let c := (c.setBit Reg.SAF_STATUS Bit.SAF_STATUS_FOG_N_SENSE).setBit Reg.SAF_EVENT Bit.SAF_EVENT_FOG_N_STUCK
    (c.log .fogNStuck []).moduleFog Sys2Proof.Machine.fogNStuck 0
  else c

def execFogNStuck (s : State) : Host.Outcome State Fault Refusal := .next { s with chip := s.chip.stuckFogN }

/-! ## Fault injection (R366) -/

/-- INJECT is written with GO: one fault of a class waits for its event; LOCKSTEP happens at once. A GO
replaces the one that is pending. After LOCK the write is
ignored, and its record holds the word written (R17). -/
def Chip.injectGo (c : Chip) (ag : Agent) (w : Word) : Chip :=
  if c.flag Reg.SAF_CTRL Bit.SAF_CTRL_LOCK then c.log .rwlIgnored [Reg.INJECT, ag.num] [w.toNat]
  else
    let cls := getF w Bit.INJECT_CLASS
    let p := getF w Bit.INJECT_PORT
    let c := (c.setFld Reg.INJECT Bit.INJECT_CLASS cls).setFld Reg.INJECT Bit.INJECT_PORT p
    let c := c.useInject
    if cls = 7 then c.lockstep
    else if 1 ≤ cls ∧ cls ≤ 8 then { c with saf := { c.saf with inject := some (cls, p) } }.log .injected [cls, p]
    else c

/-- The word that INJECT_GO writes. -/
def injectWord (cls p : Nat) : Word := setF (setF (setF 0 Bit.INJECT_CLASS cls) Bit.INJECT_PORT p) Bit.INJECT_GO 1

def execInjectGo (ag : Agent) (cls p : Nat) (s : State) : Host.Outcome State Fault Refusal :=
  .next { s with chip := s.chip.busWrite ag Reg.INJECT (fun c => c.injectGo ag (injectWord cls p)) }

/-! ## Temperature (R521, R531) -/

/-- Entries of the Outstanding Request Tables in use, in 0.01 % of the module's. -/
def Chip.ortPct (c : Chip) : Nat := c.pci.ort.length * 10000 / 32768

/-- THERMAL_SAMPLE: the quantities that Table 19.8 samples every 100 ms. Temperatures in 0.01 °C, voltages in mV, power in
W. -/
def Chip.thermalSample (c : Chip) (junction inlet feedA feedB : Int) (watts : Nat) : Chip :=
  if !c.keeperRuns || c.pwrState == 2 then c
  else
    let c := (((c.sample 0 junction).sample 1 inlet).sample 2 feedA).sample 3 feedB
    let c := ((c.sample 4 watts).sample 6 (c.dieGran * 10000 / 1048576 : Nat)).sample 7 c.ortPct
    let c := if 10000 < junction then c.log .thermWarn [0] [junction.toNat] else c
    if junction ≤ 10500 then { c with saf := { c.saf with standing := c.saf.standing.erase fogThermal } } else c

/-- A junction beyond the absolute maximum rating of Table 21.1, for which R521 assures nothing, stops the model. -/
def execThermalSample (junction inlet feedA feedB : Int) (watts : Nat) (s : State) : Host.Outcome State Fault Refusal :=
  if 12500 < junction then .fault .beyondAbsoluteMaximum
  else .next { s with chip := s.chip.thermalSample junction inlet feedA feedB watts }

/-- THERMAL_FOG: the junction has been above 105 °C for 1 ms. Every station moves to P2; the lane quads' transmitters are off
with their ports. -/
def Chip.thermalFog (c : Chip) (junction : Int) : Chip :=
  if !c.keeperRuns || c.pwrState == 2 || decide (junction ≤ 10500) then c
  else
    let c := { c with saf := { c.saf with standing := fogThermal :: c.saf.standing.erase fogThermal } }
    let c := (c.setBit Reg.SAF_EVENT Bit.SAF_EVENT_THERMAL).log .thermal [junction.toNat]
    let c := c.moduleFog fogThermal 0
    (List.range 16).foldl (fun c s => c.oppStart s 2) c

def execThermalFog (junction : Int) (s : State) : Host.Outcome State Fault Refusal :=
  if 12500 < junction then .fault .beyondAbsoluteMaximum else .next { s with chip := s.chip.thermalFog junction }

end Sys2Proof.Machine
end

