-- ==== Sys2Proof/Machine/Keeper.lean ====
section
/-!
DEFINITION. The Keeper's commands (R380 to R387): the command ring, the queue that ring and I3C commands share, the entry and
the record of a command, and what every command of Table 13.7 does.
-/
namespace Sys2Proof.Machine

/-! ## Status codes (Table 13.8) -/

def stImgState : Nat := 0x30
def stImgVerifyFail : Nat := 0x31
def stImgRollback : Nat := 0x32
def stImgKeyRevoked : Nat := 0x33
def stAlreadyEnrolled : Nat := 0x36
def stNotAccepted : Nat := 0x37

/-- The CODE of a command. -/
def KCmd.code : KCmd → Nat
  | .nop => 0x01
  | .bind .. => 0x10
  | .bindPeer .. => 0x11
  | .unbindVbr .. => 0x12
  | .unbindFn .. => 0x12
  | .unbindPeer .. => 0x12
  | .setProxy .. => 0x13
  | .setVbrCount .. => 0x14
  | .queryVbr .. => 0x15
  | .queryPeer .. => 0x15
  | .sliceGrant .. => 0x20
  | .sliceRevoke .. => 0x21
  | .imageBegin .. => 0x30
  | .imageWrite .. => 0x31
  | .imageVerify _ => 0x32
  | .imageCommit _ => 0x33
  | .imageActivate => 0x34
  | .imageAccept => 0x35
  | .imageAbort _ => 0x36
  | .opKeyEnroll .. => 0x40
  | .keyRevoke _ => 0x41
  | .setCert .. => 0x42
  | .bad code _ _ => code

/-- The image and key commands, which also arrive on the primary I3C port (R387). -/
def isImageCode (code : Nat) : Bool := decide (0x30 ≤ code ∧ code ≤ 0x36) || decide (0x40 ≤ code ∧ code ≤ 0x42)

/-! ## Host memory (R381) -/

/-- The manager VSI's upstream port is in DL_Active. -/
def Chip.managerLink (c : Chip) : Bool := (c.portOfVsi c.manager).any c.dlUp

/-- The granules of 4 KiB that `len` bytes at `addr` touch: first address and length in each. -/
def granules (addr len : Nat) : List (Nat × Nat) :=
  (List.range (ceilDiv (addr % 4096 + len) 4096)).map (fun i =>
    let a := if i = 0 then addr else addr / 4096 * 4096 + i * 4096
    (a, min (addr + len) (addr / 4096 * 4096 + (i + 1) * 4096) - a))

/-- One granule, as an access of the manager VSI (R333). Copies in doubt place the module in Fog. -/
def Chip.readGranule (c : Chip) (x : Nat × Nat) : Chip × Bool :=
  match c.relayPath c.manager { kind := .mrd, addr := x.1, len := x.2 } with
  | none => (c, false)
  | some r =>
    let st := portStation r.port
    match c.secCheck st r.a false with
    | .allowed _ => (c.emit (.hostRead c.manager x.1 x.2), true)
    | .denied _ => (c, false)
    | .doubt d hits => (c.secDoubt d hits x.1 st, false)

/-- The Keeper reads host memory of the manager VSI. -/
def Chip.managerRead (c : Chip) (addr len : Nat) : Chip × Bool :=
  if !c.managerLink then (c, false)
  else (granules addr len).foldl (fun (r : Chip × Bool) x => if r.2 then r.1.readGranule x else r) (c, true)

/-- `len` bytes that a command takes: `data` holds what the read returns. -/
def Chip.takeData (c : Chip) (addr len : Nat) (data : List Byte) : Chip × Option (List Byte) :=
  let r := c.managerRead addr len
  if r.2 && decide (len ≤ data.length) then (r.1, some (data.take len)) else (r.1, none)

/-! ## Image and key commands (R370, R371, R385, R389) -/

def kBad : KAns := { status := stBadParam }
def kImgState : KAns := { status := stImgState }

/-- IMAGE_BEGIN: the inactive slot is erased in blocks of 64 KiB. -/
def State.imageBegin (s : State) (kind len : Nat) : State × KAns :=
  if 2 ≤ kind ∨ len = 0 ∨ slotSize kind < len then (s, kBad)
  else if s.chip.kStage kind = stVerified then (s, kImgState)
  else
    let slot := s.chip.inactive s.flash kind
    ({ s with chip := s.chip.setKStage kind stWriting
              flash := Flash.erase s.flash (slotBase kind slot) (ceilDiv len 0x10000 * 0x10000) }, kOk)

/-- IMAGE_WRITE: from host memory, or on I3C up to 1,024 bytes behind the entry. -/
def State.imageWrite (s : State) (mctp : Bool) (kind off len addr : Nat) (data : List Byte) : State × KAns :=
  if 2 ≤ kind ∨ len = 0 ∨ 1048576 < len ∨ slotSize kind < off + len then (s, kBad)
  else if s.chip.kStage kind ≠ stWriting then (s, kImgState)
  else
    let r : Chip × Option (List Byte) :=
      if mctp then (s.chip, if len ≤ 1024 ∧ len ≤ data.length then some (data.take len) else none)
      else s.chip.takeData addr len data
    match r.2 with
    | some b => ({ s with chip := r.1, flash := Flash.program s.flash (slotBase kind (r.1.inactive s.flash kind) + off) b }, kOk)
    | none => ({ s with chip := r.1 }, kBad)

/-- IMAGE_VERIFY: the checks of R373 or R377 on the inactive slot. -/
def State.imageVerify (s : State) (kind : Nat) : State × KAns :=
  if 2 ≤ kind then (s, kBad)
  else if s.chip.kStage kind ≠ stWriting then (s, kImgState)
  else
    let slot := s.chip.inactive s.flash kind
    let n := if kind = 0 then s.chip.fwCheck s.flash slot else s.chip.llCheck s.flash slot
    if n = 5 then (s, { status := stImgRollback, result := [5] })
    else if n = 6 then (s, { status := stImgKeyRevoked, result := [6] })
    else if n ≠ 0 then (s, { status := stImgVerifyFail, result := [n] })
    else
      let c := s.chip.setKStage kind stVerified
      if kind = 0 then
        let i := fwImgAt s.flash slot
        ({ s with chip := { c with kpr := { c.kpr with fwVerified := i.digest } } },
          { status := 0, result := leBytes 4 i.version ++ [i.svn, 0, 0, 0] ++ i.digest.take 16 })
      else
        let l := lightListOf s.flash slot
        ({ s with chip := c }, { status := 0, result := leBytes 4 l.serial ++ [0, 0, 0, 0] ++ l.digest.take 16 })

/-- A KIND has been committed: it returns to IDLE. -/
def Chip.commitKind (c : Chip) (kind : Nat) : Chip :=
  { c with kpr := { c.kpr with committed := kind :: c.kpr.committed.erase kind } }.setKStage kind stIdle

/-- IMAGE_COMMIT: the next commit record. Without a record in force the running slots and DIGEST stand for what it would
name. -/
def State.imageCommit (s : State) (mask : Nat) : State × KAns :=
  let kinds := bitsSet mask 2
  let c := s.chip
  if !(kinds.all (fun k => c.kStage k == stVerified)) then (s, kImgState)
  else
    let now := commitNow s.flash
    let seq := match now with
      | some r => (r.seq + 1) % 2 ^ 32
      | none => 1
    let old : Nat × Nat × List Nat := match now with
      | some r => (r.fwSlot, r.llSlot, r.digest)
      | none => (c.fld Reg.KPR_STATUS Bit.KPR_STATUS_FW_SLOT, c.fld Reg.KPR_STATUS Bit.KPR_STATUS_LL_SLOT, c.kpr.fwDigest)
    let fw := kinds.contains 0
    let fwSlot := if fw then c.inactive s.flash 0 else old.1
    let llSlot := if kinds.contains 1 then c.inactive s.flash 1 else old.2.1
    let digest := if fw then c.kpr.fwVerified else old.2.2
    ({ s with chip := kinds.foldl (fun (c : Chip) k => c.commitKind k) c
              flash := commitWrite s.flash seq fwSlot llSlot digest }, { status := 0, result := leBytes 4 seq })

/-- IMAGE_ACCEPT: SVN fuses up to the running image's SVN. -/
def Chip.imageAccept (c : Chip) : Chip × KAns :=
  if c.flag Reg.KPR_STATUS Bit.KPR_STATUS_FALLBACK then (c, { status := stNotAccepted })
  else
    let c := { c with kpr := { c.kpr with svn := max c.kpr.svn c.kpr.fwSvn } }.syncFuses
    (c, { status := 0, result := [c.kpr.svn] })

def Chip.imageAbort (c : Chip) (kind : Nat) : Chip × KAns :=
  if 2 ≤ kind then (c, kBad) else (c.setKStage kind stIdle, kOk)

/-- OP_KEY_ENROLL (R371). -/
def Chip.opKeyEnroll (c : Chip) (kind addr : Nat) (key : List Byte) : Chip × KAns :=
  if 2 ≤ kind then (c, kBad)
  else
    let r := c.takeData addr 1793 key
    match r.2 with
    | none => (r.1, kBad)
    | some k =>
      match (if kind = 0 then freeSlot c.kpr.opLl0 c.kpr.opLl1 else freeSlot c.kpr.opDbg0 c.kpr.opDbg1) with
      | none => (r.1, { status := stAlreadyEnrolled })
      | some slot => (r.1.enroll kind slot k, { status := 0, result := [slot] })

/-- KEY_REVOKE: not the key of the running image. -/
def Chip.keyRevoke (c : Chip) (k : Nat) : Chip × KAns :=
  if 2 ≤ k ∨ c.kpr.fwKey = k then (c, kBad)
  else
    let r := if bitOf c.kpr.revoke k then c.kpr.revoke else c.kpr.revoke + 2 ^ k
    ({ c with kpr := { c.kpr with revoke := r } }.syncFuses, kOk)

/-- A chain of 1 to 32,768 bytes goes into certificate slot 1 when its leaf carries the identity public key (R389). -/
def State.putCert (s : State) (chain : List Byte) : State × Bool :=
  if chain.length = 0 ∨ 32768 < chain.length then (s, false)
  else if Config.leafKey chain = Config.identityKey s.chip.kpr.idSeed then
    ({ s with flash := Flash.program (Flash.erase s.flash certSlot1 32768) certSlot1 chain }, true)
  else (s, false)

def State.setCert (s : State) (addr len : Nat) (cert : List Byte) : State × KAns :=
  if len = 0 ∨ 32768 < len then (s, kBad)
  else
    let r := s.chip.takeData addr len cert
    let s := { s with chip := r.1 }
    match r.2 with
    | none => (s, kBad)
    | some b =>
      let x := s.putCert b
      if x.2 then (x.1, kOk) else (x.1, kBad)

/-! ## Running a command -/

def kBindFn (v vbr kind target prid devfn peer : Nat) (wins : List (Nat × Nat)) (bars : List (Nat × Nat × Nat))
    (fn : FnInfo) : BindFn := { v, vbr, kind, target, prid, devfn, peer, wins, bars, fn }

/-- BIND by its KIND. -/
def Chip.bindAny (c : Chip) (b : BindFn) : Chip × Option KAns :=
  if b.kind = 1 then
    (match c.localTarget b with
     | some p => let r := c.bindPort b.v b.vbr p; (r.1, some r.2)
     | none => (c, some (kErr stBadParam 8)))
  else if b.kind = 2 ∨ b.kind = 3 then c.bindFn b
  else (c, some (kErr stBadParam 6))

/-- The first slice that a grant or a revoke stops at. -/
def Chip.sliceStop (c : Chip) (grant : Bool) (first count : Nat) : Nat :=
  ((sliceRange first count).find? (fun s =>
    if grant then c.slState s != sUngranted
    else c.slState s == sActive || ((c.slState s == sDraining || c.slState s == sHalted) && c.inflight s != 0))).getD first

/-- The answer of a slice command. -/
def Chip.sliceAns (c : Chip) (grant : Bool) (first count : Nat) (r : Chip × Nat) : Chip × Option KAns :=
  let named := r.2 == stSliceTaken || r.2 == stNotDrained
  (r.1, some { status := r.2, result := if named then leBytes 2 (c.sliceStop grant first count) else [] })

/-- A grant opens the Relay's gate (Table 16.3). -/
def Chip.relayGateOpen (c : Chip) : Chip := c.openGate 0x2000000

/-- Some answer and the chip it leaves. -/
def kDone (r : Chip × KAns) : Chip × Option KAns := (r.1, some r.2)

/-- The action of a command. No answer: its action is not complete. -/
def State.runK (s : State) (h : KHead) (k : KCmd) : State × Option KAns :=
  let c := s.chip
  let chip := fun (r : Chip × Option KAns) => (({ s with chip := r.1 } : State), r.2)
  let flash := fun (r : State × KAns) => (r.1, some r.2)
  match k with
  | .nop => (s, some kOk)
  | .bind v vbr kind target prid devfn peer wins bars fn =>
    chip (c.bindAny (kBindFn v vbr kind target prid devfn peer wins bars fn))
  | .bindPeer port prid ownerFa ownerVsi proxy bars pf =>
    chip (c.bindPeer { port, prid, ownerFa, ownerVsi, proxy, bars, pf })
  | .unbindVbr v vbr => chip (c.unbindVbr v vbr)
  | .unbindFn v vbr devfn => chip (c.unbindFn v vbr devfn)
  | .unbindPeer port prid => chip (c.unbindPeer port prid)
  | .setProxy v enable => chip (kDone (c.setProxy v enable))
  | .setVbrCount v n => chip (kDone (c.setVbrCount v n))
  | .queryVbr v vbr devfn => chip (c, some (c.queryVbr v vbr devfn))
  | .queryPeer port prid => chip (c, some (c.queryPeer port prid))
  | .sliceGrant v first count => chip (c.sliceAns true first count (c.relayGateOpen.sliceGrant v first count))
  | .sliceRevoke first count => chip (c.sliceAns false first count (c.sliceRevoke first count))
  | .imageBegin kind len => flash (s.imageBegin kind len)
  | .imageWrite kind off len addr data => flash (s.imageWrite h.mctp kind off len addr data)
  | .imageVerify kind => flash (s.imageVerify kind)
  | .imageCommit mask => flash (s.imageCommit mask)
  | .imageActivate => (s, some kOk)
  | .imageAccept => chip (kDone c.imageAccept)
  | .imageAbort kind => chip (kDone (c.imageAbort kind))
  | .opKeyEnroll kind addr key => chip (kDone (c.opKeyEnroll kind addr key))
  | .keyRevoke n => chip (kDone (c.keyRevoke n))
  | .setCert addr len cert => flash (s.setCert addr len cert)
  | .bad _ status field => (s, some { status, result := [field] })

/-! ## Records (Table 13.6, R382, R383) -/

def Chip.crSize (c : Chip) : Nat := 2 ^ c.fld Reg.CR_CTRL Bit.CR_CTRL_SQ_LOG2
def Chip.crCqSize (c : Chip) : Nat := 2 ^ c.fld Reg.CR_CTRL Bit.CR_CTRL_CQ_LOG2
def Chip.crOn (c : Chip) : Bool := c.flag Reg.CR_CTRL Bit.CR_CTRL_EN

/-- The ring stops with CR_FAULT: a fetch or a record write has failed. -/
def Chip.crFault (c : Chip) : Chip := c.crStop.setBit Reg.KPR_EVENT Bit.KPR_EVENT_CR_FAULT

/-- The 32 bytes of a record. -/
def recordOfK (code phase tag : Nat) (a : KAns) : List Nat :=
  [code, phase] ++ leBytes 2 tag ++ [a.status, 0, 0, 0] ++ (a.result ++ List.replicate 24 0).take 24

/-- The record of a completed command: to the completion ring, to the I3C port, or, when the ring has stopped, into
LAST_CMD. -/
def Chip.recordK (c : Chip) (h : KHead) (k : KCmd) (a : KAns) : Chip :=
  if h.mctp then c.emit (.mctp 0 (recordOfK k.code 0 h.tag a))
  else if c.kpr.noRecord || !c.crOn then
    let c := { c with kpr := { c.kpr with noRecord := false } }
    c.wr Reg.LAST_CMD (BitVec.ofNat 32 (h.tag % 65536 + k.code % 256 * 65536 + a.status % 256 * 2 ^ 24))
  else if !c.managerLink then c.crFault
  else
    let n := c.kpr.cqWritten
    let addr := c.pair Reg.CR_CQ_BASE_LO Reg.CR_CQ_BASE_HI + 32 * (n % c.crCqSize)
    let phase := (n / c.crCqSize + 1) % 2
    let c := c.emit (.hostWrite c.manager addr (recordOfK k.code phase h.tag a))
    let c := { c with kpr := { c.kpr with cqWritten := (n + 1) % 2 ^ 16 } }
    if h.intr then c.msix c.manager (c.fld Reg.CR_CTRL Bit.CR_CTRL_CR_VEC) else c

/-- An entry of the ring has been fetched (R380). -/
def Chip.fetchedK (c : Chip) (h : KHead) : Chip :=
  if h.mctp then c else { c with kpr := { c.kpr with sqFetched := (c.kpr.sqFetched + 1) % 2 ^ 16 } }

/-- A command has completed: its record, and for IMAGE_ACTIVATE the Keeper reset behind it. -/
def State.endK (s : State) (h : KHead) (k : KCmd) (a : KAns) : State :=
  let c := { s.chip with kpr := { s.chip.kpr with busy := none } }.recordK h k a
  { s with chip := if k = .imageActivate then c.keeperReset 4 else c }

/-- A command whose action is complete as it begins: its entry has been fetched, and it ends. -/
def State.finishK (s : State) (h : KHead) (k : KCmd) (a : KAns) : State :=
  ({ s with chip := s.chip.fetchedK h } : State).endK h k a

/-- One command begins. -/
def State.startK (s : State) (h : KHead) (k : KCmd) : State :=
  let r := s.runK h k
  match r.2 with
  | some a => r.1.finishK h k a
  | none =>
    let c := r.1.chip.fetchedK h
    { r.1 with chip := { c with kpr := { c.kpr with busy := some (h, k) } } }

/-- Commands that waited run in arrival order, until one is not complete. -/
def State.drainK : Nat → State → State
  | 0, s => s
  | n + 1, s =>
    if s.chip.kpr.busy.isSome then s
    else match s.chip.kpr.queue with
      | [] => s
      | (h, k) :: rest =>
        State.drainK n (({ s with chip := { s.chip with kpr := { s.chip.kpr with queue := rest } } } : State).startK h k)

/-- A command arrives: it runs now, or waits behind the one that runs. -/
def State.submitK (s : State) (h : KHead) (k : KCmd) : State :=
  if s.chip.kpr.busy.isSome then
    { s with chip := { s.chip with kpr := { s.chip.kpr with queue := s.chip.kpr.queue ++ [(h, k)] } } }
  else s.startK h k

/-- The command in progress completes with an answer, and the next begin. -/
def State.completeK (s : State) (a : KAns) : State :=
  match s.chip.kpr.busy with
  | some (h, k) =>
    let s := s.endK h k a
    s.drainK s.chip.kpr.queue.length
  | none => s

/-- The Keeper's cores run its firmware. -/
def Chip.keeperServes (c : Chip) : Bool := c.busRuns .keeper && c.keeperRuns && !c.kpr.halted

/-- The Keeper runs in recovery (R378). -/
def Chip.inRecovery (c : Chip) : Bool := c.busRuns .keeper && c.fld Reg.KPR_STATUS Bit.KPR_STATUS_STAGE == 2

/-- The ring may give its next entry: no command is in progress, an entry has been written, and the completion ring has a free slot
for its record (R380, R381). -/
def Chip.ringReady (c : Chip) : Bool :=
  let k := c.kpr
  k.busy.isNone && k.sqSeen != k.sqFetched && decide (modSub (2 ^ 16) k.cqWritten k.cqRead < c.crCqSize)

/-- A command may be run: from the ring while it is enabled, gives an entry and the manager's port is in DL_Active (R239), or an
image or key command on I3C, which recovery also takes. -/
def Chip.admitsK (c : Chip) (h : KHead) (k : KCmd) : Bool :=
  if h.mctp then (c.keeperServes || c.inRecovery) && isImageCode k.code && c.pwr.addrSel.isSome
  else c.keeperServes && c.crOn && c.managerLink && c.ringReady

/-- A command of Table 13.7 as the Keeper runs it. -/
def State.command (s : State) (h : KHead) (k : KCmd) : State := if s.chip.admitsK h k then s.submitK h k else s

def execNop (h : KHead) (s : State) : Host.Outcome State Fault Refusal := .next (s.command h .nop)

def execBind (h : KHead) (v vbr kind target prid devfn peer : Nat) (wins : List (Nat × Nat)) (bars : List (Nat × Nat × Nat))
    (fn : FnInfo) (s : State) : Host.Outcome State Fault Refusal :=
  .next (s.command h (.bind v vbr kind target prid devfn peer wins bars fn))

def execBindPeer (h : KHead) (port prid ownerFa ownerVsi proxy : Nat) (bars : List (Nat × Nat)) (pf : Option Nat) (s : State) :
    Host.Outcome State Fault Refusal := .next (s.command h (.bindPeer port prid ownerFa ownerVsi proxy bars pf))

/-- UNBIND by its FORM (Table 13.23). -/
def unbindCmd (form v vbr devfn port prid : Nat) : KCmd :=
  if form = 0 then .unbindVbr v vbr
  else if form = 1 then .unbindFn v vbr devfn
  else if form = 2 then .unbindPeer port prid
  else .bad 0x12 stBadParam 4

def execUnbind (h : KHead) (form v vbr devfn port prid : Nat) (s : State) : Host.Outcome State Fault Refusal :=
  .next (s.command h (unbindCmd form v vbr devfn port prid))

def execSetProxy (h : KHead) (v : Nat) (enable : Bool) (s : State) : Host.Outcome State Fault Refusal :=
  .next (s.command h (.setProxy v enable))

def execSetVbrCount (h : KHead) (v n : Nat) (s : State) : Host.Outcome State Fault Refusal :=
  .next (s.command h (.setVbrCount v n))

/-- QUERY_BIND by its FORM. -/
def queryCmd (form v vbr devfn port prid : Nat) : KCmd :=
  if form = 0 then .queryVbr v vbr devfn
  else if form = 1 then .queryPeer port prid
  else .bad 0x15 stBadParam 0

def execQueryBind (h : KHead) (form v vbr devfn port prid : Nat) (s : State) : Host.Outcome State Fault Refusal :=
  .next (s.command h (queryCmd form v vbr devfn port prid))

def execSliceGrant (h : KHead) (v first count : Nat) (s : State) : Host.Outcome State Fault Refusal :=
  .next (s.command h (.sliceGrant v first count))

def execSliceRevoke (h : KHead) (first count : Nat) (s : State) : Host.Outcome State Fault Refusal :=
  .next (s.command h (.sliceRevoke first count))

def execImageBegin (h : KHead) (kind len : Nat) (s : State) : Host.Outcome State Fault Refusal :=
  .next (s.command h (.imageBegin kind len))

def execImageWrite (h : KHead) (kind off len addr : Nat) (data : List Byte) (s : State) : Host.Outcome State Fault Refusal :=
  .next (s.command h (.imageWrite kind off len addr data))

def execImageVerify (h : KHead) (kind : Nat) (s : State) : Host.Outcome State Fault Refusal :=
  .next (s.command h (.imageVerify kind))

def execImageCommit (h : KHead) (mask : Nat) (s : State) : Host.Outcome State Fault Refusal :=
  .next (s.command h (.imageCommit mask))

def execImageActivate (h : KHead) (s : State) : Host.Outcome State Fault Refusal := .next (s.command h .imageActivate)

def execImageAccept (h : KHead) (s : State) : Host.Outcome State Fault Refusal := .next (s.command h .imageAccept)

def execImageAbort (h : KHead) (kind : Nat) (s : State) : Host.Outcome State Fault Refusal :=
  .next (s.command h (.imageAbort kind))

def execOpKeyEnroll (h : KHead) (kind addr : Nat) (key : List Byte) (s : State) : Host.Outcome State Fault Refusal :=
  .next (s.command h (.opKeyEnroll kind addr key))

def execKeyRevoke (h : KHead) (k : Nat) (s : State) : Host.Outcome State Fault Refusal := .next (s.command h (.keyRevoke k))

def execSetCert (h : KHead) (addr len : Nat) (cert : List Byte) (s : State) : Host.Outcome State Fault Refusal :=
  .next (s.command h (.setCert addr len cert))

/-! ## Entries (Tables 13.6 and 13.23) -/

/-- The PARAM bytes that Table 13.23 names for a CODE; none for an unknown one. -/
def namedParams (code : Nat) : Option (List Nat) :=
  let r := fun (a b : Nat) => (List.range (b + 1 - a)).map (a + ·)
  if code = 0x01 ∨ code = 0x34 ∨ code = 0x35 then some []
  else if code = 0x10 then some ([4, 5, 6] ++ r 8 27)
  else if code = 0x11 then some (4 :: r 6 13)
  else if code = 0x12 ∨ code = 0x15 then some (r 4 8 ++ [10, 11])
  else if code = 0x13 then some [4, 5]
  else if code = 0x14 then some [4, 6, 7]
  else if code = 0x20 then some (4 :: r 6 9)
  else if code = 0x21 then some (r 6 9)
  else if code = 0x30 then some (4 :: r 8 11)
  else if code = 0x31 then some (4 :: r 8 23)
  else if code = 0x32 ∨ code = 0x33 ∨ code = 0x36 ∨ code = 0x41 then some [4]
  else if code = 0x40 then some (4 :: r 8 15)
  else if code = 0x42 then some (r 8 19)
  else none

/-- The command of an entry. `bars`, `fn` and `data` are what it reads from outside. -/
def entryCmd (b : List Byte) (bars : List (Nat × Nat × Nat)) (fn : FnInfo) (data : List Byte) : KCmd :=
  let code := leNat b 0 1
  let n := fun (o k : Nat) => leNat b o k
  match namedParams code with
  | none => .bad code stBadCmd 0
  | some ps =>
    if (List.range 60).any (fun i => !ps.contains (4 + i) && n (4 + i) 1 != 0) then .bad code stBadParam 0
    else if code = 0x01 then .nop
    else if code = 0x10 then
      let wins := (List.range 6).filterMap (fun i =>
        let w := n (16 + 2 * i) 2
        if bitOf w 15 then some (i, w % 8192) else none)
      .bind (n 4 1 % 64) (n 5 1) (n 6 1) (n 8 4 % 2 ^ 25) (n 12 2) (n 14 1) (n 15 1 % 64) wins bars fn
    else if code = 0x11 then
      .bindPeer (n 4 1 % 128) (n 6 2) (n 8 4 % 2 ^ 25) (n 12 1 % 64) (n 13 1 % 64) (bars.map (·.2)) fn.pf
    else if code = 0x12 then unbindCmd (n 4 1) (n 5 1 % 64) (n 6 1) (n 7 1) (n 8 1 % 128) (n 10 2)
    else if code = 0x13 then .setProxy (n 4 1 % 64) (bitOf (n 5 1) 0)
    else if code = 0x14 then .setVbrCount (n 4 1 % 64) (n 6 2)
    else if code = 0x15 then queryCmd (n 4 1) (n 5 1 % 64) (n 6 1) (n 7 1) (n 8 1 % 128) (n 10 2)
    else if code = 0x20 then .sliceGrant (n 4 1 % 64) (n 6 2) (n 8 2)
    else if code = 0x21 then .sliceRevoke (n 6 2) (n 8 2)
    else if code = 0x30 then .imageBegin (n 4 1) (n 8 4)
    else if code = 0x31 then .imageWrite (n 4 1) (n 8 4) (n 12 4) (n 16 8) data
    else if code = 0x32 then .imageVerify (n 4 1)
    else if code = 0x33 then .imageCommit (n 4 1)
    else if code = 0x34 then .imageActivate
    else if code = 0x35 then .imageAccept
    else if code = 0x36 then .imageAbort (n 4 1)
    else if code = 0x40 then .opKeyEnroll (n 4 1) (n 8 8) data
    else if code = 0x41 then .keyRevoke (n 4 1)
    else .setCert (n 8 8) (n 16 4) data

/-- TAG and INTR of an entry. -/
def entryHead (b : List Byte) (mctp : Bool) : KHead := { tag := leNat b 2 2, intr := bitOf (leNat b 1 1) 0, mctp }

/-- A command that waited for a translated FLR is tried again: it answers, or waits on. -/
def State.retryK (s : State) (r : Chip × Option KAns) : State :=
  match r.2 with
  | some a => ({ s with chip := r.1 } : State).completeK a
  | none => s

/-- An UNBIND in progress whose functions are gone completes; a BIND of a local function, a BIND_PEER and an UNBIND of a PEER
binding whose FLR is over go on (R256). -/
def State.pumpK (s : State) : State :=
  match s.chip.kpr.busy with
  | some (_, .bind v vbr kind target prid devfn peer wins bars fn) =>
    if s.chip.faHere target then s.retryK (s.chip.bindAny (kBindFn v vbr kind target prid devfn peer wins bars fn)) else s
  | some (_, .bindPeer port prid ownerFa ownerVsi proxy bars pf) =>
    s.retryK (s.chip.bindPeer { port, prid, ownerFa, ownerVsi, proxy, bars, pf })
  | some (_, .unbindVbr v i) => if s.chip.unbindDone v i none then s.completeK kOk else s
  | some (_, .unbindFn v i d) => if s.chip.unbindDone v i (some d) then s.completeK kOk else s
  | some (_, .unbindPeer p prid) => s.retryK (s.chip.unbindPeer p prid)
  | _ => s

/-- The next entry of the ring, when a slot is free for its record (R380). `entry` is what the read of host memory returns; none
when the fetch fails. -/
def State.fetchK (s : State) (entry : Option (List Byte)) (bars : List (Nat × Nat × Nat)) (fn : FnInfo) (data : List Byte) :
    State :=
  let c := s.chip
  let k := c.kpr
  if !c.keeperServes || !c.crOn || !c.ringReady then s
  else
    let addr := c.pair Reg.CR_SQ_BASE_LO Reg.CR_SQ_BASE_HI + 64 * (k.sqFetched % c.crSize)
    let c := c.emit (.hostRead c.manager addr 64)
    match (if c.managerLink then entry else none) with
    | none => { s with chip := c.crFault }
    | some b =>
      ({ s with chip := c } : State).submitK (entryHead b false) (entryCmd b bars fn data)

/-- KEEPER_COMMAND_FETCH: an UNBIND that can go on does, then the next entry is fetched. -/
def execKeeperCommandFetch (entry : Option (List Byte)) (bars : List (Nat × Nat × Nat)) (fn : FnInfo) (data : List Byte)
    (s : State) : Host.Outcome State Fault Refusal := .next (s.pumpK.fetchK entry bars fn data)

/-- MCTP_COMMAND_RECEIVED: a 64-byte entry on the primary I3C port; up to 1,024 data bytes follow an IMAGE_WRITE. Only image
and key commands arrive this way; any other CODE is unknown here. -/
def State.mctpCommand (s : State) (entry data : List Byte) : State :=
  let c := s.chip
  if !((c.keeperServes || c.inRecovery) && c.pwr.addrSel.isSome) then s
  else
    let k := entryCmd entry [] {} data
    s.submitK (entryHead entry true) (if isImageCode k.code then k else .bad k.code stBadCmd 0)

def execMctpCommandReceived (entry data : List Byte) (s : State) : Host.Outcome State Fault Refusal :=
  .next (s.mctpCommand entry data)

/-! ## The ring's registers (R380, R383) -/

/-- EN is set: the ring starts from its first entry. -/
def Chip.crEnable (c : Chip) : Chip :=
  if c.crOn then c
  else
    let k := c.kpr
    ({ c with kpr := { k with sqSeen := 0, sqFetched := 0, cqWritten := 0, cqRead := 0 } }).setBit Reg.CR_CTRL Bit.CR_CTRL_EN

def execCrEnable (ag : Agent) (s : State) : Host.Outcome State Fault Refusal :=
  .next { s with chip := s.chip.busWrite ag Reg.CR_CTRL (fun c => c.crEnable) }

def execCrDisable (ag : Agent) (s : State) : Host.Outcome State Fault Refusal :=
  .next { s with chip := s.chip.busWrite ag Reg.CR_CTRL (fun c => if c.crOn then c.crStop else c) }

/-- CR_DB: entries written and records consumed since EN was set. -/
def Chip.crDoorbell (c : Chip) (sq cq : Nat) : Chip :=
  if !c.crOn then c
  else
    let k := c.kpr
    let took := modSub (2 ^ 16) cq k.cqRead ≤ modSub (2 ^ 16) k.cqWritten k.cqRead
    let k := if took then { k with cqRead := cq % 2 ^ 16 } else k
    let c := { c with kpr := k }
    if ahead16 sq k.sqSeen && decide (modSub (2 ^ 16) sq k.sqFetched ≤ c.crSize) then
      { c with kpr := { k with sqSeen := sq % 2 ^ 16 } }
    else c.setBit Reg.KPR_EVENT Bit.KPR_EVENT_DB_RANGE

def execCrDb (ag : Agent) (sq cq : Nat) (s : State) : Host.Outcome State Fault Refusal :=
  .next { s with chip := s.chip.busWrite ag Reg.CR_DB (fun c => c.crDoorbell sq cq) }

/-! ## Commands that take time (R254, R255, R262) -/

def execFlrQuiesceDone (v vbr devfn : Nat) (s : State) : Host.Outcome State Fault Refusal :=
  .next ({ s with chip := s.chip.flrQuiesceDone v vbr devfn } : State).pumpK

def execQuiesceTimeout (v vbr devfn : Nat) (s : State) : Host.Outcome State Fault Refusal :=
  .next ({ s with chip := s.chip.quiesceExpiry v vbr devfn } : State).pumpK

/-- BIND_PROBE_RETRY: the probe of a function that BIND waits for; BIND completes with it. -/
def State.probeRetry (s : State) (v vbr devfn : Nat) : State :=
  let gone := (s.chip.hostAt v vbr devfn).isNone
  let r := s.chip.probeStep v vbr devfn
  let s := { s with chip := r.1 }
  match s.chip.kpr.busy with
  | some (_, .bind bv bi _ _ _ bd _ _ _ _) =>
    if bv = v ∧ bi = vbr ∧ bd = devfn then
      (match r.2 with
       | some a => s.completeK a
       | none => if gone then s.completeK (kErr stProbeFail 8) else s)
    else s
  | _ => s

def execBindProbeRetry (v vbr devfn : Nat) (s : State) : Host.Outcome State Fault Refusal := .next (s.probeRetry v vbr devfn)

end Sys2Proof.Machine
end

