-- ==== Sys2Proof/Machine/KBoot.lean ====
section
/-!
DEFINITION. The boot of the Keeper (R376 to R378, R405, R407), the start of the islands and the end of BOOT (R354, R358, R409
to R411), SPDM (R389 to R391), and the debug port (R392 to R394, R483).
-/
namespace Sys2Proof.Machine

/-! ## The image that runs (steps 2 to 4 of Table 13.5) -/

/-- The firmware slot that boots, and whether it is the fallback; none when both fail. -/
def State.bootSlot (s : State) : Option (Nat × Bool) :=
  let c := s.chip
  let want := match commitNow s.flash with
    | some r => (r.fwSlot, some r.digest)
    | none => (0, none)
  let named := match want.2 with
    | some d => (fwImgAt s.flash want.1).digest == d
    | none => true
  if c.fwCheck s.flash want.1 = 0 ∧ named = true then some (want.1, false)
  else if c.fwCheck s.flash (1 - want.1) = 0 then some (1 - want.1, true)
  else none

/-- The Light List slot that is taken, and whether it is the fallback (step 6). -/
def State.bootLl (s : State) : Option (Nat × Bool) :=
  let want := match commitNow s.flash with
    | some r => r.llSlot
    | none => 0
  if s.chip.llCheck s.flash want = 0 then some (want, false)
  else if s.chip.llCheck s.flash (1 - want) = 0 then some (1 - want, true)
  else none

/-- The running image in the registers. -/
def Chip.takeFw (c : Chip) (m : SMap Byte) (slot : Nat) (fell : Bool) : Chip :=
  let i := fwImgAt m slot
  let c := (c.setFld Reg.KPR_STATUS Bit.KPR_STATUS_FW_SLOT slot).setFld Reg.KPR_STATUS Bit.KPR_STATUS_FALLBACK (b2n fell)
  let c := c.wr Reg.FW_VERSION (BitVec.ofNat 32 i.version)
  { c with kpr := { c.kpr with fwSvn := i.svn, fwKey := i.key, fwDigest := i.digest } }

/-! ## The Light List in force (R402, R403, R405) -/

/-- BREAKER and SENSOR_CAL go to the power-entry controller. A BREAKER section beyond its limits is not written. -/
def Chip.takeBreaker (c : Chip) (l : LightList) : Chip :=
  let c := { c with pwr := { c.pwr with cal := l.cal } }
  let pt := fun (k : Nat) => l.breaker.getD k (0, 0)
  let ok := curveOk (fun k => (pt k).1) (fun k => (pt k).2) &&
    decide (l.retryCount ≤ 15 ∧ 1 ≤ l.retryDelay ∧ l.retryDelay ≤ 600 ∧ 400 ≤ l.warnA ∧ l.warnA ≤ 540 ∧ 400 ≤ l.warnB ∧
      l.warnB ≤ 540)
  if !ok then c.log .llBreakerBad []
  else
    let put := fun (c : Chip) (off : Nat) (w : Word) =>
      { c with pwr := { c.pwr with pweNv := SMap.set c.pwr.pweNv off w (resetWordAt off) } }.wr off w
    let c := (List.range 8).foldl (fun c k =>
      put (put c (Reg.CURVE_T k) (BitVec.ofNat 32 (pt k).1)) (Reg.CURVE_I k) (BitVec.ofNat 32 (pt k).2)) c
    let c := put c Reg.RETRY_CFG (setF (setF (c.pwe Reg.RETRY_CFG) Bit.RETRY_CFG_COUNT l.retryCount) Bit.RETRY_CFG_DELAY
      l.retryDelay)
    put c Reg.WARN_THR (setF (setF (c.pwe Reg.WARN_THR) Bit.WARN_THR_A l.warnA) Bit.WARN_THR_B l.warnB)

/-- The FABRIC and BEACON values, which take effect only at RESET_N or power-on (R423). -/
def Chip.takeFabric (c : Chip) (l : LightList) : Chip :=
  let c := (c.setFld Reg.KND_ID Bit.KND_ID_REACH l.reach).setFld Reg.KND_ID Bit.KND_ID_MODULE l.module
  let c := c.setFld Reg.KND_CTRL Bit.KND_CTRL_HASH_SEED l.seed
  let c := c.setFld Reg.BCN_CTRL Bit.BCN_CTRL_MASTER_CAND (b2n l.masterCand)
  let c := { c with bcn := { c.bcn with settings := l.beacon } }
  let c := (List.range 64).foldl (fun (c : Chip) v => c.setFld (Reg.VSI_ID v) Bit.VSI_ID_VBR_COUNT (nth l.vbrCounts v)) c
  c.setBit (Reg.VSI_ID l.manager) Bit.VSI_ID_MANAGER

/-- The port maps that the stations will read, and the VSI numbers: listed numbers first, then the free ones, in rising order
of the ports (R237, R238). -/
def Chip.assignVsis (c : Chip) (l : LightList) : Chip :=
  let c := ((List.range 16).filter l.stationOk).foldl (fun c s => c.setMap s (l.station s)) c
  let c := { c with goodMap := c.map }
  c.takeVsis l (c.allPorts.filter (fun p => (c.port p).up))

/-! ## Step 7: the islands (Table 15.1) -/

/-- The Tower leaves reset with its pointers (R53). -/
def Chip.towerStart (c : Chip) : Chip :=
  let o := c.fld Reg.TWR_CTRL Bit.TWR_CTRL_PLANE1_OFFSET
  let p0 := List.range 16
  let p1 := p0.map (fun i => (i + o) % 16)
  { c with sw := { c.sw with g0 := p0, a0 := p0, g1 := p1, a1 := p1 } }.setBit Reg.START_STATUS Bit.START_STATUS_TOWER

/-- An island that has not started starts: 80 Tower, 81 Mooring, 82 Relay, 83 to 86 the LPDDR6 controllers, 87 Beacon. -/
def Chip.islandStart (c : Chip) (i : Nat) : Chip :=
  if i = 80 then (if c.flag Reg.START_STATUS Bit.START_STATUS_TOWER then c else c.towerStart)
  else if i = 81 then c.setBit Reg.START_STATUS Bit.START_STATUS_MOORING
  else if i = 82 then c.setBit Reg.START_STATUS Bit.START_STATUS_RELAY
  else if i < 87 then c.putBit Reg.START_STATUS Bit.START_STATUS_MC (i - 83) true
  else c.setBit Reg.START_STATUS Bit.START_STATUS_BEACON

def islandsToStart : List Nat := [80, 81, 82, 83, 84, 85, 86, 87]

def Chip.islandUp (c : Chip) (i : Nat) : Bool :=
  if i = 80 then c.flag Reg.START_STATUS Bit.START_STATUS_TOWER
  else if i = 81 then c.flag Reg.START_STATUS Bit.START_STATUS_MOORING
  else if i = 82 then c.flag Reg.START_STATUS Bit.START_STATUS_RELAY
  else if i < 87 then c.fldBit Reg.START_STATUS Bit.START_STATUS_MC (i - 83)
  else c.flag Reg.START_STATUS Bit.START_STATUS_BEACON

/-- Step 9 of Table 15.1: every island that has not started, those of `missing` apart, and every station that has not. -/
def Chip.startIslands (c : Chip) (missing : List Nat) : Chip :=
  let todo := islandsToStart.filter (fun i => !missing.contains i && !c.islandUp i)
  let c := (todo.foldl Chip.islandStart c).arm .islandStart (50 * ms)
  let st := (List.range 16).filter (fun s => !c.fldBit Reg.START_STATUS Bit.START_STATUS_STATION s &&
    !c.fldBit Reg.STN_RESET Bit.STN_RESET_BUSY s)
  { c with pwr := { c.pwr with starting := st } }

/-! ## The end of module Fog at a boot (R358) -/

/-- Both working copies of every compared table are reloaded from the Keeper's reference image. -/
def Chip.reloadTables (c : Chip) : Chip := { c with tabA := c.tabRef, tabB := c.tabRef, saf := { c.saf with secDev := [] } }

/-- The causes of module scope whose condition is present (Table 12.3), lowest first. -/
def Chip.causesLeft (c : Chip) : List Nat :=
  (if c.feedsLow then [fogFeedLoss] else []) ++
    (if c.flag Reg.SAF_STATUS Bit.SAF_STATUS_POWER_DOUBT then [fogPowerDoubt] else []) ++
    (if c.saf.pinHigh then [Sys2Proof.Machine.fogNStuck] else []) ++
    (if [80, 83, 84, 85, 86, 88].all c.clocked then [] else [fogIslandClock]) ++
    (if c.saf.standing.contains fogThermal then [fogThermal] else [])

/-- The cause that a self-test of the comparators gives (R364), the lower one first (R356). -/
def cmpCause (failed : List Nat) : Option Nat :=
  if failed.any (fun k => decide (k ≤ 2)) then some fogPowerDoubt
  else if failed.contains 3 then some fogSelftest else none

/-- The checks of a FOG_RELEASE after the boot: `failed` are the comparators whose self-test fails. A check that fails, or a cause
whose condition remains, becomes the cause of the Fog. In BOOT, which ends as R411 states, they end what holds it. -/
def Chip.fogChecks (c : Chip) (failed : List Nat) : Chip :=
  if !c.kpr.fogRelease then c
  else
    let c := { c with kpr := { c.kpr with fogRelease := false } }
    let c := { c with saf := { c.saf with standing := c.saf.standing.filter (· == fogThermal) } }
    if !c.inModFog then c
    else if c.bootFog then c.reloadTables
    else
      let c := c.reloadTables
      match cmpCause failed with
      | some k => c.setFld Reg.MOD_FOG_CAUSE Bit.MOD_FOG_CAUSE_CAUSE k
      | none =>
        match c.causesLeft with
        | k :: _ => c.setFld Reg.MOD_FOG_CAUSE Bit.MOD_FOG_CAUSE_CAUSE k
        | [] =>
          let hot := c.fld Reg.MOD_FOG_CAUSE Bit.MOD_FOG_CAUSE_CAUSE == fogThermal
          let c := c.endModuleFog
          if hot then c.oppAll (c.pwrState == 1) else c

/-- FOG_N path test (R354), while the pin is asserted for BOOT: the transistors that held the pin alone. The pin is then released,
unless a path failed or Fog holds it; `outside`: it is pulled low from outside, as the Lamp Room's pin sense then shows. -/
def Chip.pathTest (c : Chip) (keeperOk lampOk outside : Bool) : Chip :=
  let c := { c with saf := { c.saf with pinHigh := c.saf.pinHigh && !(keeperOk && lampOk), pinOutside := outside } }
  ((c.setFld Reg.SAF_STATUS Bit.SAF_STATUS_KEEPER_PATH_OK (b2n keeperOk)).setFld Reg.SAF_STATUS
    Bit.SAF_STATUS_LAMP_PATH_OK (b2n lampOk)).syncFogN

/-! ## KEEPER_BOOT (Table 13.5) -/

/-- Recovery (R378): the Keeper runs from ROM, and of the islands only the Beacon starts. -/
def Chip.recover (c : Chip) : Chip :=
  ((c.setFld Reg.KPR_STATUS Bit.KPR_STATUS_STAGE 2).islandStart 87).log .recovery []

/-- The boot with its firmware and its Light List: step 7, the log, and what waited. An island that has failed to start stays as it
is until RESET_N, power-on or FOG_RELEASE (R409). -/
def Chip.bootRun (c : Chip) (l : LightList) (o : BootOutcome) : Chip :=
  let cold := c.ll.isNone
  let c := { c with ll := some l }.setFld Reg.KPR_STATUS Bit.KPR_STATUS_STAGE 1
  let c := (c.replayQueue.log .keeperBoot [c.fld Reg.LAST_RESET Bit.LAST_RESET_CAUSE]).takeBreaker l
  let c := if cold then (c.takeFabric l).assignVsis l else c
  let c := { c with pwr := { c.pwr with startFail := c.pwr.startFail && !c.kpr.fogRelease } }
  let c := c.startIslands (if c.pwr.startFail then islandsToStart else o.missing)
  (c.pathTest o.keeperPath o.lampPath o.outside).fogChecks o.cmpFail

/-- The Keeper has left reset and waits in BOOT: power is good, RESET_N is high, the module is not DARK, and a PLL runs
(R427). -/
def Chip.mayBoot (c : Chip) : Bool := c.busRuns .keeper && c.pwr.ckg && c.fld Reg.KPR_STATUS Bit.KPR_STATUS_STAGE == 0

/-- The lockstep self-test of a boot fails: module Fog, and where FOG_RELEASE asked for the boot its cause (R358). -/
def Chip.lockTestFails (c : Chip) : Chip :=
  let released := c.kpr.fogRelease && c.inModFog && !c.bootFog
  let c := ({ c with kpr := { c.kpr with fogRelease := false } }.setBit Reg.SAF_EVENT Bit.SAF_EVENT_LOCKSTEP).moduleFog fogLockstep 88
  if released then c.setFld Reg.MOD_FOG_CAUSE Bit.MOD_FOG_CAUSE_CAUSE fogLockstep else c

def State.keeperBoot (s : State) (o : BootOutcome) : State :=
  if !s.chip.mayBoot then s
  else if !o.lockOk then { s with chip := s.chip.lockTestFails }
  else
    let c := s.chip.syncFuses
    let c := c.setFld Reg.KPR_STATUS Bit.KPR_STATUS_NO_RECORD (b2n (commitNow s.flash).isNone)
    match s.bootSlot with
    | none =>
      let c := { c with kpr := { c.kpr with fwKey := 2 } }.setBit Reg.KPR_STATUS Bit.KPR_STATUS_FALLBACK
      { s with chip := c.recover }
    | some (slot, fell) =>
      let c := c.takeFw s.flash slot fell
      match s.bootLl with
      | none => { s with chip := (c.setBit Reg.KPR_STATUS Bit.KPR_STATUS_LL_FALLBACK).recover }
      | some (ll, llFell) =>
        let c := (c.setFld Reg.KPR_STATUS Bit.KPR_STATUS_LL_SLOT ll).setFld Reg.KPR_STATUS Bit.KPR_STATUS_LL_FALLBACK (b2n llFell)
        let s' := ({ s with chip := c.bootRun (lightListOf s.flash ll) o } : State).keepRecover
        if c.kpr.fogRelease && c.inModFog then s'.selftest o.cmpFail else s'

def execKeeperBoot (o : BootOutcome) (s : State) : Host.Outcome State Fault Refusal := .next (s.keeperBoot o)

/-- ISLAND_START_TIMEOUT: 50 ms after step 9 an island has not started; the module stays in Fog with cause BOOT (R409). -/
def Chip.islandTimeout (c : Chip) : Chip :=
  if !c.due .islandStart then c
  else
    let gone := islandsToStart.filter (fun i => !c.islandUp i)
    let c := c.disarm .islandStart
    if gone.isEmpty then c
    else gone.foldl (fun (c : Chip) i => c.log .startFail [i]) { c with pwr := { c.pwr with startFail := true } }

def execIslandStartTimeout (s : State) : Host.Outcome State Fault Refusal := .next { s with chip := s.chip.islandTimeout }

/-- The conditions of R411. -/
def Chip.bootEnds (c : Chip) : Bool :=
  c.bootFog && c.keeperServes && islandsToStart.all c.islandUp && c.flag Reg.SAF_STATUS Bit.SAF_STATUS_KEEPER_PATH_OK &&
    c.flag Reg.SAF_STATUS Bit.SAF_STATUS_LAMP_PATH_OK && c.saf.standing.isEmpty && c.causesLeft.isEmpty && !c.pwr.startFail

/-- BOOT_END: FOG_N is released, the Tower moves cells, and each ready VSI whose port is in DL_Active sends DRS. -/
def Chip.bootEnd (c : Chip) : Chip :=
  if c.bootEnds then
    let c := (c.endModuleFog.setBit Reg.START_STATUS Bit.START_STATUS_BOOT_DONE).disarm .islandStart
    (List.range 64).foldl (fun c v => c.sendDrs v) c
  else c

def execBootEnd (s : State) : Host.Outcome State Fault Refusal := .next { s with chip := s.chip.bootEnd }

/-! ## SPDM (R389 to R391) -/

/-- What the measurements of Table 13.11 hold. -/
def Chip.measurement (c : Chip) (i : Nat) : List Nat :=
  let k := c.kpr
  let fuse := fun (f : KeyFuse) => (f.digest.getD []) ++ [b2n f.en]
  if i = 1 then Config.romDigest
  else if i = 2 then k.fwDigest
  else if i = 3 then (c.ll.map (·.digest)).getD []
  else if i = 4 then Config.measure 4 ([k.svn, k.revoke] ++ fuse k.opLl0 ++ fuse k.opLl1 ++ fuse k.opDbg0 ++ fuse k.opDbg1)
  else if i = 5 then Config.measure 5 [(c.rd Reg.DBG_STATUS).toNat % 8]
  else Config.measure 6 ((c.rd Reg.SEC_ACTIVE_GEN).toNat :: (c.tabA.filter (fun e => isSectorOff e.1)).flatMap (fun e => [e.1, e.2.toNat]))

/-- The chain in certificate slot 1 is provisioned. -/
def State.slot1 (s : State) : Bool := s.flash.any (fun e => decide (certSlot1 ≤ e.1 ∧ e.1 < certSlot1 + 32768))

/-- `len` bytes of a certificate slot from an offset, as far as the slot reaches (Table 13.1). -/
def State.slotBytes (s : State) (slot off len : Nat) : List Byte :=
  if slot = 0 then (((Config.madeChain s.chip.kpr.idSeed).take 32768).drop off).take len
  else Flash.bytes s.flash (certSlot1 + off) (min len (32768 - off))

/-- The digest of the chain in a slot: 64 bytes of SHAKE256 output (R391). -/
def State.slotDigest (s : State) (slot : Nat) : List Nat := Config.chainDigest (s.slotBytes slot 0 32768)

/-- The signature field of an answer (R391): 1,462 bytes, padded with zero bytes. -/
def Chip.sigField (c : Chip) : List Nat := (Config.falconSign c.kpr.idSeed c.freeVal ++ List.replicate 1462 0).take 1462

/-- The capabilities of R390; SET_CERTIFICATE only on the primary I3C port. -/
def spdmCaps (via : Nat) : SpdmCaps :=
  { cert := true, chal := true, measure := true, chunk := true, setCert := via == 0
    session := false, psk := false, mutAuth := false, csr := false }

/-- The selection of R391: Falcon-1024 and SHAKE256. -/
def spdmAlgs : SpdmAlgs :=
  { baseAsym := 0, baseHash := 0, extAsym := [(Config.vomeonId, 1)], extHash := [(Config.vomeonId, 2)], dmtf := true, raw := true }

/-- The stage of a requester: 0 unknown, 1 after GET_VERSION, 2 after GET_CAPABILITIES, 3 after NEGOTIATE_ALGORITHMS. -/
def Chip.spdmStage (c : Chip) (who : Nat) : Nat := ((c.kpr.spdm.find? (fun x => x.1 == who)).map (·.2)).getD 0

def Chip.setSpdm (c : Chip) (who stage : Nat) : Chip :=
  { c with kpr := { c.kpr with spdm := (who, stage) :: c.kpr.spdm.filter (fun x => x.1 != who) } }

/-- The certificate slot that a request names. -/
def slot_ : SpdmReq → Nat
  | .getCertificate slot _ _ => slot
  | .challenge slot => slot
  | _ => 2

/-- The answer to a request of a requester that the Keeper serves, and what it leaves. What a chunk carries is open (DESIGN
CHOICE, log 207). -/
def State.spdmAnswer (s : State) (via who : Nat) (r : SpdmReq) : State × SpdmAns :=
  let c := s.chip
  let stage := c.spdmStage who
  let at_ := fun (n : Nat) => (({ s with chip := c.setSpdm who n } : State))
  let full := fun (a : SpdmAns) => if stage = 3 then (s, a) else (s, SpdmAns.unexpected)
  let signed := fun (a : SpdmAns) =>
    if stage = 3 then (({ s with chip := c.drew } : State), a) else (s, SpdmAns.unexpected)
  let has := decide (slot_ r = 0) || (decide (slot_ r = 1) && s.slot1)
  match r with
  | .getVersion => (at_ 1, .version 1 3)
  | .getCapabilities => if stage = 1 then (at_ 2, .capabilities (spdmCaps via)) else (s, .unexpected)
  | .negotiateAlgorithms offers => if stage = 2 ∧ offers = true then (at_ 3, .algorithms spdmAlgs) else (s, .unexpected)
  | .getDigests => full (.digests ((if s.slot1 then [0, 1] else [0]).map (fun n => (n, s.slotDigest n))))
  | .getCertificate slot off len => full (if has then .certificate (s.slotBytes slot off len) else .refused)
  | .challenge slot => if has then signed (.challengeAuth slot (s.slotDigest slot) c.sigField) else full .refused
  | .getMeasurements i sign =>
    let values :=
      if 1 ≤ i ∧ i ≤ 6 then some [(i, c.measurement i)]
      else if i = 255 then some ((List.range 6).map (fun k => (k + 1, c.measurement (k + 1))))
      else none
    match values with
    | some l => if sign then signed (.measurements l c.sigField) else full (.measurements l [])
    | none => full .refused
  | .chunkGet => signed (.chunk c.freeVal)
  | .setCertificate slot chain =>
    if via ≠ 0 then (s, .refused)
    else if stage ≠ 3 then (s, .unexpected)
    else if slot ≠ 1 then (s, .refused)
    else
      let x := s.putCert chain
      if x.2 then (x.1, .setCertificate) else (x.1, .refused)
  | .other => (s, .refused)

/-- SPDM_REQUEST over I3C (0 primary, 1 secondary) or over an upstream port in DL_Active (2 + p). A ninth requester is told
Busy; during reset and boot the Keeper answers nothing. -/
def State.spdmRequest (s : State) (via who : Nat) (r : SpdmReq) : State :=
  let c := s.chip
  let reach := if via < 2 then c.pwr.addrSel.isSome else (c.port (via - 2)).up && c.dlUp (via - 2)
  if !c.keeperServes || !reach then s
  else if c.spdmStage who = 0 ∧ 8 ≤ c.kpr.spdm.length then { s with chip := c.emit (.spdm via who .busy) }
  else
    let a := s.spdmAnswer via who r
    { a.1 with chip := a.1.chip.emit (.spdm via who a.2) }

def execSpdmRequest (via who : Nat) (r : SpdmReq) (s : State) : Host.Outcome State Fault Refusal :=
  .next (s.spdmRequest via who r)

/-! ## The debug port (R392 to R394, R483) -/

/-- DBG_NONCE: 32 random bytes, valid for one attempt and for 60 s; none within 1 s of a refused token. -/
def Chip.dbgNonce (c : Chip) : Chip :=
  if !c.keeperServes || decide (c.now < c.kpr.nonceAfter) then c
  else
    let n := c.freeVal % 2 ^ 256
    ({ c with kpr := { c.kpr with nonce := some (n, c.now + 60 * sec) } }.drew).emit (.debugReply (leBytes 32 n))

def execDbgNonce (s : State) : Host.Outcome State Fault Refusal := .next { s with chip := s.chip.dbgNonce }

/-- The layout of Table 13.12. -/
def tokenOk (t : List Byte) : Bool :=
  let sl := leNat t 104 2
  isText (slice_ t 0 4) [0x47, 0x4B, 0x44, 0x55] && decide (leNat t 100 1 < 4 ∧ leNat t 101 1 ≤ 1 ∧ 1 ≤ leNat t 102 2 ∧
    leNat t 102 2 ≤ 1440 ∧ 1 ≤ sl ∧ sl ≤ 1462) && allZero (slice_ t (1899 + sl) 3361) && t.length == 3361

/-- The digest that the debug key of a token must have. -/
def Chip.debugKey (c : Chip) (key : Nat) : Option (List Nat) :=
  if key = 0 then some Config.romDbgDigest else enrolled c.kpr.opDbg0 c.kpr.opDbg1

/-- The conditions of R393. -/
def Chip.tokenAccepted (c : Chip) (t : List Byte) : Bool :=
  let pub := slice_ t 106 1899
  tokenOk t && bytesNat (slice_ t 4 68) == digest64 (Config.identityKey c.kpr.idSeed) &&
    (match c.kpr.nonce with
     | some (n, fin) => bytesNat (slice_ t 68 100) == leBytes 32 n && decide (c.now < fin)
     | none => false) &&
    c.debugKey (leNat t 101 1) == some (digest64 pub) &&
    Config.falconVerify pub (digest64 (slice_ t 0 1899)) (slice_ t 1899 (1899 + leNat t 104 2))

/-- DBG_UNLOCK: the attempt consumes the nonce. -/
def Chip.dbgUnlock (c : Chip) (t : List Byte) : Chip :=
  if !c.keeperServes then c
  else
    let ok := c.tokenAccepted t
    let c := { c with kpr := { c.kpr with nonce := none } }.log .debugUnlock [] [b2n ok]
    if ok then
      let fin := leNat t 102 2 * 60 * sec
      let c := { c with kpr := { c.kpr with unlockEnd := c.now + fin } }.arm .unlock fin
      let c := (c.setFld Reg.DBG_STATUS Bit.DBG_STATUS_DEBUG_MASTER (leNat t 100 1 % 2)).setFld Reg.DBG_STATUS
        Bit.DBG_STATUS_KEEPER_DEBUG (leNat t 100 1 / 2 % 2)
      c.setFld Reg.DBG_STATUS Bit.DBG_STATUS_KEY (leNat t 101 1)
    else { c with kpr := { c.kpr with nonceAfter := c.now + sec } }.setBit Reg.KPR_EVENT Bit.KPR_EVENT_UNLOCK_REFUSED

def execDbgUnlock (token : List Byte) (s : State) : Host.Outcome State Fault Refusal :=
  .next { s with chip := s.chip.dbgUnlock token }

/-- The debug unlock ends: the scopes are gone, and halted cores run again. -/
def Chip.unlockEnds (c : Chip) : Chip :=
  ({ c with kpr := { c.kpr with unlockEnd := 0, halted := false } }.disarm .unlock).wr Reg.DBG_STATUS 0

def Chip.unlocked (c : Chip) : Bool := c.armed .unlock

def execDbgLock (s : State) : Host.Outcome State Fault Refusal :=
  .next { s with chip := if s.chip.unlocked then s.chip.unlockEnds.log .debugLock [] else s.chip }

def execUnlockLifetimeExpiry (s : State) : Host.Outcome State Fault Refusal :=
  .next { s with chip := if s.chip.due .unlock then s.chip.unlockEnds.log .debugLock [] else s.chip }

/-- KEEPER_DEBUG under its scope: the module enters module Fog, then the cores halt, or run again. Without the scope the
instruction acts as BYPASS. -/
def Chip.keeperDebug (c : Chip) (halt : Bool) : Chip :=
  if c.busRuns .keeper && c.flag Reg.DBG_STATUS Bit.DBG_STATUS_KEEPER_DEBUG then
    let c := if c.inModFog then c else c.moduleFog fogSoftware 0
    { c with kpr := { c.kpr with halted := halt } }.log .keeperDebug [b2n halt]
  else c

def execKeeperDebug (halt : Bool) (s : State) : Host.Outcome State Fault Refusal :=
  .next { s with chip := s.chip.keeperDebug halt }

/-- EXTEST drives the boundary-scan register while RESET_N is low; otherwise it acts as BYPASS and the attempt is logged. -/
def execExtest (bits : List Nat) (s : State) : Host.Outcome State Fault Refusal :=
  .next { s with chip :=
    if s.chip.pwr.resetLow then s.chip.emit (.scan bits)
    else if s.chip.pwr.standby then s.chip.log .extest [] else s.chip }

end Sys2Proof.Machine
end

