-- ==== Sys2Proof/Machine/RegBus.lean ====
section
/-!
DEFINITION. Register accesses: what a write does to each register (R14 to R18, R517, R519, and the register tables of each
chapter), what a read shows (R19, R513), and the register messages of the management ports (R477).
-/
namespace Sys2Proof.Machine

/-! ## Writes by field type (Table 0.4) -/

/-- The LOCK bit of the block that holds an RWL field (Table 20.4, R366). -/
def Chip.blockLocked (c : Chip) (off : Nat) : Bool :=
  if 0x700000 ≤ off ∧ off < 0x800000 then c.flag Reg.GLB_LOCK Bit.GLB_LOCK_BCN
  else if 0xC00000 ≤ off ∧ off < 0x1000000 then c.flag Reg.GLB_LOCK Bit.GLB_LOCK_MOR
  else c.flag Reg.SAF_CTRL Bit.SAF_CTRL_LOCK

/-- One field of a written word. A value that the field does not take leaves it unchanged. -/
def Chip.writeField (c : Chip) (off : Nat) (w : Word) (f : FieldRow) : Chip :=
  let fl : Fld := ⟨f.hi, f.lo⟩
  let v := getF w fl
  let old := c.fld off fl
  let take := if f.mn ≤ v ∧ v ≤ f.mx then c.setFld off fl v else c
  match f.kind with
  | .ro => c
  | .wo => c
  | .hook => c
  | .rw => take
  | .rwl => if c.blockLocked off then c else take
  | .w1c => c.setFld off fl (old - (old &&& v))
  | .clr => if v = 0 then c else c.clrFld off fl
  | .set1 => if v = 1 then c.setBit off fl else c

/-- The fields of a register take a written word. -/
def Chip.writeFields (c : Chip) (off : Nat) (w : Word) (fs : List FieldRow) : Chip :=
  fs.foldl (fun c f => c.writeField off w f) c

/-- The most recent _LO written by any agent (R18); before any write, what the _LO holds. -/
def Chip.pendingLo (c : Chip) (lo : Nat) : Word :=
  match c.loPend.find? (fun e => e.1 == lo) with
  | some e => e.2
  | none => c.rd lo

/-- A register takes a written word: a _LO waits for its _HI, a _HI completes the pair (R18), and a write to RWL fields after
LOCK is logged (R17). -/
def Chip.plainWrite (c : Chip) (ag : Agent) (off : Nat) (row : RegRow) (w : Word) : Chip :=
  if row.pair = 1 then { c with loPend := SMap.insert off w (c.loPend.erase off) }
  else
    let c := if row.pair = 2 then
        (match regAt (off - 4) with
         | some (lo, _) => c.writeFields (off - 4) (c.pendingLo (off - 4)) lo.fields
         | none => c)
      else c
    let locked := (row.fields.any (fun f => f.kind == .rwl) || off == Reg.SAF_CTRL) && c.blockLocked off
    let c := c.writeFields off w row.fields
    if locked then c.log .rwlIgnored [off, ag.num] [w.toNat] else c

/-! ## Registers with rules of their own -/

/-- The fields of OPP_LIT or OPP_DIM (Table 16.12). A write in the state that uses them starts the changes. -/
def Chip.oppWrite (c : Chip) (dim : Bool) (w : Word) : Chip :=
  let off := if dim then Reg.OPP_DIM else Reg.OPP_LIT
  (List.range 16).foldl (fun (c : Chip) s =>
    let v := getF w (oppFld s)
    if v = 3 ∨ (dim = true ∧ v = 0) then c
    else
      let c := c.setFld off (oppFld s) v
      if c.pwrState = b2n dim ∧ c.pwr.darkStep = 0 then c.oppStart s v else c) c

/-- GATE_CTRL: the gate of an island that may no longer be gated opens. -/
def Chip.gateCtrlWrite (c : Chip) : Chip :=
  let c := (List.range 16).foldl (fun (c : Chip) s =>
    if c.fldBit Reg.GATE_CTRL Bit.GATE_CTRL_STN_GATE_EN s then c else c.openGate (Reg.STN_ID s)) c
  if c.flag Reg.GATE_CTRL Bit.GATE_CTRL_RELAY_GATE_EN then c else c.openGate Reg.RLY_CTRL

/-- CR_CTRL: the ring sizes only while EN is 0, then EN (Table 13.18). -/
def Chip.crCtrlWrite (c : Chip) (w : Word) : Chip :=
  let c := if c.crOn then c else
    let size := fun (c : Chip) (f : Fld) =>
      if 6 ≤ getF w f ∧ getF w f ≤ 12 then c.setFld Reg.CR_CTRL f (getF w f) else c
    size (size c Bit.CR_CTRL_SQ_LOG2) Bit.CR_CTRL_CQ_LOG2
  let c := c.setFld Reg.CR_CTRL Bit.CR_CTRL_CR_VEC (getF w Bit.CR_CTRL_CR_VEC)
  if getF w Bit.CR_CTRL_EN = 1 then c.crEnable else if c.crOn then c.crStop else c

/-- SPILL_CFG (Table 7.16). -/
def Chip.spillWrite (c : Chip) (w : Word) : Chip :=
  let hi := getF w Bit.SPILL_CFG_HI
  let lo := getF w Bit.SPILL_CFG_LO
  if 2 ≤ hi ∧ hi ≤ 100 ∧ 1 ≤ lo ∧ lo ≤ 99 ∧ lo < hi then
    ((c.setFld Reg.SPILL_CFG Bit.SPILL_CFG_HI hi).setFld Reg.SPILL_CFG Bit.SPILL_CFG_LO lo).updSpill
  else c

/-- FOG_CMD (R357). -/
def Chip.fogCmd (c : Chip) (w : Word) : Chip :=
  let p := getF w Bit.FOG_CMD_PORT
  match getF w Bit.FOG_CMD_OP with
  | 1 => if (c.port p).present then c.portFog p fogSoftware else c
  | 2 => c.fogClear p false
  | 3 => c.moduleFog fogSoftware 0
  | _ => c

/-- COL_CTRL, DUMP_BASE and DUMP_CFG while EN is set (R497). -/
def Chip.cfgIgnored (c : Chip) : Chip := c.setBit Reg.COL_EVENT Bit.COL_EVENT_CFG_IGNORED

/-- COL_CTRL: LOC, then EN. -/
def Chip.colCtrlWrite (c : Chip) (w : Word) : Chip :=
  let loc := getF w Bit.COL_CTRL_LOC
  let c :=
    if c.fld Reg.COL_CTRL Bit.COL_CTRL_LOC = loc then c
    else if c.flag Reg.COL_CTRL Bit.COL_CTRL_EN then c.cfgIgnored
    else c.setFld Reg.COL_CTRL Bit.COL_CTRL_LOC loc
  c.colEnable (getF w Bit.COL_CTRL_EN == 1)

/-- The registers of GLB, CLK, PWE, KPR and LOG that act at the write. `rec` finds the record that LOG_RD_SEL names. -/
def Chip.hookLow (c : Chip) (rec : Nat → Nat → Option (List Nat)) (ag : Agent) (off : Nat) (row : RegRow) (w : Word) :
    Option Chip :=
  if off = Reg.GLB_PWR_CTRL then some (c.setTarget (w.toNat % 4))
  else if off = Reg.OPP_LIT then some (c.oppWrite false w)
  else if off = Reg.OPP_DIM then some (c.oppWrite true w)
  else if off = Reg.GATE_CTRL then some (c.plainWrite ag off row w).gateCtrlWrite
  else if off = Reg.PWE_LATCH then some (c.latchClear (w.toNat % 256))
  else if off = Reg.PWE_APPLY then some (c.pweApply (w.toNat % 256))
  else if off = Reg.CR_CTRL then some (c.crCtrlWrite w)
  else if Reg.CR_SQ_BASE_LO ≤ off ∧ off ≤ Reg.CR_CQ_BASE_HI then (if c.crOn then some c else none)
  else if off = Reg.CR_DB then some (c.crDoorbell (w.toNat % 65536) (w.toNat / 65536))
  else if off = Reg.STN_RESET then some (c.stnResetWrite (w.toNat % 65536))
  else if off = Reg.LOG_CTRL then
    some ((c.writeFields off w (row.fields.drop 1)).setFreeze (getF w Bit.LOG_CTRL_FREEZE == 1))
  else if off = Reg.LOG_RD_SEL then
    let i := getF w Bit.LOG_RD_SEL_INDEX
    let a := getF w Bit.LOG_RD_SEL_AREA
    some (c.logRdSel a i (rec a i))
  else none

/-- The registers of the Tower, the stations and the ports that act at the write. Multicast indices 64 and above change only
through FMC_COMMIT (R181). -/
def Chip.hookSwitch (c : Chip) (ag : Agent) (off : Nat) (row : RegRow) (w : Word) : Option Chip :=
  let g := w.toNat % 65536
  if off = Reg.TWR_MC_COMMIT then some (c.twrMcCommit g)
  else if Reg.MC_STATION_MASK 32 ≤ off ∧ off < 0x200000 then some c
  else if 0x200000 ≤ off ∧ off < 0x300000 then
    let s := (off - 0x200000) / 0x10000
    if off = Reg.QUOTA_COMMIT s then some (c.quotaCommit s g)
    else if off = Reg.STN_MC_COMMIT s then some (c.stnMcCommit s g)
    else if Reg.MC_PORT_MASK s 16 ≤ off then some c
    else none
  else if 0x400000 ≤ off ∧ off < 0x600000 then
    let p := (off - 0x400000) / 0x4000
    if off = Reg.POOL_COMMIT p then some (c.poolCommit p g)
    else if off = Reg.PRT_CTRL p then
      let hold := getF w Bit.PRT_CTRL_PERST_ASSERT == 1
      let dis := getF w Bit.PRT_CTRL_LINK_DISABLE == 1
      let c := c.writeFields off w (row.fields.take 3)
      let c := if c.flag off Bit.PRT_CTRL_PERST_ASSERT = hold then c else c.setPerst p hold
      some (if c.flag off Bit.PRT_CTRL_LINK_DISABLE = dis then c else if dis then c.linkDisable p else c.linkEnable p)
    else if off = Reg.SPAN_CTRL p then
      let c := c.plainWrite ag off row w
      some (if getF w Bit.SPAN_CTRL_RETRAIN = 1 then c.retrain p else c)
    else if off = Reg.REPLAY_CFG p then
      let t := getF w Bit.REPLAY_CFG_TMO
      let c := c.plainWrite ag off row w
      some (if t = 0 ∨ (16 ≤ t ∧ t ≤ 1000) then c.setFld off Bit.REPLAY_CFG_TMO t else c)
    else none
  else none

/-- The registers of KND and MOR that act at the write. Of a bound window the module ignores writes of BASE, VALID, OFFSET and
VSI (R247). -/
def Chip.hookFabric (c : Chip) (ag : Agent) (off : Nat) (row : RegRow) (w : Word) : Option Chip :=
  let g := w.toNat % 65536
  if off = Reg.KND_FAB_RID then some (c.fabRidWrite (getF w Bit.KND_FAB_RID_BASE))
  else if off = Reg.RT_COMMIT then some (c.rtCommit g)
  else if off = Reg.WIN_COMMIT then some (c.winCommit g)
  else if off = Reg.FMC_COMMIT then some (c.fmcCommit g)
  else if off = Reg.FENCE_REQ then some (c.fenceReq g (getF w Bit.FENCE_REQ_VSI) (getF w Bit.FENCE_REQ_ALL == 1))
  else if 0x810000 ≤ off ∧ off < 0x850000 ∧ c.winBound ((off - 0x810000) / 0x20) then
    let r := (off - 0x810000) % 0x20
    if r = 0 ∨ r = 4 ∨ r = 0x10 ∨ r = 0x14 then some c
    else if r = 0xC then some (c.writeFields off w (row.fields.drop 1))
    else none
  else if 0x900000 ≤ off ∧ off < 0x920000 ∧ (off - 0x900000) % 0x800 = 4 then
    some ((c.writeFields off w (row.fields.drop 2)).felRd ((off - 0x900000) / 0x800) (getF w Bit.FEL_PTR_RD))
  else if off = Reg.SPILL_CFG then some (c.spillWrite w)
  else if off = Reg.MOR_CTRL then some (c.plainWrite ag off row w).updSpill
  else none

/-- The manager VSI's view. -/
def Chip.managerView (c : Chip) : Agent → Bool
  | .vsi v => c.isManager v
  | .keeper => false
  | .mgmt _ => false
  | .lampRoom => false

/-- A slice's registers (R269, R300, Tables 9.19 to 9.29): the binding and the bases only while STOPPED; WORLD and CNT_PERM
only in the manager view. -/
def Chip.hookSlice (c : Chip) (ag : Agent) (off : Nat) (row : RegRow) (w : Word) : Option Chip :=
  match sliceAt off with
  | none => none
  | some s =>
    let bind := off == Reg.SLC_BIND s || off == Reg.SLC_PASID s || off == Reg.SLC_RID s
    let base := decide (Reg.SQ_BASE_LO s ≤ off ∧ off ≤ Reg.CQ_BASE_HI s) || decide (Reg.INT_ADDR_LO s ≤ off ∧ off ≤ Reg.INT_ADDR_HI s) ||
      decide (Reg.IB_BASE_LO s ≤ off ∧ off ≤ Reg.IB_BASE_HI s)
    if (bind || base) && c.slState s != sStopped then some (c.setBit (Reg.SLC_EVENT s) Bit.SLC_EVENT_WRITE_IGNORED)
    else if off = Reg.SLC_BIND s then
      let c' := c.plainWrite ag off row w
      some (if c.managerView ag then c' else c'.setFld off Bit.SLC_BIND_WORLD (c.fld off Bit.SLC_BIND_WORLD))
    else if off = Reg.CNT_PERM s then (if c.managerView ag then none else some c)
    else if off = Reg.SLC_CTRL s then
      some (match w.toNat % 8 with
        | 1 => c.cmdEnable s
        | 2 => c.cmdDrain s
        | 3 => c.cmdReset s
        | _ => c)
    else if off = Reg.INT_CTRL s then some (c.setMask s (getF w Bit.INT_CTRL_MASK == 1)).relayPump
    else none

/-- The registers of SEC, SCH, TEL and SAF that act at the write. -/
def Chip.hookHigh (c : Chip) (ag : Agent) (off : Nat) (row : RegRow) (w : Word) : Option Chip :=
  let g := w.toNat % 65536
  if off = Reg.SEC_COMMIT then some (c.secCommit g)
  else if off = Reg.SCH_COMMIT then some (c.schCommit g)
  else if off = Reg.COL_CTRL then some (c.colCtrlWrite w)
  else if off = Reg.DUMP_BASE_LO ∨ off = Reg.DUMP_BASE_HI ∨ off = Reg.DUMP_CFG then
    (if c.flag Reg.COL_CTRL Bit.COL_CTRL_EN then some c.cfgIgnored else none)
  else if off = Reg.SNAP_NOW then some (if w.toNat % 2 = 1 then c.snapNow else c)
  else if off = Reg.SND_POP then some (if w.toNat % 2 = 1 then c.sndPop else c)
  else if off = Reg.SAF_CTRL then some (c.plainWrite ag off row w).syncFogN
  else if off = Reg.FOG_CMD then some (c.fogCmd w)
  else if off = Reg.INJECT then
    (if getF w Bit.INJECT_GO = 1 then some (c.injectGo ag w) else none)
  else none

/-- What a register's own rule makes of a written word, where it has one. -/
def Chip.ownRule (c : Chip) (rec : Nat → Nat → Option (List Nat)) (ag : Agent) (off : Nat) (row : RegRow) (w : Word) :
    Option Chip :=
  if off < 0x100000 then c.hookLow rec ag off row w
  else if off < 0x700000 then c.hookSwitch ag off row w
  else if off < 0x2000000 then c.hookFabric ag off row w
  else if off < 0x3000000 then c.hookSlice ag off row w
  else c.hookHigh ag off row w

/-- A 32-bit write that has reached its register: the register's own rule, else the plain write. Reserved bits and offsets that
hold no register ignore it (R15, R513). -/
def Chip.regWrite (c : Chip) (rec : Nat → Nat → Option (List Nat)) (ag : Agent) (off : Nat) (w : Word) : Chip :=
  match regAt off with
  | none => c
  | some (row, _) => (c.ownRule rec ag off row w).getD (c.plainWrite ag off row w)

/-- A write access: it reaches its register as `busAccess` says. -/
def State.writeReg (s : State) (ag : Agent) (off : Nat) (w : Word) : State :=
  { s with chip := s.chip.busWriteW ag off w (fun c => c.regWrite s.logRecord ag off w) }

def execRegisterWrite (ag : Agent) (off value : Nat) (s : State) : Host.Outcome State Fault Refusal :=
  .next (s.writeReg ag off (BitVec.ofNat 32 value))

/-! ## What a read shows -/

/-- No read of the Relay function is outstanding and no piece waits for issue (R305). -/
def Chip.rfIdle (c : Chip) (v : Nat) : Bool :=
  !(c.rly.ops.any (fun o => !o.done && (o.kind == .read || o.kind == .fetch) && c.slVsi o.slice == v)) &&
    !(c.rly.posts.any (fun p => c.slVsi p.slice == v)) &&
    (!c.bme v || !(c.rly.descs.any (fun d => c.slVsi d.slice == v && d.status.isNone && !d.noRecord)))

/-- Minutes of a debug unlock that remain (Table 13.23). -/
def Chip.minutesLeft (c : Chip) : Nat :=
  if c.kpr.unlockEnd = 0 then 0 else min 1440 (ceilDiv (c.kpr.unlockEnd - c.now) (60 * sec))

/-- Fabric time: the time master's own Watch, else what the last mark gave, carried on by the Watch (R123). -/
def Chip.fabricTime (c : Chip) : Nat :=
  if c.flag Reg.BCN_STATUS Bit.BCN_STATUS_MASTER then c.watchTime
  else if c.bcn.timeBase = 0 then 0
  else c.bcn.timeBase + (c.now - c.bcn.timeAt)

def lo32 (n : Nat) : Word := BitVec.ofNat 32 n
def hi32 (n : Nat) : Word := BitVec.ofNat 32 (n / 2 ^ 32)

/-- GLB_ID and the capacity in GLB_CAP and MEM_STATUS come from the part (R7). -/
def glbId : Word := BitVec.ofNat 32 (0x9256 + Config.stepping % 256 * 2 ^ 16 + Config.revision % 256 * 2 ^ 24)
def capGib : Nat := if Config.cap64 then 64 else 32

/-- A field filled into a register's word. -/
def Chip.shown (c : Chip) (off : Nat) (f : Fld) (v : Nat) : Word := setF (c.rd off) f v

/-- The values that no write has stored: below 16 MiB. -/
def Chip.liveLow (c : Chip) (off : Nat) : Option Word :=
  let st := (off - 0x200000) / 0x10000
  let p := (off - 0x400000) / 0x4000
  if off = Reg.GLB_ID then some glbId
  else if off = Reg.CLK_STATUS then some (c.shown off Bit.CLK_STATUS_TRIM_SRC c.trimSource)
  else if off = Reg.GLB_CAP then some (lo32 capGib)
  else if off = Reg.GLB_LOCK then some (c.shown off Bit.GLB_LOCK_SAF (c.fld Reg.SAF_CTRL Bit.SAF_CTRL_LOCK))
  else if off = Reg.WATCH_TIME_LO then some (lo32 c.watchTime)
  else if off = Reg.WATCH_TIME_HI then some (hi32 c.watchTime)
  else if off = Reg.WATCH_UP_LO then some (lo32 c.watchUp)
  else if off = Reg.WATCH_UP_HI then some (hi32 c.watchUp)
  else if off = Reg.DBG_STATUS then some (c.shown off Bit.DBG_STATUS_MINUTES_LEFT c.minutesLeft)
  else if off = Reg.OB_FREE st ∧ st < 16 then some (lo32 (c.obFree st))
  else if off = Reg.ORT_USE p ∧ p < 128 then
    some (lo32 ((c.pci.ort.filter (fun e => e.port == p)).length % 4096 +
      (c.pci.quar.filter (fun q => q.port == p)).length % 16384 * 2 ^ 16))
  else if off = Reg.BCN_TIME_LO then some (lo32 c.fabricTime)
  else if off = Reg.BCN_TIME_HI then some (hi32 c.fabricTime)
  else if off = Reg.FENCE_STATUS then some (c.shown off Bit.FENCE_STATUS_COUNT (min c.fenceCount 65535))
  else if off = Reg.MOR_STATUS then
    let w := c.shown off Bit.MOR_STATUS_OVF_FULL (b2n (decide (c.ovfRoom ≤ c.ovfGran)))
    some (setF (setF w Bit.MOR_STATUS_ECTX_FULL (b2n (!c.ctxRoom))) Bit.MOR_STATUS_ICTX_FULL (b2n c.ictxFull))
  else if off = Reg.STORE_USE then some (lo32 c.dieGran)
  else if off = Reg.META_USE then some (lo32 c.dieEntries)
  else if off = Reg.OVF_USE then some (lo32 c.ovfGran)
  else if off = Reg.ICTX_USE then some (lo32 c.mor.streams.length)
  else if off = Reg.ECTX_USE then some (lo32 c.mor.ctxs.length)
  else if off = Reg.DORMANT_USE then some (lo32 c.mor.dormant.length)
  else none

/-- The values that no write has stored: from 16 MiB. -/
def Chip.liveHigh (c : Chip) (off : Nat) : Option Word :=
  let v := (off - 0x2000100) / 4
  let pol := (off - 0x3120000) / 0x80
  let k := (off - 0x3120040) % 0x80 / 4
  let s := (off - 0x3140000) / 0x10
  if off = Reg.RLY_STATUS then some (lo32 (c.opsInFlight + c.rdUnits * 100 / rdRoom * 2 ^ 16))
  else if off = Reg.RF_STATUS v ∧ v < 64 then
    some (setF (c.shown off Bit.RF_STATUS_IDLE (b2n (c.rfIdle v))) Bit.RF_STATUS_HELD
      (b2n (c.rly.held.any (fun r => c.slVsi r.slice == v))))
  else if off = Reg.SEC_DRAIN then some (c.shown off Bit.SEC_DRAIN_COUNT (min c.secOld 65535))
  else if off = Reg.POL_EFF pol k ∧ pol < 64 ∧ k < 8 then some (lo32 (c.polEff pol k))
  else if off = Reg.SLICE_PACE s ∧ s < 4096 then some (lo32 (c.slicePace s))
  else if off = Reg.CNT_VAL_LO then some (lo32 c.cntSelected)
  else if off = Reg.CNT_VAL_HI then some (hi32 c.cntSelected)
  else if off = Reg.SND_STATUS then some (c.shown off Bit.SND_STATUS_COUNT c.tel.sndFifo.length)
  else if Reg.SND_DATA 0 ≤ off ∧ off < Reg.SND_DATA 8 then
    some (match c.tel.sndFifo with
      | r :: _ => lo32 (leNat (r.bytes.map (BitVec.ofNat 8)) (off - Reg.SND_DATA 0) 4)
      | [] => 0)
  else if off = Reg.MEM_STATUS then
    let w := c.shown off Bit.MEM_STATUS_READY (c.fld Reg.START_STATUS Bit.START_STATUS_MC)
    some (setF (setF w Bit.MEM_STATUS_SELF_REFRESH (if c.pwrState = 2 then 15 else 0)) Bit.MEM_STATUS_CAP_GIB capGib)
  else
    match sliceAt off with
    | some s => if off = Reg.SLC_STATE s then some (c.shown off Bit.SLC_STATE_INFLIGHT (c.inflight s)) else none
    | none => none

/-- The word that a read of a register returns; 0 where no register lies (R513). -/
def Chip.regView (c : Chip) (off : Nat) : Word :=
  match regAt off with
  | none => 0
  | some _ =>
    match (if off < 0x1000000 then c.liveLow off else c.liveHigh off) with
    | some w => w
    | none => c.rd off

/-- The _HI half that an agent's read of its _LO latched. -/
def Chip.latchedHi (c : Chip) (ag : Agent) (off : Nat) : Option Word :=
  (c.hiLatch.find? (fun e => decide (e.1 = ag) && e.2.1 == off)).map (·.2.2)

def Chip.dropLatch (c : Chip) (ag : Agent) (off : Nat) : Chip :=
  { c with hiLatch := c.hiLatch.filter (fun e => !(decide (e.1 = ag) && e.2.1 == off)) }

/-- The pair half of the register at an offset: 1 _LO, 2 _HI, 0 neither. -/
def pairAt (off : Nat) : Nat :=
  match regAt off with
  | some (row, _) => row.pair
  | none => 0

/-- A 32-bit read that has reached its register: a _LO latches its _HI for the agent's next read of it (R19). -/
def Chip.regRead (c : Chip) (ag : Agent) (off : Nat) : Chip × Word :=
  let w := c.regView off
  if pairAt off = 1 then
    let c' := c.dropLatch ag (off + 4)
    ({ c' with hiLatch := (ag, off + 4, c.regView (off + 4)) :: c'.hiLatch }, w)
  else if pairAt off = 2 then
    match c.latchedHi ag off with
    | some h => (c.dropLatch ag off, h)
    | none => (c, w)
  else (c, w)

/-- A read access: all ones while the Keeper is in reset or boot (R379), 0 outside the view (R514), else the register. None
where the bus does not run, and where the access waits for an island in reset (R21). -/
def Chip.busRead (c : Chip) (ag : Agent) (off : Nat) : Chip × Option Word :=
  if !c.busRuns ag then (c, none)
  else if c.keeperBusy ag then (c.countBusy, some 0xFFFFFFFF)
  else if c.sees ag off = .hidden then (c, some 0)
  else if c.islandHeld off then (c.holdAccess ag off .read, none)
  else if c.busUpset off then (c.parityEnd ag off, some 0xFFFFFFFF)
  else
    let r := (c.openGate off).regRead ag off
    (r.1, some r.2)

/-- A read access whose data goes back to the agent. -/
def Chip.readReg (c : Chip) (ag : Agent) (off : Nat) : Chip :=
  match c.busRead ag off with
  | (c, some w) => c.emit (.regData ag off w.toNat)
  | (c, none) => c

/-- LO_READ_LATCH: a 32-bit register read. -/
def execLoReadLatch (ag : Agent) (off : Nat) (s : State) : Host.Outcome State Fault Refusal :=
  .next { s with chip := s.chip.readReg ag off }

/-! ## Accesses of another size (R14) -/

/-- An access that is not one of a whole register has no effect but its record; while the Keeper is busy it is counted there
(R379, log 14). -/
def Chip.badAccess (c : Chip) (ag : Agent) (off size : Nat) : Chip :=
  if !c.busRuns ag then c
  else if c.keeperBusy ag then c.countBusy
  else c.log .accessSize [ag.num, off, size]

/-- An access of a size other than 32 bits completes without effect; a read returns zeros. -/
def Chip.badSize (c : Chip) (ag : Agent) (off size : Nat) (write : Bool) : Chip :=
  if !c.busRuns ag || size = 4 then c
  else
    (c.badAccess ag off size).emit
      (if write then .regDone ag off else .regData ag off (if c.keeperBusy ag then 2 ^ (8 * size) - 1 else 0))

def execRegAccessBadSize (ag : Agent) (off size : Nat) (write : Bool) (s : State) : Host.Outcome State Fault Refusal :=
  .next { s with chip := s.chip.badSize ag off size write }

/-! ## Register messages (R477) -/

/-- REG_READ of `count` registers from `off`: the response carries their data. -/
def Chip.regReads (c : Chip) (k off : Nat) : Nat → Chip × List Nat
  | 0 => (c, [])
  | n + 1 =>
    let r := c.busRead (.mgmt k) off
    let r' := r.1.regReads k (off + 4) n
    (r'.1, leBytes 4 (r.2.getD 0).toNat ++ r'.2)

/-- The registers of a REG_WRITE, in rising order. -/
def State.regWrites (s : State) (k off : Nat) : List Nat → State
  | [] => s
  | d :: ds => (s.writeReg (.mgmt k) off (BitVec.ofNat 32 d)).regWrites k (off + 4) ds

/-- A register message waits whole while a register that it reaches lies in an island in reset (R21). -/
def Chip.msgHeld (c : Chip) (k off count : Nat) : Bool :=
  !c.keeperBusy (.mgmt k) && (List.range count).any (fun i => c.islandHeld (off + 4 * i))

/-- In recovery the Keeper takes no register message (R378). -/
def State.regReadMsg (s : State) (k off count : Nat) : State :=
  if !s.chip.busRuns (.mgmt k) || s.chip.inRecovery || !(decide (1 ≤ count ∧ count ≤ 16)) then s
  else if s.chip.msgHeld k off count then { s with chip := s.chip.holdAccess (.mgmt k) off (.readMsg count) }
  else
    let r := s.chip.regReads k off count
    { s with chip := r.1.emit (.mctp k r.2) }

def State.regWriteMsg (s : State) (k off : Nat) (data : List Nat) : State :=
  if !s.chip.busRuns (.mgmt k) || s.chip.inRecovery || !(decide (1 ≤ data.length ∧ data.length ≤ 16)) then s
  else if s.chip.msgHeld k off data.length then { s with chip := s.chip.holdAccess (.mgmt k) off (.writeMsg data) }
  else
    let s := s.regWrites k off data
    { s with chip := s.chip.emit (.mctp k []) }

def execRegRead (port addr count : Nat) (s : State) : Host.Outcome State Fault Refusal :=
  .next (s.regReadMsg port addr count)

def execRegWrite (port addr : Nat) (data : List Nat) (s : State) : Host.Outcome State Fault Refusal :=
  .next (s.regWriteMsg port addr data)

/-! ## Accesses that a crossing held go on (R21) -/

/-- A held access still waits. -/
def Chip.stillHeld (c : Chip) (h : HeldAccess) : Bool :=
  match h.kind with
  | .read => c.islandHeld h.off
  | .write _ => c.islandHeld h.off
  | .page .. => c.islandHeld h.off
  | .readMsg n => (List.range n).any (fun i => c.islandHeld (h.off + 4 * i))
  | .writeMsg d => (List.range d.length).any (fun i => c.islandHeld (h.off + 4 * i))

def Agent.mgmtPort : Agent → Nat
  | .mgmt k => k
  | .vsi _ => 0
  | .keeper => 0
  | .lampRoom => 0

/-- The VSI of a host. -/
def Agent.host : Agent → Nat
  | .vsi v => v
  | .mgmt _ => 0
  | .keeper => 0
  | .lampRoom => 0

/-- A held access ends: as it would have at once or, where its agent no longer reaches the bus, with GATED_ABORT (R27; DEDUCED,
log 190). -/
def State.serveOne (s : State) (h : HeldAccess) : State :=
  if !s.chip.busRuns h.ag then
    { s with chip := ({ s.chip with heldAcc := h :: s.chip.heldAcc }).abortHeld (fun _ => true) }
  else
  match h.kind with
  | .read => { s with chip := s.chip.readReg h.ag h.off }
  | .write w => s.writeReg h.ag h.off w
  | .readMsg n => s.regReadMsg h.ag.mgmtPort h.off n
  | .writeMsg d => s.regWriteMsg h.ag.mgmtPort h.off d
  | .page slice off size want count gen =>
    { s with chip := s.chip.doorbell (h.ag.host) slice off size want gen (fun c => c.ringDb want slice count) }

/-- The accesses whose islands have left reset complete, in the order in which they came. -/
def State.serveHeld (s : State) : State :=
  let c := s.chip
  (c.heldAcc.filter (fun h => !c.stillHeld h)).foldl State.serveOne
    { s with chip := { c with heldAcc := c.heldAcc.filter c.stillHeld } }

def execStationStarted (st : Nat) (s : State) : Host.Outcome State Fault Refusal :=
  .next ({ s with chip := s.chip.stationStarted st } : State).serveHeld

def execStationResetResume (s : State) : Host.Outcome State Fault Refusal :=
  .next ({ s with chip := s.chip.stationResume } : State).serveHeld

def execCrystalQualified (s : State) : Host.Outcome State Fault Refusal :=
  .next ({ s with chip := s.chip.crystalQualified } : State).serveHeld

def execCrystalQualifyTimeout (s : State) : Host.Outcome State Fault Refusal :=
  .next ({ s with chip := s.chip.crystalTimeout } : State).serveHeld

def execRefclkQualified (s : State) : Host.Outcome State Fault Refusal :=
  .next ({ s with chip := s.chip.refclkQualified } : State).serveHeld

end Sys2Proof.Machine
end

