-- ==== Sys2Proof/Machine/Conn.lean ====
section
/-!
DEFINITION. The management connector: MATE_N and ADDR_SEL (R474, R488), dynamic addresses (R475, R476), and the commands of
the Lamp Room endpoint (R480, R481).
-/
namespace Sys2Proof.Machine

/-! ## MATE_N (R474, R488) -/

/-- ADDR_SEL is latched once; the value holds until the next power-on. -/
def Chip.mateLatch (c : Chip) (sel : Nat) : Chip :=
  if c.pwr.standby && c.pwr.addrSel.isNone then { c with pwr := { c.pwr with addrSel := some (sel % 8) } } else c

def execMateLatch (sel : Nat) (s : State) : Host.Outcome State Fault Refusal :=
  .next { s with chip := s.chip.mateLatch sel }

/-- MATE_N has read high for 100 µs while the module is LIT or DIM. -/
def State.mateLost (s : State) : State :=
  if s.chip.busRuns .keeper && decide (s.chip.pwrState < 2) then
    ({ s with chip := s.chip.log .mateLost [] } : State).keepWrite keepMate
  else s

def execMateLost (s : State) : Host.Outcome State Fault Refusal := .next s.mateLost

/-! ## Dynamic addresses (R475, R476) -/

/-- The endpoint's place among the dynamic addresses: the module's on the primary port 0, the Lamp Room's there 1, the
module's on the secondary port 2, which has no Lamp Room endpoint. -/
def dynKey (port ep : Nat) : Option Nat :=
  if port = 0 then (if ep < 2 then some ep else none)
  else if port = 1 ∧ ep = 0 then some 2
  else none

/-- SETDASA or ENTDAA. From step 1 of DARK entry until restore ends the module endpoint answers nothing (R479). -/
def Chip.setDyn (c : Chip) (port ep addr : Nat) : Chip :=
  match dynKey port ep with
  | none => c
  | some k =>
    if !c.lampAnswers || (k != 1 && !c.busRuns (.mgmt port)) then c
    else { c with pwr := { c.pwr with dyn := SMap.set c.pwr.dyn k (addr % 128) 0 } }

def execI3cDynamicAddress (port ep addr : Nat) (s : State) : Host.Outcome State Fault Refusal :=
  .next { s with chip := s.chip.setDyn port ep addr }

/-- RSTDAA on a port clears the dynamic addresses of the endpoints there. -/
def Chip.rstDaa (c : Chip) (port : Nat) : Chip :=
  if !c.lampAnswers then c
  else
    let d := if port = 0 then (c.pwr.dyn.erase 0).erase 1 else c.pwr.dyn.erase 2
    { c with pwr := { c.pwr with dyn := d } }

def execRstdaa (port : Nat) (s : State) : Host.Outcome State Fault Refusal :=
  .next { s with chip := s.chip.rstDaa port }

/-! ## The Lamp Room endpoint (R480, R481) -/

/-- A command that returns data ends with LR_OK. -/
def Chip.lampData (c : Chip) (bytes : List Nat) : Chip :=
  { c with pwr := { c.pwr with lrStatus := 0 } }.emit (.endpointReply 1 bytes)

/-- The four bytes of STATUS (Table 18.4). -/
def Chip.lampBytes (c : Chip) : List Nat :=
  let state := if c.flag Reg.GLB_PWR_STATUS Bit.GLB_PWR_STATUS_BUSY then 3 else c.pwrState
  [state % 4 + 4 * b2n c.inModFog + 8 * b2n (c.flag Reg.PWE_STATUS Bit.PWE_STATUS_LATCHED) +
     16 * (c.fld Reg.PWE_STATUS Bit.PWE_STATUS_TRIP_COUNT % 16),
   c.fld Reg.MOD_FOG_CAUSE Bit.MOD_FOG_CAUSE_CAUSE, c.fld Reg.KPR_STATUS Bit.KPR_STATUS_STAGE, c.pwr.lrStatus]

/-- A Lamp Room command reaches its action: the endpoint answers, the PEC agrees when present, and the parameters have the
command's count. -/
def State.lampCommand (s : State) (count : Nat) (params : List Nat) (pecOk : Bool) (act : State → State) : State :=
  if !s.chip.lampAnswers then s
  else if !pecOk then { s with chip := s.chip.lampStatus 4 }
  else if params.length ≠ count then { s with chip := s.chip.lampStatus 1 }
  else act s

/-- STATUS reports the status of the command before it. -/
def State.lampGetStatus (s : State) (params : List Nat) (pecOk : Bool) : State :=
  s.lampCommand 0 params pecOk (fun s => { s with chip := s.chip.emit (.endpointReply 1 s.chip.lampBytes) })

def execLrStatus (params : List Nat) (pecOk : Bool) (s : State) : Host.Outcome State Fault Refusal :=
  .next (s.lampGetStatus params pecOk)

/-- The PWE register that a parameter byte names. -/
def pweOff (n : Nat) : Nat := Reg.PWE_STATUS + 4 * (n % 256)

def State.lampPweRead (s : State) (params : List Nat) (pecOk : Bool) : State :=
  s.lampCommand 1 params pecOk (fun s =>
    let r := s.chip.regRead .lampRoom (pweOff (nth params 0))
    { s with chip := r.1.lampData (leBytes 4 r.2.toNat) })

def execLrPweRead (params : List Nat) (pecOk : Bool) (s : State) : Host.Outcome State Fault Refusal :=
  .next (s.lampPweRead params pecOk)

def State.lampPweWrite (s : State) (params : List Nat) (pecOk : Bool) : State :=
  s.lampCommand 5 params pecOk (fun s =>
    let w := BitVec.ofNat 32 (nth params 1 + nth params 2 * 2 ^ 8 + nth params 3 * 2 ^ 16 + nth params 4 * 2 ^ 24)
    let s := s.writeReg .lampRoom (pweOff (nth params 0)) w
    { s with chip := s.chip.lampStatus 0 })

def execLrPweWrite (params : List Nat) (pecOk : Bool) (s : State) : Host.Outcome State Fault Refusal :=
  .next (s.lampPweWrite params pecOk)

/-- POWER writes GLB_PWR_CTRL.TARGET (a value that names no state leaves it); in DARK and on the way in or out it ends with
LR_STATE. -/
def Chip.lampPower (c : Chip) (v : Nat) : Chip :=
  if c.pwrState = 2 ∨ 0 < c.pwr.darkStep ∨ 0 < c.pwr.restoreStep then c.lampStatus 3
  else (if c.busRuns .keeper then c.setTarget v else c).lampStatus 0

def State.lampPowerCmd (s : State) (params : List Nat) (pecOk : Bool) : State :=
  s.lampCommand 1 params pecOk (fun s => { s with chip := s.chip.lampPower (nth params 0) })

def execLrPower (params : List Nat) (pecOk : Bool) (s : State) : Host.Outcome State Fault Refusal :=
  .next (s.lampPowerCmd params pecOk)

end Sys2Proof.Machine
end

