-- ==== Sys2Proof/Machine/RelayBars.lean ====
section
/-!
DEFINITION. The BARs of a Relay function as a host reaches them (R265, R266, R406): registers in BAR0, doorbell pages and
counter window pages in BAR2, the Light List in the expansion ROM BAR; and the command that receives a TLP on a PCIe port.
An access that ends here follows these views, and no sector check (R335).
-/
namespace Sys2Proof.Machine

/-- The access is one aligned DW with all its bytes (R14), or a zero-length read, which is handled as one (R536). -/
def Tlp.oneDw (t : Tlp) : Bool := t.isZeroRead || (t.len == 4 && t.addr % 4 == 0 && t.fbe == 15)

/-- The bytes that an access asks for: those of its length whose byte enables are set. -/
def Tlp.asked (t : Tlp) : Nat :=
  let off := fun (be : Nat) => 4 - (bitsSet be 4).length
  if t.len ≤ 4 then min t.len (bitsSet t.fbe 4).length else t.len - off t.fbe - off t.lbe

/-! ## The Light List (R406) -/

/-- Bytes of the image of the list in force, and 0 from LL_LEN on; all ones while the Keeper is in reset or boot. -/
def Chip.romBytes (c : Chip) (v off len : Nat) : List Byte :=
  if c.keeperBusy (.vsi v) then List.replicate len 0xFF
  else
    match c.ll with
    | some l => (List.range len).map (fun i => if off + i < l.len then l.image.getD (off + i) 0 else 0)
    | none => List.replicate len 0

/-! ## Counter window pages (R498) -/

/-- Bytes of a counter window page: the live counters, 8 bytes each. -/
def Chip.pageByte (c : Chip) (s i : Nat) : Byte := BitVec.ofNat 8 (c.cntPage s (i / 8) / 2 ^ (8 * (i % 8)))

/-- The place of a counter's high half among the halves that reads have latched. -/
def pageKey (off : Nat) : Nat := 2 ^ 28 + off

/-- A read of a counter window page: 4 bytes of a low half latch the high half for the agent's next read of it. -/
def Chip.pageRead (c : Chip) (v s off len : Nat) : Chip × List Byte :=
  let live := (List.range len).map (fun i => c.pageByte s (off % 4096 + i))
  let ag : Agent := .vsi v
  if len = 4 ∧ off % 8 = 0 then
    let c' := c.dropLatch ag (pageKey (off + 4))
    ({ c' with hiLatch := (ag, pageKey (off + 4), BitVec.ofNat 32 (c.cntPage s (off % 4096 / 8) / 2 ^ 32)) :: c'.hiLatch }, live)
  else if len = 4 ∧ off % 8 = 4 then
    match c.latchedHi ag (pageKey off) with
    | some h => (c.dropLatch ag (pageKey off), leWord h.toNat 4)
    | none => (c, live)
  else (c, live)

/-! ## BAR2 (R265, R266, R279) -/

/-- A slice's pages are visible to the VSI that holds its grant. -/
def Chip.ownsSlice (c : Chip) (v s : Nat) : Bool := c.slState s != sUngranted && c.slVsi s == v

/-- A write to a doorbell page: COUNT and GEN of Table 9.5; an offset without a doorbell, and a write of other than 8 bytes by its
length and byte enables, counts in DB_BAD. -/
def Chip.pageWrite (c : Chip) (v s off : Nat) (t : Tlp) : Chip :=
  let o := off % 4096
  let want := if o = 8 ∨ o = 16 then o else 0
  c.doorbell v s o t.asked want (leNat t.data 4 2) (fun c => c.ringDb want s (leNat t.data 0 4))

/-- BAR2: doorbell pages below 16 MiB read 0; the pages of a slice that is not granted to the VSI read 0, and a write to one
counts in FOREIGN_DB. -/
def Chip.pagesAccess (c : Chip) (r : Rx) (v off : Nat) : Chip :=
  let t := r.tlp
  let s := off / 4096 % 4096
  let counters := decide (2 ^ 24 ≤ off)
  if t.kind = .mwr then
    (if !c.ownsSlice v s then c.satInc Reg.RLY_EVENT Bit.RLY_EVENT_FOREIGN_DB
     else if counters then c
     else c.pageWrite v s off t).barDone r
  else if counters && c.ownsSlice v s then
    let x := c.pageRead v s off t.readLen
    x.1.barRead r v x.2
  else c.barRead r v (List.replicate t.readLen 0)

/-! ## BAR0 -/

/-- BAR0: an access of one DW reaches the register bus as the host's; any other completes without effect (R14). -/
def State.regsAccess (s : State) (r : Rx) (v off : Nat) : State :=
  let t := r.tlp
  let ag : Agent := .vsi v
  if t.kind = .mwr then
    let s := if t.oneDw then s.writeReg ag off (BitVec.ofNat 32 (leNat t.data 0 4))
      else { s with chip := s.chip.badAccess ag off t.asked }
    { s with chip := s.chip.barDone r }
  else if t.oneDw then
    let x := s.chip.busRead ag (off / 4 * 4)
    { s with chip := x.1.barRead r v (leWord (x.2.getD 0).toNat 4) }
  else
    let fill : Byte := if s.chip.keeperBusy ag then 0xFF else 0
    { s with chip := (s.chip.badAccess ag off t.asked).barRead r v (List.replicate t.len fill) }

/-! ## A TLP of a host -/

/-- The island whose reset holds an access to a BAR (R21). -/
def Chip.barHeld (c : Chip) : BarHit → Bool
  | .regs off => c.islandHeld off
  | .pages _ => !c.clocked 82
  | .rom _ => false

/-- A host's access to a BAR. An atomic operation is no access that a BAR takes, and is refused. -/
def State.barServe (s : State) (r : Rx) (v : Nat) (h : BarHit) : State :=
  if r.tlp.isAtomic then { s with chip := (s.chip.refuseAt r.port r.tlp stUR).barDone r }
  else
    match h with
    | .regs off => s.regsAccess r v off
    | .pages off => { s with chip := s.chip.pagesAccess r v (if r.tlp.isZeroRead then off / 4 * 4 else off) }
    | .rom off =>
      { s with chip :=
          if r.tlp.kind = .mwr then s.chip.barDone r else s.chip.barRead r v (s.chip.romBytes v off r.tlp.readLen) }

/-- PCIE_TLP_RECEIVED: an access to a BAR of the Relay function is served once it is whole and its island is out of reset;
any other TLP is looked up (R183). -/
def State.tlpArrived (s : State) (p : Nat) : State :=
  match s.chip.barTlp p with
  | some (r, l, v, h) =>
    if !r.whole || s.chip.barHeld h then s
    else ({ s with chip := ({ s.chip with sw := { s.chip.sw with rx := l } } : Chip).policeIn r } : State).barServe r v h
  | none => { s with chip := s.chip.tlpIn p }

def execPcieTlpReceived (p : Nat) (s : State) : Host.Outcome State Fault Refusal := .next (s.tlpArrived p)

end Sys2Proof.Machine
end

