-- ==== Sys2Proof/Machine/Dispatch.lean ====
section
/-!
DEFINITION. The meaning of every command: one arm per constructor, each one direct call.
-/
namespace Sys2Proof.Machine

def exec (i : Instr) (s : State) : Host.Outcome State Fault Refusal :=
  match i with
  | .registerWrite ag off value => Sys2Proof.Machine.execRegisterWrite ag off value s
  | .regAccessBadSize ag off size write => Sys2Proof.Machine.execRegAccessBadSize ag off size write s
  | .loReadLatch ag off => Sys2Proof.Machine.execLoReadLatch ag off s
  | .pcieFlitReceived p good segs fc => Sys2Proof.Machine.execPcieFlitReceived p good segs fc s
  | .pcieTlpReceived p => Sys2Proof.Machine.execPcieTlpReceived p s
  | .packetStaged st => Sys2Proof.Machine.execPacketStaged st s
  | .guardedCopyAllocated st src => Sys2Proof.Machine.execGuardedCopyAllocated st src s
  | .copyHeld id => Sys2Proof.Machine.execCopyHeld id s
  | .spillDone => Sys2Proof.Machine.execSpillDone s
  | .spilledReadback id => Sys2Proof.Machine.execSpilledReadback id s
  | .towerMatchCycle stalled => Sys2Proof.Machine.execTowerMatchCycle stalled s
  | .cellArrivalOb st tagOk => Sys2Proof.Machine.execCellArrivalOb st tagOk s
  | .schedulerChoice p => Sys2Proof.Machine.execSchedulerChoice p s
  | .packetTransmitted p => Sys2Proof.Machine.execPacketTransmitted p s
  | .egressUnderrun p => Sys2Proof.Machine.execEgressUnderrun p s
  | .pcieTlpAcked p => Sys2Proof.Machine.execPcieTlpAcked p s
  | .ortEntryAllocate p tag => Sys2Proof.Machine.execOrtEntryAllocate p tag s
  | .completionReceived p => Sys2Proof.Machine.execCompletionReceived p s
  | .ctoExpiry p tag => Sys2Proof.Machine.execCtoExpiry p tag s
  | .quarantineEnd p tag => Sys2Proof.Machine.execQuarantineEnd p tag s
  | .pcieLinkDown p why => Sys2Proof.Machine.execPcieLinkDown p why s
  | .pcieLinkUp p credits => Sys2Proof.Machine.execPcieLinkUp p credits s
  | .dpcRelease p => Sys2Proof.Machine.execDpcRelease p s
  | .prsntChange site low ident => Sys2Proof.Machine.execPrsntChange site low ident s
  | .cableMismatch p => Sys2Proof.Machine.execCableMismatch p s
  | .perstAssert ag p => Sys2Proof.Machine.execPerstAssert ag p s
  | .linkDisableSet ag p => Sys2Proof.Machine.execLinkDisableSet ag p s
  | .linkDisableClear ag p => Sys2Proof.Machine.execLinkDisableClear ag p s
  | .pllLockLost q => Sys2Proof.Machine.execPllLockLost q s
  | .pllRelocked q => Sys2Proof.Machine.execPllRelocked q s
  | .linkTrainingDone p r => Sys2Proof.Machine.execLinkTrainingDone p r s
  | .jointTrainingTimeout p => Sys2Proof.Machine.execJointTrainingTimeout p s
  | .dimReceiverDetect q partner => Sys2Proof.Machine.execDimReceiverDetect q partner s
  | .beaconFrameTimer => Sys2Proof.Machine.execBeaconFrameTimer s
  | .beaconMarkReceived r m => Sys2Proof.Machine.execBeaconMarkReceived r m s
  | .beaconMessageReceived r m => Sys2Proof.Machine.execBeaconMessageReceived r m s
  | .holdover => Sys2Proof.Machine.execHoldover s
  | .masterTakeover => Sys2Proof.Machine.execMasterTakeover s
  | .beaconWakePattern ring => Sys2Proof.Machine.execBeaconWakePattern ring s
  | .spanFlitReceived p f => Sys2Proof.Machine.execSpanFlitReceived p f s
  | .spanFrameReceived p => Sys2Proof.Machine.execSpanFrameReceived p s
  | .signalMessageRouted p => Sys2Proof.Machine.execSignalMessageRouted p s
  | .spanFlitTransmit p => Sys2Proof.Machine.execSpanFlitTransmit p s
  | .replayTimerExpiry p => Sys2Proof.Machine.execReplayTimerExpiry p s
  | .fcStaleness p => Sys2Proof.Machine.execFcStaleness p s
  | .kinitTimeout p => Sys2Proof.Machine.execKinitTimeout p s
  | .recoveryEntry p => Sys2Proof.Machine.execRecoveryEntry p s
  | .recoveryExit p l0 => Sys2Proof.Machine.execRecoveryExit p l0 s
  | .recoveryTimeout p => Sys2Proof.Machine.execRecoveryTimeout p s
  | .phyDetectEntered p => Sys2Proof.Machine.execPhyDetectEntered p s
  | .echoRequestTimer p => Sys2Proof.Machine.execEchoRequestTimer p s
  | .holdRetryExpiry p => Sys2Proof.Machine.execHoldRetryExpiry p s
  | .retrain ag p => Sys2Proof.Machine.execRetrain ag p s
  | .revertHoldExpiry p => Sys2Proof.Machine.execRevertHoldExpiry p s
  | .farErrSecondCopy id => Sys2Proof.Machine.execFarErrSecondCopy id s
  | .farErrReceived => Sys2Proof.Machine.execFarErrReceived s
  | .farErrFilterExpiry v origin ser addr => Sys2Proof.Machine.execFarErrFilterExpiry v origin ser addr s
  | .quotaCommit ag st gen => Sys2Proof.Machine.execQuotaCommit ag st gen s
  | .stnMcCommit ag st gen => Sys2Proof.Machine.execStnMcCommit ag st gen s
  | .twrMcCommit ag gen => Sys2Proof.Machine.execTwrMcCommit ag gen s
  | .poolCommit ag p gen => Sys2Proof.Machine.execPoolCommit ag p gen s
  | .rtCommit ag gen => Sys2Proof.Machine.execRtCommit ag gen s
  | .winCommit ag gen => Sys2Proof.Machine.execWinCommit ag gen s
  | .fmcCommit ag gen => Sys2Proof.Machine.execFmcCommit ag gen s
  | .secCommit ag gen => Sys2Proof.Machine.execSecCommit ag gen s
  | .schCommit ag gen => Sys2Proof.Machine.execSchCommit ag gen s
  | .fenceReq ag gen v all => Sys2Proof.Machine.execFenceReq ag gen v all s
  | .fenceDone => Sys2Proof.Machine.execFenceDone s
  | .secDrained => Sys2Proof.Machine.execSecDrained s
  | .felRdWrite ag v rd => Sys2Proof.Machine.execFelRdWrite ag v rd s
  | .kndFabRidWrite ag base => Sys2Proof.Machine.execKndFabRidWrite ag base s
  | .guardMapWrite ag v mask => Sys2Proof.Machine.execGuardMapWrite ag v mask s
  | .castOffReceived => Sys2Proof.Machine.execCastOffReceived s
  | .resendReceived => Sys2Proof.Machine.execResendReceived s
  | .refuseReceived => Sys2Proof.Machine.execRefuseReceived s
  | .noticeReceived => Sys2Proof.Machine.execNoticeReceived s
  | .mgmtReceived => Sys2Proof.Machine.execMgmtReceived s
  | .mgmtRepeatTimer id => Sys2Proof.Machine.execMgmtRepeatTimer id s
  | .castGapExpiry srcFa tc port => Sys2Proof.Machine.execCastGapExpiry srcFa tc port s
  | .custodyTimerExpiry srcFa tc destFa => Sys2Proof.Machine.execCustodyTimerExpiry srcFa tc destFa s
  | .refuseBackoffExpiry srcFa tc destFa => Sys2Proof.Machine.execRefuseBackoffExpiry srcFa tc destFa s
  | .custodyLimitExpiry srcFa tc destFa => Sys2Proof.Machine.execCustodyLimitExpiry srcFa tc destFa s
  | .epochGapExpiry srcFa tc destFa => Sys2Proof.Machine.execEpochGapExpiry srcFa tc destFa s
  | .egressCtxAgeClose srcFa tc port => Sys2Proof.Machine.execEgressCtxAgeClose srcFa tc port s
  | .dormantRecordExpiry srcFa tc destFa => Sys2Proof.Machine.execDormantRecordExpiry srcFa tc destFa s
  | .guardResidenceDrop uid => Sys2Proof.Machine.execGuardResidenceDrop uid s
  | .bootHoldEnd => Sys2Proof.Machine.execBootHoldEnd s
  | .configRequestReceived p type0 reg => Sys2Proof.Machine.execConfigRequestReceived p type0 reg s
  | .emulatedBarWrite v vbr devfn bar hi value => Sys2Proof.Machine.execEmulatedBarWrite v vbr devfn bar hi value s
  | .emulatedMseWrite v vbr devfn on => Sys2Proof.Machine.execEmulatedMseWrite v vbr devfn on s
  | .bind h v vbr kind target prid devfn peer wins bars fn => Sys2Proof.Machine.execBind h v vbr kind target prid devfn peer wins bars fn s
  | .bindPeer h port prid ownerFa ownerVsi proxy bars pf => Sys2Proof.Machine.execBindPeer h port prid ownerFa ownerVsi proxy bars pf s
  | .unbind h form v vbr devfn port prid => Sys2Proof.Machine.execUnbind h form v vbr devfn port prid s
  | .setProxy h v enable => Sys2Proof.Machine.execSetProxy h v enable s
  | .setVbrCount h v n => Sys2Proof.Machine.execSetVbrCount h v n s
  | .queryBind h form v vbr devfn port prid => Sys2Proof.Machine.execQueryBind h form v vbr devfn port prid s
  | .bindProbeRetry v vbr devfn => Sys2Proof.Machine.execBindProbeRetry v vbr devfn s
  | .upstreamPerst site low => Sys2Proof.Machine.execUpstreamPerst site low s
  | .hotResetReceived p => Sys2Proof.Machine.execHotResetReceived p s
  | .sbrUpstreamBridge v => Sys2Proof.Machine.execSbrUpstreamBridge v s
  | .sbrVbridge v vbr => Sys2Proof.Machine.execSbrVbridge v vbr s
  | .emulatedFlr v vbr devfn => Sys2Proof.Machine.execEmulatedFlr v vbr devfn s
  | .flrQuiesceDone v vbr devfn => Sys2Proof.Machine.execFlrQuiesceDone v vbr devfn s
  | .quiesceTimeout v vbr devfn => Sys2Proof.Machine.execQuiesceTimeout v vbr devfn s
  | .flrFrsReceived v vbr devfn => Sys2Proof.Machine.execFlrFrsReceived v vbr devfn s
  | .flrFrsTimeout v vbr devfn => Sys2Proof.Machine.execFlrFrsTimeout v vbr devfn s
  | .vsiReady v => Sys2Proof.Machine.execVsiReady v s
  | .vsiLeaveReset v => Sys2Proof.Machine.execVsiLeaveReset v s
  | .sliceGrant h v first count => Sys2Proof.Machine.execSliceGrant h v first count s
  | .sliceRevoke h first count => Sys2Proof.Machine.execSliceRevoke h first count s
  | .sliceEnable ag slice => Sys2Proof.Machine.execSliceEnable ag slice s
  | .sliceDrain ag slice => Sys2Proof.Machine.execSliceDrain ag slice s
  | .sliceReset ag slice => Sys2Proof.Machine.execSliceReset ag slice s
  | .sqDb v slice off size count gen => Sys2Proof.Machine.execSqDb v slice off size count gen s
  | .cqDb v slice off size count gen => Sys2Proof.Machine.execCqDb v slice off size count gen s
  | .ibDb v slice off size count gen => Sys2Proof.Machine.execIbDb v slice off size count gen s
  | .descriptorFetch slice => Sys2Proof.Machine.execDescriptorFetch slice s
  | .descriptorStart slice => Sys2Proof.Machine.execDescriptorStart slice s
  | .pieceIssue slice idx write => Sys2Proof.Machine.execPieceIssue slice idx write s
  | .relayReadCompletion => Sys2Proof.Machine.execRelayReadCompletion s
  | .descriptorComplete slice idx => Sys2Proof.Machine.execDescriptorComplete slice idx s
  | .intUnmask ag slice => Sys2Proof.Machine.execIntUnmask ag slice s
  | .sendReceived => Sys2Proof.Machine.execSendReceived s
  | .sendReplyReceived => Sys2Proof.Machine.execSendReplyReceived s
  | .sendTimeout id => Sys2Proof.Machine.execSendTimeout id s
  | .relayBmeClear v => Sys2Proof.Machine.execRelayBmeClear v s
  | .relayBmeSet v => Sys2Proof.Machine.execRelayBmeSet v s
  | .relayFunctionFlr v => Sys2Proof.Machine.execRelayFunctionFlr v s
  | .relayIslandReset => Sys2Proof.Machine.execRelayIslandReset s
  | .bucketRefill => Sys2Proof.Machine.execBucketRefill s
  | .policerRecover => Sys2Proof.Machine.execPolicerRecover s
  | .dbgAccess kind target addr len write data => Sys2Proof.Machine.execDbgAccess kind target addr len write data s
  | .sectorBackgroundCompare found => Sys2Proof.Machine.execSectorBackgroundCompare found s
  | .fogCmdPortFog ag p => Sys2Proof.Machine.execFogCmdPortFog ag p s
  | .fogCmdClear ag p trigger => Sys2Proof.Machine.execFogCmdClear ag p trigger s
  | .fogCmdModuleFog ag => Sys2Proof.Machine.execFogCmdModuleFog ag s
  | .fogRelease params pecOk => Sys2Proof.Machine.execFogRelease params pecOk s
  | .lockstepMismatch => Sys2Proof.Machine.execLockstepMismatch s
  | .clockLost island => Sys2Proof.Machine.execClockLost island s
  | .powerDoubt => Sys2Proof.Machine.execPowerDoubt s
  | .feedLoss => Sys2Proof.Machine.execFeedLoss s
  | .scrubPass found t => Sys2Proof.Machine.execScrubPass found t s
  | .comparatorSelftest failed => Sys2Proof.Machine.execComparatorSelftest failed s
  | .injectGo ag cls p => Sys2Proof.Machine.execInjectGo ag cls p s
  | .fogNStuck => Sys2Proof.Machine.execFogNStuck s
  | .thermalSample junction inlet feedA feedB watts => Sys2Proof.Machine.execThermalSample junction inlet feedA feedB watts s
  | .thermalFog junction => Sys2Proof.Machine.execThermalFog junction s
  | .keeperBoot o => Sys2Proof.Machine.execKeeperBoot o s
  | .crEnable ag => Sys2Proof.Machine.execCrEnable ag s
  | .crDisable ag => Sys2Proof.Machine.execCrDisable ag s
  | .crDb ag sq cq => Sys2Proof.Machine.execCrDb ag sq cq s
  | .keeperCommandFetch entry bars fn data => Sys2Proof.Machine.execKeeperCommandFetch entry bars fn data s
  | .nop h => Sys2Proof.Machine.execNop h s
  | .imageBegin h kind len => Sys2Proof.Machine.execImageBegin h kind len s
  | .imageWrite h kind off len addr data => Sys2Proof.Machine.execImageWrite h kind off len addr data s
  | .imageVerify h kind => Sys2Proof.Machine.execImageVerify h kind s
  | .imageCommit h mask => Sys2Proof.Machine.execImageCommit h mask s
  | .imageActivate h => Sys2Proof.Machine.execImageActivate h s
  | .imageAccept h => Sys2Proof.Machine.execImageAccept h s
  | .imageAbort h kind => Sys2Proof.Machine.execImageAbort h kind s
  | .opKeyEnroll h kind addr key => Sys2Proof.Machine.execOpKeyEnroll h kind addr key s
  | .keyRevoke h k => Sys2Proof.Machine.execKeyRevoke h k s
  | .setCert h addr len cert => Sys2Proof.Machine.execSetCert h addr len cert s
  | .mctpCommandReceived entry data => Sys2Proof.Machine.execMctpCommandReceived entry data s
  | .regRead port addr count => Sys2Proof.Machine.execRegRead port addr count s
  | .regWrite port addr data => Sys2Proof.Machine.execRegWrite port addr data s
  | .spdmRequest via who r => Sys2Proof.Machine.execSpdmRequest via who r s
  | .dbgNonce => Sys2Proof.Machine.execDbgNonce s
  | .dbgUnlock token => Sys2Proof.Machine.execDbgUnlock token s
  | .dbgLock => Sys2Proof.Machine.execDbgLock s
  | .unlockLifetimeExpiry => Sys2Proof.Machine.execUnlockLifetimeExpiry s
  | .keeperDebug halt => Sys2Proof.Machine.execKeeperDebug halt s
  | .extest bits => Sys2Proof.Machine.execExtest bits s
  | .powerOn feed diode inlet => Sys2Proof.Machine.execPowerOn feed diode inlet s
  | .crystalQualified => Sys2Proof.Machine.execCrystalQualified s
  | .crystalQualifyTimeout => Sys2Proof.Machine.execCrystalQualifyTimeout s
  | .crystalLost => Sys2Proof.Machine.execCrystalLost s
  | .stationStarted st => Sys2Proof.Machine.execStationStarted st s
  | .islandStartTimeout => Sys2Proof.Machine.execIslandStartTimeout s
  | .bootEnd => Sys2Proof.Machine.execBootEnd s
  | .stnReset ag mask => Sys2Proof.Machine.execStnReset ag mask s
  | .stationResetResume => Sys2Proof.Machine.execStationResetResume s
  | .resetNFall => Sys2Proof.Machine.execResetNFall s
  | .resetNRise => Sys2Proof.Machine.execResetNRise s
  | .iroTrimWindow err => Sys2Proof.Machine.execIroTrimWindow err s
  | .oppRegulatorReady st => Sys2Proof.Machine.execOppRegulatorReady st s
  | .oppRegulatorTimeout st => Sys2Proof.Machine.execOppRegulatorTimeout st s
  | .pwrTargetLit ag => Sys2Proof.Machine.execPwrTargetLit ag s
  | .pwrTargetDim ag => Sys2Proof.Machine.execPwrTargetDim ag s
  | .pwrTargetDark ag => Sys2Proof.Machine.execPwrTargetDark ag s
  | .watchAlarm => Sys2Proof.Machine.execWatchAlarm s
  | .gateRequest island => Sys2Proof.Machine.execGateRequest island s
  | .gateAck island => Sys2Proof.Machine.execGateAck island s
  | .gateAbandon island => Sys2Proof.Machine.execGateAbandon island s
  | .wakeAddressMatch => Sys2Proof.Machine.execWakeAddressMatch s
  | .comparatorTrip k tripped => Sys2Proof.Machine.execComparatorTrip k tripped s
  | .restoreStepReady => Sys2Proof.Machine.execRestoreStepReady s
  | .restoreTimeout => Sys2Proof.Machine.execRestoreTimeout s
  | .rampStart => Sys2Proof.Machine.execRampStart s
  | .gateFullyEnhanced => Sys2Proof.Machine.execGateFullyEnhanced s
  | .rampTimeout => Sys2Proof.Machine.execRampTimeout s
  | .curveTrip point ma t => Sys2Proof.Machine.execCurveTrip point ma t s
  | .shortTrip ma => Sys2Proof.Machine.execShortTrip ma s
  | .soaModelUpdate m => Sys2Proof.Machine.execSoaModelUpdate m s
  | .ovTrip mv ma => Sys2Proof.Machine.execOvTrip mv ma s
  | .ovRecover => Sys2Proof.Machine.execOvRecover s
  | .retryDelayExpiry => Sys2Proof.Machine.execRetryDelayExpiry s
  | .tripCountDecay => Sys2Proof.Machine.execTripCountDecay s
  | .pweLatchClear ag v => Sys2Proof.Machine.execPweLatchClear ag v s
  | .pweApply ag v => Sys2Proof.Machine.execPweApply ag v s
  | .reverseCurrent feed => Sys2Proof.Machine.execReverseCurrent feed s
  | .feedBelowWarning feed => Sys2Proof.Machine.execFeedBelowWarning feed s
  | .feedArmed feed => Sys2Proof.Machine.execFeedArmed feed s
  | .feedWarnRelease => Sys2Proof.Machine.execFeedWarnRelease s
  | .feedDisarm feed => Sys2Proof.Machine.execFeedDisarm feed s
  | .mateLatch sel => Sys2Proof.Machine.execMateLatch sel s
  | .mateLost => Sys2Proof.Machine.execMateLost s
  | .lrStatus params pecOk => Sys2Proof.Machine.execLrStatus params pecOk s
  | .lrPweRead params pecOk => Sys2Proof.Machine.execLrPweRead params pecOk s
  | .lrPweWrite params pecOk => Sys2Proof.Machine.execLrPweWrite params pecOk s
  | .lrPower params pecOk => Sys2Proof.Machine.execLrPower params pecOk s
  | .i3cDynamicAddress port ep addr => Sys2Proof.Machine.execI3cDynamicAddress port ep addr s
  | .rstdaa port => Sys2Proof.Machine.execRstdaa port s
  | .colEnable ag => Sys2Proof.Machine.execColEnable ag s
  | .snapshot => Sys2Proof.Machine.execSnapshot s
  | .snapNow ag => Sys2Proof.Machine.execSnapNow ag s
  | .dumpRdWrite ag n => Sys2Proof.Machine.execDumpRdWrite ag n s
  | .stagedDumpMove => Sys2Proof.Machine.execStagedDumpMove s
  | .sndPop ag => Sys2Proof.Machine.execSndPop ag s
  | .logSummary => Sys2Proof.Machine.execLogSummary s
  | .keepAreaProgram => Sys2Proof.Machine.execKeepAreaProgram s
  | .logFreeze ag on => Sys2Proof.Machine.execLogFreeze ag on s
  | .freezeTimeout => Sys2Proof.Machine.execFreezeTimeout s
  | .logRdSel ag area index => Sys2Proof.Machine.execLogRdSel ag area index s
  | .standbyConverterStop => Sys2Proof.Machine.execStandbyConverterStop s
  | .refclkQualified => Sys2Proof.Machine.execRefclkQualified s
  | .pcieReplayTimeout p rollover => Sys2Proof.Machine.execPcieReplayTimeout p rollover s

end Sys2Proof.Machine
end

