-- ==== Sys2Proof/Safety.lean ====
section
/-!
DEFINITION. What the statements say of states and runs: the forms that every step keeps, and the completion of a command.
-/
namespace Sys2Proof

/-- The commands that program or erase flash by a rule: the Keeper's commands, its boot, those that write the Keep area
or final words, and SET_CERTIFICATE of SPDM (R372, R385, R389, R509, R510). -/
def Instr.mayProgram (i : Instr) : Bool :=
  match i with
  | .bind .. | .bindPeer .. | .unbind .. | .setProxy .. | .setVbrCount .. | .queryBind .. | .sliceGrant .. | .sliceRevoke ..
  | .nop .. | .imageBegin .. | .imageWrite .. | .imageVerify .. | .imageCommit .. | .imageActivate .. | .imageAccept ..
  | .imageAbort .. | .opKeyEnroll .. | .keyRevoke .. | .setCert .. => true
  | .keeperCommandFetch .. | .mctpCommandReceived .. | .flrQuiesceDone .. | .quiesceTimeout .. | .bindProbeRetry .. => true
  | .keeperBoot .. | .keepAreaProgram | .mateLost | .reverseCurrent .. | .feedBelowWarning .. | .powerDoubt | .feedLoss
  | .comparatorSelftest .. => true
  | .spdmRequest _ _ (.setCertificate _ _) => true
  | _ => false

/-- A measurement beyond the absolute maximum ratings (R521): a junction above 125 degrees C, a rail above 75 V. -/
def Instr.beyondMaximum (i : Instr) : Bool :=
  match i with
  | .thermalSample j _ _ _ _ => decide (12500 < j)
  | .thermalFog j => decide (12500 < j)
  | .ovTrip mv _ => decide (75000 < mv)
  | _ => false

end Sys2Proof

namespace Sys2Proof.Machine

/-- The flash is in its canonical form. -/
def State.flashOk (s : State) : Bool := Memory.wf s.flash

/-- A command completes: exec answers a next state. -/
def Completes (i : Instr) (s : State) : Prop := ∃ t, exec i s = .next t

/-- The same flash and queue, with another chip. -/
def State.withChip (s : State) (c : Chip) : State := { s with chip := c }

/-- An access by an agent at an offset reaches the register: the bus runs, the Keeper is not busy for the agent, no reset holds
the island the register lies in, no parity error meets it, and the agent's view shows the register whole (R21, R379, R514, R518). -/
def Chip.reaches (c : Chip) (ag : Agent) (off : Nat) : Bool :=
  c.busRuns ag && !c.keeperBusy ag && !c.islandHeld off && !c.busUpset off && decide (c.sees ag off = .full)

/-- The queue loses its front and nothing else. -/
def State.popped (s : State) (rest : List Instr) : State := { s with pending := rest }

end Sys2Proof.Machine
end

