-- ==== Sys2Proof/Certificates/Slice0/Obligations.lean ====
section
/-!
DEFINITION. The statements for the provers. A completion statement says, under conditions on the state and the operands alone,
that `exec` answers a next state, and which: the state with its chip changed as the rule says, by the named operations of the
model, and with nothing else changed.
-/
open Sys2Proof Sys2Proof.Machine

/-! ## The block as a whole -/

/-- The command at the front of the queue runs on the state with the queue's rest. -/
def Obligations.StepRunsFrontCommand : Prop :=
  ∀ (s : State) (i : Instr) (rest : List Instr), s.pending = i :: rest → step s = exec i (s.popped rest)

/-- On an empty queue one cycle of the Lamp Room's clock passes (log entry 1, the model's choice): the Watch advances by 40 ns on
the crystal and 20 ns on the oscillator (R430), the registers stand but for OP_HOURS, which rises every 0.1 h (R505); then what was
left to happen without a command does, where anything was; before the standby converter runs nothing happens. -/
def Obligations.EmptyQueuePassesTime : Prop :=
  ∀ s : State, s.pending = [] →
    (s.chip.pwr.standby = true →
      ∃ c : Chip, step s = .next (s.withChip c.settleAll) ∧
        c.watchUp = (s.chip.watchUp + s.chip.watchStep) % 2 ^ 64 ∧
        (s.chip.slew = 0 → c.watchTime = (s.chip.watchTime + s.chip.watchStep) % 2 ^ 64 ∧ c.slew = 0) ∧
        c.pwr.hourNs = (s.chip.pwr.hourNs + s.chip.watchStep) % (360 * sec) ∧
        (c.fld Reg.OP_HOURS Bit.OP_HOURS_HOURS =
          if c.pwr.hourNs < s.chip.watchStep then
            min (s.chip.fld Reg.OP_HOURS Bit.OP_HOURS_HOURS + 1) (fldMax Bit.OP_HOURS_HOURS)
          else s.chip.fld Reg.OP_HOURS Bit.OP_HOURS_HOURS) ∧
        (∀ off, off ≠ Reg.OP_HOURS → c.rd off = s.chip.rd off) ∧
        c.timers = s.chip.timers ∧ c.out = s.chip.out ∧
        (s.chip.saf.contain = [] → (∀ e ∈ s.chip.pci.ort, e.ansDue = none) → s.chip.rly.posts = [] → c.settleAll = c)) ∧
    (s.chip.pwr.standby = false → step s = .next s)

/-! ## The register bus -/

/-- A register write that reaches its register (R15, R513): the register's own rule, else the plain write of its fields, once a
gated island's gate is open (R441); an offset that holds no register ignores it. A write that does not reach it is discarded:
counted while the Keeper is busy (R379), recorded when a host writes outside its view (R514). Each ends with a completion (R27),
but for a write that a crossing into an island in reset holds (R21). -/
def Obligations.RegisterWriteReachesItsRegister : Prop :=
  (∀ (s : State) (ag : Agent) (off value : Nat), s.chip.reaches ag off = true → regAt off = none →
    exec (.registerWrite ag off value) s = .next (s.withChip ((s.chip.openGate off).emit (.regDone ag off)))) ∧
  (∀ (s : State) (ag : Agent) (off value : Nat) (row : RegRow) (ix : List Nat), s.chip.reaches ag off = true →
    regAt off = some (row, ix) →
    (s.chip.openGate off).ownRule s.logRecord ag off row (BitVec.ofNat 32 value) = none →
    exec (.registerWrite ag off value) s =
      .next (s.withChip (((s.chip.openGate off).plainWrite ag off row (BitVec.ofNat 32 value)).emit (.regDone ag off)))) ∧
  (∀ (s : State) (ag : Agent) (off value : Nat) (row : RegRow) (ix : List Nat) (c : Chip), s.chip.reaches ag off = true →
    regAt off = some (row, ix) →
    (s.chip.openGate off).ownRule s.logRecord ag off row (BitVec.ofNat 32 value) = some c →
    exec (.registerWrite ag off value) s = .next (s.withChip (c.emit (.regDone ag off)))) ∧
  (∀ (s : State) (ag : Agent) (off value : Nat), s.chip.busRuns ag = true → s.chip.keeperBusy ag = true →
    exec (.registerWrite ag off value) s = .next (s.withChip (s.chip.countBusy.emit (.regDone ag off)))) ∧
  (∀ (s : State) (v off value : Nat), s.chip.busRuns (.vsi v) = true → s.chip.keeperBusy (.vsi v) = false →
    s.chip.isManager v = false → s.chip.sees (.vsi v) off = .hidden →
    exec (.registerWrite (.vsi v) off value) s =
      .next (s.withChip ((s.chip.log .viewWrite [v, off]).emit (.regDone (.vsi v) off)))) ∧
  (∀ (s : State) (ag : Agent) (off value : Nat), s.chip.busRuns ag = true → s.chip.keeperBusy ag = false →
    s.chip.sees ag off = .full → s.chip.islandHeld off = true →
    exec (.registerWrite ag off value) s =
      .next (s.withChip (s.chip.holdAccess ag off (.write (BitVec.ofNat 32 value)))))

/-- R19: a read of a _LO latches the matching _HI, and the next read of the _HI by the same agent returns the latched half,
whatever the register holds by then. -/
def Obligations.LoReadLatchesHi : Prop :=
  ∀ (s : State) (ag : Agent) (off : Nat), s.chip.reaches ag off = true → pairAt off = 1 → pairAt (off + 4) = 2 →
    ∃ t, exec (.loReadLatch ag off) s = .next t ∧ t.pending = s.pending ∧ t.flash = s.flash ∧
      t.chip.out = .regData ag off ((s.chip.openGate off).regView off).toNat :: s.chip.out ∧
      (∀ o, o ≠ Reg.GATE_STATUS → t.chip.rd o = s.chip.rd o) ∧
      (∀ u : State, u.chip.hiLatch = t.chip.hiLatch → u.chip.reaches ag (off + 4) = true →
        ∃ w, exec (.loReadLatch ag (off + 4)) u = .next w ∧
          w.chip.out = .regData ag (off + 4) ((s.chip.openGate off).regView (off + 4)).toNat :: u.chip.out)

/-- R14: an access of a size other than 32 bits completes without effect; a read of it returns zeros, and the Keeper's Log takes
an ACCESS_SIZE record with the agent, the offset and the size. Registers outside the log stand. -/
def Obligations.AccessOfAnotherSizeHasNoEffect : Prop :=
  ∀ (s : State) (ag : Agent) (off size : Nat), s.chip.busRuns ag = true → s.chip.keeperBusy ag = false → size ≠ 4 →
    exec (.regAccessBadSize ag off size true) s =
      .next (s.withChip ((s.chip.log .accessSize [ag.num, off, size]).emit (.regDone ag off))) ∧
    exec (.regAccessBadSize ag off size false) s =
      .next (s.withChip ((s.chip.log .accessSize [ag.num, off, size]).emit (.regData ag off 0))) ∧
    (∀ o, o ≠ Reg.LOG_SEQ → o ≠ Reg.LOG_STATUS → o ≠ Reg.LOG_EVENT →
      (s.chip.log .accessSize [ag.num, off, size]).rd o = s.chip.rd o) ∧
    (s.chip.keeperRuns = true → s.chip.flag Reg.LOG_CTRL Bit.LOG_CTRL_FREEZE = false →
      ∃ r rest, (s.chip.log .accessSize [ag.num, off, size]).tel.recent = r :: rest ∧ r.code = .accessSize ∧
        r.key = [ag.num, off, size])

/-- The register messages of the management ports (R477): a REG_READ answers with the data of its registers, little-endian, and
a REG_WRITE writes its registers in rising order and answers. In recovery the Keeper takes neither (R378). -/
def Obligations.RegisterMessagesReachTheBus : Prop :=
  (∀ (s : State) (k addr count : Nat), s.chip.busRuns (.mgmt k) = true → s.chip.inRecovery = false → 1 ≤ count →
    count ≤ 16 → s.chip.msgHeld k addr count = false →
    exec (.regRead k addr count) s = .next (s.withChip
      ((s.chip.regReads k addr count).1.emit (.mctp k (s.chip.regReads k addr count).2)))) ∧
  (∀ (s : State) (k addr : Nat), s.chip.reaches (.mgmt k) addr = true → s.chip.inRecovery = false → pairAt addr = 0 →
    exec (.regRead k addr 1) s = .next (s.withChip ((s.chip.openGate addr).emit
      (.mctp k (leBytes 4 ((s.chip.openGate addr).regView addr).toNat))))) ∧
  (∀ (s : State) (k addr : Nat) (data : List Nat), s.chip.busRuns (.mgmt k) = true → s.chip.inRecovery = false →
    1 ≤ data.length → data.length ≤ 16 → s.chip.msgHeld k addr data.length = false →
    exec (.regWrite k addr data) s =
      .next ((s.regWrites k addr data).withChip ((s.regWrites k addr data).chip.emit (.mctp k [])))) ∧
  (∀ (s : State) (k addr d : Nat) (row : RegRow) (ix : List Nat), s.chip.reaches (.mgmt k) addr = true →
    s.chip.inRecovery = false → regAt addr = some (row, ix) →
    (s.chip.openGate addr).ownRule s.logRecord (.mgmt k) addr row (BitVec.ofNat 32 d) = none →
    exec (.regWrite k addr [d]) s = .next (s.withChip
      ((((s.chip.openGate addr).plainWrite (.mgmt k) addr row (BitVec.ofNat 32 d)).emit (.regDone (.mgmt k) addr)).emit
        (.mctp k [])))) ∧
  (∀ (s : State) (k addr count : Nat) (data : List Nat), s.chip.inRecovery = true →
    exec (.regRead k addr count) s = .next s ∧ exec (.regWrite k addr data) s = .next s)

/-! ## PCIe ports: flits, packets, completions -/

/-- Flits on a PCIe port in DL_Active (R66, R67): a good flit returns its credits, which a return beyond what can be outstanding
does not, and gives its shares in order; one that fails its check, with no packet in progress, is counted, answered by a NAK and
reported. A received memory request enters the core (R66, R183, R250): the oldest TLP of the port that waits, of the
VSI it belongs to, leaves its looked-up packets behind; a malformed one is reported and dropped, a read of a kind that the module
refuses is answered. The expansion ROM BAR (R406): a read returns the image of the Light List in force, 0 from its length on and
all ones while the Keeper boots; a write is discarded. -/
def Obligations.PciePacketsArrive : Prop :=
  (∀ (s : State) (p : Nat) (segs : List TlpSeg) (fc : List Nat), s.chip.portUp p = true → s.chip.isSpan p = false →
    s.chip.dlUp p = true →
    exec (.pcieFlitReceived p true segs fc) s = .next (s.withChip
      (if s.chip.fcBroken p fc then (segs.foldl (fun c g => c.flitSeg p g) s.chip).portError p .flowControlProtocol
       else segs.foldl (fun c g => c.flitSeg p g) (s.chip.creditsIn p fc)))) ∧
  (∀ (s : State) (p : Nat) (segs : List TlpSeg) (fc : List Nat), s.chip.portUp p = true → s.chip.isSpan p = false →
    s.chip.dlUp p = true → s.chip.sw.rx.find? (fun r => r.port == p && !r.whole) = none →
    exec (.pcieFlitReceived p false segs fc) s = .next (s.withChip
      ((((s.chip.ctrInc kPort p 4).ctrInc kPort p 5).emit (.dllNak p)).aerPort p .badTlp))) ∧
  (∀ (s : State) (p : Nat) (t : Tlp), s.chip.portUp p = true → s.chip.isSpan p = false → s.chip.dlUp p = true →
    s.chip.poolUseOf p (2 * t.creditType) + t.creditH ≤ nth (SMap.get s.chip.pci.adv p []) (2 * t.creditType) →
    s.chip.poolUseOf p (2 * t.creditType + 1) + t.creditD ≤ nth (SMap.get s.chip.pci.adv p []) (2 * t.creditType + 1) →
    ∃ u, exec (.pcieFlitReceived p true [{ start := some t, bytes := t.bytes, last := true }] []) s = .next u ∧
      u.chip.sw.rx = s.chip.sw.rx ++
        [{ port := p, tlp := t, len := t.bytes, got := t.bytes, whole := true, t0 := s.chip.now }] ∧
      u.chip.ctr kPort p 0 = (s.chip.ctr kPort p 0 + 1) % 2 ^ 48 ∧
      u.chip.ctr kPort p 2 = (s.chip.ctr kPort p 2 + t.bytes) % 2 ^ 48 ∧
      u.chip.regs = s.chip.regs ∧ u.chip.out = s.chip.out ∧ u.chip.timers = s.chip.timers) ∧
  (∀ (s : State) (p : Nat) (r : Rx) (c : Chip) (v : Nat),
    s.chip.takeRx p (fun r => !(r.tlp.kind == .cpl || r.tlp.kind == .cfgRd || r.tlp.kind == .cfgWr)) = some (r, c) →
    s.chip.barTlp p = none → r.tlp.isMalformed = false → r.tlp.isMem = true → c.whose r.port r.tlp.rid = some v →
    (!(c.port r.port).up && c.acsBreaks r.port v r.tlp) = false →
    (let m := c.submit { st := portStation r.port, src := portLocal r.port, port := r.port, v, path := b2n (!(c.port r.port).up) }
       (!(c.port r.port).up) r.tlp r.t0
     m.uids ≠ [] ∧ m.what ≠ 5) →
    exec (.pcieTlpReceived p) s = .next (s.withChip (
      let m := c.submit { st := portStation r.port, src := portLocal r.port, port := r.port, v, path := b2n (!(c.port r.port).up) }
        (!(c.port r.port).up) r.tlp r.t0
      let d := m.c.setPkts (mapIf (fun k => m.uids.contains k.uid) r.fills m.c.sw.pkts)
      let d := ((d.markPartial r m.uids).putRx r m.uids m.back).ackNow r m.uids
      let d := match d.pkt (m.uids.headD 0) with
        | some k => d.sndChoose (portStation r.port) k.uid r.port r.t0 k
        | none => d
      if m.what = 2 then d.dpcOn r.port .acsViolation else d))) ∧
  (∀ (s : State) (p : Nat) (r : Rx) (c : Chip),
    s.chip.takeRx p (fun r => !(r.tlp.kind == .cpl || r.tlp.kind == .cfgRd || r.tlp.kind == .cfgWr)) = some (r, c) →
    r.tlp.isMalformed = true →
    exec (.pcieTlpReceived p) s = .next (s.withChip
      (((c.putGone r).ackNow r []).portError r.port .malformedTlp))) ∧
  (∀ (s : State) (p : Nat) (r : Rx) (c : Chip),
    s.chip.takeRx p (fun r => !(r.tlp.kind == .cpl || r.tlp.kind == .cfgRd || r.tlp.kind == .cfgWr)) = some (r, c) →
    r.tlp.isMalformed = false → r.tlp.kind = .mrdLk ∨ r.tlp.kind = .dmwr →
    exec (.pcieTlpReceived p) s = .next (s.withChip
      (((((c.setBit (Reg.PRT_EVENT r.port) Bit.PRT_EVENT_REFUSED_REQ).refuseAt r.port r.tlp stUR).putGone r).ackNow r []).portError
        r.port .unsupportedRequest))) ∧
  (∀ (s : State) (p : Nat) (r : Rx) (l : List Rx) (v off : Nat), s.chip.barTlp p = some (r, l, v, .rom off) → r.whole = true →
    (r.tlp.kind = .mrd → exec (.pcieTlpReceived p) s = .next (s.withChip (
      let c := ({ s.chip with sw := { s.chip.sw with rx := l } } : Chip).policeIn r
      c.barRead r v (c.romBytes v off r.tlp.readLen)))) ∧
    (r.tlp.kind = .mwr → exec (.pcieTlpReceived p) s = .next (s.withChip
      ((({ s.chip with sw := { s.chip.sw with rx := l } } : Chip).policeIn r).barDone r)))) ∧
  (∀ (c : Chip) (v off len i : Nat), i < len →
    (c.keeperBusy (.vsi v) = true → (c.romBytes v off len)[i]? = some 0xFF) ∧
    (∀ l : LightList, c.keeperBusy (.vsi v) = false → c.ll = some l →
      (c.romBytes v off len)[i]? = some (if off + i < l.len then l.image.getD (off + i) 0 else 0)))

/-- Completions, acknowledgements and replay timeouts of a PCIe port: a whole completion that an entry expects counts against it
and is acknowledged (R89); one that matches nothing is unexpected (R90); an acknowledged posted packet is discharged (R216); the
replay timer is counted and reported (R102, Table 3.6). The completion timer and quarantine (R93): an entry whose timer has run
out, with no completion of it waiting and no bit error or injected fault, is answered, counted and reported; a quarantined tag
whose time is up returns to the pool and nothing else changes. -/
def Obligations.PcieCompletionsAndTimers : Prop :=
  (∀ (s : State) (p : Nat) (r : Rx) (c : Chip) (e : OrtEnt),
    s.chip.takeRx p (fun r => r.tlp.kind == .cpl && r.whole) = some (r, c) → r.tlp.isMalformed = false →
    c.ortFor p r.tlp = some e → e.badCpl r.tlp = false → e.ecc = 0 → c.saf.inject = none →
    exec (.completionReceived p) s = .next (s.withChip (
      let d := c.cplCounts e r.tlp (fun k => r.fills (cplFill p c.sw.nextUid r.tlp k)) (fun x => x.rxBack r)
      (if e.relay.isSome then d.policeIn r else d).ackCpl p c.sw.nextUid))) ∧
  (∀ (s : State) (p : Nat) (r : Rx) (c : Chip),
    s.chip.takeRx p (fun r => r.tlp.kind == .cpl && r.whole) = some (r, c) → r.tlp.isMalformed = false →
    c.ortFor p r.tlp = none → c.quarFor p r.tlp = none →
    exec (.completionReceived p) s = .next (s.withChip (((c.unexpCpl p r.tlp).rxBack r).emit (.dllAck p)))) ∧
  (∀ (s : State) (p : Nat) (u : Unacked) (l : List Unacked),
    takeFirst (fun u => u.port == p) s.chip.pci.unacked = some (u, l) →
    exec (.pcieTlpAcked p) s = .next (s.withChip
      (({ s.chip with pci := { s.chip.pci with unacked := l } } : Chip).dischargeOpt u.rel))) ∧
  (∀ (s : State) (p : Nat), s.chip.dlUp p = true → s.chip.isSpan p = false →
    exec (.pcieReplayTimeout p false) s = .next (s.withChip ((s.chip.ctrInc kPort p 7).aerPort p .replayTimer)) ∧
    exec (.pcieReplayTimeout p true) s = .next (s.withChip
      ((((s.chip.ctrInc kPort p 7).aerPort p .replayTimer).ctrInc kPort p 8).aerPort p .replayRollover))) ∧
  (∀ (s : State) (p tag : Nat) (e : OrtEnt), s.chip.pci.ort.find? (fun e => e.port == p && e.mapTag == tag) = some e →
    s.chip.due (.cto p tag) = true → s.chip.cplPending e = false → e.ecc = 0 → s.chip.saf.inject = none →
    exec (.ctoExpiry p tag) s = .next (s.withChip
      (((((s.chip.setBit (Reg.PRT_EVENT p) Bit.PRT_EVENT_CTO_ANSWER).stCtr p 46).aerPort p .completionTimeout).answerEntry e
        (s.chip.synth p)).dpcOn p .completionTimeout))) ∧
  (∀ (s : State) (p tag : Nat), s.chip.due (.quarantine p tag) = true →
    ∃ t, exec (.quarantineEnd p tag) s = .next t ∧
      t.chip.pci.quar = s.chip.pci.quar.filter (fun q => !(q.port == p && q.tag == tag)) ∧
      t.chip.due (.quarantine p tag) = false ∧ (∀ x, x ≠ .quarantine p tag → t.chip.due x = s.chip.due x) ∧
      t.chip.pci.ort = s.chip.pci.ort ∧ t.chip.regs = s.chip.regs ∧ t.chip.out = s.chip.out ∧ t.flash = s.flash ∧
      t.pending = s.pending)

/-! ## Staging, the custody store, the Tower -/

/-- PACKET_STAGED at a station that sends (R24, R36 to R45): the first source of the rotation that holds a packet with a cell's
worth of it ready stages one cell.
One CT of the Tower (R50 to R57) and the arrival of its cells (R60, R61): the granted inputs send, the announced cells that no
stall holds are written, and the next CT is matched; a cell whose tag and headers agree is taken out of flight and stored for
its targets, and one whose tag does not agree is dropped with CRC_FAIL. -/
def Obligations.CellsAreStagedAndMoved : Prop :=
  (∀ (s : State) (st src : Nat) (k : Pkt), st < 16 → s.chip.stSends st = true → s.chip.bootFog = false →
    s.chip.ingestOf st < s.chip.ingestRate st →
    (let c := (s.chip.dropNoTarget st).dropDown st
     let c := if c.stUp st then c.feedReplay st else c
     ((List.range 10).map (fun i => (SMap.get c.sw.lastSrc st 9 + 1 + i) % 10)).findSome? (fun src =>
       (c.nextOf st src).bind (fun k => if k.fills 128 then some (src, k) else none)) =
      some (src, k)) →
    exec (.packetStaged st) s = .next (s.withChip (
      let c := (s.chip.dropNoTarget st).dropDown st
      (if c.stUp st then c.feedReplay st else c).stageFrom st src k))) ∧
  (∀ (s : State) (stalled : List Nat), s.chip.sw.g0 ≠ [] → s.chip.bootFog = false → s.chip.clocked 80 = true →
    exec (.towerMatchCycle stalled) s = .next (s.withChip (
      let c := (s.chip.sw.matches_.foldl Chip.sendMatch { s.chip with sw := { s.chip.sw with matches_ := [] } }).writeAnnounced stalled
      (c.matchNext (fun i q => if q = 16 then c.voqCount i 16
        else s.chip.voqCount i q + s.chip.annCount i q -
          (s.chip.sw.matches_.filter (fun m => m.inp == i && m.out == q && !m.mc)).length)).relayCt.ingestCts))) ∧
  (∀ (s : State) (st : Nat) (x : Transit) (l : List Transit) (refs : List (Nat × Nat)),
    takeFirst (fun t => t.out == st) s.chip.sw.transit = some (x, l) → s.chip.saf.inject = none →
    (x.cell.segs.filter (·.first)).all (fun g => match s.chip.pkt g.uid with
      | some k => k.ihOk
      | none => true) = true →
    refs = x.cell.segs.flatMap (fun g =>
      match s.chip.pkt g.uid with
      | some k =>
        (if g.first then s.chip.targetsAt st k
         else (s.chip.sw.obq.filter (fun e => e.uid == g.uid && portStation e.port == st)).map (·.port)).map (fun p => (g.uid, p))
      | none => []) →
    refsOver refs = false →
    exec (.cellArrivalOb st true) s = .next (s.withChip (
      let c : Chip := { s.chip with sw := { s.chip.sw with transit := l } }
      let c := (refs.map (·.2)).dedup.foldl Chip.countReserve c
      let c := if refs.isEmpty then c
        else { c with sw := { c.sw with obCells := c.sw.obCells ++ [{ st, segs := x.cell.segs, refs }] } }
      x.cell.segs.foldl (fun c g => c.arriveSeg st x.cell g) c))) ∧
  (∀ (s : State) (st : Nat) (x : Transit) (l : List Transit),
    takeFirst (fun t => t.out == st) s.chip.sw.transit = some (x, l) → s.chip.saf.inject = none →
    exec (.cellArrivalOb st false) s = .next (s.withChip (
      let c := ({ s.chip with sw := { s.chip.sw with transit := l } } : Chip).setBit (Reg.STN_STATUS st) Bit.STN_STATUS_CRC_FAIL
      (c.purgeSegs x.cell.segs).hdrCrcFail st)))

/-- Custody copies (R205, R209 to R213): the store gives the oldest packet that waits for one its copy while a feed stands and
room is left; a FILLING copy whose packet is whole becomes HELD; the oldest HELD copy moves to LPDDR6 while the store spills;
a spilled copy that a replay waits for is read back. -/
def Obligations.CustodyCopiesMoveThroughTheStore : Prop :=
  (∀ (s : State) (st src : Nat) (k : Pkt), s.chip.feedsLow = false → s.chip.morRuns = true →
    (s.chip.sourceQueue st src).find? (fun k => s.chip.needsCopy k && (match k.kh with
      | some h => s.chip.streamReady h.srcFa h.tc h.destFa
      | none => false)) = some k →
    (s.chip.metaAccess (k.kh.getD {}).srcFa (k.kh.getD {}).tc (k.kh.getD {}).destFa).2 = true →
    (s.chip.metaAccess (k.kh.getD {}).srcFa (k.kh.getD {}).tc (k.kh.getD {}).destFa).1.dieHasRoom k.granules = true →
    exec (.guardedCopyAllocated st src) s = .next (s.withChip
      ((s.chip.metaAccess (k.kh.getD {}).srcFa (k.kh.getD {}).tc (k.kh.getD {}).destFa).1.allocOn k (k.kh.getD {})))) ∧
  (∀ (s : State) (id : Nat) (k : Copy), s.chip.morRuns = true → s.chip.copy id = some k → k.state = .filling → s.chip.pkt k.pkt.uid = none →
    (s.chip.copyComplete k).pkt k.pkt.uid = none →
    exec (.copyHeld id) s = .next (s.withChip (s.chip.copyComplete k))) ∧
  (∀ (s : State) (k : Copy), s.chip.morRuns = true → s.chip.mor.copies.find? (fun k => k.state == .held) = some k →
    s.chip.flag Reg.MOR_STATUS Bit.MOR_STATUS_SPILLING = true → s.chip.ovfGran + k.gran ≤ s.chip.ovfRoom →
    exec .spillDone s = .next (s.withChip
      ((s.chip.updCopy k.id (fun k => { k with state := .spilled, ready := false })).ctrInc kMooring 0 1).updSpill)) ∧
  (∀ (s : State) (id : Nat) (k : Copy) (x : IStream), s.chip.morRuns = true → s.chip.copy id = some k → k.state = .spilled →
    x ∈ s.chip.mor.streams → k.of x = true → k.epoch = x.epoch → k.n ∈ x.replaying →
    ∃ t, exec (.spilledReadback id) s = .next t ∧ t.chip.copy id = some { k with ready := true } ∧
      (∀ j, j ≠ id → t.chip.copy j = s.chip.copy j) ∧ t.chip.regs = s.chip.regs ∧ t.chip.mor.streams = s.chip.mor.streams ∧
      t.chip.sw = s.chip.sw ∧ t.chip.out = s.chip.out)

/-! ## Egress -/

/-- A port that has handed over its packet chooses the next (R311 to R317), transmits it whole (R313), or nullifies it when its
cells run dry (R69); a request that waits for an entry gets the free tag that the pool gives and goes out remapped (R86, R87), and
one that another packet of its copy has mapped meanwhile goes out without (R224). -/
def Obligations.PortsSendTheirPackets : Prop :=
  (∀ (s : State) (p v : Nat) (x : ObEnt × Pkt), s.chip.portUp p = true → s.chip.busyPort p = false →
    (s.chip.syncPort p).classChoice p = some v → (s.chip.syncPort p).classCand p v = some x →
    (((s.chip.syncPort p).chargeChoice p v x).sndPoint x.1.uid 6).needsEntry p x.2 = false →
    (((s.chip.syncPort p).chargeChoice p v x).sndPoint x.1.uid 6).isSpan p = false →
    exec (.schedulerChoice p) s = .next (s.withChip (
      let c := ((s.chip.syncPort p).chargeChoice p v x).sndPoint x.1.uid 6
      ({ c with sw := { c.sw with
          obq := mapIf (fun e => e.uid == x.1.uid && e.port == p) (fun e => { e with begun := true }) c.sw.obq } } : Chip).tagsAfter
        p v x.1.vsi |>.syncPort p))) ∧
  (∀ (s : State) (p v : Nat) (x : ObEnt × Pkt), s.chip.portUp p = true → s.chip.busyPort p = false →
    (s.chip.syncPort p).classChoice p = some v → (s.chip.syncPort p).classCand p v = some x →
    (((s.chip.syncPort p).chargeChoice p v x).sndPoint x.1.uid 6).needsEntry p x.2 = true →
    exec (.schedulerChoice p) s = .next (s.withChip (
      let c := ((s.chip.syncPort p).chargeChoice p v x).sndPoint x.1.uid 6
      ((({ c with sw := { c.sw with npWait := c.sw.npWait ++ [(p, x.1.uid)] } } : Chip).updNpStop p).tagsAfter p v x.1.vsi).syncPort
        p))) ∧
  (∀ (s : State) (p : Nat) (e : ObEnt) (k : Pkt), s.chip.sw.obq.find? (fun e => e.port == p && e.begun) = some e →
    s.chip.pkt e.uid = some k → e.full = true → e.null = false →
    exec (.packetTransmitted p) s = .next (s.withChip (s.chip.transmit p e k))) ∧
  (∀ (s : State) (p : Nat) (e : ObEnt) (k : Pkt), s.chip.sw.obq.find? (fun e => e.port == p && e.begun) = some e →
    s.chip.pkt e.uid = some k → e.full = false → s.chip.isSpan p = false →
    ∃ t, exec (.egressUnderrun p) s = .next t ∧ t.chip.out = .tlp p k.tlp true :: s.chip.out ∧
      t.chip.sw.obq = mapIf (fun x => x.uid == e.uid && x.port == p) (fun x => { x with begun := false, underrun := true })
        s.chip.sw.obq ∧
      t.chip.sw.pkts = s.chip.sw.pkts ∧ t.chip.sw.obCells = s.chip.sw.obCells ∧ t.chip.regs = s.chip.regs ∧
      t.chip.ctr kPort p 12 = (s.chip.ctr kPort p 12 + 1) % 2 ^ 48) ∧
  (∀ (s : State) (p tag uid : Nat) (e : ObEnt) (k : Pkt), s.chip.sw.npWait.find? (fun w => w.1 == p) = some (p, uid) →
    s.chip.sw.obq.find? (fun e => e.uid == uid && e.port == p) = some e → s.chip.pkt uid = some k →
    s.chip.portUp p = true → s.chip.busyPort p = false → s.chip.inPortFog p = false → s.chip.closedPort p = false →
    s.chip.isSpan p = false → s.chip.noCredit p k = false → e.full = true → e.null = false →
    (s.chip.needsEntry p k = true → s.chip.entryOk p tag k = true →
      exec (.ortEntryAllocate p tag) s = .next (s.withChip
        ((s.chip.makeEntry p tag k).1.transmit p e (s.chip.makeEntry p tag k).2))) ∧
    (s.chip.needsEntry p k = false → exec (.ortEntryAllocate p tag) s = .next (s.withChip (s.chip.transmit p e k))))

/-! ## Kaund span links -/

/-- A span port receives and sends flits by its state (R127, R131, R138, R139, R163): in UP a good flit acts, in KINIT
it counts toward UP, and in both a bad one is counted, asked for again and loses its part of a message; UP sends its next flit
and KINIT sends INIT. -/
def Obligations.SpanFlitsByState : Prop :=
  (∀ (s : State) (p : Nat) (f : Flit), s.chip.portUp p = true → s.chip.isSpan p = true → s.chip.spanState p = spUp →
    f.good = true → exec (.spanFlitReceived p f) s = .next (s.withChip (s.chip.upFlit p f))) ∧
  (∀ (s : State) (p : Nat) (f : Flit), s.chip.portUp p = true → s.chip.isSpan p = true → s.chip.spanState p = spUp →
    f.good = false → exec (.spanFlitReceived p f) s =
      .next (s.withChip (((s.chip.ctrInc kPort p cBadFlit).enterNak p).dropPart p))) ∧
  (∀ (s : State) (p : Nat) (f : Flit), s.chip.portUp p = true → s.chip.isSpan p = true → s.chip.spanState p = spKinit →
    exec (.spanFlitReceived p f) s = .next (s.withChip
      (if f.good then s.chip.kinitFlit p f else ((s.chip.ctrInc kPort p cBadFlit).enterNak p).dropPart p))) ∧
  (∀ (s : State) (p : Nat), s.chip.portUp p = true → s.chip.isSpan p = true → s.chip.spanState p = spUp →
    exec (.spanFlitTransmit p) s = .next (s.withChip (s.chip.upSend p))) ∧
  (∀ (s : State) (p : Nat), s.chip.portUp p = true → s.chip.isSpan p = true → s.chip.spanState p = spKinit →
    exec (.spanFlitTransmit p) s = .next (s.withChip (
      let c := s.chip.putFlit p { ftype := .init, init := {
        ownFa := s.chip.ownFa p, facing := (s.chip.port p).facing
        vcEn := (s.chip.span p).ownVcEn, peerSeen := (s.chip.span p).peerSeen } } 1
      (c.updSpan p (fun x => { x with
        initSent := if (s.chip.span p).peerSeen then x.initSent + 1 else x.initSent })).tryUp p)))

/-- The timers of a span port (R143, R148, R157, R163, R164, R167, R175, R177): each acts when it is due in its state, and none
before it is due. LTSSM Recovery and Detect (R162, R164, Table 5.9): a port in UP enters RECOVERY and its link layer is kept; it
returns to UP at the same width and rate within 100 µs and starts a full link reset otherwise; a port in RESET whose PHY enters
Detect is DOWN. -/
def Obligations.SpanTimersAndRecovery : Prop :=
  (∀ (s : State) (p : Nat), s.chip.spanState p = spUp → s.chip.due (.replay p) = true → (s.chip.span p).replay ≠ [] →
    (s.chip.span p).replayFrom = ((s.chip.span p).lastAck + 1) % 65536 →
    (s.chip.span p).replayCount < s.chip.fld (Reg.REPLAY_CFG p) Bit.REPLAY_CFG_NUM_LIMIT →
    exec (.replayTimerExpiry p) s = .next (s.withChip (
      let c := s.chip.updSpan p (fun x => { x with
        resend := x.replay.map (·.seq), replayFrom := (x.lastAck + 1) % 65536, replayNew := true })
      (c.ctrInc kPort p cReplayTmo).arm (.replay p) (c.replayTmo p)))) ∧
  (∀ (s : State) (p : Nat), s.chip.spanState p = spUp → s.chip.due (.stale p) = true →
    exec (.fcStaleness p) s = .next (s.withChip
      (((((s.chip.updSpan p (fun x => { x with stale := true })).setBit (Reg.SPAN_EVENT p) Bit.SPAN_EVENT_FC_STALE).ctrInc
        kPort p cFcStale).disarm (.stale p)).log .fcStale [p]))) ∧
  (∀ (s : State) (p : Nat), s.chip.spanState p = spKinit → s.chip.due (.kinit p) = true →
    exec (.kinitTimeout p) s = .next (s.withChip (s.chip.spanError p Bit.SPAN_EVENT_KINIT_TMO))) ∧
  (∀ (s : State) (p : Nat), s.chip.spanState p = spRecovery → s.chip.due (.recovery p) = true →
    exec (.recoveryTimeout p) s = .next (s.withChip (s.chip.spanError p Bit.SPAN_EVENT_RECOVERY_FAIL))) ∧
  (∀ (s : State) (p : Nat), s.chip.due (.echoReq p) = true → s.chip.spanState p = spUp →
    ∃ t, exec (.echoRequestTimer p) s = .next t ∧ (t.chip.span p).echoReq = true ∧
      (.echoReq p, s.chip.watchUp + ms) ∈ t.chip.timers ∧ t.chip.regs = s.chip.regs ∧ t.chip.sw = s.chip.sw ∧
      t.chip.counters = s.chip.counters ∧ t.chip.out = s.chip.out) ∧
  (∀ (s : State) (p : Nat), s.chip.spanState p = spHeld → s.chip.holdCause p = holdKaundRate →
    s.chip.due (.holdRetry p) = true → exec (.holdRetryExpiry p) s = .next (s.withChip
      (if s.chip.flag (Reg.PRT_CTRL p) Bit.PRT_CTRL_LINK_DISABLE then
        s.chip.setFld (Reg.SPAN_STATUS p) Bit.SPAN_STATUS_HOLD_CAUSE holdLinkDisable
       else s.chip.resetLink p))) ∧
  (∀ (s : State) (p : Nat), s.chip.due (.revert p) = true →
    ∃ t, exec (.revertHoldExpiry p) s = .next t ∧ t.chip.due (.revert p) = false ∧
      t = s.withChip { s.chip with timers := s.chip.timers.filter (fun e => e.1 ≠ .revert p) }) ∧
  (∀ (s : State) (p : Nat), s.chip.due (.replay p) = false → s.chip.due (.stale p) = false →
    s.chip.due (.kinit p) = false → s.chip.due (.recovery p) = false → s.chip.due (.echoReq p) = false →
    s.chip.due (.holdRetry p) = false → s.chip.due (.revert p) = false →
    exec (.replayTimerExpiry p) s = .next s ∧ exec (.fcStaleness p) s = .next s ∧ exec (.kinitTimeout p) s = .next s ∧
      exec (.recoveryTimeout p) s = .next s ∧ exec (.echoRequestTimer p) s = .next s ∧
      exec (.holdRetryExpiry p) s = .next s ∧ exec (.revertHoldExpiry p) s = .next s) ∧
  (∀ (s : State) (p : Nat), s.chip.spanState p = spUp →
    exec (.recoveryEntry p) s = .next (s.withChip
      (((((s.chip.setSpanState p spRecovery).ctrInc kPort p cRecoveries).disarm (.echoReq p)).arm
        (.recovery p) (100 * us)).linkLossReplay p))) ∧
  (∀ (s : State) (p : Nat), s.chip.spanState p = spRecovery → s.chip.due (.recovery p) = false →
    exec (.recoveryExit p (some (s.chip.fld (Reg.SPAN_STATUS p) Bit.SPAN_STATUS_WIDTH,
        s.chip.fld (Reg.SPAN_STATUS p) Bit.SPAN_STATUS_RATE))) s = .next (s.withChip (
      let c := ((s.chip.setSpanState p spUp).disarm (.recovery p)).updSpan p (fun x => { x with
        upSince := ((s.chip.setSpanState p spUp).disarm (.recovery p)).now })
      (c.arm (.echoReq p) ms).arm (.revert p) c.revertNs))) ∧
  (∀ (s : State) (p : Nat), s.chip.spanState p = spRecovery →
    exec (.recoveryExit p none) s = .next (s.withChip (s.chip.spanError p Bit.SPAN_EVENT_RECOVERY_FAIL))) ∧
  (∀ (s : State) (p w r : Nat), s.chip.spanState p = spRecovery →
    w ≠ s.chip.fld (Reg.SPAN_STATUS p) Bit.SPAN_STATUS_WIDTH ∨ r ≠ s.chip.fld (Reg.SPAN_STATUS p) Bit.SPAN_STATUS_RATE →
    exec (.recoveryExit p (some (w, r))) s = .next (s.withChip (s.chip.spanError p Bit.SPAN_EVENT_RECOVERY_FAIL))) ∧
  (∀ (s : State) (p : Nat), s.chip.spanState p = spReset →
    exec (.phyDetectEntered p) s = .next (s.withChip (s.chip.setSpanState p spDown)))

/-! ## Frames and messages of the fabric -/

/-- A frame on a span port (R172 to R179): one for another module, of which enough has arrived, joins the packets of its station
with the port and virtual channel that the route tables give; one whose header fails its CRC is dropped and contains the port; a
guarded packet that stays a millisecond in this module is discarded and counted, in the core or in a receive buffer, unless its
transmission has begun (R230). Signal messages (R158, R161, R200): a whole message for this module is delivered, one for another
goes to the queue of the span port that the route gives unless that is a turn; the second FAR_ERR copy goes out once due; a
FAR_ERR that no entry of the duplicate filter holds is logged and filtered for a millisecond, and its entry then leaves. -/
def Obligations.FramesAndMessagesGoOn : Prop :=
  (∀ (s : State) (p q : Nat) (r : Rx) (l : List Rx) (f : Frame) (c : Chip), s.chip.portUp p = true →
    s.chip.inPortFog p = false → s.chip.inModFog = false → s.chip.saf.inject = none →
    takeFirst (fun r => r.port == p && r.frame.isSome && !r.looked) s.chip.sw.rx = some (r, l) → r.frame = some f →
    f.crcOk = true → f.kh.mc = false → s.chip.faHere f.kh.destFa = false → min r.len 32 ≤ r.got →
    ({ s.chip with sw := { s.chip.sw with rx := l } } : Chip).route r.port f.kh.destFa f.kh.srcFa f.kh.tc f.kh.alt = .to c q →
    c.leaveCheck r.port q f.kh = (c, none) →
    exec (.spanFrameReceived p) s = .next (s.withChip (
      ((c.addPktAt { transitPkt r f with egPort := q, egVc := c.egVc false f.kh.tc } r.t0).keepRx r [c.sw.nextUid]).sndChoose
        (portStation r.port) c.sw.nextUid r.port r.t0 { transitPkt r f with egPort := q, egVc := c.egVc false f.kh.tc }))) ∧
  (∀ (s : State) (p : Nat) (r : Rx) (l : List Rx) (f : Frame), s.chip.portUp p = true →
    s.chip.inPortFog p = false → s.chip.inModFog = false → s.chip.morRuns = true →
    takeFirst (fun r => r.port == p && r.frame.isSome && !r.looked) s.chip.sw.rx = some (r, l) → r.frame = some f →
    f.crcOk = false → r.whole = true → min r.len 32 ≤ r.got →
    exec (.spanFrameReceived p) s =
      .next (s.withChip ((({ s.chip with sw := { s.chip.sw with rx := l } } : Chip).goneRx r).khCrcFail p))) ∧
  (∀ (s : State) (uid : Nat) (k : Pkt), s.chip.pkt uid = some k → k.guarded = true → k.rel = none → k.whole = true →
    k.t0 + ms ≤ s.chip.now → (k.kh.map (fun h => s.chip.faHere h.srcFa && k.copy.isNone)) = some false →
    exec (.guardResidenceDrop uid) s = .next (s.withChip (
      if s.chip.sw.obq.any (fun e => e.uid == uid && e.begun) then s.chip
      else
        let c := s.chip.purgePkt uid
        ((c.sw.obq.filter (fun e => e.uid == uid)).foldl (fun c e => c.unqueue uid e.port) c).stCtr k.inPort 50))) ∧
  (∀ (s : State) (p q : Nat) (m : SigMsg) (l : List (Nat × SigMsg)), s.chip.portUp p = true → s.chip.inPortFog p = false →
    takeFirst (fun x => x.1 == p) s.chip.knd.sigRx = some ((q, m), l) → s.chip.faHere m.dest = true →
    exec (.signalMessageRouted p) s = .next (s.withChip
      { s.chip with knd := { s.chip.knd with sigRx := l, delivered := s.chip.knd.delivered ++ [m] } })) ∧
  (∀ (s : State) (p q e : Nat) (m : SigMsg) (l : List (Nat × SigMsg)) (c : Chip), s.chip.portUp p = true →
    s.chip.inPortFog p = false → takeFirst (fun x => x.1 == p) s.chip.knd.sigRx = some ((q, m), l) →
    s.chip.faHere m.dest = false →
    ({ s.chip with knd := { s.chip.knd with sigRx := l } } : Chip).route p m.dest m.origin m.tc 0 = .to c e →
    ((c.port p).facing && (c.port e).facing) = false →
    exec (.signalMessageRouted p) s = .next (s.withChip (c.queueSig e m false))) ∧
  (∀ (s : State) (id : Nat) (m : SigMsg), s.chip.knd.farSecond.find? (fun x => x.1 == id) = some (id, m) →
    s.chip.due (.farSecond id) = true →
    exec (.farErrSecondCopy id) s = .next (s.withChip
      ((({ s.chip with knd := { s.chip.knd with farSecond := s.chip.knd.farSecond.filter (fun x => x.1 != id) } } : Chip).disarm
        (.farSecond id)).sendSig (portStation (faPort m.origin)) m))) ∧
  (∀ (s : State) (c : Chip) (d tc status addr v ser origin : Nat),
    s.chip.takeMsg (fun m => m.stype == 4) = some (.farErr d tc status addr v ser origin, c) → c.filterOf v = [] →
    exec .farErrReceived s = .next (s.withChip
      ((({ c with knd := { c.knd with farFilter := c.knd.farFilter ++ [(v, origin, ser, addr, c.now + ms)] } } : Chip).arm
        (.farFilter v origin ser addr) ms).felAccept v status addr origin ser))) ∧
  (∀ (s : State) (c : Chip) (d tc status addr v ser origin u : Nat),
    s.chip.takeMsg (fun m => m.stype == 4) = some (.farErr d tc status addr v ser origin, c) →
    (v, origin, ser, addr, u) ∈ c.knd.farFilter → c.now < u →
    exec .farErrReceived s = .next (s.withChip c)) ∧
  (∀ (s : State) (v origin ser addr : Nat), s.chip.due (.farFilter v origin ser addr) = true →
    ∃ t, exec (.farErrFilterExpiry v origin ser addr) s = .next t ∧
      (∀ u, (v, origin, ser, addr, u) ∉ t.chip.knd.farFilter) ∧
      (∀ x, (x.1, x.2.1, x.2.2.1, x.2.2.2.1) ≠ (v, origin, ser, addr) →
        (x ∈ t.chip.knd.farFilter ↔ x ∈ s.chip.knd.farFilter)) ∧
      t.chip.due (.farFilter v origin ser addr) = false ∧ t.chip.regs = s.chip.regs ∧ t.chip.out = s.chip.out) ∧
  (∀ (s : State) (uid : Nat) (r : Rx) (l : List Rx), s.chip.pkt uid = none →
    takeFirst s.chip.agedRx s.chip.sw.rx = some (r, l) →
    exec (.guardResidenceDrop uid) s = .next (s.withChip
      ((({ s.chip with sw := { s.chip.sw with rx := l } } : Chip).dropRx r).stCtr r.port 50)))

/-! ## The delivery guarantee -/

/-- Messages that reach the store of their stream (R220 to R222, R324): the oldest delivered one of the kind is taken, and, with no
fault injected, acts on the stream it names: a CAST_OFF frees, a RESEND replays, a REFUSE stops new frames, a notice slows
policers. A message of a stream meets the stream's metadata, and acts where that may be used; none acts at a Mooring in reset. MGMT
(R395): an ACK ends the repeats of its message; any other message is acknowledged when it asks for it, and acted upon; one that
meets a Keeper that does not run is lost (R423); an unacknowledged message is repeated up to eight sends and is then lost and
recorded. -/
def Obligations.MessagesActWhereTheyEnd : Prop :=
  (∀ (s : State) (c : Chip) (d t o e n : Nat),
    s.chip.takeMsg (fun m => match m with | .castOff _ _ _ _ _ r => !r | _ => false) = some (.castOff d t o e n false, c) →
    s.chip.morRuns = true →
    exec .castOffReceived s = .next (s.withChip (
      let m := (c.ctrInc kMooring 0 9).metaAccess d t o
      if m.2 = true then m.1.applyCastOff d t o e n else m.1).relaySettle)) ∧
  (∀ (s : State) (c : Chip) (d t o e n : Nat),
    s.chip.takeMsg (fun m => match m with | .castOff _ _ _ _ _ r => r | _ => false) = some (.castOff d t o e n true, c) →
    s.chip.morRuns = true →
    exec .resendReceived s = .next (s.withChip (
      let m := c.metaAccess d t o
      if m.2 = true then m.1.applyResend d t o e n else m.1).relaySettle)) ∧
  (∀ (s : State) (c : Chip) (d t o e n k : Nat),
    s.chip.takeMsg (fun m => m.stype == 3) = some (.refuse d t o e n k, c) → s.chip.morRuns = true →
    exec .refuseReceived s = .next (s.withChip (
      let m := (c.ctrInc kMooring 0 15).metaAccess d t o
      if m.2 = true then m.1.applyRefuse d t o e else m.1))) ∧
  (∀ s : State, s.chip.morRuns = false → exec .castOffReceived s = .next (s.withChip s.chip.relaySettle) ∧
    exec .resendReceived s = .next (s.withChip s.chip.relaySettle) ∧ exec .refuseReceived s = .next s) ∧
  (∀ (c : Chip) (d t o : Nat) (x : IStream), c.saf.inject = none → c.stream d t o = some x →
    (x.ecc = 0 → c.metaAccess d t o = (c, true)) ∧
    (x.ecc = 1 → c.metaAccess d t o = ((c.putStream { x with ecc := 0 }).corrected, true)) ∧
    (x.ecc = 2 → c.metaAccess d t o = (c.metaFail x, false))) ∧
  (∀ (s : State) (c : Chip) (d t o q : Nat), s.chip.takeMsg (fun m => m.stype == 2) = some (.notice d t o q, c) →
    exec .noticeReceived s = .next (s.withChip (c.applyNotice (faPort d) t o))) ∧
  (∀ (s : State) (c : Chip) (d o i : Nat) (bytes : List Nat),
    s.chip.takeMsg (fun m => m.stype == 5) = some (.mgmt d o i bytes, c) → c.keeperRuns = true → nth bytes 0 = 1 →
    exec .mgmtReceived s = .next (s.withChip
      (({ c with kpr := { c.kpr with
        mgmtPend := c.kpr.mgmtPend.filter (fun x => x.1 != nth bytes 2 + 256 * nth bytes 3) } } : Chip).disarm
          (.mgmt (nth bytes 2 + 256 * nth bytes 3))))) ∧
  (∀ (s : State) (c : Chip) (d o i : Nat) (bytes : List Nat),
    s.chip.takeMsg (fun m => m.stype == 5) = some (.mgmt d o i bytes, c) → c.keeperRuns = true → nth bytes 0 ≠ 1 →
    bitOf (nth bytes 1) 0 = true →
    exec .mgmtReceived s = .next (s.withChip
      ((c.sendMgmtMsg (.mgmt o (c.ownFa 0) (nth bytes 2 + 256 * nth bytes 3)
        ([1, 0] ++ leBytes 2 (nth bytes 2 + 256 * nth bytes 3)))).mgmtAct o (nth bytes 2 + 256 * nth bytes 3) (nth bytes 0)
          (bytes.drop 4)))) ∧
  (∀ (s : State) (c : Chip) (d o i : Nat) (bytes : List Nat),
    s.chip.takeMsg (fun m => m.stype == 5) = some (.mgmt d o i bytes, c) → c.keeperRuns = true → nth bytes 0 ≠ 1 →
    bitOf (nth bytes 1) 0 = false →
    exec .mgmtReceived s = .next (s.withChip
      (c.mgmtAct o (nth bytes 2 + 256 * nth bytes 3) (nth bytes 0) (bytes.drop 4)))) ∧
  (∀ (s : State) (c : Chip) (d o i : Nat) (bytes : List Nat),
    s.chip.takeMsg (fun m => m.stype == 5) = some (.mgmt d o i bytes, c) → c.keeperRuns = false →
    exec .mgmtReceived s = .next (s.withChip c)) ∧
  (∀ (s : State) (id n : Nat) (m : SigMsg), s.chip.due (.mgmt id) = true →
    s.chip.kpr.mgmtPend.find? (fun x => x.1 == id) = some (id, m, n) → n < 8 →
    exec (.mgmtRepeatTimer id) s = .next (s.withChip
      ((({ s.chip with kpr := { s.chip.kpr with
        mgmtPend := mapIf (fun x => x.1 == id) (fun x => (x.1, x.2.1, x.2.2 + 1)) s.chip.kpr.mgmtPend } } : Chip).arm
          (.mgmt id) ms).sendMgmtMsg m))) ∧
  (∀ (s : State) (id n : Nat) (m : SigMsg), s.chip.due (.mgmt id) = true →
    s.chip.kpr.mgmtPend.find? (fun x => x.1 == id) = some (id, m, n) → 8 ≤ n →
    exec (.mgmtRepeatTimer id) s = .next (s.withChip
      (((({ s.chip with kpr := { s.chip.kpr with
        mgmtPend := s.chip.kpr.mgmtPend.filter (fun x => x.1 != id) } } : Chip).disarm (.mgmt id)).setBit Reg.KPR_EVENT
          Bit.KPR_EVENT_MGMT_LOST).log .mgmtLost [m.dest, id])))

/-- The timers of Mooring (R217, R219, R222, R223, R226, R228, R231): each acts once due. The custody timer advances ALT, doubles,
gives a frame still filling the new path and replays from LOW; the refusal's back-off replays from LOW; the custody limit fails
the stream; a gap lets the next epoch open; a dormant record ends; BOOT_HOLD ends; a waiting cast-off goes out; an idle egress
context closes. -/
def Obligations.MooringTimersAct : Prop :=
  (∀ (s : State) (a b d : Nat) (x : IStream), s.chip.due (.custody a b d) = true → s.chip.saf.inject = none →
    s.chip.stream a b d = some x → x.ecc = 0 → (s.chip.copiesOf x) ≠ [] → x.failed = false →
    exec (.custodyTimerExpiry a b d) s = .next (s.withChip (
      let y := { x with alt := (x.alt + 1) % 4, expo := x.expo + 1 }
      (((s.chip.putStream y).armCustody y).reAlt y).startReplay y y.low (some cReplayTmr) true))) ∧
  (∀ (s : State) (a b d : Nat) (x : IStream), s.chip.due (.refuse a b d) = true →
    (s.chip.disarm (.refuse a b d)).stream a b d = some x →
    exec (.refuseBackoffExpiry a b d) s = .next (s.withChip ((s.chip.disarm (.refuse a b d)).startReplay x x.low none true))) ∧
  (∀ (s : State) (a b d : Nat) (x : IStream), s.chip.due (.limit a b d) = true → s.chip.stream a b d = some x →
    (s.chip.copiesOf x) ≠ [] → x.failed = false →
    exec (.custodyLimitExpiry a b d) s = .next (s.withChip (s.chip.failStream x causeLimit).relaySettle)) ∧
  (∀ (s : State) (a b d : Nat), s.chip.due (.epochGap a b d) = true →
    ∃ t, exec (.epochGapExpiry a b d) s = .next t ∧ t.chip.due (.epochGap a b d) = false ∧
      t = s.withChip { s.chip with timers := s.chip.timers.filter (fun e => e.1 ≠ .epochGap a b d) }) ∧
  (∀ (s : State) (a b d : Nat), s.chip.due (.dormant a b d) = true →
    s.chip.mor.streams.find? (fun x => (s.chip.copiesOf x).isEmpty) = none →
    ∃ t, exec (.dormantRecordExpiry a b d) s = .next t ∧
      t.chip.mor.dormant = s.chip.mor.dormant.filter (fun r => !(r.srcFa == a && r.tc == b && r.destFa == d)) ∧
      t.chip.due (.dormant a b d) = false ∧ t.chip.mor.streams = s.chip.mor.streams ∧
      t.chip.mor.copies = s.chip.mor.copies ∧ t.chip.regs = s.chip.regs ∧ t.chip.out = s.chip.out) ∧
  (∀ s : State, s.chip.due .bootHold = true →
    ∃ t, exec .bootHoldEnd s = .next t ∧ t.chip.mor.bootHold = false ∧
      t.chip.fld Reg.MOR_STATUS Bit.MOR_STATUS_BOOT_HOLD = 0 ∧ t.chip.due .bootHold = false ∧
      (∀ o, o ≠ Reg.MOR_STATUS → t.chip.rd o = s.chip.rd o) ∧ t.chip.mor.streams = s.chip.mor.streams ∧
      t.chip.mor.copies = s.chip.mor.copies ∧ t.chip.out = s.chip.out) ∧
  (∀ (s : State) (a b p : Nat) (x : ECtx), s.chip.due (.castGap a b p) = true →
    (s.chip.disarm (.castGap a b p)).ectx a b p = some x → x.castDue = true →
    exec (.castGapExpiry a b p) s = .next (s.withChip ((s.chip.disarm (.castGap a b p)).castNow x))) ∧
  (∀ (s : State) (a b p : Nat), s.chip.due (.ctxAge a b p) = true →
    exec (.egressCtxAgeClose a b p) s = .next (s.withChip (s.chip.dropEctx a b p))) ∧
  (∀ (s : State) (a b d : Nat), s.chip.due (.dormant a b d) = true →
    exec (.dormantRecordExpiry a b d) s = .next (s.withChip
      ((({ s.chip with mor := { s.chip.mor with
        dormant := s.chip.mor.dormant.filter (fun r => !(r.srcFa == a && r.tc == b && r.destFa == d)) } } : Chip).disarm
          (.dormant a b d)).restWaiting)))

/-! ## The Beacon Ring -/

/-- A frame of the Beacon (R120, R122): the frame is counted, the time master raises FSN by 1 and marks both rings with it and its
Watch, a follower passes on the mark that a ring received, and no Fog alert stays owed. -/
def Obligations.BeaconFrameMarksBothRings : Prop :=
  ∀ s : State, s.chip.beaconRuns = true →
    ∃ t, exec .beaconFrameTimer s = .next t ∧ t.chip.bcn.frames = s.chip.bcn.frames + 1 ∧ t.chip.bcn.alerts = [] ∧
      (s.chip.isMaster = true → t.chip.rd Reg.BCN_FSN = s.chip.rd Reg.BCN_FSN + 1 ∧
        (∀ r, r < 2 → ∃ l, .beaconFrame r (BeaconMark.seal {
          fsn := (s.chip.rd Reg.BCN_FSN + 1).toNat, time := s.chip.watchTime, master := s.chip.ownModule }) l ∈ t.chip.out)) ∧
      (s.chip.isMaster = false → ∀ r f, r < 2 → (s.chip.ring r).fwd = some f → ∃ l, .beaconFrame r f l ∈ t.chip.out) ∧
      (∀ r, r < 2 → (t.chip.ring r).seen = false ∧ (t.chip.ring r).fwd = none) ∧
      (∀ o, o ≠ Reg.BCN_FSN → o ≠ Reg.BCN_STATUS → o ≠ Reg.BCN_ERR → t.chip.rd o = s.chip.rd o) ∧
      t.chip.sw = s.chip.sw ∧ t.chip.pci = s.chip.pci ∧ t.chip.knd = s.chip.knd ∧ t.chip.timers = s.chip.timers

/-- Marks and messages of the rings (R121, R122, R126): a mark with a good code, CRC and spacing that follows its ring's last FSN
is good, any other is bad and is counted when its code or CRC is, and one that can be read goes on either way; a message that is
not good is counted, a copy of an accepted one and the own one for all are dropped, one for this module acts, one for another goes
on with a hop more below 128 hops, and one for all does both. Holdover and takeover (R124): after 8 frames
without a good mark on either ring a follower is in HOLDOVER and, as a candidate, waits its number of microseconds plus one; a LIT
candidate whose wait is over becomes MASTER, and FSN goes on with the frames it missed. The wake pattern on a ring is a wake event
of the Beacon (R126, R445). -/
def Obligations.BeaconMarksAndHoldover : Prop :=
  (∀ (s : State) (r f : Nat) (m : BeaconMark), s.chip.beaconRuns = true → m.codeOk = true → m.crcOk = true →
    m.spacingOk = true → (s.chip.ring r).lastFsn = some f → m.fsn = (f + 1) % 2 ^ 32 →
    exec (.beaconMarkReceived r m) s = .next (s.withChip
      ((s.chip.putRing r { s.chip.ring r with
        seen := true, lastFsn := some m.fsn, fwd := some (s.chip.onward r m) }).goodMark r m))) ∧
  (∀ (s : State) (r : Nat) (m : BeaconMark), s.chip.beaconRuns = true → m.codeOk = false ∨ m.crcOk = false →
    exec (.beaconMarkReceived r m) s = .next (s.withChip
      (((s.chip.satInc Reg.BCN_ERR Bit.BCN_ERR_CODE_ERR).putRing r { s.chip.ring r with seen := true }).badMark r))) ∧
  (∀ (s : State) (r : Nat) (m : BeaconMark), s.chip.beaconRuns = true → m.codeOk = true → m.crcOk = true →
    m.spacingOk = false ∨ (∀ f, (s.chip.ring r).lastFsn = some f → m.fsn ≠ (f + 1) % 2 ^ 32) →
    exec (.beaconMarkReceived r m) s = .next (s.withChip
      ((s.chip.putRing r { s.chip.ring r with
        seen := true, lastFsn := some m.fsn, fwd := some (s.chip.onward r m) }).badMark r))) ∧
  (∀ (s : State) (r : Nat) (m : BeaconMsg), s.chip.beaconRuns = true → m.ok = false →
    exec (.beaconMessageReceived r m) s = .next (s.withChip (s.chip.satInc Reg.BCN_ERR Bit.BCN_ERR_CODE_ERR))) ∧
  (∀ (s : State) (r : Nat) (m : BeaconMsg), s.chip.beaconRuns = true → m.ok = true → s.chip.beaconDup m = true →
    exec (.beaconMessageReceived r m) s = .next s) ∧
  (∀ (s : State) (r : Nat) (m : BeaconMsg), s.chip.beaconRuns = true → m.ok = true → s.chip.beaconDup m = false →
    m.bcast = false → m.dest = s.chip.ownModule →
    exec (.beaconMessageReceived r m) s = .next (s.withChip ((s.chip.beaconAccept m).beaconAct r m))) ∧
  (∀ (s : State) (r : Nat) (m : BeaconMsg), s.chip.beaconRuns = true → m.ok = true → s.chip.beaconDup m = false →
    m.bcast = false → m.dest ≠ s.chip.ownModule → m.hops + 1 < 128 →
    exec (.beaconMessageReceived r m) s = .next (s.withChip
      ((s.chip.beaconAccept m).beaconQ r { m with hops := m.hops + 1 }))) ∧
  (∀ (s : State) (r : Nat) (m : BeaconMsg), s.chip.beaconRuns = true → m.ok = true → s.chip.beaconDup m = false →
    m.bcast = false → m.dest ≠ s.chip.ownModule → 128 ≤ m.hops + 1 →
    exec (.beaconMessageReceived r m) s = .next (s.withChip (s.chip.beaconAccept m))) ∧
  (∀ (s : State) (r : Nat) (m : BeaconMsg), s.chip.beaconRuns = true → m.ok = true → s.chip.beaconDup m = false →
    m.bcast = true → m.src ≠ s.chip.ownModule →
    exec (.beaconMessageReceived r m) s = .next (s.withChip (
      let c := (s.chip.beaconAccept m).beaconAct r m
      if m.hops + 1 < 128 then c.beaconQ r { m with hops := m.hops + 1 } else c))) ∧
  (∀ (s : State) (r : Nat) (m : BeaconMsg), m.bcast = true → m.src = s.chip.ownModule → m.ok = true →
    exec (.beaconMessageReceived r m) s = .next s) ∧
  (∀ s : State, s.chip.beaconRuns = true → s.chip.isMaster = false →
    s.chip.flag Reg.BCN_STATUS Bit.BCN_STATUS_HOLDOVER = false → 8 ≤ s.chip.bcn.ring0.quiet → 8 ≤ s.chip.bcn.ring1.quiet →
    ∃ t, exec .holdover s = .next t ∧ t.chip.flag Reg.BCN_STATUS Bit.BCN_STATUS_HOLDOVER = true ∧
      t.chip.isMaster = false ∧ (∀ o, o ≠ Reg.BCN_STATUS → t.chip.rd o = s.chip.rd o) ∧
      (s.chip.flag Reg.BCN_CTRL Bit.BCN_CTRL_MASTER_CAND = true →
        (.masterWait, s.chip.watchUp + (s.chip.ownModule + 1) * us) ∈ t.chip.timers) ∧
      (s.chip.flag Reg.BCN_CTRL Bit.BCN_CTRL_MASTER_CAND = false → t.chip.timers = s.chip.timers) ∧
      t.chip.bcn = s.chip.bcn ∧ t.chip.out = s.chip.out) ∧
  (∀ s : State, s.chip.beaconRuns = true → s.chip.due .masterWait = true →
    s.chip.flag Reg.BCN_STATUS Bit.BCN_STATUS_HOLDOVER = true →
    s.chip.fld Reg.GLB_PWR_STATUS Bit.GLB_PWR_STATUS_STATE = 0 →
    ∃ t, exec .masterTakeover s = .next t ∧ t.chip.isMaster = true ∧
      t.chip.fld Reg.BCN_STATUS Bit.BCN_STATUS_MASTER_MOD = s.chip.ownModule ∧
      t.chip.rd Reg.BCN_FSN =
        BitVec.ofNat 32 (s.chip.bcn.goodFsn + min s.chip.bcn.ring0.quiet s.chip.bcn.ring1.quiet) ∧
      t.chip.due .masterWait = false ∧ (∀ o, o ≠ Reg.BCN_STATUS → o ≠ Reg.BCN_FSN → t.chip.rd o = s.chip.rd o) ∧
      t.chip.bcn = s.chip.bcn ∧ t.chip.out = s.chip.out) ∧
  (∀ (s : State) (r : Nat), r < 2 → s.chip.wakeEnabled wakeBeacon = true → s.chip.pwr.restoreStep = 0 →
    s.chip.pwr.darkStep = 6 →
    exec (.beaconWakePattern r) s = .next (s.withChip
      (((s.chip.wr Reg.WAKE_CAUSE 0).wr Reg.WAKE_CAUSE
        (setF ((s.chip.wr Reg.WAKE_CAUSE 0).rd Reg.WAKE_CAUSE) ⟨wakeBeacon, wakeBeacon⟩ 1)).startRestore))) ∧
  (∀ (s : State) (r : Nat), r < 2 → s.chip.wakeEnabled wakeBeacon = true → s.chip.pwr.restoreStep = 0 →
    0 < s.chip.pwr.darkStep → s.chip.pwr.darkStep ≠ 6 →
    exec (.beaconWakePattern r) s = .next (s.withChip
      { s.chip with pwr := { s.chip.pwr with latched := wakeBeacon :: s.chip.pwr.latched.erase wakeBeacon } }))

/-! ## Ports and lanes -/

/-- PRSNT_N of a cable site changes (R471, R472): the site's presence follows, the lead port's mismatch is forgotten, the change
is logged, and the cable's identity is read on its arrival; the two of a x16 port that differ make it absent. PRT_CTRL (R92, R101,
R166, R167): PERST_ASSERT on a downstream port pulls PERST_N of its sites low and takes the links behind them down; LINK_DISABLE
of a PCIe port idles it, loses its link and answers what waits, that of a span port holds it, with a reset where its link layer has
started, and clearing it releases the link; RETRAIN
resets the link of a span port that is not held. -/
def Obligations.CablesAndPortControl : Prop :=
  (∀ (s : State) (site : Nat) (low : Bool) (ident : Option (List Nat)), s.chip.pci.prsnt.contains site = low →
    exec (.prsntChange site low ident) s = .next s) ∧
  (∀ (s : State) (site : Nat) (low : Bool) (ident : Option (List Nat)) (c : Chip), s.chip.pci.prsnt.contains site = !low →
    c = { s.chip with pci := { s.chip.pci with
      prsnt := if low then site :: s.chip.pci.prsnt else s.chip.pci.prsnt.erase site,
      cableId := SMap.set s.chip.pci.cableId site (if low then ident else none) none } } → c.leadOf site = none →
    exec (.prsntChange site low ident) s = .next (s.withChip c)) ∧
  (∀ (s : State) (site p : Nat) (low : Bool) (ident : Option (List Nat)), s.chip.pci.prsnt.contains site = !low →
    s.chip.leadOf site = some p →
    exec (.prsntChange site low ident) s = .next (s.withChip (
      let c : Chip := { s.chip with pci := { s.chip.pci with
        prsnt := if low then site :: s.chip.pci.prsnt else s.chip.pci.prsnt.erase site
        cableId := SMap.set s.chip.pci.cableId site (if low then ident else none) none
        cableBad := s.chip.pci.cableBad.erase p } }
      let c := c.log .presence [site] [b2n low]
      let c := if low && c.keeperRuns then c.readCable site ident else c
      if (c.port p).up then c else c.syncPresence p))) ∧
  (∀ (s : State) (p : Nat), (s.chip.port p).present = true → (s.chip.port p).width = 4 → (s.chip.port p).up = false →
    (∃ i ∈ s.chip.sitesOf p, s.chip.pci.prsnt.contains i = true) →
    (∃ i ∈ s.chip.sitesOf p, s.chip.pci.prsnt.contains i = false) →
    ∃ c : Chip, exec (.cableMismatch p) s = .next (s.withChip (c.syncPresence p)) ∧ c.present p = false ∧
      c = ({ s.chip with pci := { s.chip.pci with cableBad := p :: s.chip.pci.cableBad.erase p } } : Chip).log
        .cableMismatch [p]) ∧
  (∀ (s : State) (ag : Agent) (p : Nat), s.chip.reaches ag (Reg.PRT_CTRL p) = true → (s.chip.port p).present = true →
    (s.chip.port p).up = false →
    exec (.perstAssert ag p) s = .next (s.withChip (
      let c := (s.chip.openGate (Reg.PRT_CTRL p)).setFld (Reg.PRT_CTRL p) Bit.PRT_CTRL_PERST_ASSERT 1
      let c := c.emit (.perst p ((c.sitesOf p).any c.sitePerst))
      ((c.siteMates p).foldl (fun (c : Chip) q => if c.isSpan q then c else (c.dropJoint q).linkDown q true) c).emit
        (.regDone ag (Reg.PRT_CTRL p))))) ∧
  (∀ (s : State) (ag : Agent) (p : Nat) (c : Chip), s.chip.reaches ag (Reg.PRT_CTRL p) = true →
    c = ((s.chip.openGate (Reg.PRT_CTRL p)).setBit (Reg.PRT_CTRL p) Bit.PRT_CTRL_LINK_DISABLE).dropJoint p →
    (s.chip.openGate (Reg.PRT_CTRL p)).flag (Reg.PRT_CTRL p) Bit.PRT_CTRL_LINK_DISABLE = false →
    (c.port p).present = true → c.isSpan p = false → c.spanState p ≠ spHeld →
    exec (.linkDisableSet ag p) s = .next (s.withChip
      ((if (c.emit (.linkIdle p)).dlUp p then (c.emit (.linkIdle p)).linkDown p true
        else (c.emit (.linkIdle p)).answerPort p).emit (.regDone ag (Reg.PRT_CTRL p))))) ∧
  (∀ (s : State) (ag : Agent) (p : Nat) (c : Chip), s.chip.reaches ag (Reg.PRT_CTRL p) = true →
    c = ((s.chip.openGate (Reg.PRT_CTRL p)).setBit (Reg.PRT_CTRL p) Bit.PRT_CTRL_LINK_DISABLE).dropJoint p →
    (s.chip.openGate (Reg.PRT_CTRL p)).flag (Reg.PRT_CTRL p) Bit.PRT_CTRL_LINK_DISABLE = false →
    (c.port p).present = true → c.isSpan p = true →
    (c.spanState p = spKinit ∨ c.spanState p = spUp ∨ c.spanState p = spRecovery →
      exec (.linkDisableSet ag p) s = .next (s.withChip
        ((((c.fullLinkReset p).answerPort p).holdSpan p holdLinkDisable).emit (.regDone ag (Reg.PRT_CTRL p))))) ∧
    (c.spanState p = spHeld →
      exec (.linkDisableSet ag p) s = .next (s.withChip (c.emit (.regDone ag (Reg.PRT_CTRL p))))) ∧
    (c.spanState p = spDown ∨ c.spanState p = spReset →
      exec (.linkDisableSet ag p) s = .next (s.withChip
        (((c.answerPort p).holdSpan p holdLinkDisable).emit (.regDone ag (Reg.PRT_CTRL p)))))) ∧
  (∀ (s : State) (ag : Agent) (p : Nat) (c : Chip), s.chip.reaches ag (Reg.PRT_CTRL p) = true →
    c = (s.chip.openGate (Reg.PRT_CTRL p)).clrFld (Reg.PRT_CTRL p) Bit.PRT_CTRL_LINK_DISABLE →
    exec (.linkDisableClear ag p) s = .next (s.withChip
      ((if c.spanState p = spHeld ∧ c.holdCause p = holdLinkDisable then c.resetLink p else c).emit
        (.regDone ag (Reg.PRT_CTRL p)))) ∧
    c.flag (Reg.PRT_CTRL p) Bit.PRT_CTRL_LINK_DISABLE = false) ∧
  (∀ (s : State) (ag : Agent) (p : Nat), s.chip.reaches ag (Reg.SPAN_CTRL p) = true →
    (s.chip.openGate (Reg.SPAN_CTRL p)).isSpan p = true → (s.chip.openGate (Reg.SPAN_CTRL p)).spanState p ≠ spHeld →
    exec (.retrain ag p) s = .next (s.withChip
      (((s.chip.openGate (Reg.SPAN_CTRL p)).fullLinkReset p).emit (.regDone ag (Reg.SPAN_CTRL p)))))

/-- PCIe links (R82, R87, R99, R537): a port that is up loses DL_Up and is counted, a loss that was not asked for is a Surprise
Down, what it had received in part is cut short, its requests are answered and its queues flushed, an upstream one resets its VSI;
the release of DPC clears the trigger and nothing else; a trained port at DL_Up advertises the committed credits and takes
ORT_RID. Lane quads and training (R105, R109 to R117, R443): a quad whose PLL loses lock says so and takes its ports down; a
relocked one may train them; a port with no partner in its quad takes the result of its training within what the port may run, a
failure returns it to Detect and is counted; a port with no partner after 24 ms leaves joint training; a standby quad in DIM
leaves standby when it detects a partner. -/
def Obligations.LinksTrainAndFall : Prop :=
  (∀ (s : State) (p : Nat) (why : LinkLoss), s.chip.isSpan p = false → s.chip.dlUp p = true → why.requested = true →
    exec (.pcieLinkDown p why) s = .next (s.withChip (
      let c : Chip := { s.chip with pci := { s.chip.pci with phyUp := s.chip.pci.phyUp.erase p } }
      let c := ((c.clrFld (Reg.PRT_STATUS p) Bit.PRT_STATUS_DL_UP).ctrInc kPort p 10).log .linkDown [p] [1]
      let c := ((((c.cutShort p).answerPort p).flushPort p).dropTags p).poolClear p
      if (c.port p).up then
        (match c.vsiOfPort p with
         | some v => ((c.clrFld (Reg.VSI_STATUS v) Bit.VSI_STATUS_LINK_UP).clrFld (Reg.VSI_STATUS v)
             Bit.VSI_STATUS_DRS_SENT).vsiReset v
         | none => c)
      else (c.syncPresence p).reportPort p false))) ∧
  (∀ (s : State) (p : Nat) (why : LinkLoss) (c : Chip), s.chip.isSpan p = false → s.chip.dlUp p = true →
    why.requested = false →
    c = ((((({ s.chip with pci := { s.chip.pci with phyUp := s.chip.pci.phyUp.erase p } } : Chip).clrFld (Reg.PRT_STATUS p)
      Bit.PRT_STATUS_DL_UP).ctrInc kPort p 10).log .linkDown [p] [0]).setBit (Reg.PRT_EVENT p)
        Bit.PRT_EVENT_SURPRISE_DOWN).aerPort p .surpriseDown →
    exec (.pcieLinkDown p why) s = .next (s.withChip (
      let c := ((((c.cutShort p).answerPort p).flushPort p).dropTags p).poolClear p
      if (c.port p).up then
        (match c.vsiOfPort p with
         | some v => ((c.clrFld (Reg.VSI_STATUS v) Bit.VSI_STATUS_LINK_UP).clrFld (Reg.VSI_STATUS v)
             Bit.VSI_STATUS_DRS_SENT).vsiReset v
         | none => c)
      else
        let c := (c.syncPresence p).reportPort p false
        let c := (c.vsi.hosts.filter (fun h => h.local_ == some p && decide (0 < h.flr ∧ h.flr < 7))).foldl
          (fun (c : Chip) h => c.endFlr h false) c
        if c.dpcSelects p .surpriseDown then c.setBit (Reg.PRT_STATUS p) Bit.PRT_STATUS_DPC_ACTIVE else c))) ∧
  (∀ (s : State) (p : Nat), ∃ t, exec (.dpcRelease p) s = .next t ∧
    t.chip.flag (Reg.PRT_STATUS p) Bit.PRT_STATUS_DPC_ACTIVE = false ∧ t.chip.dlUp p = s.chip.dlUp p ∧
    (∀ o, o ≠ Reg.PRT_STATUS p → t.chip.rd o = s.chip.rd o) ∧ t.chip.sw = s.chip.sw ∧ t.chip.pci = s.chip.pci ∧
    t.chip.out = s.chip.out ∧ t.flash = s.flash ∧ t.pending = s.pending) ∧
  (∀ (s : State) (p : Nat) (cr : List Nat), s.chip.pci.phyUp.contains p = true → s.chip.dlUp p = false →
    exec (.pcieLinkUp p cr) s = .next (s.withChip (
      let a := s.chip.poolCredits p
      let c := ((s.chip.setBit (Reg.PRT_STATUS p) Bit.PRT_STATUS_DL_UP).emit (.advertise p a)).log .linkUp [p]
      let c : Chip := { c with
        pci := { c.pci with
          adv := SMap.set c.pci.adv p a []
          ridInForce := SMap.set c.pci.ridInForce p (c.fld (Reg.ORT_RID p) Bit.ORT_RID_RID) (0xFF00 + p) }
        sw := { c.sw with txCredit := SMap.set c.sw.txCredit p cr [] } }
      if (c.port p).up then
        (match c.vsiOfPort p with
         | some v => (c.setBit (Reg.VSI_STATUS v) Bit.VSI_STATUS_LINK_UP).sendDrs v
         | none => c)
      else (c.syncPresence p).reportPort p true))) ∧
  (∀ (s : State) (q : Nat), s.chip.flag (Reg.LQ_STATUS q) Bit.LQ_STATUS_PLL_LOCK = true →
    exec (.pllLockLost q) s = .next (s.withChip (
      let c := s.chip.clrFld (Reg.LQ_STATUS q) Bit.LQ_STATUS_PLL_LOCK
      let c := (c.setBit (Reg.LQ_EVENT q) Bit.LQ_EVENT_PLL_LOST).log .plLost [q]
      (c.portsOfQuad q).foldl (fun c p =>
        let c := c.dropJoint p
        if c.isSpan p then
          (if c.spanState p = spKinit ∨ c.spanState p = spUp ∨ c.spanState p = spRecovery then c.fullLinkReset p else c)
        else if c.dlUp p then c.linkDown p false
        else { c with pci := { c.pci with phyUp := c.pci.phyUp.erase p } }) c))) ∧
  (∀ (s : State) (q p : Nat), q < 64 → s.chip.flag (Reg.LQ_STATUS q) Bit.LQ_STATUS_PLL_LOCK = false →
    p ∈ s.chip.portsOfQuad q → s.chip.stUp (portStation p) = true →
    exec (.pllRelocked q) s = .next (s.withChip
      ((s.chip.setBit (Reg.LQ_STATUS q) Bit.LQ_STATUS_PLL_LOCK).log .pllBack [q]))) ∧
  (∀ (s : State) (p : Nat), s.chip.mayTrain p = true →
    exec (.linkTrainingDone p .fail) s = .next (s.withChip
      (let c := (s.chip.dropJoint p).emit (.offer p ((s.chip.dropJoint p).offerOf p))
       ((c.quadsOf p).foldl (fun c q => c.satInc (Reg.LQ_EVENT q) Bit.LQ_EVENT_TRAIN_FAIL) c).log .trainFail [p]))) ∧
  (∀ (s : State) (p : Nat) (r : TrainResult), s.chip.mayTrain p = true → r ≠ .fail → s.chip.quadMate p = none →
    exec (.linkTrainingDone p r) s = .next (s.withChip (
      let c := (s.chip.dropJoint p).emit (.offer p ((s.chip.dropJoint p).offerOf p))
      c.applyTraining p (c.limited p r).rate (c.limited p r)))) ∧
  (∀ (s : State) (p q : Nat), s.chip.mayTrain p = true → s.chip.quadMate p = some q →
    s.chip.pci.joint.find? (fun j => j.1 == q) = none →
    exec (.jointTrainingTimeout p) s = .next (s.withChip
      { s.chip with pci := { s.chip.pci with jointLeft := p :: s.chip.pci.jointLeft.erase p } })) ∧
  (∀ (s : State) (q : Nat) (partner : Bool), s.chip.fld Reg.GLB_PWR_STATUS Bit.GLB_PWR_STATUS_STATE = 1 →
    s.chip.quadIdle q = true →
    exec (.dimReceiverDetect q partner) s = .next (s.withChip { s.chip with pwr := { s.chip.pwr with
      standbyQuads := if partner then s.chip.pwr.standbyQuads.erase q
        else q :: s.chip.pwr.standbyQuads.erase q } }))

/-! ## Shadow and commit -/

/-- The commits of the fabric, the sectors, the multicast masks and the scheduler that pass their checks (R180 to R182, R193,
R318, R340): in both pipelines every entry of the table takes its shadow, every other entry stands, and the new generation is
active; a policer whose POL_RATE the commit changed is at its base rate, which POL_EFF holds as 0 (R322). The commits of a
station's quotas and a port's pool that pass the checks of R62 and R82: every shadow of theirs is in force in both pipelines and
every other entry stands. -/
def Obligations.CommitPutsTheShadowIntoForce : Prop :=
  (∀ (s : State) (ag : Agent) (gen : Nat), s.chip.reaches ag Reg.RT_COMMIT = true → gen = s.chip.nextGen Reg.RT_ACTIVE_GEN →
    s.chip.firstRouteFault = none →
    ∃ t, exec (.rtCommit ag gen) s = .next t ∧ t.chip.fld Reg.RT_ACTIVE_GEN ⟨15, 0⟩ = gen ∧
      (∀ b o, t.chip.tab b o = if isRouteOff o || o == Reg.KND_TCVC then s.chip.rd o else s.chip.tab b o) ∧
      (∀ o, o ≠ Reg.RT_ACTIVE_GEN → t.chip.rd o = s.chip.rd o) ∧ t.chip.sw = s.chip.sw ∧ t.chip.out = .regDone ag Reg.RT_COMMIT :: s.chip.out) ∧
  (∀ (s : State) (ag : Agent) (gen : Nat), s.chip.reaches ag Reg.WIN_COMMIT = true → gen = s.chip.nextGen Reg.WIN_ACTIVE_GEN →
    s.chip.firstWinFault = none → s.chip.wgenItems (fun _ w => w == modSub 65536 gen 32768) = 0 →
    ∃ t, exec (.winCommit ag gen) s = .next t ∧ t.chip.fld Reg.WIN_ACTIVE_GEN ⟨15, 0⟩ = gen ∧
      (∀ b o, t.chip.tab b o = if isWinOff o then s.chip.rd o else s.chip.tab b o) ∧
      (∀ o, o ≠ Reg.WIN_ACTIVE_GEN → t.chip.rd o = s.chip.rd o) ∧ t.chip.sw = s.chip.sw ∧ t.chip.out = .regDone ag Reg.WIN_COMMIT :: s.chip.out) ∧
  (∀ (s : State) (ag : Agent) (gen : Nat), s.chip.reaches ag Reg.SEC_COMMIT = true → gen = s.chip.nextGen Reg.SEC_ACTIVE_GEN →
    s.chip.firstSecFault = none →
    ∃ t, exec (.secCommit ag gen) s = .next t ∧ t.chip.fld Reg.SEC_ACTIVE_GEN ⟨15, 0⟩ = gen ∧
      (∀ b o, t.chip.tab b o = if isSecOff o then s.chip.rd o else s.chip.tab b o) ∧
      (∀ o, o ≠ Reg.SEC_ACTIVE_GEN → o ≠ Reg.SEC_DRAIN → t.chip.rd o = s.chip.rd o) ∧ t.chip.sw = s.chip.sw ∧
      t.chip.out = .regDone ag Reg.SEC_COMMIT :: s.chip.out) ∧
  (∀ (s : State) (ag : Agent) (gen : Nat), s.chip.reaches ag Reg.SCH_COMMIT = true → gen = s.chip.nextGen Reg.SCH_ACTIVE_GEN →
    s.chip.regs.find? (fun e => schBad e.1 e.2) = none →
    ∃ t, exec (.schCommit ag gen) s = .next t ∧ t.chip.fld Reg.SCH_ACTIVE_GEN ⟨15, 0⟩ = gen ∧
      (∀ b o, t.chip.tab b o = if isSchOff o then s.chip.rd o else s.chip.tab b o) ∧
      (∀ v k, v < 64 → k < 8 → t.chip.rd (Reg.POL_EFF v k) =
        if s.chip.tab false (Reg.POL_RATE v k) = s.chip.rd (Reg.POL_RATE v k) then s.chip.rd (Reg.POL_EFF v k) else 0) ∧
      (∀ o, o ≠ Reg.SCH_ACTIVE_GEN → isPaceOff o = false → t.chip.rd o = s.chip.rd o) ∧ t.chip.out = .regDone ag Reg.SCH_COMMIT :: s.chip.out) ∧
  (∀ (s : State) (ag : Agent) (gen : Nat), s.chip.reaches ag Reg.TWR_MC_COMMIT = true →
    gen = s.chip.nextGen Reg.TWR_MC_ACTIVE_GEN →
    ∃ t, exec (.twrMcCommit ag gen) s = .next t ∧ t.chip.fld Reg.TWR_MC_ACTIVE_GEN ⟨15, 0⟩ = gen ∧
      (∀ b o, t.chip.tab b o =
        if o ∈ (List.range 32).map Reg.MC_STATION_MASK then s.chip.rd o else s.chip.tab b o) ∧
      (∀ o, o ≠ Reg.TWR_MC_ACTIVE_GEN → t.chip.rd o = s.chip.rd o) ∧ t.chip.sw = s.chip.sw ∧ t.chip.out = .regDone ag Reg.TWR_MC_COMMIT :: s.chip.out) ∧
  (∀ (s : State) (ag : Agent) (st gen : Nat), s.chip.reaches ag (Reg.STN_MC_COMMIT st) = true → st < 16 →
    gen = s.chip.nextGen (Reg.STN_MC_ACTIVE_GEN st) →
    ∃ t, exec (.stnMcCommit ag st gen) s = .next t ∧ t.chip.fld (Reg.STN_MC_ACTIVE_GEN st) ⟨15, 0⟩ = gen ∧
      (∀ b o, t.chip.tab b o =
        if o ∈ (List.range 16).map (Reg.MC_PORT_MASK st) then s.chip.rd o else s.chip.tab b o) ∧
      (∀ o, o ≠ Reg.STN_MC_ACTIVE_GEN st → o ≠ Reg.GATE_STATUS → t.chip.rd o = s.chip.rd o) ∧ t.chip.sw = s.chip.sw ∧
      t.chip.out = .regDone ag (Reg.STN_MC_COMMIT st) :: s.chip.out) ∧
  (∀ (s : State) (ag : Agent) (gen : Nat), s.chip.reaches ag Reg.FMC_COMMIT = true → gen = s.chip.nextGen Reg.FMC_ACTIVE_GEN →
    ∃ t, exec (.fmcCommit ag gen) s = .next t ∧ t.chip.fld Reg.FMC_ACTIVE_GEN ⟨15, 0⟩ = gen ∧
      (∀ b o, isFmcOff o = true → t.chip.tab b o = s.chip.rd o) ∧ t.chip.sw = s.chip.sw ∧ t.chip.out = .regDone ag Reg.FMC_COMMIT :: s.chip.out) ∧
  (∀ (s : State) (ag : Agent) (st : Nat) (c : Chip), s.chip.reaches ag (Reg.QUOTA_COMMIT st) = true →
    c = s.chip.openGate (Reg.QUOTA_COMMIT st) → c.quotaOk st = true →
    ∃ t, exec (.quotaCommit ag st (c.nextGen (Reg.QUOTA_ACTIVE_GEN st))) s = .next t ∧
      t.chip.fld (Reg.QUOTA_ACTIVE_GEN st) ⟨15, 0⟩ = c.nextGen (Reg.QUOTA_ACTIVE_GEN st) ∧
      (∀ b o, t.chip.tab b o = if o ∈ quotaOffs st then c.rd o else s.chip.tab b o)) ∧
  (∀ (s : State) (ag : Agent) (p : Nat) (c : Chip), s.chip.reaches ag (Reg.POOL_COMMIT p) = true →
    c = s.chip.openGate (Reg.POOL_COMMIT p) → c.poolTotal p ≤ 2097152 →
    c.fld (Reg.NP_WAIT_QUOTA p) Bit.NP_WAIT_QUOTA_CELLS ≤ c.quota p → 1 ≤ c.fld (Reg.ORT_LIMIT p) Bit.ORT_LIMIT_ENTRIES →
    c.fld (Reg.ORT_LIMIT p) Bit.ORT_LIMIT_ENTRIES ≤ 2048 →
    exec (.poolCommit ag p (c.nextGen (Reg.POOL_ACTIVE_GEN p))) s = .next (s.withChip
      (let d := (((poolOffs p).foldl Chip.commitWord c).setGen (Reg.POOL_ACTIVE_GEN p)
         (c.nextGen (Reg.POOL_ACTIVE_GEN p))).updNpStop p
       (if d.spanState p = spHeld ∧ d.holdCause p = holdHeadroom then d.leaveHeld p else d).emit
         (.regDone ag (Reg.POOL_COMMIT p)))) ∧
    (∀ b o, ((poolOffs p).foldl Chip.commitWord c).tab b o = if o ∈ poolOffs p then c.rd o else c.tab b o))

/-- Fences, drains and the registers of the fabric that act at the write (R188, R197, R200, R202, R342): FENCE_REQ begins a fence
in BUSY, a fence that nothing holds is DONE, a drain of the sectors that nothing holds is DRAINED, a free error-log slot is
returned and a count beyond what was written is only logged, and KND_FAB_RID changes the base unless a request of a span port is
outstanding. -/
def Obligations.FencesAndFabricRegisters : Prop :=
  (∀ (s : State) (ag : Agent) (gen v : Nat) (all : Bool), s.chip.reaches ag Reg.FENCE_REQ = true →
    ∃ t, exec (.fenceReq ag gen v all) s = .next t ∧ t.chip.knd.fence = some (gen, if all then none else some v) ∧
      t.chip.flag Reg.FENCE_STATUS Bit.FENCE_STATUS_BUSY = true ∧ t.chip.flag Reg.FENCE_STATUS Bit.FENCE_STATUS_DONE = false ∧
      (∀ o, o ≠ Reg.FENCE_STATUS → t.chip.rd o = s.chip.rd o) ∧ t.chip.sw = s.chip.sw ∧ t.chip.mor = s.chip.mor ∧
      t.chip.out = .regDone ag Reg.FENCE_REQ :: s.chip.out) ∧
  (∀ s : State, s.chip.knd.fence.isSome = true → s.chip.fenceCount = 0 →
    ∃ t, exec .fenceDone s = .next t ∧ t.chip.knd.fence = none ∧ t.chip.flag Reg.FENCE_STATUS Bit.FENCE_STATUS_BUSY = false ∧
      t.chip.flag Reg.FENCE_STATUS Bit.FENCE_STATUS_DONE = true ∧ t.chip.flag Reg.KND_EVENT Bit.KND_EVENT_FENCE_DONE = true ∧
      (∀ o, o ≠ Reg.FENCE_STATUS → o ≠ Reg.KND_EVENT → t.chip.rd o = s.chip.rd o) ∧ t.chip.sw = s.chip.sw ∧
      t.chip.out = s.chip.out) ∧
  (∀ s : State, s.chip.secOld = 0 →
    ∃ t, exec .secDrained s = .next t ∧ t.chip.flag Reg.SEC_DRAIN Bit.SEC_DRAIN_DRAINED = true ∧
      (∀ o, o ≠ Reg.SEC_DRAIN → t.chip.rd o = s.chip.rd o) ∧ t.chip.sw = s.chip.sw ∧ t.chip.tabA = s.chip.tabA) ∧
  (∀ (s : State) (ag : Agent) (v rd : Nat), s.chip.reaches ag (Reg.FEL_PTR v) = true → rd < 128 → v < 64 →
    modSub 128 (s.chip.fld (Reg.FEL_PTR v) Bit.FEL_PTR_WR) rd ≤ 64 →
    ∃ t, exec (.felRdWrite ag v rd) s = .next t ∧ t.chip.fld (Reg.FEL_PTR v) Bit.FEL_PTR_RD = rd ∧
      t.chip.fld (Reg.FEL_PTR v) Bit.FEL_PTR_WR = s.chip.fld (Reg.FEL_PTR v) Bit.FEL_PTR_WR ∧
      (∀ o, o ≠ Reg.FEL_PTR v → t.chip.rd o = s.chip.rd o)) ∧
  (∀ (s : State) (ag : Agent) (v rd : Nat), s.chip.reaches ag (Reg.FEL_PTR v) = true → v < 64 →
    64 < modSub 128 (s.chip.fld (Reg.FEL_PTR v) Bit.FEL_PTR_WR) rd →
    exec (.felRdWrite ag v rd) s = .next (s.withChip ((s.chip.log .felRdBad [v, rd]).emit (.regDone ag (Reg.FEL_PTR v))))) ∧
  (∀ (s : State) (ag : Agent) (base : Nat), s.chip.reaches ag Reg.KND_FAB_RID = true →
    (∀ e ∈ s.chip.pci.ort, s.chip.isSpan e.port = false) → (∀ q ∈ s.chip.pci.quar, s.chip.isSpan q.port = false) →
    exec (.kndFabRidWrite ag base) s =
      .next (s.withChip ((s.chip.setFld Reg.KND_FAB_RID Bit.KND_FAB_RID_BASE base).emit (.regDone ag Reg.KND_FAB_RID)))) ∧
  (∀ (s : State) (ag : Agent) (base : Nat) (e : OrtEnt), s.chip.reaches ag Reg.KND_FAB_RID = true → e ∈ s.chip.pci.ort →
    s.chip.isSpan e.port = true →
    exec (.kndFabRidWrite ag base) s =
      .next (s.withChip ((s.chip.setBit Reg.KND_EVENT Bit.KND_EVENT_RID_BUSY).emit (.regDone ag Reg.KND_FAB_RID))))

/-- R202: a window lookup at the ingress decides GUARDED by the map of the VSI as it then stands; a write to GUARD_MAP acts on
packets looked up after the write; frames already formed keep their GUARDED value. -/
def Obligations.GuardMapActsOnLaterLookups : Prop :=
  (∀ (c : Chip) (e : Entry) (w : Win) (l : Look) (x : Tlp), (c.packetOf e (some w) l x).guarded = c.guards e.v w x.tc) ∧
  ∀ (s : State) (ag : Agent) (v mask : Nat), s.chip.reaches ag (Reg.GUARD_MAP v) = true → v < 64 →
    ∃ t, exec (.guardMapWrite ag v mask) s = .next t ∧
      t.chip.fld (Reg.GUARD_MAP v) Bit.GUARD_MAP_TC_MASK = mask % 256 ∧
      (∀ w tc, tc < 8 → t.chip.guards v w tc = (!w.mc && !s.chip.faHere w.dest && bitOf mask tc)) ∧
      (∀ u w tc, u ≠ v → u < 64 → t.chip.guards u w tc = s.chip.guards u w tc) ∧
      (∀ o, o ≠ Reg.GUARD_MAP v → t.chip.rd o = s.chip.rd o) ∧ t.chip.sw = s.chip.sw ∧ t.chip.mor = s.chip.mor ∧
      t.chip.rly = s.chip.rly ∧ t.chip.out = .regDone ag (Reg.GUARD_MAP v) :: s.chip.out

/-! ## The Keeper's commands -/

/-- Binding commands that pass the checks of Table 8.6 (R240, R242, R253 to R256): on an admitted entry with no command in
progress the binding holds and the record says OK; a BIND of a remote function waits for its probe, and an UNBIND of functions for
their end. -/
def Obligations.BindingCommandsComplete : Prop :=
  (∀ (s : State) (h : KHead) (v vbr target prid devfn peer : Nat) (wins : List (Nat × Nat)) (bars : List (Nat × Nat × Nat))
    (fn : FnInfo), s.chip.admitsK h (.bind v vbr 1 target prid devfn peer wins bars fn) = true → s.chip.kpr.busy = none →
    s.chip.faHere target = true → s.chip.ownedVsi v = true → vbr < s.chip.fld (Reg.VSI_ID v) Bit.VSI_ID_VBR_COUNT →
    s.chip.vbrKind v vbr = 0 → s.chip.downPort (faPort target) = true →
    (∀ b ∈ s.chip.vsi.ports, b.2.2 ≠ faPort target) →
    (s.chip.isManager v = false → (∀ x ∈ s.chip.vsi.hosts, x.local_ ≠ some (faPort target)) ∧
      ∀ x ∈ s.chip.vsi.peers, x.port ≠ faPort target) →
    exec (.bind h v vbr 1 target prid devfn peer wins bars fn) s = .next ((s.withChip
      ((({ s.chip with vsi := { s.chip.vsi with ports := (v, vbr, faPort target) :: s.chip.vsi.ports } } : Chip).putVbr v vbr 1
        (some (faPort target))).showVbr v vbr (some (faPort target)))).finishK h
          (.bind v vbr 1 target prid devfn peer wins bars fn) kOk)) ∧
  (∀ (s : State) (h : KHead) (port prid fa ov proxy : Nat) (bars : List (Nat × Nat)) (pf : Option Nat),
    s.chip.admitsK h (.bindPeer port prid fa ov proxy bars pf) = true → s.chip.kpr.busy = none →
    s.chip.downPort port = true → proxy < 64 → s.chip.flag (Reg.VSI_ID proxy) Bit.VSI_ID_PROXY = true →
    s.chip.shared port = true → s.chip.fnOwned port prid = false → s.chip.bindCount < 16384 → s.chip.faHere fa = false →
    exec (.bindPeer h port prid fa ov proxy bars pf) s = .next ((s.withChip
      { s.chip with vsi := { s.chip.vsi with
        peers := { port, prid, ownerFa := fa, ownerVsi := ov, proxy, bars, pf } :: s.chip.vsi.peers } }).finishK h
          (.bindPeer port prid fa ov proxy bars pf) kOk)) ∧
  (∀ (s : State) (h : KHead) (v vbr kind target prid devfn peer : Nat) (wins : List (Nat × Nat)) (bars : List (Nat × Nat × Nat))
    (fn : FnInfo) (b : BindFn) (ws : List BarSt) (x : HostBind),
    s.chip.admitsK h (.bind v vbr kind target prid devfn peer wins bars fn) = true → s.chip.kpr.busy = none →
    kind = 2 ∨ kind = 3 → b = (kBindFn v vbr kind target prid devfn peer wins bars fn).placed → s.chip.bindFault b = none →
    ws = b.bars.filterMap (fun y => (b.winOf y.1).map (fun w =>
      ({ idx := y.1, win := w, phys := y.2.1, size := y.2.2 } : BarSt))) →
    x = { v, vbr, devfn := b.devfn, local_ := s.chip.localTarget b, targetFa := target, prid, peerVsi := peer, bars := ws, fn,
          probe := if (s.chip.localTarget b).isNone then some (s.chip.now + s.chip.probeNs v) else none } →
    (∀ p, s.chip.localTarget b = some p →
      exec (.bind h v vbr kind target prid devfn peer wins bars fn) s = .next ((s.withChip
        ((((ws.foldl (fun c y => c.takeWin v y) s.chip).putHost x).putVbr v vbr kind (some p)).showVbr v vbr (some p))).finishK h
          (.bind v vbr kind target prid devfn peer wins bars fn) kOk)) ∧
    (s.chip.localTarget b = none →
      exec (.bind h v vbr kind target prid devfn peer wins bars fn) s = .next (s.withChip (
        let c := ((ws.foldl (fun c y => c.takeWin v y) s.chip).putHost x).putVbr v vbr kind none
        let c := ((c.arm (.probeLimit v vbr b.devfn) (c.probeNs v)).sendProbe x).fetchedK h
        { c with kpr := { c.kpr with
          busy := some (h, .bind v vbr kind target prid devfn peer wins bars fn) } })))) ∧
  (∀ (s : State) (h : KHead) (v vbr devfn port prid p : Nat), s.chip.admitsK h (.unbindVbr v vbr) = true →
    s.chip.kpr.busy = none → s.chip.ownedVsi v = true →
    s.chip.vsi.ports.find? (fun b => b.1 == v && b.2.1 == vbr) = some (v, vbr, p) →
    exec (.unbind h 0 v vbr devfn port prid) s = .next ((s.withChip (s.chip.unbindPort v vbr p)).finishK h
      (.unbindVbr v vbr) kOk)) ∧
  (∀ (s : State) (h : KHead) (v vbr devfn port prid : Nat) (x : HostBind), s.chip.kpr.busy = none →
    s.chip.ownedVsi v = true → s.chip.hostAt v vbr devfn = some x →
    (s.chip.admitsK h (.unbindVbr v vbr) = true → s.chip.vsi.ports.find? (fun b => b.1 == v && b.2.1 == vbr) = none →
      s.chip.vsi.hosts.filter (fun y => y.v == v && y.vbr == vbr) = [x] →
      exec (.unbind h 0 v vbr devfn port prid) s = .next (s.withChip (
        let c := (s.chip.startUnbind v vbr [x]).fetchedK h
        { c with kpr := { c.kpr with busy := some (h, .unbindVbr v vbr) } }))) ∧
    (s.chip.admitsK h (.unbindFn v vbr devfn) = true → s.chip.vbrKind v vbr = 2 →
      exec (.unbind h 1 v vbr devfn port prid) s = .next (s.withChip (
        let c := (s.chip.startUnbind v vbr [x]).fetchedK h
        { c with kpr := { c.kpr with busy := some (h, .unbindFn v vbr devfn) } })))) ∧
  (∀ (s : State) (h : KHead) (v vbr devfn port prid : Nat) (b : PeerBind), s.chip.admitsK h (.unbindPeer port prid) = true →
    s.chip.kpr.busy = none → s.chip.vsi.peers.find? (fun b => b.port == port && b.prid == prid) = some b → b.flrEnd ≤ s.chip.now →
    exec (.unbind h 2 v vbr devfn port prid) s = .next ((s.withChip (
      let c := (s.chip.pci.ort.filter (fun e => e.origRid == prid && e.from port)).foldl
        (fun (c : Chip) e => c.answerAfter e (c.synth e.port)) s.chip
      { c with vsi := { c.vsi with
        peers := c.vsi.peers.filter (fun b => !(b.port == port && b.prid == prid)) } })).finishK h (.unbindPeer port prid) kOk)) ∧
  (∀ (s : State) (h : KHead) (v : Nat) (on : Bool), s.chip.admitsK h (.setProxy v on) = true → s.chip.kpr.busy = none →
    v < 64 → s.chip.portOfVsi v = none → (on = true ∨ s.chip.flag (Reg.VSI_ID v) Bit.VSI_ID_PROXY = true) →
    exec (.setProxy h v on) s = .next ((s.withChip (s.chip.setFld (Reg.VSI_ID v) Bit.VSI_ID_PROXY (b2n on))).finishK h
      (.setProxy v on) kOk)) ∧
  (∀ (s : State) (h : KHead) (v n : Nat), s.chip.admitsK h (.setVbrCount v n) = true → s.chip.kpr.busy = none →
    s.chip.ownedVsi v = true → 1 ≤ n → n ≤ 256 → s.chip.vsiInReset v = true →
    exec (.setVbrCount h v n) s = .next ((s.withChip (s.chip.setFld (Reg.VSI_ID v) Bit.VSI_ID_VBR_COUNT n)).finishK h
      (.setVbrCount v n) kOk)) ∧
  (∀ (s : State) (h : KHead) (v vbr devfn port prid : Nat), s.chip.admitsK h (.queryVbr v vbr devfn) = true →
    s.chip.kpr.busy = none →
    exec (.queryBind h 0 v vbr devfn port prid) s =
      .next (s.finishK h (.queryVbr v vbr devfn) (s.chip.queryVbr v vbr devfn))) ∧
  (∀ (s : State) (h : KHead) (v vbr devfn port prid : Nat), s.chip.admitsK h (.queryPeer port prid) = true →
    s.chip.kpr.busy = none →
    exec (.queryBind h 1 v vbr devfn port prid) s =
      .next (s.finishK h (.queryPeer port prid) (s.chip.queryPeer port prid)))

/-- Slices are granted and revoked (R267, R268, R491): a range of slices that no VSI holds becomes STOPPED slices of the VSI, and
a range in which none is active and none drains or halts with work in flight goes back, halted and draining slices after a reset.
NOP does nothing (R384). What ends a wait of the Keeper (R254, R255, R262): a function's quiesce that is done, or whose time is
out, moves on, and an UNBIND whose functions are gone completes; a probe that succeeds ends its BIND in a binding, one that is
answered otherwise ends in PROBE_FAIL, and one without an answer is repeated. -/
def Obligations.SliceCommandsAndWaits : Prop :=
  (∀ (s : State) (h : KHead) (v first count : Nat), s.chip.admitsK h (.sliceGrant v first count) = true →
    s.chip.kpr.busy = none → badRange first count = false → v < 64 → (s.chip.portOfVsi v).isSome = true →
    s.chip.flag (Reg.VSI_ID v) Bit.VSI_ID_PROXY = false →
    (∀ x ∈ sliceRange first count, s.chip.relayGateOpen.slState x = sUngranted) →
    exec (.sliceGrant h v first count) s = .next ((s.withChip
      ((sliceRange first count).foldl (fun (c : Chip) x =>
        ((((c.putRslice { slice := x }).ctrClear kSlice x).setFld (Reg.SLC_BIND x) Bit.SLC_BIND_VSI v).setFld (Reg.SLC_STATE x)
          Bit.SLC_STATE_STATE sStopped)) s.chip.relayGateOpen)).finishK h (.sliceGrant v first count) { status := 0 })) ∧
  (∀ (s : State) (h : KHead) (first count : Nat), s.chip.admitsK h (.sliceRevoke first count) = true →
    s.chip.kpr.busy = none → badRange first count = false →
    (∀ x ∈ sliceRange first count, s.chip.slState x ≠ sActive ∧
      (s.chip.slState x = sDraining ∨ s.chip.slState x = sHalted → s.chip.inflight x = 0)) →
    exec (.sliceRevoke h first count) s = .next ((s.withChip
      ((sliceRange first count).foldl (fun (c : Chip) x =>
        if c.slState x = sUngranted then c
        else
          let c := if c.slState x = sStopped then c else c.sliceReset x
          let c : Chip := { c with rly := { c.rly with slices := c.rly.slices.filter (fun y => y.slice != x) } }
          (c.ctrClear kSlice x).setFld (Reg.SLC_STATE x) Bit.SLC_STATE_STATE sUngranted) s.chip)).finishK h
            (.sliceRevoke first count) { status := 0 })) ∧
  (∀ (s : State) (h : KHead), s.chip.admitsK h .nop = true → s.chip.kpr.busy = none →
    exec (.nop h) s = .next (s.finishK h .nop kOk)) ∧
  (∀ (s : State) (v vbr devfn : Nat) (h : HostBind), s.chip.hostAt v vbr devfn = some h → h.flr = 1 ∨ h.flr = 7 →
    s.chip.quiet h = true →
    exec (.flrQuiesceDone v vbr devfn) s = .next (s.withChip (s.chip.quiesced h)).pumpK) ∧
  (∀ (s : State) (h : KHead) (v i : Nat), s.chip.kpr.busy = some (h, .unbindVbr v i) → s.chip.unbindDone v i none = true →
    s.pumpK = s.completeK kOk) ∧
  (∀ (s : State) (v vbr devfn : Nat) (h : HostBind), s.chip.due (.quiesce v vbr devfn) = true →
    s.chip.hostAt v vbr devfn = some h → h.flr = 1 ∨ h.flr = 7 →
    exec (.quiesceTimeout v vbr devfn) s = .next (s.withChip (
      let c := (s.chip.fnEntries h).foldl (fun (c : Chip) e => c.answerAfter e (c.synth e.port)) s.chip
      let c := (s.chip.fnPackets h).foldl (fun (c : Chip) k => (c.withdraw k).answerPkt k.inPort k (c.synth k.egPort)) c
      let c := (c.setBit (Reg.VSI_EVENT v) Bit.VSI_EVENT_QUIESCE_TMO).log .quiesceTmo [v, vbr, devfn]
      if h.flr = 7 ∧ c.fnCopies h = true then c.disarm (.quiesce v vbr devfn) else c.quiesced h)).pumpK) ∧
  (∀ (s : State) (v vbr devfn : Nat) (h : HostBind), s.chip.hostAt v vbr devfn = some h → h.probe.isSome = true →
    (h.answer = some stSC → s.chip.kpr.busy = none →
      exec (.bindProbeRetry v vbr devfn) s = .next (s.withChip
        ((((s.chip.disarm (.probe v vbr devfn)).disarm (.probeLimit v vbr devfn)).putHost
          { h with probe := none, answer := none }).showVbr v vbr none))) ∧
    (h.answer = some stSC → ∀ (k : KHead) (kind target prid peer : Nat) (wins : List (Nat × Nat))
        (bars : List (Nat × Nat × Nat)) (fn : FnInfo),
      s.chip.kpr.busy = some (k, .bind v vbr kind target prid devfn peer wins bars fn) →
      exec (.bindProbeRetry v vbr devfn) s = .next ((s.withChip
        ((((s.chip.disarm (.probe v vbr devfn)).disarm (.probeLimit v vbr devfn)).putHost
          { h with probe := none, answer := none }).showVbr v vbr none)).completeK kOk)) ∧
    (∀ st, h.answer = some st → st ≠ stSC → st ≠ stRRS →
      s.chip.probeStep v vbr devfn = (s.chip.removeHost h, some (kErr stProbeFail 8))) ∧
    (h.answer = none → s.chip.due (.probeLimit v vbr devfn) = false → s.chip.due (.probe v vbr devfn) = true →
      s.chip.probeStep v vbr devfn = (s.chip.sendProbe h, none)))

/-- Image commands (R373, R375, R376, R385): BEGIN erases the inactive slot and enters WRITING, WRITE programs it with the bytes
behind the entry or those of the manager's memory, VERIFY enters VERIFIED when every check passes and answers which one fails
otherwise, COMMIT writes the next record for the KINDs of its mask and returns them to IDLE, ABORT returns a KIND to IDLE,
ACTIVATE resets the Keeper behind its record, ACCEPT raises the SVN fuses to the running image's. Any other order ends with
IMG_STATE, and ACCEPT in FALLBACK with NOT_ACCEPTED. One that the Keeper does not admit changes nothing, and one that finds a
command in progress waits behind it. -/
def Obligations.ImageCommandsComplete : Prop :=
  (∀ (s : State) (h : KHead) (kind len : Nat), s.chip.admitsK h (.imageBegin kind len) = true → s.chip.kpr.busy = none →
    kind < 2 → 0 < len → len ≤ slotSize kind →
    (s.chip.kStage kind ≠ stVerified → exec (.imageBegin h kind len) s = .next (({ s with
      chip := s.chip.setKStage kind stWriting
      flash := Flash.erase s.flash (slotBase kind (s.chip.inactive s.flash kind)) (ceilDiv len 0x10000 * 0x10000) } :
        State).finishK h (.imageBegin kind len) kOk)) ∧
    (s.chip.kStage kind = stVerified →
      exec (.imageBegin h kind len) s = .next (s.finishK h (.imageBegin kind len) { status := stImgState }))) ∧
  (∀ (s : State) (h : KHead) (kind off len addr : Nat) (data : List Byte),
    s.chip.admitsK h (.imageWrite kind off len addr data) = true → s.chip.kpr.busy = none → kind < 2 → 0 < len →
    len ≤ 1048576 → off + len ≤ slotSize kind →
    (s.chip.kStage kind = stWriting → h.mctp = true → len ≤ 1024 → len ≤ data.length →
      exec (.imageWrite h kind off len addr data) s = .next (({ s with
        flash := Flash.program s.flash (slotBase kind (s.chip.inactive s.flash kind) + off) (data.take len) } : State).finishK h
          (.imageWrite kind off len addr data) kOk)) ∧
    (s.chip.kStage kind = stWriting → h.mctp = false → (s.chip.managerRead addr len).2 = true → len ≤ data.length →
      exec (.imageWrite h kind off len addr data) s = .next (({ s with
        chip := (s.chip.managerRead addr len).1
        flash := Flash.program s.flash (slotBase kind ((s.chip.managerRead addr len).1.inactive s.flash kind) + off)
          (data.take len) } : State).finishK h (.imageWrite kind off len addr data) kOk)) ∧
    (s.chip.kStage kind ≠ stWriting → exec (.imageWrite h kind off len addr data) s =
      .next (s.finishK h (.imageWrite kind off len addr data) { status := stImgState }))) ∧
  (∀ (s : State) (h : KHead) (kind slot n : Nat), s.chip.admitsK h (.imageVerify kind) = true → s.chip.kpr.busy = none →
    kind < 2 → slot = s.chip.inactive s.flash kind →
    n = (if kind = 0 then s.chip.fwCheck s.flash slot else s.chip.llCheck s.flash slot) →
    (s.chip.kStage kind = stWriting → exec (.imageVerify h kind) s = .next (
      if n ≠ 0 then s.finishK h (.imageVerify kind)
        { status := if n = 5 then stImgRollback else if n = 6 then stImgKeyRevoked else stImgVerifyFail, result := [n] }
      else if kind = 0 then (s.withChip { s.chip.setKStage 0 stVerified with
        kpr := { (s.chip.setKStage 0 stVerified).kpr with fwVerified := (fwImgAt s.flash slot).digest } }).finishK h
          (.imageVerify kind) { status := 0, result := leBytes 4 (fwImgAt s.flash slot).version ++
            [(fwImgAt s.flash slot).svn, 0, 0, 0] ++ (fwImgAt s.flash slot).digest.take 16 }
      else (s.withChip (s.chip.setKStage 1 stVerified)).finishK h (.imageVerify kind)
        { status := 0, result := leBytes 4 (lightListOf s.flash slot).serial ++ [0, 0, 0, 0] ++
            (lightListOf s.flash slot).digest.take 16 })) ∧
    (s.chip.kStage kind ≠ stWriting →
      exec (.imageVerify h kind) s = .next (s.finishK h (.imageVerify kind) { status := stImgState }))) ∧
  (∀ (s : State) (h : KHead) (mask : Nat) (kinds : List Nat), s.chip.admitsK h (.imageCommit mask) = true →
    s.chip.kpr.busy = none → kinds = [0, 1].filter (fun k => bitOf mask k) →
    ((∀ k ∈ kinds, s.chip.kStage k = stVerified) → ∃ (seq fw ll : Nat) (digest : List Nat),
      exec (.imageCommit h mask) s = .next (({ s with
        chip := kinds.foldl (fun (c : Chip) k => c.commitKind k) s.chip
        flash := commitWrite s.flash seq fw ll digest } : State).finishK h (.imageCommit mask)
          { status := 0, result := leBytes 4 seq }) ∧
      (∀ r, commitNow s.flash = some r → seq = (r.seq + 1) % 2 ^ 32 ∧ (0 ∉ kinds → fw = r.fwSlot ∧ digest = r.digest) ∧
        (1 ∉ kinds → ll = r.llSlot)) ∧
      (commitNow s.flash = none → seq = 1 ∧
        (0 ∉ kinds → fw = s.chip.fld Reg.KPR_STATUS Bit.KPR_STATUS_FW_SLOT ∧ digest = s.chip.kpr.fwDigest) ∧
        (1 ∉ kinds → ll = s.chip.fld Reg.KPR_STATUS Bit.KPR_STATUS_LL_SLOT)) ∧
      (0 ∈ kinds → fw = s.chip.inactive s.flash 0 ∧ digest = s.chip.kpr.fwVerified) ∧
      (1 ∈ kinds → ll = s.chip.inactive s.flash 1) ∧
      (∀ k ∈ kinds, (kinds.foldl (fun (c : Chip) k => c.commitKind k) s.chip).kStage k = stIdle)) ∧
    ((∃ k ∈ kinds, s.chip.kStage k ≠ stVerified) →
      exec (.imageCommit h mask) s = .next (s.finishK h (.imageCommit mask) { status := stImgState }))) ∧
  (∀ (s : State) (h : KHead) (kind : Nat), s.chip.admitsK h (.imageAbort kind) = true → s.chip.kpr.busy = none →
    (kind < 2 →
      exec (.imageAbort h kind) s = .next ((s.withChip (s.chip.setKStage kind stIdle)).finishK h (.imageAbort kind) kOk)) ∧
    (2 ≤ kind →
      exec (.imageAbort h kind) s = .next (s.finishK h (.imageAbort kind) { status := stBadParam }))) ∧
  (∀ (s : State) (h : KHead), s.chip.admitsK h .imageActivate = true → s.chip.kpr.busy = none →
    exec (.imageActivate h) s = .next (s.withChip
      ((({ s.chip.fetchedK h with kpr := { (s.chip.fetchedK h).kpr with busy := none } } : Chip).recordK h .imageActivate
        kOk).keeperReset 4))) ∧
  (∀ (s : State) (h : KHead), s.chip.admitsK h .imageAccept = true → s.chip.kpr.busy = none →
    (s.chip.flag Reg.KPR_STATUS Bit.KPR_STATUS_FALLBACK = false →
      ∃ c : Chip, c = ({ s.chip with kpr := { s.chip.kpr with svn := max s.chip.kpr.svn s.chip.kpr.fwSvn } } : Chip).syncFuses ∧
        exec (.imageAccept h) s = .next ((s.withChip c).finishK h .imageAccept { status := 0, result := [c.kpr.svn] })) ∧
    (s.chip.flag Reg.KPR_STATUS Bit.KPR_STATUS_FALLBACK = true →
      exec (.imageAccept h) s = .next (s.finishK h .imageAccept { status := stNotAccepted }))) ∧
  (∀ (s : State) (h : KHead) (kind off len addr mask : Nat) (data : List Byte),
    ∀ x ∈ [(Instr.imageBegin h kind len, KCmd.imageBegin kind len),
      (.imageWrite h kind off len addr data, .imageWrite kind off len addr data), (.imageVerify h kind, .imageVerify kind),
      (.imageCommit h mask, .imageCommit mask), (.imageActivate h, .imageActivate), (.imageAccept h, .imageAccept),
      (.imageAbort h kind, .imageAbort kind)],
    (s.chip.admitsK h x.2 = false → exec x.1 s = .next s) ∧
    (s.chip.admitsK h x.2 = true → s.chip.kpr.busy.isSome = true → exec x.1 s = .next (s.withChip
      { s.chip with kpr := { s.chip.kpr with queue := s.chip.kpr.queue ++ [(h, x.2)] } })))

/-- Keys and certificates (R370, R371, R389): an enrolment takes the next free slot of its kind, a revocation blows the fuse of a
key that does not run, and a chain whose leaf carries the identity key goes into certificate slot 1. -/
def Obligations.KeyCommandsComplete : Prop :=
  (∀ (s : State) (h : KHead) (kind addr : Nat) (key : List Byte) (c : Chip) (free : Option Nat),
    s.chip.admitsK h (.opKeyEnroll kind addr key) = true → s.chip.kpr.busy = none → kind < 2 →
    s.chip.managerRead addr 1793 = (c, true) → 1793 ≤ key.length →
    free = (if kind = 0 then freeSlot c.kpr.opLl0 c.kpr.opLl1 else freeSlot c.kpr.opDbg0 c.kpr.opDbg1) →
    (∀ slot, free = some slot → exec (.opKeyEnroll h kind addr key) s = .next ((s.withChip (c.enroll kind slot
      (key.take 1793))).finishK h (.opKeyEnroll kind addr key) { status := 0, result := [slot] })) ∧
    (free = none → exec (.opKeyEnroll h kind addr key) s = .next ((s.withChip c).finishK h (.opKeyEnroll kind addr key)
      { status := stAlreadyEnrolled }))) ∧
  (∀ (s : State) (h : KHead) (k : Nat), s.chip.admitsK h (.keyRevoke k) = true → s.chip.kpr.busy = none → k < 2 →
    s.chip.kpr.fwKey ≠ k → bitOf s.chip.kpr.revoke k = false →
    exec (.keyRevoke h k) s = .next ((s.withChip
      ({ s.chip with kpr := { s.chip.kpr with revoke := s.chip.kpr.revoke + 2 ^ k } } : Chip).syncFuses).finishK h
        (.keyRevoke k) kOk)) ∧
  (∀ (s : State) (h : KHead) (addr len : Nat) (cert : List Byte), s.chip.admitsK h (.setCert addr len cert) = true →
    s.chip.kpr.busy = none → 0 < len → len ≤ 32768 → (s.chip.managerRead addr len).2 = true → len ≤ cert.length →
    exec (.setCert h addr len cert) s = .next
      (if Config.leafKey (cert.take len) = Config.identityKey (s.chip.managerRead addr len).1.kpr.idSeed then
        ({ s with
          chip := (s.chip.managerRead addr len).1
          flash := Flash.program (Flash.erase s.flash certSlot1 32768) certSlot1 (cert.take len) } : State).finishK h
            (.setCert addr len cert) kOk
       else (s.withChip (s.chip.managerRead addr len).1).finishK h (.setCert addr len cert) { status := stBadParam }))

/-- The command ring (R380 to R383, R387): EN starts it from its first entry, clearing EN stops it, CR_DB reports entries and
consumed records or sets DB_RANGE, an entry is fetched when its record has a free slot, and an entry may also arrive as an MCTP
message. -/
def Obligations.CommandRingRuns : Prop :=
  (∀ (s : State) (ag : Agent), s.chip.reaches ag Reg.CR_CTRL = true → s.chip.crOn = false →
    ∃ t, exec (.crEnable ag) s = .next t ∧ t.chip.crOn = true ∧ t.chip.kpr.sqSeen = 0 ∧ t.chip.kpr.sqFetched = 0 ∧
      t.chip.kpr.cqWritten = 0 ∧ t.chip.kpr.cqRead = 0 ∧ t.chip.kpr.busy = s.chip.kpr.busy ∧
      t.chip.kpr.queue = s.chip.kpr.queue ∧ (∀ o, o ≠ Reg.CR_CTRL → t.chip.rd o = s.chip.rd o)) ∧
  (∀ (s : State) (ag : Agent), s.chip.reaches ag Reg.CR_CTRL = true → s.chip.crOn = true →
    exec (.crDisable ag) s = .next (s.withChip (s.chip.crStop.emit (.regDone ag Reg.CR_CTRL)))) ∧
  (∀ (s : State) (ag : Agent) (sq cq : Nat), s.chip.reaches ag Reg.CR_DB = true → s.chip.crOn = true → sq < 65536 →
    ahead16 sq s.chip.kpr.sqSeen = true → modSub (2 ^ 16) sq s.chip.kpr.sqFetched ≤ s.chip.crSize →
    modSub (2 ^ 16) cq s.chip.kpr.cqRead ≤ modSub (2 ^ 16) s.chip.kpr.cqWritten s.chip.kpr.cqRead →
    ∃ t, exec (.crDb ag sq cq) s = .next t ∧ t.chip.kpr.sqSeen = sq ∧ t.chip.kpr.cqRead = cq % 2 ^ 16 ∧
      t.chip.kpr.sqFetched = s.chip.kpr.sqFetched ∧ t.chip.kpr.cqWritten = s.chip.kpr.cqWritten ∧
      t.chip.regs = s.chip.regs ∧ t.chip.out = .regDone ag Reg.CR_DB :: s.chip.out) ∧
  (∀ (s : State) (ag : Agent) (sq cq : Nat), s.chip.reaches ag Reg.CR_DB = true → s.chip.crOn = true →
    ahead16 sq s.chip.kpr.sqSeen = false →
    ∃ t, exec (.crDb ag sq cq) s = .next t ∧ t.chip.kpr.sqSeen = s.chip.kpr.sqSeen ∧
      t.chip.flag Reg.KPR_EVENT Bit.KPR_EVENT_DB_RANGE = true ∧ (∀ o, o ≠ Reg.KPR_EVENT → t.chip.rd o = s.chip.rd o)) ∧
  (∀ (s : State) (b : List Byte) (bars : List (Nat × Nat × Nat)) (fn : FnInfo) (data : List Byte),
    s.chip.keeperServes = true → s.chip.crOn = true → s.chip.kpr.busy = none → s.chip.kpr.sqSeen ≠ s.chip.kpr.sqFetched →
    modSub (2 ^ 16) s.chip.kpr.cqWritten s.chip.kpr.cqRead < s.chip.crCqSize → s.chip.managerLink = true →
    exec (.keeperCommandFetch (some b) bars fn data) s = .next ((s.withChip
      (s.chip.emit (.hostRead s.chip.manager
        (s.chip.pair Reg.CR_SQ_BASE_LO Reg.CR_SQ_BASE_HI + 64 * (s.chip.kpr.sqFetched % s.chip.crSize)) 64))).startK
          (entryHead b false) (entryCmd b bars fn data))) ∧
  (∀ (c : Chip) (h : KHead), (h.mctp = false → (c.fetchedK h).kpr.sqFetched = (c.kpr.sqFetched + 1) % 2 ^ 16) ∧
    (h.mctp = true → c.fetchedK h = c) ∧ (c.fetchedK h).regs = c.regs ∧ (c.fetchedK h).out = c.out) ∧
  (∀ (s : State) (entry data : List Byte), s.chip.keeperServes = true → s.chip.pwr.addrSel.isSome = true →
    isImageCode (entryCmd entry [] {} data).code = true →
    exec (.mctpCommandReceived entry data) s = .next (s.submitK (entryHead entry true) (entryCmd entry [] {} data)))

/-! ## The management connector -/

/-- The management connector (R473 to R476, R480, R481, R488): ADDR_SEL latches once, MATE_N lost is a record, an address
assigned is the endpoint's, RSTDAA clears the addresses of its port (per port: log entry 70), and the commands of the Lamp
Room endpoint act and answer; a wrong PEC answers LR_PEC and a wrong count LR_BAD_CMD.
Dynamic addresses survive RESET_N, a Keeper reset, entry into DARK and the restore, and are gone after a power-on
(R476). -/
def Obligations.ManagementConnectorAnswers : Prop :=
  (∀ (s : State) (sel : Nat), s.chip.pwr.standby = true → s.chip.pwr.addrSel = none →
    exec (.mateLatch sel) s = .next (s.withChip { s.chip with pwr := { s.chip.pwr with addrSel := some (sel % 8) } })) ∧
  (∀ (s : State) (sel n : Nat), s.chip.pwr.addrSel = some n → exec (.mateLatch sel) s = .next s) ∧
  (∀ s : State, s.chip.busRuns .keeper = true → s.chip.pwrState < 2 →
    exec .mateLost s = .next ((s.withChip (s.chip.log .mateLost [])).keepWrite keepMate)) ∧
  (∀ (s : State) (port ep addr k : Nat), s.chip.lampAnswers = true → dynKey port ep = some k →
    k = 1 ∨ s.chip.busRuns (.mgmt port) = true →
    ∃ t, exec (.i3cDynamicAddress port ep addr) s = .next t ∧ SMap.get t.chip.pwr.dyn k 0 = addr % 128 ∧
      (∀ j, j ≠ k → SMap.get t.chip.pwr.dyn j 0 = SMap.get s.chip.pwr.dyn j 0) ∧ t.chip.regs = s.chip.regs ∧
      t.chip.out = s.chip.out ∧ t.flash = s.flash) ∧
  (∀ (s : State) (port : Nat), s.chip.lampAnswers = true →
    ∃ t, exec (.rstdaa port) s = .next t ∧
      (port = 0 → SMap.get t.chip.pwr.dyn 0 0 = 0 ∧ SMap.get t.chip.pwr.dyn 1 0 = 0 ∧
        SMap.get t.chip.pwr.dyn 2 0 = SMap.get s.chip.pwr.dyn 2 0) ∧
      (port ≠ 0 → SMap.get t.chip.pwr.dyn 2 0 = 0 ∧ SMap.get t.chip.pwr.dyn 0 0 = SMap.get s.chip.pwr.dyn 0 0 ∧
        SMap.get t.chip.pwr.dyn 1 0 = SMap.get s.chip.pwr.dyn 1 0) ∧ t.chip.regs = s.chip.regs ∧ t.flash = s.flash) ∧
  (∀ s : State, s.chip.lampAnswers = true →
    exec (.lrStatus [] true) s = .next (s.withChip (s.chip.emit (.endpointReply 1 s.chip.lampBytes)))) ∧
  (∀ (s : State) (n : Nat), s.chip.lampAnswers = true →
    exec (.lrPweRead [n] true) s = .next (s.withChip
      ((s.chip.regRead .lampRoom (pweOff n)).1.lampData (leBytes 4 (s.chip.regRead .lampRoom (pweOff n)).2.toNat)))) ∧
  (∀ (s : State) (n a b c d : Nat), s.chip.lampAnswers = true →
    exec (.lrPweWrite [n, a, b, c, d] true) s =
      .next ((s.writeReg .lampRoom (pweOff n) (BitVec.ofNat 32 (a + b * 2 ^ 8 + c * 2 ^ 16 + d * 2 ^ 24))).withChip
        ((s.writeReg .lampRoom (pweOff n) (BitVec.ofNat 32 (a + b * 2 ^ 8 + c * 2 ^ 16 + d * 2 ^ 24))).chip.lampStatus 0))) ∧
  (∀ (s : State) (v : Nat), s.chip.lampAnswers = true → s.chip.pwrState < 2 → s.chip.pwr.darkStep = 0 →
    s.chip.pwr.restoreStep = 0 → s.chip.busRuns .keeper = true →
    exec (.lrPower [v] true) s = .next (s.withChip ((s.chip.setTarget v).lampStatus 0))) ∧
  (∀ (s : State) (v : Nat), s.chip.lampAnswers = true →
    s.chip.pwrState = 2 ∨ 0 < s.chip.pwr.darkStep ∨ 0 < s.chip.pwr.restoreStep →
    exec (.lrPower [v] true) s = .next (s.withChip (s.chip.lampStatus 3))) ∧
  (∀ (s : State) (ps : List Nat), s.chip.lampAnswers = true →
    exec (.lrStatus ps false) s = .next (s.withChip (s.chip.lampStatus 4)) ∧
    exec (.lrPweRead ps false) s = .next (s.withChip (s.chip.lampStatus 4)) ∧
    exec (.lrPweWrite ps false) s = .next (s.withChip (s.chip.lampStatus 4)) ∧
    exec (.lrPower ps false) s = .next (s.withChip (s.chip.lampStatus 4)) ∧
    (ps.length ≠ 0 → exec (.lrStatus ps true) s = .next (s.withChip (s.chip.lampStatus 1))) ∧
    (ps.length ≠ 1 → exec (.lrPweRead ps true) s = .next (s.withChip (s.chip.lampStatus 1)) ∧
      exec (.lrPower ps true) s = .next (s.withChip (s.chip.lampStatus 1))) ∧
    (ps.length ≠ 5 → exec (.lrPweWrite ps true) s = .next (s.withChip (s.chip.lampStatus 1)))) ∧
  (∀ (s : State),
    (∀ t, exec .resetNFall s = .next t → t.chip.pwr.dyn = s.chip.pwr.dyn) ∧
    (∀ t, exec .resetNRise s = .next t → t.chip.pwr.dyn = s.chip.pwr.dyn) ∧
    (∀ cause, (s.chip.keeperReset cause).pwr.dyn = s.chip.pwr.dyn) ∧
    s.chip.darkEnter.pwr.dyn = s.chip.pwr.dyn ∧ s.chip.restored.pwr.dyn = s.chip.pwr.dyn ∧
    (∀ feed diode inlet t, s.chip.pwr.standby = false → feed < 2 → exec (.powerOn feed diode inlet) s = .next t →
      ∀ k, SMap.get t.chip.pwr.dyn k 0 = 0))

/-! ## The host's view of a VSI -/

/-- Configuration requests and emulated functions (R241, R246, R247, R251, R262, R263): the oldest whole configuration request of
an upstream port is answered from its VSI's view; a host that writes a BAR, Memory Space Enable or an FLR acts on the function
bound there; its FRS, or the time-out, ends the wait for it. Resets that a host starts, and the end of them (R257, R260, R261,
R264): a hot reset or PERST_N at an upstream port resets its VSI, a secondary bus reset acts below the bridge it is written in and
puts the VSI's policers to base, on a VSI in reset it does nothing, a VSI that is ready says so, and one whose link is up leaves
its reset. -/
def Obligations.HostViewAndVsiResets : Prop :=
  (∀ (s : State) (p v : Nat) (type0 : Bool) (reg : CfgReg) (r : Rx) (c : Chip), (s.chip.port p).up = true →
    s.chip.takeRx p (fun x => x.whole && (x.tlp.kind == .cfgRd || x.tlp.kind == .cfgWr)) = some (r, c) →
    c.vsiOfPort p = some v →
    exec (.configRequestReceived p type0 reg) s = .next (s.withChip (c.cfgView r v type0 reg))) ∧
  (∀ (s : State) (p : Nat) (type0 : Bool) (reg : CfgReg) (r : Rx) (c : Chip), (s.chip.port p).up = true →
    s.chip.takeRx p (fun x => x.whole && (x.tlp.kind == .cfgRd || x.tlp.kind == .cfgWr)) = some (r, c) →
    c.vsiOfPort p = none →
    exec (.configRequestReceived p type0 reg) s = .next (s.withChip (c.cfgAnswer r stUR 0))) ∧
  (∀ (s : State) (v vbr devfn bar value : Nat) (hi : Bool) (h : HostBind), s.chip.hostAt v vbr devfn = some h → h.flr = 0 →
    exec (.emulatedBarWrite v vbr devfn bar hi value) s = .next (s.withChip (s.chip.barWrite h bar hi value))) ∧
  (∀ (s : State) (v vbr devfn : Nat) (on : Bool) (h : HostBind), s.chip.hostAt v vbr devfn = some h → h.flr = 0 →
    exec (.emulatedMseWrite v vbr devfn on) s = .next (s.withChip (if h.mse = on then s.chip else h.bars.foldl
      (fun c b => c.syncBar { h with mse := on } b) (s.chip.putHost { h with mse := on })))) ∧
  (∀ (s : State) (v vbr devfn : Nat) (h : HostBind), s.chip.hostAt v vbr devfn = some h → h.flr = 0 →
    exec (.emulatedFlr v vbr devfn) s = .next (s.withChip ((s.chip.polReset h.v).startQuiesce h false false))) ∧
  (∀ (s : State) (v vbr devfn : Nat) (h : HostBind), s.chip.hostAt v vbr devfn = some h → h.flr = 5 ∨ h.flr = 6 →
    exec (.flrFrsReceived v vbr devfn) s = .next (s.withChip (s.chip.endFlr h true)) ∧
    (s.chip.due (.frs v vbr devfn) = true →
      exec (.flrFrsTimeout v vbr devfn) s = .next (s.withChip (s.chip.endFlr h true)))) ∧
  (∀ (s : State) (p v : Nat), (s.chip.port p).up = true → s.chip.vsiOfPort p = some v →
    exec (.hotResetReceived p) s = .next (s.withChip (s.chip.vsiReset v))) ∧
  (∀ (s : State) (site : Nat),
    exec (.upstreamPerst site false) s = .next (s.withChip
      { s.chip with pci := { s.chip.pci with perstIn := s.chip.pci.perstIn.erase site } }) ∧
    exec (.upstreamPerst site true) s = .next (s.withChip
      ((s.chip.siteUps site).foldl (fun c p => (if c.dlUp p then c.linkDown p false else c).hotReset p)
        { s.chip with pci := { s.chip.pci with perstIn := site :: s.chip.pci.perstIn.erase site } }))) ∧
  (∀ (s : State) (v : Nat), v < 64 → s.chip.vsiInReset v = false →
    exec (.sbrUpstreamBridge v) s = .next (s.withChip ((s.chip.resetBelow v false).polReset v))) ∧
  (∀ (s : State) (v i : Nat), s.chip.vsiInReset v = true →
    exec (.sbrUpstreamBridge v) s = .next s ∧ exec (.sbrVbridge v i) s = .next s) ∧
  (∀ (s : State) (v i : Nat) (b : Nat × Nat × Nat), s.chip.vsiInReset v = false → s.chip.isManager v = false →
    s.chip.vsi.ports.find? (fun b => b.1 == v && b.2.1 == i) = some b →
    exec (.sbrVbridge v i) s = .next (s.withChip (((s.chip.polReset v).emit (.hotReset b.2.2)).answerPort b.2.2))) ∧
  (∀ (s : State) (v i : Nat), s.chip.vsiInReset v = false →
    s.chip.vsi.ports.find? (fun b => b.1 == v && b.2.1 == i) = none →
    exec (.sbrVbridge v i) s = .next (s.withChip ((s.chip.vsi.hosts.filter (fun h => h.v == v && h.vbr == i)).foldl
      (fun (c : Chip) h => if 0 < h.flr then c else c.startQuiesce h false false) (s.chip.polReset v)))) ∧
  (∀ (s : State) (v : Nat), s.chip.vsiCanRun v = true → s.chip.flag (Reg.VSI_STATUS v) Bit.VSI_STATUS_READY = false →
    exec (.vsiReady v) s = .next (s.withChip ((((s.chip.vsi.ports.filter (fun b => b.1 == v)).map
        (fun b => (b.2.1, some b.2.2))) ++
      ((s.chip.vsi.hosts.filter (fun h => h.v == v && h.probe.isNone)).map (fun h => (h.vbr, h.local_)))).foldl
        (fun c i => c.showVbr v i.1 i.2) (s.chip.setBit (Reg.VSI_STATUS v) Bit.VSI_STATUS_READY) |>.sendDrs v))) ∧
  (∀ (s : State) (v p : Nat), s.chip.relaySettle.portOfVsi v = some p → s.chip.relaySettle.perstLow p = false →
    s.chip.relaySettle.dlUp p = true → s.chip.relaySettle.vsiInReset v = true →
    (∀ h ∈ s.chip.relaySettle.vsi.hosts, h.v = v → h.byReset = true → h.flr ≠ 1) →
    (∀ n ∈ s.chip.relaySettle.slicesOf v, s.chip.relaySettle.slState n = sStopped) →
    exec (.vsiLeaveReset v) s = .next (s.withChip
      (s.chip.relaySettle.clrFld (Reg.VSI_STATUS v) Bit.VSI_STATUS_IN_RESET)))

/-! ## The Relay -/

/-- Slice commands (R272 to R275): a command that the state of the slice allows changes it and answers LAST_STATUS 0 with CMD_SEQ
advanced; an ENABLE that a check stops answers its status, any other answers BAD_STATE or NOT_DRAINED, and neither changes the
state. A RESET of a slice (R275) cancels its pending interrupt, discards what it has fetched and held, puts its counts to 0 and
advances RING_GEN by 1 modulo 65,536; its binding, its rings and its interrupt registers stand. -/
def Obligations.SliceCommandsFollowTheStates : Prop :=
  (∀ (s : State) (ag : Agent) (n : Nat), s.chip.reaches ag (Reg.SLC_CTRL n) = true →
    (s.chip.openGate (Reg.SLC_CTRL n)).slState n = sStopped →
    exec (.sliceEnable ag n) s = .next (s.withChip
      (let c := s.chip.openGate (Reg.SLC_CTRL n)
       let d := if c.enableStatus n = 0 then
         (c.setFld (Reg.SLC_STATE n) Bit.SLC_STATE_STATE sActive).fillBucket (keySliceBucket n) else c
       (d.cmdDone n (c.enableStatus n)).emit (.regDone ag (Reg.SLC_CTRL n))))) ∧
  (∀ (s : State) (ag : Agent) (n : Nat), s.chip.reaches ag (Reg.SLC_CTRL n) = true →
    (s.chip.openGate (Reg.SLC_CTRL n)).slState n = sActive →
    exec (.sliceDrain ag n) s = .next (s.withChip
      ((((s.chip.openGate (Reg.SLC_CTRL n)).setFld (Reg.SLC_STATE n) Bit.SLC_STATE_STATE sDraining).cmdDone n 0).emit
        (.regDone ag (Reg.SLC_CTRL n)))) ∧
    exec (.sliceEnable ag n) s = .next (s.withChip
      (((s.chip.openGate (Reg.SLC_CTRL n)).cmdDone n 2).emit (.regDone ag (Reg.SLC_CTRL n)))) ∧
    exec (.sliceReset ag n) s = .next (s.withChip
      (((s.chip.openGate (Reg.SLC_CTRL n)).cmdDone n 1).emit (.regDone ag (Reg.SLC_CTRL n))))) ∧
  (∀ (s : State) (ag : Agent) (n : Nat), s.chip.reaches ag (Reg.SLC_CTRL n) = true →
    (s.chip.openGate (Reg.SLC_CTRL n)).slState n = sStopped →
    exec (.sliceReset ag n) s = .next (s.withChip
      ((((s.chip.openGate (Reg.SLC_CTRL n)).sliceReset n).cmdDone n 0).emit (.regDone ag (Reg.SLC_CTRL n)))) ∧
    exec (.sliceDrain ag n) s = .next (s.withChip
      (((s.chip.openGate (Reg.SLC_CTRL n)).cmdDone n 2).emit (.regDone ag (Reg.SLC_CTRL n))))) ∧
  (∀ (s : State) (ag : Agent) (n : Nat), s.chip.reaches ag (Reg.SLC_CTRL n) = true →
    (s.chip.openGate (Reg.SLC_CTRL n)).slState n = sDraining ∨ (s.chip.openGate (Reg.SLC_CTRL n)).slState n = sHalted →
    (s.chip.openGate (Reg.SLC_CTRL n)).inflight n = 0 →
    exec (.sliceReset ag n) s = .next (s.withChip
      ((((s.chip.openGate (Reg.SLC_CTRL n)).sliceReset n).cmdDone n 0).emit (.regDone ag (Reg.SLC_CTRL n))))) ∧
  (∀ (c : Chip) (n : Nat), n < 4096 →
    (c.sliceReset n).flag (Reg.INT_CTRL n) Bit.INT_CTRL_PENDING = false ∧ (c.sliceReset n).rd (Reg.SQ_SEEN n) = 0 ∧
    (c.sliceReset n).rd (Reg.SQ_FETCHED n) = 0 ∧ (c.sliceReset n).rd (Reg.CQ_WRITTEN n) = 0 ∧
    (c.sliceReset n).fld (Reg.RING_GEN n) Bit.RING_GEN_GEN = (c.fld (Reg.RING_GEN n) Bit.RING_GEN_GEN + 1) % 65536 ∧
    (∀ d ∈ (c.sliceReset n).rly.descs, d.slice ≠ n) ∧ (∀ r ∈ (c.sliceReset n).rly.held, r.slice ≠ n) ∧
    (∀ o ∈ (c.sliceReset n).rly.ops, o.slice ≠ n) ∧ (∀ p ∈ (c.sliceReset n).rly.posts, p.slice ≠ n) ∧
    (c.sliceReset n).rd (Reg.SLC_BIND n) = c.rd (Reg.SLC_BIND n) ∧ (c.sliceReset n).rd (Reg.SLC_RID n) = c.rd (Reg.SLC_RID n) ∧
    (c.sliceReset n).rd (Reg.SLC_PASID n) = c.rd (Reg.SLC_PASID n) ∧
    (c.sliceReset n).rd (Reg.SQ_BASE_LO n) = c.rd (Reg.SQ_BASE_LO n) ∧
    (c.sliceReset n).rd (Reg.CQ_BASE_LO n) = c.rd (Reg.CQ_BASE_LO n) ∧
    (c.sliceReset n).rd (Reg.RING_CFG n) = c.rd (Reg.RING_CFG n) ∧ (c.sliceReset n).rd (Reg.IB_CFG n) = c.rd (Reg.IB_CFG n) ∧
    (c.sliceReset n).rd (Reg.INT_ADDR_LO n) = c.rd (Reg.INT_ADDR_LO n) ∧
    (c.sliceReset n).rd (Reg.INT_DATA n) = c.rd (Reg.INT_DATA n))

/-- Doorbells (R280): the current generation, a size of 8 bytes, the register's offset, a running slice and a count that is ahead
and in range are taken; a repeat changes nothing; a foreign slice, a malformed doorbell, a stale one and one out of range are not
taken, and each leaves its mark. A Relay in reset holds the doorbell at its crossing (R21), and without Memory Space Enable there
is no page. -/
def Obligations.DoorbellsAreTakenOrRefused : Prop :=
  (∀ (s : State) (v n count : Nat), s.chip.relayMse v = true → s.chip.clocked 82 = true →
    s.chip.slState n = sActive ∨ s.chip.slState n = sDraining → s.chip.slVsi n = v → count < 2 ^ 32 →
    (ahead32 count (s.chip.rd (Reg.SQ_SEEN n)).toNat = true → modSub (2 ^ 32) count (s.chip.fetched n) ≤ s.chip.sqSize n →
      ∃ t, exec (.sqDb v n 0 8 count (s.chip.fld (Reg.RING_GEN n) Bit.RING_GEN_GEN)) s = .next t ∧
        (t.chip.rd (Reg.SQ_SEEN n)).toNat = count ∧ (∀ o, o ≠ Reg.SQ_SEEN n → t.chip.rd o = s.chip.rd o) ∧
        t.chip.rly = s.chip.rly ∧ t.chip.out = s.chip.out ∧ t.flash = s.flash) ∧
    (count = (s.chip.rd (Reg.SQ_SEEN n)).toNat →
      exec (.sqDb v n 0 8 count (s.chip.fld (Reg.RING_GEN n) Bit.RING_GEN_GEN)) s = .next s) ∧
    (count ≠ (s.chip.rd (Reg.SQ_SEEN n)).toNat → ¬(ahead32 count (s.chip.rd (Reg.SQ_SEEN n)).toNat = true ∧ modSub (2 ^ 32) count (s.chip.fetched n) ≤ s.chip.sqSize n) →
      exec (.sqDb v n 0 8 count (s.chip.fld (Reg.RING_GEN n) Bit.RING_GEN_GEN)) s =
        .next (s.withChip (s.chip.setBit (Reg.SLC_EVENT n) Bit.SLC_EVENT_DB_RANGE))) ∧
    (ahead32 count (s.chip.rslice n).cqRead = true → modSub (2 ^ 32) count (s.chip.rslice n).cqRead ≤ modSub (2 ^ 32) (s.chip.written n) (s.chip.rslice n).cqRead →
      ∃ t, exec (.cqDb v n 8 8 count (s.chip.fld (Reg.RING_GEN n) Bit.RING_GEN_GEN)) s = .next t ∧
        (t.chip.rslice n).cqRead = count ∧ (∀ m, m ≠ (s.chip.rslice n).slice → t.chip.rslice m = s.chip.rslice m) ∧
        t.chip.regs = s.chip.regs ∧ t.chip.out = s.chip.out ∧ t.flash = s.flash) ∧
    (count = (s.chip.rslice n).cqRead →
      exec (.cqDb v n 8 8 count (s.chip.fld (Reg.RING_GEN n) Bit.RING_GEN_GEN)) s = .next s) ∧
    (count ≠ (s.chip.rslice n).cqRead → ¬(ahead32 count (s.chip.rslice n).cqRead = true ∧ modSub (2 ^ 32) count (s.chip.rslice n).cqRead ≤ modSub (2 ^ 32) (s.chip.written n) (s.chip.rslice n).cqRead) →
      exec (.cqDb v n 8 8 count (s.chip.fld (Reg.RING_GEN n) Bit.RING_GEN_GEN)) s =
        .next (s.withChip (s.chip.setBit (Reg.SLC_EVENT n) Bit.SLC_EVENT_DB_RANGE))) ∧
    (ahead32 count (s.chip.rslice n).ibBack = true → modSub (2 ^ 32) count (s.chip.rslice n).ibBack ≤ modSub (2 ^ 32) (s.chip.rslice n).ibUsed (s.chip.rslice n).ibBack →
      ∃ t, exec (.ibDb v n 16 8 count (s.chip.fld (Reg.RING_GEN n) Bit.RING_GEN_GEN)) s = .next t ∧
        (t.chip.rslice n).ibBack = count ∧ (∀ m, m ≠ (s.chip.rslice n).slice → t.chip.rslice m = s.chip.rslice m) ∧
        t.chip.regs = s.chip.regs ∧ t.chip.out = s.chip.out ∧ t.flash = s.flash) ∧
    (count = (s.chip.rslice n).ibBack →
      exec (.ibDb v n 16 8 count (s.chip.fld (Reg.RING_GEN n) Bit.RING_GEN_GEN)) s = .next s) ∧
    (count ≠ (s.chip.rslice n).ibBack → ¬(ahead32 count (s.chip.rslice n).ibBack = true ∧ modSub (2 ^ 32) count (s.chip.rslice n).ibBack ≤ modSub (2 ^ 32) (s.chip.rslice n).ibUsed (s.chip.rslice n).ibBack) →
      exec (.ibDb v n 16 8 count (s.chip.fld (Reg.RING_GEN n) Bit.RING_GEN_GEN)) s =
        .next (s.withChip (s.chip.setBit (Reg.SLC_EVENT n) Bit.SLC_EVENT_DB_RANGE)))) ∧
  (∀ (s : State) (v n off size count gen : Nat), ∀ i ∈ [Instr.sqDb v n off size count gen, .cqDb v n off size count gen,
      .ibDb v n off size count gen], s.chip.relayMse v = true → s.chip.clocked 82 = true →
    s.chip.slState n = sUngranted ∨ s.chip.slVsi n ≠ v →
    exec i s = .next (s.withChip (s.chip.satInc Reg.RLY_EVENT Bit.RLY_EVENT_FOREIGN_DB))) ∧
  (∀ (s : State) (v n off size count gen want : Nat), ∀ i ∈ [(Instr.sqDb v n off size count gen, 0),
      (.cqDb v n off size count gen, 8), (.ibDb v n off size count gen, 16)], want = i.2 → s.chip.relayMse v = true →
    s.chip.clocked 82 = true → s.chip.slState n ≠ sUngranted → s.chip.slVsi n = v →
    (off ≠ want ∨ size ≠ 8 → exec i.1 s = .next (s.withChip (s.chip.setBit (Reg.SLC_EVENT n) Bit.SLC_EVENT_DB_BAD))) ∧
    (off = want → size = 8 → gen ≠ s.chip.fld (Reg.RING_GEN n) Bit.RING_GEN_GEN ∨
        s.chip.slState n ≠ sActive ∧ s.chip.slState n ≠ sDraining →
      exec i.1 s = .next (s.withChip (s.chip.setBit (Reg.SLC_EVENT n) Bit.SLC_EVENT_DB_STALE)))) ∧
  (∀ (s : State) (v n off size count gen : Nat), ∀ i ∈ [(Instr.sqDb v n off size count gen, 0),
      (.cqDb v n off size count gen, 8), (.ibDb v n off size count gen, 16)],
    (s.chip.relayMse v = false → exec i.1 s = .next s) ∧
    (s.chip.relayMse v = true → s.chip.clocked 82 = false →
      exec i.1 s = .next (s.withChip (s.chip.holdAccess (.vsi v) Reg.RLY_CTRL (.page n off size i.2 count gen)))))

/-- Interrupts and Bus Master Enable (R300, R305 to R308): a masked interrupt waits as PENDING, any number of them as one, and
clearing MASK puts it before the scheduler; clearing Bus Master Enable ends the descriptors it stops and those that a fetch in
flight brings, holds the records that wait, and answers a SEND that is not whole in its inbox; setting it puts the held records,
in their order, and then at most one interrupt before the scheduler; an FLR and an island reset of the Relay act on its slices. -/
def Obligations.InterruptsAndBusMasterEnable : Prop :=
  (∀ (c : Chip) (n tc : Nat), c.flag (Reg.INT_CTRL n) Bit.INT_CTRL_MASK = true →
    (c.sliceIntr n tc).flag (Reg.INT_CTRL n) Bit.INT_CTRL_PENDING = true ∧ (c.sliceIntr n tc).out = c.out ∧
    (c.sliceIntr n tc).sw = c.sw ∧ (∀ o, ((c.sliceIntr n tc).sliceIntr n tc).rd o = (c.sliceIntr n tc).rd o)) ∧
  (∀ (s : State) (ag : Agent) (n : Nat), s.chip.reaches ag (Reg.INT_CTRL n) = true →
    (s.chip.openGate (Reg.INT_CTRL n)).flag (Reg.INT_CTRL n) Bit.INT_CTRL_PENDING = true →
    (s.chip.openGate (Reg.INT_CTRL n)).bme ((s.chip.openGate (Reg.INT_CTRL n)).slVsi n) = true →
    exec (.intUnmask ag n) s = .next (s.withChip ((((((s.chip.openGate (Reg.INT_CTRL n)).setFld (Reg.INT_CTRL n)
      Bit.INT_CTRL_MASK 0).clrFld (Reg.INT_CTRL n) Bit.INT_CTRL_PENDING).addPost n (.intr (s.chip.rslice n).pendTc)).relayPump).emit
        (.regDone ag (Reg.INT_CTRL n))))) ∧
  (∀ (s : State) (ag : Agent) (n : Nat), s.chip.reaches ag (Reg.INT_CTRL n) = true →
    (s.chip.openGate (Reg.INT_CTRL n)).flag (Reg.INT_CTRL n) Bit.INT_CTRL_PENDING = false →
    exec (.intUnmask ag n) s = .next (s.withChip
      ((((s.chip.openGate (Reg.INT_CTRL n)).setFld (Reg.INT_CTRL n) Bit.INT_CTRL_MASK 0).relayPump).emit
        (.regDone ag (Reg.INT_CTRL n))))) ∧
  (∀ (s : State) (v : Nat), s.chip.bme v = true →
    exec (.relayBmeClear v) s = .next (s.withChip (((s.chip.clrFld (Reg.RF_STATUS v) Bit.RF_STATUS_BME).slicesOf v).foldl
      (fun c n =>
        let c := (c.updOps (fun o => o.slice == n && o.kind == .fetch) (fun o => { o with failed := true })).holdPosts n
        let gone := (c.slDescs n).filter (fun d => !d.keepsStatus && !d.noRecord)
        let x := gone.foldl (fun c d => (c.failDesc d 9 d.wr (d.d.dst + d.wr)).rlyCtr 14 1) c
        if gone.isEmpty then x else x.setBit (Reg.SLC_EVENT n) Bit.SLC_EVENT_BME_ABORT)
      (s.chip.clrFld (Reg.RF_STATUS v) Bit.RF_STATUS_BME)))) ∧
  (∀ (c : Chip) (n : Nat), (c.holdPosts n).postsOf n = [] ∧
    (c.postsOf n = [] → c.holdPosts n = c) ∧
    (∀ r, c.postsOf n = [⟨n, .record r⟩] → (c.holdPosts n).rly.held = c.rly.held ++ [r]) ∧
    (∀ tc, c.postsOf n = [⟨n, .intr tc⟩] → (c.holdPosts n).flag (Reg.INT_CTRL n) Bit.INT_CTRL_PENDING = true) ∧
    (∀ x, c.postsOf n = [⟨n, .inbox x⟩] → c.holdPosts n = ({ c with rly := { c.rly with
      posts := c.rly.posts.filter (fun p => p.slice != n) } } : Chip).sendReply x.from_ 0x0A)) ∧
  (∀ (s : State) (v : Nat), s.chip.bme v = true → s.chip.rly.descs = [] → s.chip.rly.ops = [] → s.chip.rly.posts = [] →
    exec (.relayBmeClear v) s = .next (s.withChip (s.chip.clrFld (Reg.RF_STATUS v) Bit.RF_STATUS_BME))) ∧
  (∀ (s : State) (v : Nat), s.chip.bme v = false →
    exec (.relayBmeSet v) s = .next (s.withChip (((s.chip.slicesOf v).foldl (fun c n => c.flushHeld n)
      (s.chip.setBit (Reg.RF_STATUS v) Bit.RF_STATUS_BME)).relayPump))) ∧
  (∀ (c : Chip) (n : Nat), ∃ posts, (c.flushHeld n).rly.posts = c.rly.posts ++
      (c.rly.held.filter (fun r => r.slice == n)).map (fun r => ⟨n, .record { r with intr := false }⟩) ++ posts ∧
    posts.length ≤ 1 ∧ (c.flushHeld n).rly.held = c.rly.held.filter (fun r => r.slice != n)) ∧
  (∀ (s : State) (v : Nat), exec (.relayFunctionFlr v) s = .next (s.withChip
    (((s.chip.dropCfg v 1 2).clrFld (Reg.RF_STATUS v) Bit.RF_STATUS_BME).relayVsiReset v))) ∧
  (∀ s : State, ∃ t, exec .relayIslandReset s = .next t ∧ t.flash = s.flash ∧ t.chip.rly.descs = [] ∧
    t.chip.rly.ops = [] ∧ t.chip.rly.held = [] ∧ t.chip.rly.cpls = [] ∧ t.chip.rly.msgs = [])

/-- Descriptors run (R282 to R299, R303, R304): they are fetched, start, issue their pieces when the scheduler serves the slice,
take their completions, and end in a record that waits for the scheduler, or is held while Bus Master Enable is 0; what waits is
written when the scheduler serves its slice; a SEND is received, answered, or runs out of time. -/
def Obligations.DescriptorsRun : Prop :=
  (∀ (s : State) (n : Nat) (c : Chip), s.chip.fetchReady n = true → s.chip.relayPump.syncSlices = c →
    c.sliceChoice = some n → (c.nextPost n).isNone = true →
    exec (.descriptorFetch n) s = .next (s.withChip
      (let addr := c.pair (Reg.SQ_BASE_LO n) (Reg.SQ_BASE_HI n) + c.fetched n % c.sqSize n * 64
       (match c.relayAccess (c.slVsi n) c.rly.nextOp (c.sliceTlp n .mrd addr (64 * c.fetchCount n) 0 (c.rly.nextOp % 1024) [] false)
         true with
       | .nowhere x => x.ringFault n haltSqFault addr
       | .denied x => x.ringFault n haltSqFault addr
       | .doubt x => x
       | .issued x uids lost =>
         if lost then x.ringFault n haltSqFault addr
         else
           (((x.addOp { id := c.rly.nextOp, slice := n, idx := c.fetched n, kind := .fetch, addr, len := 64 * c.fetchCount n
                        frames := uids.length, gen := x.fld Reg.SEC_ACTIVE_GEN Bit.SEC_ACTIVE_GEN_GEN
                        dest := ((x.portOfVsi (x.slVsi n)).map x.ownFa).getD 0 }).wr (Reg.SQ_FETCHED n)
             (BitVec.ofNat 32 (c.fetched n + c.fetchCount n))).rlyCtr 4 (c.fetchCount n)).served n
               (64 * c.fetchCount n)).relayPump))) ∧
  (∀ (s : State) (n : Nat) (d : RDesc) (c : Chip), s.chip.startable n = some d → s.chip.relayPump.syncSlices = c →
    c.sliceChoice = some n → (c.nextPost n).isNone = true →
    (c.startStatus n d.d = 0 →
      exec (.descriptorStart n) s = .next (s.withChip (c.putRdesc { d with started := true }).relayPump)) ∧
    (c.startStatus n d.d ≠ 0 → exec (.descriptorStart n) s = .next (s.withChip
      ((c.putRdesc { d with started := true }).failDesc { d with started := true } (c.startStatus n d.d) 0 0).relayPump))) ∧
  (∀ (s : State) (n idx : Nat) (d : RDesc) (c : Chip), s.chip.rdesc n idx = some d → s.chip.slIssues n = true →
    s.chip.relayPump.syncSlices = c → c.sliceChoice = some n → (c.nextPost n).isNone = true →
    (s.chip.readReady d = true →
      exec (.pieceIssue n idx false) s = .next (s.withChip (c.issueRead d).relayPump)) ∧
    (s.chip.writeReady d = true →
      exec (.pieceIssue n idx true) s = .next (s.withChip
        (let r := (c.staleReads d (c.nextWrite d).1 (c.nextWrite d).2.2).foldl
           (fun (a : Chip × Bool) o => if a.2 then a.1.revalidate d o else a) (c, true)
         (if r.2 = false then r.1 else if d.d.opcode = 5 then r.1.issueSend d else r.1.issueWrite d).relayPump)))) ∧
  (∀ (c : Chip) (p : RPost), c.rly.posts = [p] → c.syncSlices.sliceChoice = some p.slice →
    c.syncSlices.mayPost p.slice = true → c.relayPump = (c.syncSlices.issuePost p).pumpPosts 33) ∧
  (∀ c : Chip, c.rly.posts = [] → c.relayPump = c) ∧
  (∀ (s : State) (id : Nat) (t : Tlp) (ends : Bool) (rest : List (Nat × Tlp × Bool)) (o : ROp),
    s.chip.clocked 82 = true → s.chip.rly.cpls = (id, t, ends) :: rest →
    s.chip.rly.ops.find? (fun o => o.id == id && (o.kind == .fetch || o.kind == .read)) = some o → o.slice ≠ dbgSlice →
    exec .relayReadCompletion s = .next (s.withChip
      ((({ s.chip with rly := { s.chip.rly with cpls := rest } } : Chip).opCompletion o t ends).relaySettle))) ∧
  (∀ (s : State) (n idx : Nat) (d : RDesc), s.chip.rdesc n idx = some d → s.chip.descFinished d = true →
    s.chip.inModFog = false → s.chip.slState n = sActive ∨ s.chip.slState n = sDraining →
    ∃ c : Chip, exec (.descriptorComplete n idx) s = .next (s.withChip c.relayPump) ∧ c.rdesc n idx = none ∧
      (∀ o ∈ c.rly.ops, ¬(o.slice = n ∧ o.idx = idx)) ∧ c.out = s.chip.out ∧ c.sw = s.chip.sw ∧
      (s.chip.bme (s.chip.slVsi n) = false → c.rly.held = s.chip.rly.held ++ [s.chip.recordOf d] ∧
        c.rly.posts = s.chip.rly.posts) ∧
      (s.chip.bme (s.chip.slVsi n) = true → c.rly.held = s.chip.rly.held ∧
        c.rly.posts = s.chip.rly.posts ++ [⟨n, .record (s.chip.recordOf d)⟩])) ∧
  (∀ (s : State) (srcFa port tc : Nat) (x : Tlp) (m : RelayMsg) (c : Chip),
    s.chip.takeRmsg false = some ((srcFa, port, tc, x), m, c) →
    exec .sendReceived s = .next (s.withChip (
      match c.inboxTake { srcFa, port, tc, msg := m } x.data x.poison with
      | (d, some status) => d.sendReply { srcFa, port, tc, msg := m } status
      | (d, none) => d.relayPump))) ∧
  (∀ (s : State) (x : Nat × Nat × Nat × Tlp) (m : RelayMsg) (c : Chip), s.chip.takeRmsg true = some (x, m, c) →
    (∀ o, c.rly.ops.find? (fun o => o.kind == .send && o.slice == m.srcSlice && o.idx % c.sqSize o.slice == m.ref &&
        o.dest == x.1) = some o →
      exec .sendReplyReceived s = .next (s.withChip ((c.endSend o m.status).relaySettle))) ∧
    (c.rly.ops.find? (fun o => o.kind == .send && o.slice == m.srcSlice && o.idx % c.sqSize o.slice == m.ref &&
        o.dest == x.1) = none →
      exec .sendReplyReceived s = .next (s.withChip (c.satInc Reg.RLY_EVENT Bit.RLY_EVENT_LATE_REPLY)))) ∧
  (∀ (s : State) (id : Nat) (o : ROp), s.chip.due (.send id) = true →
    s.chip.rly.ops.find? (fun o => o.id == id && o.kind == .send) = some o →
    exec (.sendTimeout id) s = .next (s.withChip (((s.chip.endSend o 0x0E).rlyCtr 17 1).relaySettle)))

/-! ## Ticks of the schedulers and the islands -/

/-- The ticks of the buckets and the policers (R320, R323), and the stations (R107, R417, R418): a tick refills
every bucket and raises every policer that has been quiet; a station reset takes its station down, and the station
starts again from the Light List; the accesses that waited for it complete (R21). -/
def Obligations.TicksAndStationResets : Prop :=
  (∀ s : State, exec .bucketRefill s = .next (s.withChip (
      let c := ((s.chip.rly.slices.map (·.slice)).filter (fun x => !s.chip.sliceOpen x && (s.chip.nextAccess x).isSome)).foldl
        (fun (c : Chip) x => c.slCtr x 7 32) s.chip
      let ports := (c.sw.obq.map (·.port)).dedup
      let c := ports.foldl Chip.syncPort c
      let c : Chip := { c with sw := { c.sw with oldRate := [] } }
      let c := (c.sw.tokens.map (·.1)).foldl (fun (c : Chip) k => c.refill k (c.bucketRate k).1 (c.bucketRate k).2) c
      (ports.foldl Chip.syncPort c).syncSlices.relayPump))) ∧
  (∀ (c : Chip) (k rate burst : Nat),
    (c.refill k rate burst).tokensOf k burst = min (c.tokensOf k burst + (rate * 32 : Nat)) (burst * 256000 : Nat)) ∧
  (∀ s : State, exec .policerRecover s = .next (s.withChip (
      let c := ((List.range 512).filter (fun i =>
        (s.chip.rd (Reg.POL_EFF (i / 8) (i % 8))).toNat != 0 && s.chip.quietFor (keyPol (i / 8) (i % 8)))).foldl
        (fun (c : Chip) i => c.setPolEff (i / 8) (i % 8)
          (increased (c.polEff (i / 8) (i % 8)) (c.polBase (i / 8) (i % 8)) c.incShift)) s.chip
      ((s.chip.rly.slices.map (·.slice)).filter (fun x =>
        (s.chip.rd (Reg.SLICE_PACE x)).toNat != 0 && s.chip.quietFor (keySliceBucket x))).foldl
        (fun (c : Chip) x => c.setSlicePace x (increased (c.slicePace x) (c.sliceBase x) c.incShift)) c))) ∧
  (∀ (s : State) (ag : Agent) (st : Nat), s.chip.reaches ag Reg.STN_RESET = true → st < 16 →
    exec (.stnReset ag (2 ^ st)) s = .next (s.withChip ((s.chip.stationReset st).emit (.regDone ag Reg.STN_RESET)))) ∧
  (∀ (s : State) (st : Nat) (l : LightList), s.chip.ll = some l → s.chip.keeperRuns = true →
    s.chip.clocked (64 + st) = true →
    (s.chip.fldBit Reg.STN_RESET Bit.STN_RESET_BUSY st = true ∧ s.chip.due (.stnReset st) = true) ∨
      s.chip.pwr.starting.contains st = true →
    exec (.stationStarted st) s = .next (s.withChip (s.chip.startStation l st)).serveHeld) ∧
  (∀ (s : State) (st : Nat) (l : LightList), s.chip.ll = some l → s.chip.keeperRuns = false →
    s.chip.clocked (64 + st) = true → s.chip.heldAcc.all s.chip.stillHeld = true →
    s.chip.fldBit Reg.STN_RESET Bit.STN_RESET_BUSY st = true → s.chip.due (.stnReset st) = true →
    ∃ t, exec (.stationStarted st) s = .next t ∧ t.chip.pwr.stnWait = st :: s.chip.pwr.stnWait.erase st ∧
      t.chip.regs = s.chip.regs ∧ t.chip.out = s.chip.out ∧ t.flash = s.flash) ∧
  (∀ (s : State) (l : LightList), s.chip.ll = some l → s.chip.keeperRuns = true →
    exec .stationResetResume s = .next (s.withChip ((s.chip.pwr.stnWait.filter (fun n => s.chip.clocked (64 + n))).foldl
      (fun c n => c.startStation l n) s.chip)).serveHeld) ∧
  (∀ (s : State) (h : HeldAccess), s.chip.heldAcc = [h] → s.chip.stillHeld h = false →
    s.serveHeld = (s.withChip { s.chip with heldAcc := [] }).serveOne h)

/-! ## The Fog and its causes -/

/-- Commands of the Fog (R350, R351, R357, R358, R366, R480): FOG_CMD puts an existing port or the module into Fog and ends a
port's Fog unless the module is in Fog or a trigger meets it; FOG_RELEASE with 0xC3 in module Fog requests a Keeper reset; an
injection is set, in the place of one that is pending, when SAF_CTRL is not locked. In module Fog a further cause of module Fog is
only logged, and a cause for a port in Fog too (R356). -/
def Obligations.FogCommandsComplete : Prop :=
  (∀ (s : State) (ag : Agent) (p : Nat), s.chip.reaches ag Reg.FOG_CMD = true →
    ((s.chip.port p).present = true → exec (.fogCmdPortFog ag p) s =
      .next (s.withChip ((s.chip.portFog p fogSoftware).emit (.regDone ag Reg.FOG_CMD)))) ∧
    (s.chip.inModFog = false → exec (.fogCmdClear ag p false) s =
      .next (s.withChip ((s.chip.endPortFog p).emit (.regDone ag Reg.FOG_CMD)))) ∧
    (∀ trigger, s.chip.inModFog = true ∨ trigger = true → exec (.fogCmdClear ag p trigger) s =
      .next (s.withChip ((s.chip.setBit Reg.SAF_EVENT Bit.SAF_EVENT_FOG_CMD_REFUSED).emit (.regDone ag Reg.FOG_CMD)))) ∧
    exec (.fogCmdModuleFog ag) s =
      .next (s.withChip ((s.chip.moduleFog fogSoftware 0).emit (.regDone ag Reg.FOG_CMD)))) ∧
  (∀ s : State, s.chip.lampAnswers = true → s.chip.inModFog = true → s.chip.keeperRuns = true → s.chip.pwrState ≠ 2 →
    exec (.fogRelease [0xC3] true) s = .next (s.withChip
      (((({ s.chip with kpr := { s.chip.kpr with fogRelease := true } } : Chip).keeperReset 3)).lampStatus 0))) ∧
  (∀ s : State, s.chip.lampAnswers = true → s.chip.inModFog = false →
    exec (.fogRelease [0xC3] true) s = .next (s.withChip (s.chip.lampStatus 2))) ∧
  (∀ s : State, s.chip.lampAnswers = true →
    exec (.fogRelease [] true) s = .next (s.withChip (s.chip.lampStatus 1)) ∧
    exec (.fogRelease [0xC3] false) s = .next (s.withChip (s.chip.lampStatus 4))) ∧
  (∀ (s : State) (ag : Agent) (cls p : Nat), s.chip.reaches ag Reg.INJECT = true →
    s.chip.flag Reg.SAF_CTRL Bit.SAF_CTRL_LOCK = false → 1 ≤ cls → cls ≤ 8 → cls ≠ 7 → p < 128 →
    exec (.injectGo ag cls p) s = .next (s.withChip
      ((({ (s.chip.setFld Reg.INJECT Bit.INJECT_CLASS cls).setFld Reg.INJECT Bit.INJECT_PORT p with
          saf := { s.chip.saf with inject := some (cls, p) } } : Chip).log .injected [cls, p]).emit (.regDone ag Reg.INJECT)))) ∧
  (∀ (s : State) (ag : Agent) (p : Nat), s.chip.reaches ag Reg.INJECT = true →
    s.chip.flag Reg.SAF_CTRL Bit.SAF_CTRL_LOCK = false → p < 128 →
    exec (.injectGo ag 7 p) s = .next (s.withChip
      (({ (s.chip.setFld Reg.INJECT Bit.INJECT_CLASS 7).setFld Reg.INJECT Bit.INJECT_PORT p with
          saf := { s.chip.saf with inject := none } } : Chip).lockstep.emit (.regDone ag Reg.INJECT)))) ∧
  (∀ (s : State) (ag : Agent) (cls p : Nat), s.chip.reaches ag Reg.INJECT = true →
    s.chip.flag Reg.SAF_CTRL Bit.SAF_CTRL_LOCK = false → cls = 0 ∨ 9 ≤ cls → cls < 16 → p < 128 →
    exec (.injectGo ag cls p) s = .next (s.withChip
      (({ (s.chip.setFld Reg.INJECT Bit.INJECT_CLASS cls).setFld Reg.INJECT Bit.INJECT_PORT p with
          saf := { s.chip.saf with inject := none } } : Chip).emit (.regDone ag Reg.INJECT)))) ∧
  (∀ (s : State) (ag : Agent) (cls p : Nat), s.chip.reaches ag Reg.INJECT = true →
    s.chip.flag Reg.SAF_CTRL Bit.SAF_CTRL_LOCK = true →
    exec (.injectGo ag cls p) s = .next (s.withChip ((s.chip.log .rwlIgnored [Reg.INJECT, ag.num]
      [(injectWord cls p).toNat]).emit (.regDone ag Reg.INJECT)))) ∧
  (∀ (c : Chip) (p cause index : Nat),
    (c.inModFog = true → (c.moduleFog cause index).rd Reg.MOD_FOG_CAUSE = c.rd Reg.MOD_FOG_CAUSE ∧
      (c.moduleFog cause index).inModFog = true ∧ (c.moduleFog cause index).out = c.out ∧
      (c.moduleFog cause index).sw = c.sw ∧ (c.moduleFog cause index).mor = c.mor ∧ (c.moduleFog cause index).pci = c.pci ∧
      (∀ o, o ≠ Reg.LOG_SEQ → o ≠ Reg.LOG_STATUS → o ≠ Reg.LOG_EVENT → (c.moduleFog cause index).rd o = c.rd o)) ∧
    (c.inPortFog p = true → (c.portFog p cause).out = c.out ∧ (c.portFog p cause).pci = c.pci ∧
      (∀ o, o ≠ Reg.LOG_SEQ → o ≠ Reg.LOG_STATUS → o ≠ Reg.LOG_EVENT → (c.portFog p cause).rd o = c.rd o)))

/-- Checks and monitors (R338, R343, R344, R354, R359 to R364, R531): debug accesses are decided by both copies of the sectors,
lockstep and clock loss end in their Fog, a background comparison finds what differs, a scrub treats the errors that stand and
repairs what differs, and the power and temperature monitors raise their causes. -/
def Obligations.MonitorsAct : Prop :=
  (∀ (s : State) (kind target addr len : Nat) (write : Bool) (data : List Byte) (a : Access),
    a = { kind, target, addr, read := !write, write, vsi := 0 } → s.chip.busRuns .keeper = true →
    s.chip.kpr.dbgResult ≠ 2 → 1 ≤ len → addr % 8 + len ≤ 8 → (s.chip.dbgHits false a).length ≤ 1 →
    s.chip.dbgHits true a = s.chip.dbgHits false a →
    exec (.dbgAccess kind target addr len write data) s = .next (s.withChip
      (if dbgAllowed s.chip.dbgUnlocked write (s.chip.dbgHits false a) then s.chip.dbgIssue a len data
       else s.chip.dbgDeny a ((s.chip.dbgHits false a).map (·.idx)) true))) ∧
  (∀ s : State, s.chip.pwr.pgood = true → s.chip.pwr.resetLow = false → s.chip.clocked 88 = true → s.chip.kpr.halted = false →
    exec .lockstepMismatch s = .next (s.withChip
      (((s.chip.keeperReset 2).setBit Reg.SAF_EVENT Bit.SAF_EVENT_LOCKSTEP).moduleFog fogLockstep 88))) ∧
  (∀ s : State, s.chip.busRuns .keeper = true →
    (s.chip.secDiff = [] → exec (.sectorBackgroundCompare []) s = .next s) ∧
    (∀ o rest, s.chip.secDiff = o :: rest → exec (.sectorBackgroundCompare []) s = .next (s.withChip
      (((s.chip.setBit Reg.SEC_EVENT Bit.SEC_EVENT_COPY_MISMATCH).log .sectorMismatch [o]).moduleFog fogSectorCopy
        (sectorNo o))))) ∧
  (∀ (s : State) (t : Nat), s.chip.busRuns .keeper = true → s.chip.keeperRuns = true →
    exec (.scrubPass [] t) s = .next (s.withChip (
      let c := s.chip.latent.foldl Chip.scrubOne s.chip
      let c := if c.keeperRuns = true then (c.tabDiff (fun o => !isSectorOff o)).foldl Chip.repair c else c
      ((c.satInc Reg.SCRUB_STATUS Bit.SCRUB_STATUS_PASSES).setFld Reg.SCRUB_STATUS Bit.SCRUB_STATUS_LAST_MS
        (min t 10)).relaySettle)) ∧
    ((∀ e ∈ s.chip.pci.ort, e.ecc = 0) → (∀ x ∈ s.chip.mor.streams, x.ecc = 0) → (∀ x ∈ s.chip.mor.ctxs, x.ecc = 0) →
      s.chip.latent = [])) ∧
  (∀ (s : State) (i : Nat), s.chip.busRuns .keeper = true →
    (i < 64 → exec (.clockLost i) s = .next (s.withChip (s.chip.pllLost i).relaySettle)) ∧
    (64 ≤ i → i ≤ 88 → s.chip.keeperRuns = true ∨ i = 88 → exec (.clockLost i) s = .next (s.withChip (
      let c := (((s.chip.setBit Reg.SAF_EVENT Bit.SAF_EVENT_CLOCK_LOSS).monBit i).setBit Reg.CLK_EVENT
        Bit.CLK_EVENT_FORCED_SWITCH).gateLog i true
      let c := (((c.abortHeld (fun off => clockIsland off == some i)).abortBars i).log .clockLost [i]).clockAct i
      let c : Chip := if c.sourceRuns i then c else { c with pwr := { c.pwr with lost := i :: c.pwr.lost.erase i } }
      c.relaySettle)))) ∧
  (∀ (s u : State), s.chip.pwr.standby = true → u = (s.withChip ((((s.chip.setBit Reg.SAF_EVENT
      Bit.SAF_EVENT_POWER_DOUBT).setBit Reg.SAF_STATUS Bit.SAF_STATUS_POWER_DOUBT).log .powerDoubt []).moduleFog fogPowerDoubt 0)) →
    (s.chip.pwrState ≠ 2 → exec .powerDoubt s = .next ((u.keepWrite keepDoubt).withChip
      (((u.keepWrite keepDoubt).chip.tripLoad tripDoubt 0 s.chip.railMa).latchOff tripDoubt))) ∧
    (s.chip.pwrState = 2 → exec .powerDoubt s = .next (u.withChip ((u.chip.tripLoad tripDoubt 0 s.chip.railMa).latchOff tripDoubt)))) ∧
  (∀ s : State, s.chip.pwr.standby = true → s.chip.feedsLow = true → s.chip.pwrState ≠ 2 →
    exec .feedLoss s = .next ((s.withChip ((s.chip.log .feedLoss []).moduleFog fogFeedLoss 0)).keepWrite keepFeedLoss)) ∧
  (∀ s : State, s.chip.pwr.standby = true →
    exec (.comparatorSelftest []) s = .next (s.withChip
      { s.chip with saf := { s.chip.saf with standing := s.chip.saf.standing.erase fogSelftest } }) ∧
    exec (.comparatorSelftest [3]) s = .next (s.withChip (((s.chip.setBit Reg.SAF_EVENT
      Bit.SAF_EVENT_SELFTEST_FAIL).log .selftestFail [3]).moduleFog fogSelftest 3)) ∧
    (∀ k t, k < 3 → exec .powerDoubt s = .next t → exec (.comparatorSelftest [k]) s = .next (t.withChip
      { t.chip with saf := { t.chip.saf with standing := t.chip.saf.standing.erase fogSelftest } })) ∧
    (∀ k t u, k < 3 → exec .powerDoubt s = .next t → exec (.comparatorSelftest [3]) t = .next u →
      exec (.comparatorSelftest [k, 3]) s = .next u)) ∧
  (∀ s : State, s.chip.pwr.standby = true → s.chip.saf.keeperPull = true ∨ s.chip.saf.lampPull = true →
    exec .fogNStuck s = .next (s.withChip ((((({ s.chip with
      saf := { s.chip.saf with pinHigh := true, pinOutside := false } } : Chip).setBit Reg.SAF_STATUS
      Bit.SAF_STATUS_FOG_N_SENSE).setBit Reg.SAF_EVENT Bit.SAF_EVENT_FOG_N_STUCK).log .fogNStuck []).moduleFog
        Sys2Proof.Machine.fogNStuck 0))) ∧
  (∀ (s : State) (j inlet a b : Int) (w : Nat), s.chip.keeperRuns = true → s.chip.pwrState ≠ 2 → 10500 < j → j ≤ 12500 →
    exec (.thermalSample j inlet a b w) s = .next (s.withChip
      (let c := (((s.chip.sample 0 j).sample 1 inlet).sample 2 a).sample 3 b
       ((((c.sample 4 w).sample 6 (c.dieGran * 10000 / 1048576 : Nat)).sample 7 c.ortPct)).log .thermWarn [0] [j.toNat]))) ∧
  (∀ (s : State) (j : Int), s.chip.keeperRuns = true → s.chip.pwrState ≠ 2 → 10500 < j → j ≤ 12500 →
    exec (.thermalFog j) s = .next (s.withChip ((List.range 16).foldl (fun c n => c.oppStart n 2)
      (((({ s.chip with saf := { s.chip.saf with standing := fogThermal :: s.chip.saf.standing.erase fogThermal } } :
        Chip).setBit Reg.SAF_EVENT Bit.SAF_EVENT_THERMAL).log .thermal [j.toNat]).moduleFog fogThermal 0))))

/-! ## The boot of the Keeper, SPDM and debug -/

/-- The boot (R372 to R378, R409 to R411): the Keeper boots from the record in force or its other copy, and recovers when no image
or Light List serves; a boot that FOG_RELEASE asked for tests the comparators; islands that have not started are logged and hold
BOOT; when every condition of R411 holds, BOOT ends. -/
def Obligations.BootStartsTheModule : Prop :=
  (∀ (s : State) (o : BootOutcome), s.chip.mayBoot = true → o.lockOk = false →
    exec (.keeperBoot o) s = .next (s.withChip
      (let c := (({ s.chip with kpr := { s.chip.kpr with fogRelease := false } } : Chip).setBit Reg.SAF_EVENT
         Bit.SAF_EVENT_LOCKSTEP).moduleFog fogLockstep 88
       if s.chip.kpr.fogRelease = true ∧ s.chip.inModFog = true ∧ s.chip.bootFog = false then
         c.setFld Reg.MOD_FOG_CAUSE Bit.MOD_FOG_CAUSE_CAUSE fogLockstep
       else c))) ∧
  (∀ (s : State) (o : BootOutcome) (c : Chip), s.chip.mayBoot = true → o.lockOk = true →
    c = s.chip.syncFuses.setFld Reg.KPR_STATUS Bit.KPR_STATUS_NO_RECORD (b2n (commitNow s.flash).isNone) →
    exec (.keeperBoot o) s = .next (match s.bootSlot with
      | none => s.withChip
          (({ c with kpr := { c.kpr with fwKey := 2 } } : Chip).setBit Reg.KPR_STATUS Bit.KPR_STATUS_FALLBACK).recover
      | some (slot, fell) => match s.bootLl with
        | none => s.withChip ((c.takeFw s.flash slot fell).setBit Reg.KPR_STATUS Bit.KPR_STATUS_LL_FALLBACK).recover
        | some (ll, llFell) =>
          let t := (s.withChip
            ((((c.takeFw s.flash slot fell).setFld Reg.KPR_STATUS Bit.KPR_STATUS_LL_SLOT ll).setFld Reg.KPR_STATUS
              Bit.KPR_STATUS_LL_FALLBACK (b2n llFell)).bootRun (lightListOf s.flash ll) o)).keepRecover
          if s.chip.kpr.fogRelease = true ∧ s.chip.inModFog = true then t.selftest o.cmpFail else t)) ∧
  (∀ s : State, s.chip.due .islandStart = true →
    (islandsToStart.all s.chip.islandUp = true →
      exec .islandStartTimeout s = .next (s.withChip (s.chip.disarm .islandStart))) ∧
    (islandsToStart.all s.chip.islandUp = false →
      exec .islandStartTimeout s = .next (s.withChip ((islandsToStart.filter (fun i => !s.chip.islandUp i)).foldl
        (fun c i => c.log .startFail [i])
        { s.chip.disarm .islandStart with pwr := { s.chip.pwr with startFail := true } })))) ∧
  (∀ s : State, s.chip.bootEnds = true → exec .bootEnd s = .next (s.withChip ((List.range 64).foldl (fun c v => c.sendDrs v)
    ((s.chip.endModuleFog.setBit Reg.START_STATUS Bit.START_STATUS_BOOT_DONE).disarm .islandStart))))

/-- SPDM and debug (R389 to R394, R483): a ninth session answers busy and any other request is answered in the order of SPDM; a
nonce is fresh, an unlock with an accepted token opens what it names for its lifetime and any other is refused; the unlock ends by
lock or by time; a halt of the Keeper puts the module into Fog; EXTEST shifts the pins under RESET_N. -/
def Obligations.SpdmAndDebugComplete : Prop :=
  (∀ (s : State) (via who : Nat) (r : SpdmReq), s.chip.keeperServes = true →
    via < 2 ∧ s.chip.pwr.addrSel.isSome = true ∨
      2 ≤ via ∧ (s.chip.port (via - 2)).up = true ∧ s.chip.dlUp (via - 2) = true →
    (s.chip.spdmStage who ≠ 0 ∨ s.chip.kpr.spdm.length < 8 → exec (.spdmRequest via who r) s = .next
      ((s.spdmAnswer via who r).1.withChip ((s.spdmAnswer via who r).1.chip.emit (.spdm via who (s.spdmAnswer via who r).2)))) ∧
    (s.chip.spdmStage who = 0 → 8 ≤ s.chip.kpr.spdm.length →
      exec (.spdmRequest via who r) s = .next (s.withChip (s.chip.emit (.spdm via who .busy))))) ∧
  (∀ (s : State) (via who : Nat),
    s.spdmAnswer via who .getVersion = (s.withChip (s.chip.setSpdm who 1), .version 1 3) ∧
    (s.chip.spdmStage who = 1 →
      s.spdmAnswer via who .getCapabilities = (s.withChip (s.chip.setSpdm who 2), .capabilities (spdmCaps via))) ∧
    (spdmCaps via).cert = true ∧ (spdmCaps via).chal = true ∧ (spdmCaps via).measure = true ∧ (spdmCaps via).chunk = true ∧
    ((spdmCaps via).setCert = true ↔ via = 0) ∧ (spdmCaps via).session = false ∧ (spdmCaps via).psk = false ∧
    (spdmCaps via).mutAuth = false ∧ (spdmCaps via).csr = false ∧
    (s.chip.spdmStage who = 2 →
      s.spdmAnswer via who (.negotiateAlgorithms true) = (s.withChip (s.chip.setSpdm who 3), .algorithms spdmAlgs) ∧
      s.spdmAnswer via who (.negotiateAlgorithms false) = (s, .unexpected)) ∧
    (s.chip.spdmStage who ≠ 3 → s.spdmAnswer via who .getDigests = (s, .unexpected) ∧
      ∀ i sign, 1 ≤ i → i ≤ 6 → s.spdmAnswer via who (.getMeasurements i sign) = (s, .unexpected)) ∧
    (s.chip.spdmStage who = 3 → ∀ i, 1 ≤ i → i ≤ 6 →
      s.spdmAnswer via who (.getMeasurements i false) = (s, .measurements [(i, s.chip.measurement i)] []) ∧
      s.spdmAnswer via who (.getMeasurements i true) =
        (s.withChip s.chip.drew, .measurements [(i, s.chip.measurement i)] s.chip.sigField) ∧
      s.chip.sigField.length = 1462) ∧
    (s.chip.spdmStage who = 3 → ∀ chain : List Byte, 0 < chain.length → chain.length ≤ 32768 →
      s.spdmAnswer 0 who (.setCertificate 1 chain) =
        if Config.leafKey chain = Config.identityKey s.chip.kpr.idSeed then
          ({ s with flash := Flash.program (Flash.erase s.flash certSlot1 32768) certSlot1 chain }, .setCertificate)
        else (s, .refused)) ∧
    (s.chip.spdmStage who = 3 → ∀ (slot : Nat) (chain : List Byte), slot ≠ 1 ∨ chain.length = 0 ∨ 32768 < chain.length →
      s.spdmAnswer 0 who (.setCertificate slot chain) = (s, .refused)) ∧
    (via ≠ 0 → ∀ slot chain, s.spdmAnswer via who (.setCertificate slot chain) = (s, .refused))) ∧
  (∀ s : State, s.chip.keeperServes = true → s.chip.kpr.nonceAfter ≤ s.chip.now →
    ∃ t, exec .dbgNonce s = .next t ∧ t.chip.kpr.nonce = some (s.chip.freeVal % 2 ^ 256, s.chip.now + 60 * sec) ∧
      t.chip.out = .debugReply (leBytes 32 (s.chip.freeVal % 2 ^ 256)) :: s.chip.out ∧
      t.chip.freeCtr = s.chip.freeCtr + 1 ∧ t.chip.regs = s.chip.regs ∧ t.flash = s.flash) ∧
  (∀ (s : State) (tok : List Byte), s.chip.keeperServes = true →
    ∃ t, exec (.dbgUnlock tok) s = .next t ∧ t.chip.kpr.nonce = none ∧ t.flash = s.flash ∧
      if s.chip.tokenAccepted tok then
        t.chip.armed .unlock = true ∧ t.chip.fld Reg.DBG_STATUS Bit.DBG_STATUS_DEBUG_MASTER = leNat tok 100 1 % 2 ∧
          t.chip.fld Reg.DBG_STATUS Bit.DBG_STATUS_KEEPER_DEBUG = leNat tok 100 1 / 2 % 2 ∧
          t.chip.kpr.unlockEnd = s.chip.now + leNat tok 102 2 * 60 * sec
      else t.chip.flag Reg.KPR_EVENT Bit.KPR_EVENT_UNLOCK_REFUSED = true ∧ t.chip.kpr.nonceAfter = s.chip.now + sec ∧
        t.chip.rd Reg.DBG_STATUS = s.chip.rd Reg.DBG_STATUS) ∧
  (∀ s : State,
    (s.chip.unlocked = true → ∃ t, exec .dbgLock s = .next t ∧ t.chip.rd Reg.DBG_STATUS = 0 ∧ t.chip.unlocked = false ∧
      t.chip.kpr.halted = false ∧ t.flash = s.flash) ∧
    (s.chip.due .unlock = true → ∃ t, exec .unlockLifetimeExpiry s = .next t ∧ t.chip.rd Reg.DBG_STATUS = 0 ∧
      t.chip.unlocked = false ∧ t.chip.kpr.halted = false ∧ t.flash = s.flash)) ∧
  (∀ (s : State) (halt : Bool), s.chip.busRuns .keeper = true → s.chip.flag Reg.DBG_STATUS Bit.DBG_STATUS_KEEPER_DEBUG = true →
    exec (.keeperDebug halt) s = .next (s.withChip (
      let c := if s.chip.inModFog then s.chip else s.chip.moduleFog fogSoftware 0
      ({ c with kpr := { c.kpr with halted := halt } } : Chip).log .keeperDebug [b2n halt]))) ∧
  (∀ (s : State) (bits : List Nat),
    (s.chip.pwr.resetLow = true → exec (.extest bits) s = .next (s.withChip (s.chip.emit (.scan bits)))) ∧
    (s.chip.pwr.resetLow = false → s.chip.pwr.standby = true →
      exec (.extest bits) s = .next (s.withChip (s.chip.log .extest []))))

/-! ## Power entry -/

/-- The hot-swap controller (R405, R451 to R460): a ramp starts under its conditions, ends with the gate or runs out of time, and
a load that passes a point of the curve, the short-circuit limit, the thermal limit or the rail limit opens the FET as a trip; a
retry starts after its delay, the count decays in service, PWE_LATCH clears what latched, and PWE_APPLY puts a legal curve into
force. -/
def Obligations.HotSwapControllerActs : Prop :=
  (∀ s : State, s.chip.mayRamp = true →
    ∃ t, exec .rampStart s = .next t ∧ t.chip.pweOn = true ∧ t.chip.flag Reg.PWE_STATUS Bit.PWE_STATUS_RAMPING = true ∧
      t.chip.armed .ramp = true ∧ t.chip.out = .pin .hotSwapFet true :: s.chip.out ∧
      (∀ o, o ≠ Reg.PWE_STATUS → o ≠ Reg.FET_TEMP → t.chip.rd o = s.chip.rd o) ∧ t.flash = s.flash) ∧
  (∀ s : State, s.chip.flag Reg.PWE_STATUS Bit.PWE_STATUS_RAMPING = true →
    ∃ t, exec .gateFullyEnhanced s = .next t ∧ t.chip.flag Reg.PWE_STATUS Bit.PWE_STATUS_RAMPING = false ∧
      t.chip.flag Reg.PWE_STATUS Bit.PWE_STATUS_GATE_FULL = true ∧ t.chip.pwr = { s.chip.pwr with
        pgood := true
        lost := if s.chip.pwr.resetLow then s.chip.pwr.lost
          else s.chip.pwr.lost.filter (fun i => i == islLamp || !s.chip.sourceRuns i) } ∧
      t.chip.out = .pin .pgood true :: .pin .regulators true :: s.chip.out ∧
      (∀ o, o ≠ Reg.PWE_STATUS → t.chip.rd o = s.chip.rd o) ∧ t.flash = s.flash) ∧
  (∀ s : State, s.chip.due .ramp = true → s.chip.flag Reg.PWE_STATUS Bit.PWE_STATUS_RAMPING = true →
    exec .rampTimeout s = .next (s.withChip (s.chip.pweTrip tripRampTmo 0 s.chip.railMa))) ∧
  (∀ (s : State) (k ma t : Nat), k < 8 → s.chip.flag Reg.PWE_STATUS Bit.PWE_STATUS_GATE_FULL = true →
    s.chip.pweF (Reg.CURVE_I k) Bit.CURVE_I_MA < ma → s.chip.pweF (Reg.CURVE_T k) Bit.CURVE_T_US ≤ t →
    exec (.curveTrip k ma t) s = .next (s.withChip (s.chip.pweTrip tripCurve k ma))) ∧
  (∀ (s : State) (ma : Nat), 40000 < ma → s.chip.pweOn = true →
    exec (.shortTrip ma) s = .next (s.withChip (s.chip.pweTrip tripShort 0 ma))) ∧
  (∀ (s : State) (m : PweMeas), s.chip.pwr.standby = true → exec (.soaModelUpdate m) s = .next (s.withChip (
      let c := (s.chip.takeMeas m).modelStep m
      if c.pweOn = true ∧ (c.pweF Reg.THERM_CFG Bit.THERM_CFG_T_TRIP * 100 : Nat) ≤ c.tGov then c.pweTrip tripSoa 0 m.ids else c))) ∧
  (∀ (s : State) (mv ma : Nat), s.chip.pwr.standby = true → 63000 < mv → mv ≤ 75000 →
    exec (.ovTrip mv ma) s = .next (s.withChip (
      let c : Chip := { s.chip.setBit Reg.PWE_EVENT Bit.PWE_EVENT_OV with pwr := { s.chip.pwr with ovHold := true } }
      if s.chip.pweOn then (c.tripLoad tripOv 0 ma).raiseIbi 1 [tripOv] else c))) ∧
  (∀ s : State, ∃ t, exec .ovRecover s = .next t ∧ t.chip.pwr = { s.chip.pwr with ovHold := false } ∧
    t.chip.regs = s.chip.regs ∧ t.chip.out = s.chip.out ∧ t.flash = s.flash) ∧
  (∀ s : State, s.chip.due .retryDelay = true →
    exec .retryDelayExpiry s = .next (s.withChip
      ((((s.chip.clrFld Reg.PWE_STATUS Bit.PWE_STATUS_RETRY_WAIT).disarm .retryDelay).log .retry
        [s.chip.tripCount]).rampStart))) ∧
  (∀ s : State, s.chip.due .tripDecay = true → s.chip.flag Reg.PWE_STATUS Bit.PWE_STATUS_GATE_FULL = true →
    ∃ t, exec .tripCountDecay s = .next t ∧ t.chip.tripCount = 0 ∧ t.chip.armed .tripDecay = false ∧
      (∀ o, o ≠ Reg.PWE_STATUS → t.chip.rd o = s.chip.rd o) ∧ t.chip.out = s.chip.out ∧ t.flash = s.flash) ∧
  (∀ (s : State) (ag : Agent) (v : Nat), s.chip.reaches ag Reg.PWE_LATCH = true →
    (v % 256 = 0x5A → exec (.pweLatchClear ag v) s = .next (s.withChip (((((((s.chip.clrFld Reg.PWE_STATUS
      Bit.PWE_STATUS_TRIP_COUNT).clrFld Reg.PWE_STATUS Bit.PWE_STATUS_LATCHED).clrFld Reg.PWE_STATUS
      Bit.PWE_STATUS_LATCH_CAUSE).clrFld Reg.PWE_STATUS Bit.PWE_STATUS_RETRY_WAIT).disarm .retryDelay).rampStart).emit
        (.regDone ag Reg.PWE_LATCH)))) ∧
    (v % 256 ≠ 0x5A → exec (.pweLatchClear ag v) s = .next (s.withChip (s.chip.emit (.regDone ag Reg.PWE_LATCH))))) ∧
  (∀ (s : State) (ag : Agent) (v : Nat), s.chip.reaches ag Reg.PWE_APPLY = true →
    (v % 256 = 0xA5 → s.chip.applyOk = true → ∃ t, exec (.pweApply ag v) s = .next t ∧
      (∀ o ∈ pweOffs, t.chip.pwe o = s.chip.rd o) ∧ t.chip.regs = s.chip.regs ∧
      t.chip.out = .regDone ag Reg.PWE_APPLY :: s.chip.out ∧
      t.flash = s.flash) ∧
    (v % 256 = 0xA5 → s.chip.applyOk = false → exec (.pweApply ag v) s =
      .next (s.withChip ((s.chip.setBit Reg.PWE_EVENT Bit.PWE_EVENT_APPLY_REJECT).emit (.regDone ag Reg.PWE_APPLY)))) ∧
    (v % 256 ≠ 0xA5 → exec (.pweApply ag v) s = .next (s.withChip (s.chip.emit (.regDone ag Reg.PWE_APPLY)))))

/-- Feeds (R461 to R464): a feed is armed, falls below its warning threshold, recovers, is disarmed, or turns its current round,
and each shows in its status, its event and FEED_WARN_N. Power-on, the end of standby power, and RESET_N (R408, R422, R449, R459):
the standby converter starts with one feed and counts a power cycle, stops with none, and RESET_N clears the islands while it is
low, begins the restore of power where the module is DARK, and starts the islands again when it rises. -/
def Obligations.FeedsPowerOnAndReset : Prop :=
  (∀ (s : State) (f : Nat), s.chip.pwr.standby = true → f < 2 →
    exec (.feedArmed f) s = .next (s.withChip (
      let c : Chip := { s.chip with pwr := { s.chip.pwr with present := f :: s.chip.pwr.present.erase f, low := s.chip.pwr.low.erase f } }
      if s.chip.armed_ f then c else (c.setBit Reg.PWE_STATUS (armedFld f)).log .feedArmed [f])) ∧
    (s.chip.armed_ f = false → ∃ t, exec (.feedBelowWarning f) s = .next t ∧
      t.chip.pwr.low = f :: s.chip.pwr.low.erase f ∧ t.chip.regs = s.chip.regs ∧ t.chip.out = s.chip.out ∧ t.flash = s.flash) ∧
    (s.chip.armed_ f = true → exec (.feedBelowWarning f) s = .next
      (if s.chip.warned = true then s.withChip (s.chip.feedBelow f)
       else (s.withChip (s.chip.feedBelow f)).warnUpdate keepWarn)) ∧
    exec (.reverseCurrent f) s = .next
      (if s.chip.warned = true then s.withChip (s.chip.reverse f)
       else (s.withChip (s.chip.reverse f)).warnUpdate keepWarn) ∧
    (s.chip.kStage 0 = stIdle → s.chip.kStage 1 = stIdle → (s.withChip (s.chip.reverse f)).warnUpdate keepWarn =
      s.withChip (s.chip.reverse f)) ∧
    (s.chip.armed_ f = true → s.chip.pwr.low.contains f = true → exec (.feedDisarm f) s = .next (s.withChip
      (((s.chip.clrFld Reg.PWE_STATUS (armedFld f)).setBit Reg.PWE_EVENT Bit.PWE_EVENT_FEED_DISARMED).log .feedDisarmed [f])))) ∧
  (∀ s : State, s.chip.flag Reg.PWE_STATUS Bit.PWE_STATUS_WARN = true → s.chip.pwr.warnHold ≤ s.chip.now →
    ∃ t, exec .feedWarnRelease s = .next t ∧ t.chip.flag Reg.PWE_STATUS Bit.PWE_STATUS_WARN = false ∧
      t.chip.out = .pin .feedWarnN true :: s.chip.out ∧ (∀ o, o ≠ Reg.PWE_STATUS → t.chip.rd o = s.chip.rd o) ∧
      t.flash = s.flash) ∧
  (∀ (s : State) (feed : Nat) (diode inlet : Int), s.chip.pwr.standby = false → feed < 2 →
    ∃ t, exec (.powerOn feed diode inlet) s = .next t ∧ t.chip.pwr.standby = true ∧ t.chip.pwr.present = [feed] ∧
      t.chip.pwr.pgood = false ∧ t.chip.rd Reg.POWER_CYCLES = s.chip.rd Reg.POWER_CYCLES + 1 ∧ t.chip.watchTime = 0 ∧
      t.chip.armed .crystal = true ∧ t.chip.armed .bootHold = true ∧ t.chip.mor.bootHold = true ∧ t.flash = s.flash) ∧
  (∀ s : State, s.chip.pwr.standby = true →
    ∃ t, exec .standbyConverterStop s = .next t ∧ t.chip.pwr.standby = false ∧ t.chip.timers = [] ∧
      t.chip.rd Reg.POWER_CYCLES = s.chip.rd Reg.POWER_CYCLES ∧ t.chip.rd Reg.OP_HOURS = s.chip.rd Reg.OP_HOURS ∧
      t.chip.tripCount = s.chip.tripCount ∧ t.flash = s.flash) ∧
  (∀ s : State, s.chip.pwr.resetLow = false → s.chip.pwr.standby = true →
    ∃ t, exec .resetNFall s = .next t ∧ t.chip.pwr.resetLow = true ∧ t.chip.sw.pkts = [] ∧ t.chip.mor.copies = [] ∧
      t.chip.tabA = [] ∧ t.chip.rly.slices = [] ∧ t.chip.watchTime = s.chip.watchTime ∧ t.chip.bootFog = true ∧ t.chip.mor.bootHold = true ∧
      t.chip.tripCount = s.chip.tripCount ∧ t.flash = s.flash ∧
      (s.chip.isDark = true → t.chip.pwrState = 2 ∧ t.chip.pwr.restoreStep = max 1 s.chip.pwr.restoreStep ∧
        t.chip.armed .restore = true)) ∧
  (∀ s : State, s.chip.pwr.resetLow = true → s.chip.pwr.standby = true →
    ∃ t, exec .resetNRise s = .next t ∧ t.chip.pwr.resetLow = false ∧
      t.chip.fld Reg.LAST_RESET Bit.LAST_RESET_CAUSE = 1 ∧ t.chip.armed .bootHold = true ∧ t.flash = s.flash)

/-! ## Clocks and power states -/

/-- Clocks (R21, R426 to R431, R434): the crystal or the PCIe reference qualifies, and the islands it clocks leave reset with the
accesses that waited; the crystal is lost or is late, and a trim window moves the oscillator's code by the error it measured,
within one step's limit. -/
def Obligations.ClocksQualifyAndAreTrimmed : Prop :=
  (∀ s : State, s.chip.pwr.standby = true → s.chip.flag Reg.CLK_STATUS Bit.CLK_STATUS_XTAL_OK = false →
    s.chip.pwr.lost.contains islLamp = false → exec .crystalQualified s = .next (s.withChip (
      let c := (s.chip.setBit Reg.CLK_STATUS Bit.CLK_STATUS_XTAL_OK).setBit Reg.CLK_STATUS Bit.CLK_STATUS_LAMP_ON_XTAL
      if s.chip.pwr.ckg = true ∧ s.chip.armed .crystal = false then c.reclock
      else (c.disarm .crystal).ckgLock 0)).serveHeld) ∧
  (∀ s : State, s.chip.due .crystal = true → s.chip.flag Reg.CLK_STATUS Bit.CLK_STATUS_XTAL_OK = false →
    exec .crystalQualifyTimeout s = .next (s.withChip (
      let c := ((s.chip.setBit Reg.CLK_EVENT Bit.CLK_EVENT_XTAL_FAIL).disarm .crystal).log .crystalFail []
      if s.chip.flag Reg.CLK_STATUS Bit.CLK_STATUS_REFCLK_OK then c.ckgLock 1 else c)).serveHeld) ∧
  (∀ s : State, s.chip.pwr.standby = true → s.chip.flag Reg.CLK_STATUS Bit.CLK_STATUS_REFCLK_OK = false →
    exec .refclkQualified s = .next (s.withChip (
      let c := (s.chip.setBit Reg.CLK_STATUS Bit.CLK_STATUS_REFCLK_OK).log .refclk []
      if s.chip.armed .crystal = false ∧ s.chip.flag Reg.CLK_STATUS Bit.CLK_STATUS_XTAL_OK = false then c.ckgLock 1
      else c)).serveHeld) ∧
  (∀ (c : Chip) (ref : Nat), ref < 2 → (c.ckgLock ref).pwr.ckg = true ∧
    (c.ckgLock ref).fld Reg.CLK_STATUS Bit.CLK_STATUS_CKG_REF = ref ∧
    (c.pwr.pgood = true → c.pwr.resetLow = false →
      ∀ i, i ≠ islLamp → i < 83 ∨ 87 < i → (c.ckgLock ref).clocked i = true) ∧
    (c.pwr.pgood = false ∨ c.pwr.resetLow = true → (c.ckgLock ref).pwr.lost = c.pwr.lost) ∧
    (∀ o, o ≠ Reg.CLK_STATUS → (c.ckgLock ref).rd o = c.rd o) ∧ (c.ckgLock ref).out = c.out) ∧
  (∀ s : State, s.chip.flag Reg.CLK_STATUS Bit.CLK_STATUS_XTAL_OK = true →
    ∃ t, exec .crystalLost s = .next t ∧ t.chip.flag Reg.CLK_STATUS Bit.CLK_STATUS_XTAL_OK = false ∧
      t.chip.flag Reg.CLK_STATUS Bit.CLK_STATUS_LAMP_ON_XTAL = false ∧
      t.chip.flag Reg.CLK_EVENT Bit.CLK_EVENT_XTAL_LOST = true ∧
      t.chip.flag Reg.CLK_EVENT Bit.CLK_EVENT_FORCED_SWITCH = true ∧
      t.chip.flag Reg.MON_STATUS Bit.MON_STATUS_XTAL = true ∧
      t.chip.flag Reg.SAF_EVENT Bit.SAF_EVENT_CLOCK_LOSS = true ∧ t.flash = s.flash) ∧
  (∀ (s : State) (err : Int), s.chip.pwr.standby = true → s.chip.trimSource ≠ 0 → s.chip.trimSource < 4 → -2048 ≤ err → err ≤ 2047 →
    s.chip.flag Reg.IRO_TRIM Bit.IRO_TRIM_AUTO = true →
    ∃ t, exec (.iroTrimWindow err) s = .next t ∧
      (t.chip.fld Reg.IRO_TRIM Bit.IRO_TRIM_CODE : Int) = max 0 (min 1023
        ((s.chip.fld Reg.IRO_TRIM Bit.IRO_TRIM_CODE : Int) - max (-32) (min 32 (err.tdiv 10)))) ∧
      (t.chip.flag Reg.CLK_STATUS Bit.CLK_STATUS_TRIM_LOCKED = true ↔ -50 ≤ err ∧ err ≤ 50) ∧
      t.chip.fld Reg.CLK_STATUS Bit.CLK_STATUS_TRIM_SRC = s.chip.trimSource ∧
      (∀ o, o ≠ Reg.CLK_STATUS → o ≠ Reg.IRO_TRIM → t.chip.rd o = s.chip.rd o) ∧ t.flash = s.flash)

/-- Power states and gates (R432, R437 to R447): a target of LIT or DIM takes effect at once, DARK begins with its checks, a gate
closes when its island acknowledges and is given up otherwise, wake events and alarms act by WAKE_CTRL, and the steps of the
restore follow one another or fail. -/
def Obligations.PowerStatesFollowTheirCommands : Prop :=
  (∀ (s : State) (st : Nat) (x : OppSeq), s.chip.oppOf st = some x →
    (x.rise = false ∨ x.newer = none ∨ x.newer = some x.target →
      exec (.oppRegulatorReady st) s = .next (s.withChip (s.chip.oppEnd x x.target))) ∧
    (∀ t, x.rise = true → x.newer = some t → t ≠ x.target →
      exec (.oppRegulatorReady st) s = .next (s.withChip (
        { s.chip with pwr := { s.chip.pwr with
            opp := mapIf (fun y => y.st == x.st) (fun y => { y with target := t, rise := decide (t < x.target), newer := none })
              s.chip.pwr.opp } }.arm (.opp x.st) (100 * us)))) ∧
    (s.chip.due (.opp st) = true → exec (.oppRegulatorTimeout st) s = .next (s.withChip
      (((s.chip.putBit Reg.OPP_STATUS Bit.OPP_STATUS_OPP_FAIL st true).log .oppTimeout [st]).oppEnd x
        (if x.rise then s.chip.oppNow st else x.target))))) ∧
  (∀ (s : State) (ag : Agent), s.chip.reaches ag Reg.GLB_PWR_CTRL = true →
    exec (.pwrTargetDark ag) s = .next (s.withChip
      ((s.chip.setFld Reg.GLB_PWR_CTRL Bit.GLB_PWR_CTRL_TARGET 2).darkRequest.emit (.regDone ag Reg.GLB_PWR_CTRL))) ∧
    (s.chip.pwrState ≤ 1 → s.chip.pwr.darkStep = 0 →
      exec (.pwrTargetLit ag) s = .next (s.withChip
        ((({ (s.chip.setFld Reg.GLB_PWR_CTRL Bit.GLB_PWR_CTRL_TARGET 0).setFld Reg.GLB_PWR_STATUS
              Bit.GLB_PWR_STATUS_STATE 0 with
            pwr := { s.chip.pwr with standbyQuads := [] } } : Chip).oppAll false).emit (.regDone ag Reg.GLB_PWR_CTRL))) ∧
      (s.chip.pwrState = 0 → exec (.pwrTargetDim ag) s = .next (s.withChip (
        let c := s.chip.setFld Reg.GLB_PWR_CTRL Bit.GLB_PWR_CTRL_TARGET 1
        (((({ c.setFld Reg.GLB_PWR_STATUS Bit.GLB_PWR_STATUS_STATE 1 with
            pwr := { s.chip.pwr with standbyQuads := (List.range 64).filter c.quadIdle } } : Chip).clrFld Reg.BCN_STATUS
              Bit.BCN_STATUS_MASTER).oppAll true).emit (.regDone ag Reg.GLB_PWR_CTRL))))) ∧
      (s.chip.pwrState = 1 → exec (.pwrTargetDim ag) s = .next (s.withChip
        (((((s.chip.setFld Reg.GLB_PWR_CTRL Bit.GLB_PWR_CTRL_TARGET 1).setFld Reg.GLB_PWR_STATUS
          Bit.GLB_PWR_STATUS_STATE 1).clrFld Reg.BCN_STATUS Bit.BCN_STATUS_MASTER).oppAll true).emit
            (.regDone ag Reg.GLB_PWR_CTRL))))) ∧
    (0 < s.chip.pwr.darkStep →
      exec (.pwrTargetLit ag) s = .next (s.withChip
        ((s.chip.setFld Reg.GLB_PWR_CTRL Bit.GLB_PWR_CTRL_TARGET 0).emit (.regDone ag Reg.GLB_PWR_CTRL))) ∧
      exec (.pwrTargetDim ag) s = .next (s.withChip
        ((s.chip.setFld Reg.GLB_PWR_CTRL Bit.GLB_PWR_CTRL_TARGET 1).emit (.regDone ag Reg.GLB_PWR_CTRL))))) ∧
  (∀ (s : State) (i : Nat), s.chip.mayGate i = true →
    ∃ t, exec (.gateRequest i) s = .next t ∧ t.chip.pwr.gateReq = i :: s.chip.pwr.gateReq ∧ t.chip.regs = s.chip.regs ∧
      t.chip.out = s.chip.out ∧ t.flash = s.flash) ∧
  (∀ (s : State) (i : Nat), s.chip.pwr.gateReq.contains i = true → s.chip.pwr.darkStep = 0 →
    (64 ≤ i → i < 80 → ∃ t, exec (.gateAck i) s = .next t ∧ t.chip.pwr.gateReq = s.chip.pwr.gateReq.erase i ∧
      t.chip.fldBit Reg.GATE_STATUS Bit.GATE_STATUS_STATION (i - 64) = true ∧
      (∀ o, o ≠ Reg.GATE_STATUS → t.chip.rd o = s.chip.rd o) ∧ t.flash = s.flash) ∧
    (i = 82 → ∃ t, exec (.gateAck i) s = .next t ∧ t.chip.pwr.gateReq = s.chip.pwr.gateReq.erase i ∧
      t.chip.flag Reg.GATE_STATUS Bit.GATE_STATUS_RELAY = true ∧
      (∀ o, o ≠ Reg.GATE_STATUS → t.chip.rd o = s.chip.rd o) ∧ t.flash = s.flash) ∧
    (i < 64 → ∃ t, exec (.gateAck i) s = .next t ∧ t.chip.pwr.gated = i :: s.chip.pwr.gated ∧
      t.chip.pwr.gateReq = s.chip.pwr.gateReq.erase i ∧ t.chip.regs = s.chip.regs ∧ t.flash = s.flash) ∧
    (∃ t, exec (.gateAbandon i) s = .next t ∧ t.chip.pwr.gateReq = s.chip.pwr.gateReq.erase i ∧
      t.chip.flag Reg.CLK_EVENT Bit.CLK_EVENT_GATE_ABANDON = true ∧
      t.chip.rd Reg.GATE_STATUS = s.chip.rd Reg.GATE_STATUS ∧ t.flash = s.flash)) ∧
  (∀ (s : State) (i : Nat), s.chip.pwr.gateReq = [i] → s.chip.pwr.darkStep = 3 →
    exec (.gateAck i) s = .next (s.withChip
      ({ s.chip with pwr := { s.chip.pwr with gateReq := [], gated := i :: s.chip.pwr.gated } } : Chip).darkEnter) ∧
    exec (.gateAbandon i) s = .next (s.withChip (
      let c : Chip := { s.chip with pwr := { s.chip.pwr with
        gateReq := [], gateAfter := (i, s.chip.now + ms) :: s.chip.pwr.gateAfter.filter (fun e => e.1 != i) } }
      (((c.setBit Reg.CLK_EVENT Bit.CLK_EVENT_GATE_ABANDON).gateLog i false).log .gateAbandon [i]).darkAbort refuseGate))) ∧
  (∀ s : State, s.chip.pwr.standby = true → s.chip.flag Reg.WAKE_CTRL Bit.WAKE_CTRL_ALARM_ARMED = true →
    s.chip.pair Reg.WATCH_ALARM_LO Reg.WATCH_ALARM_HI ≤ s.chip.watchTime →
    exec .watchAlarm s = .next (s.withChip (
      let c := s.chip.clrFld Reg.WAKE_CTRL Bit.WAKE_CTRL_ALARM_ARMED
      (if s.chip.pwrState = 2 then c
       else (c.setBit Reg.WAKE_CAUSE Bit.WAKE_CAUSE_ALARM).log .wake [wakeAlarm]).wakeEvent wakeAlarm))) ∧
  (∀ s : State, s.chip.wakeEnabled wakeAddr = true → s.chip.pwr.restoreStep = 0 →
    (s.chip.pwr.darkStep = 6 → exec .wakeAddressMatch s = .next (s.withChip
      ((s.chip.wr Reg.WAKE_CAUSE 0).wr Reg.WAKE_CAUSE
        (setF ((s.chip.wr Reg.WAKE_CAUSE 0).rd Reg.WAKE_CAUSE) ⟨wakeAddr, wakeAddr⟩ 1)).startRestore)) ∧
    (1 ≤ s.chip.pwr.darkStep → s.chip.pwr.darkStep < 6 → ∃ t, exec .wakeAddressMatch s = .next t ∧
      t.chip.pwr.latched = wakeAddr :: s.chip.pwr.latched.erase wakeAddr ∧ t.chip.regs = s.chip.regs ∧
      t.chip.out = s.chip.out)) ∧
  (∀ (s : State) (k : Nat), s.chip.pwr.standby = true →
    (k < 2 → exec (.comparatorTrip k true) s = .next (s.withChip (s.chip.wakeEvent (wakeCmp k)))) ∧
    (k < 3 → exec (.comparatorTrip k false) s = .next s) ∧
    (exec (.comparatorTrip 3 false) s = .next (s.withChip
      (s.chip.setFld Reg.PWE_STATUS Bit.PWE_STATUS_INLET_HOLD 0))) ∧
    exec (.comparatorTrip 2 true) s = .next (s.withChip (
      let c := s.chip.wakeEvent (wakeCmp 2)
      if s.chip.pweOn then c.pweTrip tripFetCmp 0 s.chip.railMa else c)) ∧
    exec (.comparatorTrip 3 true) s = .next (s.withChip (
      let c := s.chip.setBit Reg.PWE_STATUS Bit.PWE_STATUS_INLET_HOLD
      (if s.chip.pwrState = 2 then c else c.log .thermWarn [3]).wakeEvent (wakeCmp 3)))) ∧
  (∀ s : State,
    (1 ≤ s.chip.pwr.restoreStep → s.chip.pwr.restoreStep < 4 →
      s.chip.pwr.resetStart = false ∨ s.chip.pwr.restoreStep < 3 → ∃ t, exec .restoreStepReady s = .next t ∧
      t.chip.pwr.restoreStep = s.chip.pwr.restoreStep + 1 ∧ t.chip.armed .restore = true ∧ t.chip.regs = s.chip.regs ∧
      t.chip.out = s.chip.out ∧ t.flash = s.flash) ∧
    (3 ≤ s.chip.pwr.restoreStep → s.chip.pwr.resetStart = true → ∃ t, exec .restoreStepReady s = .next t ∧
      t.chip.pwr.restoreStep = 0 ∧ t.chip.pwr.darkStep = 0 ∧ t.chip.pwrState = 0 ∧ t.chip.pwr.resetStart = false ∧
      t.chip.armed .restore = false ∧ t.chip.out = s.chip.out ∧ t.flash = s.flash) ∧
    (4 ≤ s.chip.pwr.restoreStep → s.chip.pwr.resetStart = false →
      ∃ t, exec .restoreStepReady s = .next t ∧ t.chip.pwr.restoreStep = 0 ∧
      t.chip.pwr.darkStep = 0 ∧ t.chip.pwrState = 0 ∧ t.chip.pwr.latched = s.chip.pwr.latched ∧ t.chip.pwr.opp = [] ∧
      t.chip.fld Reg.RESTORE_TIME Bit.RESTORE_TIME_US = min ((s.chip.now - s.chip.pwr.restoreAt) / us) 65535 ∧ t.flash = s.flash) ∧
    (1 ≤ s.chip.pwr.restoreStep → s.chip.due .restore = true → exec .restoreTimeout s = .next (s.withChip (
      let c := ((s.chip.setBit Reg.CLK_EVENT Bit.CLK_EVENT_WAKE_FAIL).log .wakeFail [s.chip.pwr.restoreStep]).islandsOff
      if s.chip.pwr.resetLow = true then c else c.startAgain))))

/-! ## The Counter Collector, the Soundings and the Keeper's Log -/

/-- The Collector (R493, R496, R503): EN starts it with a snapshot due at once, a snapshot goes to the host ring or the staging
ring or is missed, SNAP_NOW takes one at once, a staged entry moves to a free slot, DUMP_RD frees slots, and SND_POP takes the
oldest sounding. -/
def Obligations.CollectorTakesSnapshots : Prop :=
  (∀ (s : State) (ag : Agent), s.chip.reaches ag Reg.COL_CTRL = true → s.chip.flag Reg.COL_CTRL Bit.COL_CTRL_EN = false →
    ∃ t, exec (.colEnable ag) s = .next t ∧ t.chip.flag Reg.COL_CTRL Bit.COL_CTRL_EN = true ∧ t.chip.due .collect = true ∧
      t.chip.tel.colSeq = 0 ∧ t.chip.tel.colMissed = 0 ∧
      t.chip.flag Reg.GATE_STATUS Bit.GATE_STATUS_RELAY = false ∧
      (∀ o, o ≠ Reg.COL_CTRL → o ≠ Reg.GATE_STATUS → t.chip.rd o = s.chip.rd o) ∧
      t.chip.counters = s.chip.counters ∧ t.chip.out = .regDone ag Reg.COL_CTRL :: s.chip.out ∧ t.flash = s.flash) ∧
  (∀ s : State, s.chip.flag Reg.COL_CTRL Bit.COL_CTRL_EN = true → s.chip.due .collect = true →
    exec .snapshot s = .next (s.withChip s.chip.nextSnap.snapshot)) ∧
  (∀ (c : Chip) (t : Nat), c.timers.find? (fun e => decide (e.1 = .collect)) = some (.collect, t) →
    c.nextSnap.timers = (.collect, t + c.fld Reg.COL_PERIOD Bit.COL_PERIOD_US * us) ::
      c.timers.filter (fun e => decide (e.1 ≠ .collect)) ∧ c.nextSnap.regs = c.regs ∧ c.nextSnap.tel = c.tel) ∧
  (∀ (s : State) (ag : Agent), s.chip.reaches ag Reg.SNAP_NOW = true → s.chip.flag Reg.COL_CTRL Bit.COL_CTRL_EN = true →
    exec (.snapNow ag) s = .next (s.withChip (s.chip.snapshot.emit (.regDone ag Reg.SNAP_NOW)))) ∧
  (∀ c : Chip, c.flag Reg.COL_CTRL Bit.COL_CTRL_LOC = false → c.dumpFree = true → c.managerUp = true →
    c.collectorRuns = true → c.snapshot.tel.colSeq = c.tel.colSeq + 1 ∧ c.snapshot.tel.colMissed = 0 ∧
    c.snapshot.rd Reg.DUMP_WR = c.rd Reg.DUMP_WR + 1 ∧ c.snapshot.counters = c.counters ∧
    (∃ a b, c.snapshot.out = .hostWrite c.manager a (c.dumpEntry.header b) ::
      .hostWrite c.manager (a + 64) (c.dumpValues.flatMap (leBytes 8)) :: c.out)) ∧
  (∀ c : Chip, c.flag Reg.COL_CTRL Bit.COL_CTRL_LOC = false → c.dumpFree = false →
    c.snapshot.tel.colSeq = c.tel.colSeq + 1 ∧ c.snapshot.tel.colMissed = c.tel.colMissed + 1 ∧ c.snapshot.out = c.out ∧
    c.snapshot.rd Reg.DUMP_WR = c.rd Reg.DUMP_WR) ∧
  (∀ c : Chip, c.flag Reg.COL_CTRL Bit.COL_CTRL_LOC = true → c.collectorRuns = true →
    c.snapshot.tel.colSeq = c.tel.colSeq + 1 ∧ c.snapshot.out = c.out ∧
    (c.stagedBytes + ceilDiv c.dumpEntry.len 64 * 64 ≤ c.stageRoom →
      c.snapshot.tel.staged = c.tel.staged ++ [c.dumpEntry] ∧ c.snapshot.tel.colMissed = 0) ∧
    (c.stageRoom < c.stagedBytes + ceilDiv c.dumpEntry.len 64 * 64 →
      c.snapshot.tel.staged = c.tel.staged ∧ c.snapshot.tel.colMissed = c.tel.colMissed + 1)) ∧
  (∀ (s : State) (ag : Agent) (n : Nat), s.chip.reaches ag Reg.DUMP_RD = true →
    ∃ t, exec (.dumpRdWrite ag n) s = .next t ∧ t.chip.rd Reg.DUMP_RD = BitVec.ofNat 32 n ∧
      (∀ o, o ≠ Reg.DUMP_RD → t.chip.rd o = s.chip.rd o) ∧ t.chip.tel = s.chip.tel ∧
      t.chip.out = .regDone ag Reg.DUMP_RD :: s.chip.out ∧
      t.flash = s.flash) ∧
  (∀ (s : State) (d : DumpEnt) (ds : List DumpEnt), s.chip.tel.staged = d :: ds → s.chip.dumpFree = true →
    s.chip.collectorRuns = true → exec .stagedDumpMove s = .next (s.withChip (
      let c : Chip := { s.chip with tel := { s.chip.tel with staged := ds } }
      if s.chip.managerUp then c.dumpWrite d else c.dumpMiss.dumpFail))) ∧
  (∀ (s : State) (ag : Agent), s.chip.reaches ag Reg.SND_POP = true →
    ∃ t, exec (.sndPop ag) s = .next t ∧ t.chip.tel.sndFifo = s.chip.tel.sndFifo.drop 1 ∧ t.chip.regs = s.chip.regs ∧
      t.chip.out = .regDone ag Reg.SND_POP :: s.chip.out ∧ t.flash = s.flash)

/-- The Keeper's Log (R507, R509, R511): the oldest record owed to the Keep area is programmed there and nowhere else, a summary
that is due is written, and a freeze is set, cleared, or runs out. During a freeze (R511) an event makes no record and is absorbed
by none: it is counted in FROZEN_MISS alone, and no slot of the Keep area is filled. -/
def Obligations.LogKeepsSummarisesAndFreezes : Prop :=
  (∀ (s : State) (k : Nat) (rest : List Nat) (r : LogRec), s.chip.tel.keepPend = k :: rest → s.chip.keeperRuns = true →
    s.chip.due (.keep k) = true → s.chip.flag Reg.LOG_CTRL Bit.LOG_CTRL_FREEZE = false → s.chip.slotRec k = some r →
    ∃ t, exec .keepAreaProgram s = .next t ∧ t.chip.tel.keepPend = rest ∧
      t.flash = Flash.program s.flash (keepSlot k) (natBytes ({ r with kept := true } : LogRec).bytes) ∧
      (∀ o, o ≠ Reg.LOG_STATUS → t.chip.rd o = s.chip.rd o) ∧ t.chip.out = s.chip.out) ∧
  (∀ s : State, s.chip.keeperRuns = true → s.chip.summaryDue = true → s.chip.flag Reg.LOG_CTRL Bit.LOG_CTRL_FREEZE = false →
    exec .logSummary s = .next (s.withChip s.chip.summary)) ∧
  (∀ (s : State) (ag : Agent), s.chip.reaches ag Reg.LOG_CTRL = true → s.chip.flag Reg.LOG_CTRL Bit.LOG_CTRL_FREEZE = false →
    ∃ t, exec (.logFreeze ag true) s = .next t ∧ t.chip.flag Reg.LOG_CTRL Bit.LOG_CTRL_FREEZE = true ∧
      t.chip.flag Reg.LOG_STATUS Bit.LOG_STATUS_FROZEN = true ∧ t.chip.armed .freeze = true ∧
      (∀ o, o ≠ Reg.LOG_CTRL → o ≠ Reg.LOG_STATUS → t.chip.rd o = s.chip.rd o) ∧ t.chip.tel = s.chip.tel ∧
      t.chip.out = .regDone ag Reg.LOG_CTRL :: s.chip.out ∧ t.flash = s.flash) ∧
  (∀ (s : State) (ag : Agent), s.chip.reaches ag Reg.LOG_CTRL = true → s.chip.flag Reg.LOG_CTRL Bit.LOG_CTRL_FREEZE = true →
    exec (.logFreeze ag false) s = .next (s.withChip ((
      let c := ((s.chip.clrFld Reg.LOG_CTRL Bit.LOG_CTRL_FREEZE).clrFld Reg.LOG_STATUS Bit.LOG_STATUS_FROZEN).disarm .freeze
      if s.chip.keeperRuns = true ∧ s.chip.summaryDue = true then c.summary else c).emit (.regDone ag Reg.LOG_CTRL)))) ∧
  (∀ s : State, s.chip.due .freeze = true → s.chip.flag Reg.LOG_CTRL Bit.LOG_CTRL_FREEZE = true →
    exec .freezeTimeout s = .next (s.withChip (
      let c := ((s.chip.clrFld Reg.LOG_CTRL Bit.LOG_CTRL_FREEZE).clrFld Reg.LOG_STATUS Bit.LOG_STATUS_FROZEN).disarm .freeze
      if s.chip.keeperRuns = true ∧ s.chip.summaryDue = true then c.summary else c))) ∧
  (∀ (c : Chip) (code : LogCode) (key det : List Nat), c.flag Reg.LOG_CTRL Bit.LOG_CTRL_FREEZE = true →
    (c.log code key det).tel = c.tel ∧
    (c.log code key det).fld Reg.LOG_EVENT Bit.LOG_EVENT_FROZEN_MISS =
      min (c.fld Reg.LOG_EVENT Bit.LOG_EVENT_FROZEN_MISS + 1) (fldMax Bit.LOG_EVENT_FROZEN_MISS) ∧
    (∀ o, o ≠ Reg.LOG_EVENT → (c.log code key det).rd o = c.rd o)) ∧
  (∀ s : State, s.chip.flag Reg.LOG_CTRL Bit.LOG_CTRL_FREEZE = true → exec .keepAreaProgram s = .next s)

/-- LOG_RD_SEL (R512): AREA 0 names the Recent record of an age, AREA 1 a slot of the Keep area, AREA 2 a record within a
final-words slot; the record is loaded into LOG_RD_DATA with RD_VALID, and an index that holds none loads zeros and
sets RD_EMPTY. -/
def Obligations.LogReadLoadsItsRecord : Prop :=
  (∀ (s : State) (ag : Agent) (area index : Nat), s.chip.reaches ag Reg.LOG_RD_SEL = true → area < 3 → index < 2 ^ 14 →
    ∃ t, exec (.logRdSel ag area index) s = .next t ∧ t.flash = s.flash ∧ t.chip.tel = s.chip.tel ∧
      t.chip.out = .regDone ag Reg.LOG_RD_SEL :: s.chip.out ∧
      (∀ b, s.logRecord area index = some b → t.chip.flag Reg.LOG_RD_STATUS Bit.LOG_RD_STATUS_RD_VALID = true ∧
        t.chip.flag Reg.LOG_RD_STATUS Bit.LOG_RD_STATUS_RD_EMPTY = false ∧
        ∀ i, i < 16 → t.chip.rd (Reg.LOG_RD_DATA i) = BitVec.ofNat 32 (leNat (b.map (BitVec.ofNat 8)) (4 * i) 4)) ∧
      (s.logRecord area index = none → t.chip.flag Reg.LOG_RD_STATUS Bit.LOG_RD_STATUS_RD_EMPTY = true ∧
        ∀ i, i < 16 → t.chip.rd (Reg.LOG_RD_DATA i) = 0)) ∧
  (∀ (s : State) (index : Nat),
    s.logRecord 0 index = (s.chip.tel.recent[index]?).map LogRec.bytes ∧
    (index < 256 → s.logRecord 1 index = flashRec s.flash (keepSlot index)) ∧ (256 ≤ index → s.logRecord 1 index = none))

/-! ## Laws over every state: what stays, what is refused, what one operation does -/

/-- State.reset: every register holds its reset word, nothing is queued, the flash is canonical, and no converter runs. -/
def Obligations.ResetLeavesEveryRegisterAtItsWord : Prop :=
  (∀ off, State.reset.chip.rd off = resetWordAt off) ∧ State.reset.flashOk = true ∧ State.reset.pending = [] ∧
    State.reset.chip.pwr.standby = false ∧
    resetWordAt Reg.GATE_CTRL = 0x1FFFF ∧ resetWordAt Reg.IRO_TRIM = 0x80000200 ∧ resetWordAt Reg.WAKE_CTRL = 0x7F ∧
    resetWordAt Reg.RETRY_CFG = 0xA0003 ∧ resetWordAt Reg.WARN_THR = 0x1A401A4 ∧ resetWordAt Reg.THERM_CFG = 0x5596 ∧
    resetWordAt Reg.CR_CTRL = 0x6600

/-- Every step keeps the flash in its canonical form: addresses strictly rising, no listed byte equal to what erased flash
reads. -/
def Obligations.FlashStaysCanonical : Prop :=
  ∀ s t : State, s.flashOk = true → step s = .next t → t.flashOk = true

/-- No command but the one taken leaves the queue, and none joins it.
Only the commands that program or erase flash by a rule change a byte of it. -/
def Obligations.CommandsKeepTheQueueAndTheFlash : Prop :=
  (∀ (i : Instr) (s t : State), exec i s = .next t → t.pending = s.pending) ∧
  (∀ (i : Instr) (s t : State), i.mayProgram = false → exec i s = .next t → t.flash = s.flash)

/-- No command is refused; the one fault is a measurement beyond the absolute maximum ratings, in the three commands that carry
one (the model's choice where R521 assures nothing: log entry 5); every other command completes in every state. -/
def Obligations.OnlyAbsoluteMaximumStops : Prop :=
  ∀ (i : Instr) (s : State),
    (∀ r, exec i s ≠ .refused r) ∧
    (∀ f, exec i s = .fault f ↔ f = .beyondAbsoluteMaximum ∧ i.beyondMaximum = true) ∧
    (Completes i s ↔ i.beyondMaximum = false)

/-- The fields of a register that is no half of a pair take a plain write by their types (Table 0.4, R15, R17): RW a value in
its range, RWL the same before LOCK, RW1C clears the ones, RC by any value but 0, RWS by 1, RO nothing; every other register
stands, but for the Keeper's Log when LOCK makes the write a record. -/
def Obligations.PlainWriteTakesFieldsByType : Prop :=
  ∀ (c : Chip) (ag : Agent) (off : Nat) (row : RegRow) (ix : List Nat) (w : Word),
    regAt off = some (row, ix) → row.pair = 0 →
    (∀ f ∈ row.fields,
      (f.kind = .ro ∨ f.kind = .wo ∨ f.kind = .hook ∨ f.kind = .rwl ∧ c.blockLocked off = true →
        (c.plainWrite ag off row w).fld off ⟨f.hi, f.lo⟩ = c.fld off ⟨f.hi, f.lo⟩) ∧
      (f.kind = .rw ∨ f.kind = .rwl ∧ c.blockLocked off = false →
        (c.plainWrite ag off row w).fld off ⟨f.hi, f.lo⟩ =
          if f.mn ≤ getF w ⟨f.hi, f.lo⟩ ∧ getF w ⟨f.hi, f.lo⟩ ≤ f.mx then getF w ⟨f.hi, f.lo⟩ else c.fld off ⟨f.hi, f.lo⟩) ∧
      (f.kind = .w1c → (c.plainWrite ag off row w).fld off ⟨f.hi, f.lo⟩ =
        c.fld off ⟨f.hi, f.lo⟩ - (c.fld off ⟨f.hi, f.lo⟩ &&& getF w ⟨f.hi, f.lo⟩)) ∧
      (f.kind = .clr → (c.plainWrite ag off row w).fld off ⟨f.hi, f.lo⟩ =
        if getF w ⟨f.hi, f.lo⟩ = 0 then c.fld off ⟨f.hi, f.lo⟩ else 0) ∧
      (f.kind = .set1 → (c.plainWrite ag off row w).fld off ⟨f.hi, f.lo⟩ =
        if getF w ⟨f.hi, f.lo⟩ = 1 then 1 else c.fld off ⟨f.hi, f.lo⟩)) ∧
    (∀ o, o ≠ off → o ≠ Reg.LOG_SEQ → o ≠ Reg.LOG_STATUS → o ≠ Reg.LOG_EVENT →
      (c.plainWrite ag off row w).rd o = c.rd o)

/-- Writes of the two halves of a pair (R18): a _LO write changes no register; the _HI write completes the pair with the most
recent _LO that any agent wrote. -/
def Obligations.PairTakesEffectOnHi : Prop :=
  ∀ (c : Chip) (a b g : Agent) (off : Nat) (lo hi : RegRow) (i j : List Nat) (v w h : Word),
    regAt off = some (lo, i) → lo.pair = 1 → regAt (off + 4) = some (hi, j) → hi.pair = 2 →
    (∀ f ∈ lo.fields, f.kind = .rw ∧ f.mn = 0 ∧ f.mx = fldMax ⟨f.hi, f.lo⟩) →
    (∀ f ∈ hi.fields, f.kind = .rw ∧ f.mn = 0 ∧ f.mx = fldMax ⟨f.hi, f.lo⟩) →
    (∀ o, ((c.plainWrite a off lo v).plainWrite b off lo w).rd o = c.rd o) ∧
    (∀ f ∈ lo.fields, (((c.plainWrite a off lo v).plainWrite b off lo w).plainWrite g (off + 4) hi h).fld off ⟨f.hi, f.lo⟩ =
      getF w ⟨f.hi, f.lo⟩) ∧
    (∀ f ∈ hi.fields, (((c.plainWrite a off lo v).plainWrite b off lo w).plainWrite g (off + 4) hi h).fld (off + 4) ⟨f.hi, f.lo⟩ =
      getF h ⟨f.hi, f.lo⟩) ∧
    (∀ o, o ≠ off → o ≠ off + 4 →
      (((c.plainWrite a off lo v).plainWrite b off lo w).plainWrite g (off + 4) hi h).rd o = c.rd o)

/-- R506: an EVENT record with the CODE, SOURCE and key of the newest record is absorbed by it while its REPEAT is below 65,535;
any other event, and one that meets a summary record, starts a new record. -/
def Obligations.NewestRecordAbsorbsItsRepeats : Prop :=
  ∀ (c : Chip) (n r : LogRec) (rest : List LogRec), c.tel.recent = n :: rest →
    (n.kind = 0 → n.code = r.code → n.source = r.source → n.key = r.key → n.rep < 65535 →
      (c.logNow r).tel.recent = { n with rep := n.rep + 1, tLast := r.tLast, det := r.det } :: rest ∧
        (∀ o, (c.logNow r).rd o = c.rd o)) ∧
    (n.kind ≠ 0 ∨ n.code ≠ r.code ∨ n.source ≠ r.source ∨ n.key ≠ r.key ∨ 65535 ≤ n.rep →
      ∃ x, (c.logNow r).tel.recent = (x :: n :: rest).take 4096 ∧ x.code = r.code ∧ x.source = r.source ∧ x.key = r.key ∧
        x.rep = r.rep ∧ x.det = r.det ∧ (c.logNow r).rd Reg.LOG_SEQ = c.rd Reg.LOG_SEQ + 1)

/-- A host that is not the manager changes no register outside the log by a write to an offset that its view does not show whole
(R514): no register, no table in force, no counter, no packet, no binding and no key. -/
def Obligations.HostWritesOutsideItsViewChangeNothing : Prop :=
  ∀ (s t : State) (v off value : Nat), s.chip.isManager v = false → s.chip.sees (.vsi v) off ≠ .full →
    exec (.registerWrite (.vsi v) off value) s = .next t →
    (∀ o, o ≠ Reg.LOG_SEQ → o ≠ Reg.LOG_STATUS → o ≠ Reg.LOG_EVENT → o ≠ Reg.KPR_EVENT → t.chip.rd o = s.chip.rd o) ∧
    t.chip.tabA = s.chip.tabA ∧ t.chip.tabB = s.chip.tabB ∧ t.chip.tabRef = s.chip.tabRef ∧
    t.chip.counters = s.chip.counters ∧ (t.chip.out = s.chip.out ∨ t.chip.out = .regDone (.vsi v) off :: s.chip.out) ∧
    t.chip.sw = s.chip.sw ∧ t.chip.pci = s.chip.pci ∧ t.chip.mor = s.chip.mor ∧ t.chip.vsi = s.chip.vsi ∧ t.chip.rly = s.chip.rly ∧ t.chip.kpr = s.chip.kpr ∧
    t.chip.pwr = s.chip.pwr ∧ t.flash = s.flash

/-- The sequence rule of DATA flits (R138): the expected flit advances E and gives its shares, one that is behind is a duplicate
and is counted, one that is ahead is out of sequence and starts a NAK. -/
def Obligations.DataFlitsBySequence : Prop :=
  ∀ (c : Chip) (p : Nat) (f : Flit),
    (f.seq = (c.span p).rxE → f.null = false → f.payload = [] →
      ((c.dataIn p f).span p).rxE = ((c.span p).rxE + 1) % 65536 ∧ ((c.dataIn p f).span p).nakPend = false ∧
        (c.dataIn p f).regs = c.regs ∧ (c.dataIn p f).counters = c.counters ∧ (c.dataIn p f).sw = c.sw) ∧
    (f.seq ≠ (c.span p).rxE → behind16 f.seq (c.span p).rxE = true → c.dataIn p f = c.ctrInc kPort p cDupFlit) ∧
    (f.seq ≠ (c.span p).rxE → behind16 f.seq (c.span p).rxE = false →
      ((c.dataIn p f).span p).nakPend = true ∧ ((c.dataIn p f).span p).rxE = (c.span p).rxE ∧
        (c.dataIn p f).regs = c.regs ∧ (c.dataIn p f).sw = c.sw ∧ (c.dataIn p f).out = c.out)

/-- What a REFUSE does to its stream (R222): the stream takes no new frames, its back-off count rises, its refusal timer runs for
the back-off, whose random part is a free value, and REFUSE_RCVD is set; no other stream changes.
A CAST_OFF for positions beyond those held, within half the range, fails the stream with CASTOFF_ERR; one for a position below
LOW changes nothing; one for another epoch is ignored and counted (R220). -/
def Obligations.StreamMessagesChangeTheirStream : Prop :=
  (∀ (c : Chip) (src tc dest epoch : Nat) (x : IStream), c.stream src tc dest = some x → x.failed = false →
    x.epoch = epoch →
    (c.applyRefuse src tc dest epoch).stream src tc dest =
      some { x with refused := true, refuseExp := x.refuseExp + 1 } ∧
    (.refuse src tc dest, c.watchUp + c.refuseNs x) ∈ (c.applyRefuse src tc dest epoch).timers ∧
    (c.applyRefuse src tc dest epoch).flag Reg.MOR_EVENT Bit.MOR_EVENT_REFUSE_RCVD = true ∧
    (c.applyRefuse src tc dest epoch).mor.copies = c.mor.copies ∧
    (∀ a b d, (a, b, d) ≠ (src, tc, dest) → (c.applyRefuse src tc dest epoch).stream a b d = c.stream a b d) ∧
    (∀ o, o ≠ Reg.MOR_EVENT → (c.applyRefuse src tc dest epoch).rd o = c.rd o)) ∧
  (∀ (c : Chip) (src tc dest epoch n : Nat) (x : IStream), c.stream src tc dest = some x → x.failed = false →
    (x.epoch = epoch → x.held < modSub 65536 (n + 1) x.low → modSub 65536 (n + 1) x.low ≤ 32767 →
      c.applyCastOff src tc dest epoch n = c.failStream x causeCastoffErr) ∧
    (x.epoch = epoch → x.held < modSub 65536 (n + 1) x.low → 32767 < modSub 65536 (n + 1) x.low →
      c.applyCastOff src tc dest epoch n = c) ∧
    (x.epoch ≠ epoch → c.applyCastOff src tc dest epoch n = c.satInc Reg.MOR_IGNORED Bit.MOR_IGNORED_CAST_IGNORED))

/-- A commit whose generation is not the next one is rejected (R193): nothing comes into force, and the block's reject
bit is set. -/
def Obligations.CommitsOfAnotherGenerationAreRejected : Prop :=
  (∀ (s : State) (ag : Agent) (st gen : Nat), s.chip.reaches ag (Reg.QUOTA_COMMIT st) = true →
    gen ≠ (s.chip.openGate (Reg.QUOTA_COMMIT st)).nextGen (Reg.QUOTA_ACTIVE_GEN st) →
    exec (.quotaCommit ag st gen) s = .next (s.withChip
      (((s.chip.openGate (Reg.QUOTA_COMMIT st)).setBit (Reg.STN_STATUS st) Bit.STN_STATUS_COMMIT_REJECT).emit
        (.regDone ag (Reg.QUOTA_COMMIT st))))) ∧
  (∀ (s : State) (ag : Agent) (st gen : Nat), s.chip.reaches ag (Reg.STN_MC_COMMIT st) = true →
    gen ≠ (s.chip.openGate (Reg.STN_MC_COMMIT st)).nextGen (Reg.STN_MC_ACTIVE_GEN st) →
    exec (.stnMcCommit ag st gen) s = .next (s.withChip
      (((s.chip.openGate (Reg.STN_MC_COMMIT st)).setBit (Reg.STN_STATUS st) Bit.STN_STATUS_MC_COMMIT_REJECT).emit
        (.regDone ag (Reg.STN_MC_COMMIT st))))) ∧
  (∀ (s : State) (ag : Agent) (gen : Nat), s.chip.reaches ag Reg.TWR_MC_COMMIT = true →
    gen ≠ s.chip.nextGen Reg.TWR_MC_ACTIVE_GEN →
    exec (.twrMcCommit ag gen) s = .next (s.withChip
      ((s.chip.setBit Reg.TWR_EVENT Bit.TWR_EVENT_COMMIT_REJECT).emit (.regDone ag Reg.TWR_MC_COMMIT)))) ∧
  (∀ (s : State) (ag : Agent) (p gen : Nat), s.chip.reaches ag (Reg.POOL_COMMIT p) = true →
    gen ≠ (s.chip.openGate (Reg.POOL_COMMIT p)).nextGen (Reg.POOL_ACTIVE_GEN p) →
    exec (.poolCommit ag p gen) s = .next (s.withChip
      (((s.chip.openGate (Reg.POOL_COMMIT p)).setBit (Reg.PRT_EVENT p) Bit.PRT_EVENT_COMMIT_REJECT).emit
        (.regDone ag (Reg.POOL_COMMIT p))))) ∧
  (∀ (s : State) (ag : Agent) (gen : Nat), s.chip.reaches ag Reg.RT_COMMIT = true → gen ≠ s.chip.nextGen Reg.RT_ACTIVE_GEN →
    exec (.rtCommit ag gen) s =
      .next (s.withChip ((s.chip.kndReject 0 causeBadGen 0).emit (.regDone ag Reg.RT_COMMIT)))) ∧
  (∀ (s : State) (ag : Agent) (gen : Nat), s.chip.reaches ag Reg.WIN_COMMIT = true → gen ≠ s.chip.nextGen Reg.WIN_ACTIVE_GEN →
    exec (.winCommit ag gen) s =
      .next (s.withChip ((s.chip.kndReject 1 causeBadGen 0).emit (.regDone ag Reg.WIN_COMMIT)))) ∧
  (∀ (s : State) (ag : Agent) (gen : Nat), s.chip.reaches ag Reg.FMC_COMMIT = true → gen ≠ s.chip.nextGen Reg.FMC_ACTIVE_GEN →
    exec (.fmcCommit ag gen) s =
      .next (s.withChip ((s.chip.kndReject 2 causeBadGen 0).emit (.regDone ag Reg.FMC_COMMIT)))) ∧
  (∀ (s : State) (ag : Agent) (gen : Nat), s.chip.reaches ag Reg.SEC_COMMIT = true → gen ≠ s.chip.nextGen Reg.SEC_ACTIVE_GEN →
    exec (.secCommit ag gen) s =
      .next (s.withChip ((s.chip.secReject causeBadGen 0 []).emit (.regDone ag Reg.SEC_COMMIT)))) ∧
  (∀ (s : State) (ag : Agent) (gen : Nat), s.chip.reaches ag Reg.SCH_COMMIT = true → gen ≠ s.chip.nextGen Reg.SCH_ACTIVE_GEN →
    exec (.schCommit ag gen) s = .next (s.withChip ((s.chip.schReject 1 0).emit (.regDone ag Reg.SCH_COMMIT))))

/-- A BIND that fails a check of Table 8.6 changes no binding, window or vBridge (R254): it answers the status of the first
check that fails. -/
def Obligations.FailedBindChangesNothing : Prop :=
  ∀ (s : State) (h : KHead) (v vbr kind target prid devfn peer : Nat) (wins : List (Nat × Nat))
    (bars : List (Nat × Nat × Nat)) (fn : FnInfo) (a : KAns),
    s.chip.admitsK h (.bind v vbr kind target prid devfn peer wins bars fn) = true → s.chip.kpr.busy = none →
    kind = 2 ∨ kind = 3 → s.chip.bindFault (kBindFn v vbr kind target prid devfn peer wins bars fn).placed = some a →
    (a.status = stOwned → s.chip.faHere target = true → s.chip.fnInFlr (faPort target) prid = false) →
    exec (.bind h v vbr kind target prid devfn peer wins bars fn) s =
      .next (s.finishK h (.bind v vbr kind target prid devfn peer wins bars fn) a) ∧
    (∃ t, exec (.bind h v vbr kind target prid devfn peer wins bars fn) s = .next t ∧ t.chip.vsi = s.chip.vsi ∧
      t.chip.tabA = s.chip.tabA ∧ t.chip.tabB = s.chip.tabB ∧ t.flash = s.flash ∧
      (∀ w i, t.chip.rd (Reg.VBR_STATE w i) = s.chip.rd (Reg.VBR_STATE w i)))

/-- The record of a completed command (Table 13.6, R382, R383): into LAST_CMD when the ring has stopped, with the tag, the code
and the status; onto the completion ring of the manager otherwise, at the next place and with its phase. -/
def Obligations.CompletedCommandsLeaveARecord : Prop :=
  (∀ (s : State) (h : KHead) (k : KCmd) (a : KAns), h.mctp = false → s.chip.crOn = false → k ≠ .imageActivate →
    ∃ t : State, t = s.finishK h k a ∧ t.chip.rd Reg.LAST_CMD =
        BitVec.ofNat 32 (h.tag % 65536 + k.code % 256 * 65536 + a.status % 256 * 2 ^ 24) ∧
      (∀ o, o ≠ Reg.LAST_CMD → t.chip.rd o = s.chip.rd o) ∧ t.chip.kpr.busy = none ∧ t.chip.out = s.chip.out ∧
      t.flash = s.flash ∧ t.pending = s.pending) ∧
  (∀ (s : State) (h : KHead) (k : KCmd) (a : KAns), h.mctp = false → h.intr = false → s.chip.crOn = true →
    s.chip.kpr.noRecord = false → s.chip.managerLink = true → k ≠ .imageActivate →
    ∃ t : State, t = s.finishK h k a ∧
      t.chip.out = .hostWrite s.chip.manager
        (s.chip.pair Reg.CR_CQ_BASE_LO Reg.CR_CQ_BASE_HI + 32 * (s.chip.kpr.cqWritten % s.chip.crCqSize))
        (recordOfK k.code ((s.chip.kpr.cqWritten / s.chip.crCqSize + 1) % 2) h.tag a) :: s.chip.out ∧
      t.chip.kpr.cqWritten = (s.chip.kpr.cqWritten + 1) % 2 ^ 16 ∧ t.chip.regs = s.chip.regs ∧ t.chip.kpr.busy = none) ∧
  (∀ (s : State) (h : KHead) (k : KCmd) (a : KAns), h.mctp = true → k ≠ .imageActivate →
    ∃ t : State, t = s.finishK h k a ∧ t.chip.out = .mctp 0 (recordOfK k.code 0 h.tag a) :: s.chip.out ∧
      t.chip.regs = s.chip.regs ∧ t.flash = s.flash)

/-- A trip (R454, R458): the FET opens, power-good and PGOOD fall with the regulators, LAST_TRIP and PWE_EVENT.TRIP show
it; while the count has not passed RETRY_CFG.COUNT the controller waits for the retry, else it latches off. -/
def Obligations.TripOpensTheFet : Prop :=
  ∀ (c : Chip) (cause point ma : Nat), 1 ≤ cause → cause ≤ 6 → point < 8 →
    (c.pweTrip cause point ma).pweOn = false ∧ (c.pweTrip cause point ma).pwr.pgood = false ∧
    (c.pweTrip cause point ma).flag Reg.PWE_STATUS Bit.PWE_STATUS_GATE_FULL = false ∧
    (c.pweTrip cause point ma).flag Reg.PWE_EVENT Bit.PWE_EVENT_TRIP = true ∧
    (c.pweTrip cause point ma).fld Reg.LAST_TRIP Bit.LAST_TRIP_CAUSE = cause ∧
    (c.pweTrip cause point ma).fld Reg.LAST_TRIP Bit.LAST_TRIP_POINT = point ∧
    ((c.pweTrip cause point ma).flag Reg.PWE_STATUS Bit.PWE_STATUS_RETRY_WAIT = true ∧
        (c.pweTrip cause point ma).armed .retryDelay = true ∨
      (c.pweTrip cause point ma).latched = true ∧
        (c.pweTrip cause point ma).fld Reg.PWE_STATUS Bit.PWE_STATUS_LATCH_CAUSE = cause)
end

