-- ==== Sys2Proof/Laws/Maps.lean ====
section
/-!
SUPPORT. Laws of the sparse tables and of bit fields: a read after a write, and the canonical form that every operation keeps.
-/
namespace Sys2Proof.Machine

variable {α : Type}

/-! ## Sparse tables -/

theorem SMap.get_nil (k : Nat) (d : α) : SMap.get ([] : SMap α) k d = d := rfl

theorem SMap.get_cons (k k' : Nat) (v d : α) (m : SMap α) : SMap.get ((k', v) :: m) k d = if k' = k then v else SMap.get m k d := by
  unfold SMap.get
  by_cases h : k' = k <;> simp [h]

@[simp] theorem SMap.get_erase_same (m : SMap α) (k : Nat) (d : α) : SMap.get (SMap.erase m k) k d = d := by
  induction m with
  | nil => rfl
  | cons e m ih =>
    obtain ⟨a, v⟩ := e
    by_cases h : a = k
    · simpa [SMap.erase, h] using ih
    · have : SMap.erase ((a, v) :: m) k = (a, v) :: SMap.erase m k := by simp [SMap.erase, h]
      rw [this, SMap.get_cons, if_neg h, ih]

theorem SMap.get_erase_other (m : SMap α) {k j : Nat} (d : α) (h : j ≠ k) : SMap.get (SMap.erase m k) j d = SMap.get m j d := by
  induction m with
  | nil => rfl
  | cons e m ih =>
    obtain ⟨a, v⟩ := e
    by_cases ha : a = k
    · have : SMap.erase ((a, v) :: m) k = SMap.erase m k := by simp [SMap.erase, ha]
      rw [this, ih, SMap.get_cons, if_neg (by omega)]
    · have : SMap.erase ((a, v) :: m) k = (a, v) :: SMap.erase m k := by simp [SMap.erase, ha]
      rw [this, SMap.get_cons, SMap.get_cons, ih]

/-- Key `k` is not listed. -/
def SMap.free (m : SMap α) (k : Nat) : Prop := ∀ e ∈ m, e.1 ≠ k

theorem SMap.free_erase (m : SMap α) (k : Nat) : SMap.free (SMap.erase m k) k := by
  intro e he
  simpa [SMap.erase] using (List.mem_filter.mp he).2

theorem SMap.get_insert (m : SMap α) (k j : Nat) (v d : α) (h : SMap.free m k) :
    SMap.get (SMap.insert k v m) j d = if k = j then v else SMap.get m j d := by
  induction m with
  | nil => simp [SMap.insert, SMap.get_cons]
  | cons e m ih =>
    obtain ⟨a, w⟩ := e
    have ha : a ≠ k := h (a, w) (List.mem_cons_self)
    have hm : SMap.free m k := fun e he => h e (List.mem_cons_of_mem _ he)
    by_cases hlt : k < a
    · simp [SMap.insert, hlt, SMap.get_cons]
    · simp only [SMap.insert, if_neg hlt, SMap.get_cons, ih hm]
      by_cases h1 : a = j <;> by_cases h2 : k = j <;> simp_all

@[simp] theorem SMap.get_set_same [DecidableEq α] (m : SMap α) (k : Nat) (v d : α) : SMap.get (SMap.set m k v d) k d = v := by
  unfold SMap.set
  split
  · simp_all
  · rw [SMap.get_insert _ _ _ _ _ (SMap.free_erase m k), if_pos rfl]

theorem SMap.get_set_other [DecidableEq α] (m : SMap α) {k j : Nat} (v d d' : α) (h : j ≠ k) :
    SMap.get (SMap.set m k v d) j d' = SMap.get m j d' := by
  unfold SMap.set
  split
  · exact SMap.get_erase_other m d' h
  · rw [SMap.get_insert _ _ _ _ _ (SMap.free_erase m k), if_neg (Ne.symm h), SMap.get_erase_other m d' h]

theorem SMap.sorted_iff (m : SMap α) : SMap.sorted m = true ↔ m.Pairwise (fun a b => a.1 < b.1) := by
  induction m with
  | nil => simp [SMap.sorted]
  | cons e m ih =>
    cases m with
    | nil => simp [SMap.sorted]
    | cons e' m =>
      simp only [SMap.sorted, Bool.and_eq_true, decide_eq_true_eq, ih, List.pairwise_cons, List.mem_cons]
      constructor
      · rintro ⟨h1, h2, h3⟩
        refine ⟨fun a ha => ?_, h2, h3⟩
        rcases ha with rfl | ha
        · exact h1
        · exact lt_trans h1 (h2 a ha)
      · rintro ⟨h1, h2, h3⟩
        exact ⟨h1 e' (.inl rfl), h2, h3⟩

theorem SMap.mem_insert (m : SMap α) (k : Nat) (v : α) (e : Nat × α) : e ∈ SMap.insert k v m ↔ e = (k, v) ∨ e ∈ m := by
  induction m with
  | nil => simp [SMap.insert]
  | cons a m ih =>
    simp only [SMap.insert]
    split
    · simp
    · simp only [List.mem_cons, ih]; tauto

theorem SMap.sorted_insert (m : SMap α) (k : Nat) (v : α) (h : SMap.sorted m = true) (hf : SMap.free m k) :
    SMap.sorted (SMap.insert k v m) = true := by
  rw [SMap.sorted_iff] at *
  induction m with
  | nil => simp [SMap.insert]
  | cons e m ih =>
    obtain ⟨h1, h2⟩ := List.pairwise_cons.mp h
    have he : e.1 ≠ k := hf e List.mem_cons_self
    simp only [SMap.insert]
    split
    · rename_i hlt
      refine List.pairwise_cons.mpr ⟨fun a ha => ?_, h⟩
      rcases List.mem_cons.mp ha with rfl | ha
      · exact hlt
      · exact lt_trans hlt (h1 a ha)
    · refine List.pairwise_cons.mpr ⟨fun a ha => ?_, ih h2 (fun x hx => hf x (List.mem_cons_of_mem _ hx))⟩
      rcases (SMap.mem_insert m k v a).mp ha with rfl | ha
      · show e.1 < k; omega
      · exact h1 a ha

theorem SMap.canonical_filter [DecidableEq α] (m : SMap α) (d : Nat → α) (p : Nat × α → Bool) (h : SMap.canonical m d = true) :
    SMap.canonical (m.filter p) d = true := by
  simp only [SMap.canonical, Bool.and_eq_true, SMap.sorted_iff, List.all_eq_true] at *
  exact ⟨h.1.filter p, fun e he => h.2 e (List.mem_filter.mp he).1⟩

theorem SMap.canonical_erase [DecidableEq α] (m : SMap α) (d : Nat → α) (k : Nat) (h : SMap.canonical m d = true) :
    SMap.canonical (SMap.erase m k) d = true := SMap.canonical_filter m d _ h

/-- A write keeps the canonical form. -/
theorem SMap.canonical_set [DecidableEq α] (m : SMap α) (d : Nat → α) (k : Nat) (v : α) (h : SMap.canonical m d = true) :
    SMap.canonical (SMap.set m k v (d k)) d = true := by
  unfold SMap.set
  split
  · exact SMap.canonical_erase m d k h
  · rename_i hv
    have he := SMap.canonical_erase m d k h
    simp only [SMap.canonical, Bool.and_eq_true, List.all_eq_true] at he ⊢
    refine ⟨SMap.sorted_insert _ k v he.1 (SMap.free_erase m k), fun e hm => ?_⟩
    rcases (SMap.mem_insert _ k v e).mp hm with rfl | hm
    · simpa using hv
    · exact he.2 e hm

/-! ## Bit fields -/

theorem getF_lt (w : Word) (f : Fld) : getF w f < 2 ^ (f.hi + 1 - f.lo) := Nat.mod_lt _ (by positivity)

theorem getF_le_fldMax (w : Word) (f : Fld) : getF w f ≤ fldMax f := by
  have := getF_lt w f
  unfold fldMax
  omega

/-- A field of the zero word is 0. -/
@[simp] theorem getF_zero (f : Fld) : getF (0 : Word) f = 0 := by simp [getF]

theorem getF_testBit (w : Word) (f : Fld) (i : Nat) :
    (getF w f).testBit i = (decide (i < f.hi + 1 - f.lo) && w.getLsbD (f.lo + i)) := by
  rw [getF, Nat.testBit_mod_two_pow, ← Nat.shiftRight_eq_div_pow, Nat.testBit_shiftRight, BitVec.getLsbD]

theorem shifted_testBit (n v lo j : Nat) : (v % 2 ^ n * 2 ^ lo).testBit j = (decide (lo ≤ j) && decide (j - lo < n) && v.testBit (j - lo)) := by
  rw [← Nat.shiftLeft_eq, Nat.testBit_shiftLeft, Nat.testBit_mod_two_pow]
  by_cases h : lo ≤ j <;> simp [h]

theorem fldMask_testBit (f : Fld) (j : Nat) : (fldMask f).testBit j = (decide (f.lo ≤ j) && decide (j - f.lo < f.hi + 1 - f.lo)) := by
  rw [fldMask, ← Nat.shiftLeft_eq, Nat.testBit_shiftLeft, Nat.testBit_two_pow_sub_one]

/-- One bit of a word after a field is set. -/
theorem setF_getLsbD (w : Word) (f : Fld) (v j : Nat) (hj : j < 32) : (setF w f v).getLsbD j =
    if f.lo ≤ j ∧ j ≤ f.hi then v.testBit (j - f.lo) else w.getLsbD j := by
  simp only [setF, BitVec.getLsbD_or, BitVec.getLsbD_and, BitVec.getLsbD_not, BitVec.getLsbD_ofNat, hj, decide_true, Bool.true_and,
    shifted_testBit, fldMask_testBit]
  by_cases h1 : f.lo ≤ j <;> by_cases h2 : j ≤ f.hi
  · have : j - f.lo < f.hi + 1 - f.lo := by omega
    simp [h1, h2, this]
  · have : ¬ j - f.lo < f.hi + 1 - f.lo := by omega
    simp [h2, this]
  · simp [h1]
  · simp [h1]

/-- The field just set holds the value, cut to the field's width. -/
theorem getF_setF_same (w : Word) (f : Fld) (v : Nat) (h : f.hi < 32) : getF (setF w f v) f = v % 2 ^ (f.hi + 1 - f.lo) := by
  apply Nat.eq_of_testBit_eq
  intro i
  rw [getF_testBit, Nat.testBit_mod_two_pow]
  by_cases hi : i < f.hi + 1 - f.lo
  · rw [setF_getLsbD w f v _ (by omega), if_pos (by omega)]
    simp [hi]
  · simp [hi]

/-- A field that shares no bit with the one set keeps its value. -/
theorem getF_setF_other (w : Word) (f g : Fld) (v : Nat) (hg : g.hi < 32) (h : g.hi < f.lo ∨ f.hi < g.lo) :
    getF (setF w f v) g = getF w g := by
  apply Nat.eq_of_testBit_eq
  intro i
  rw [getF_testBit, getF_testBit]
  by_cases hi : i < g.hi + 1 - g.lo
  · rw [setF_getLsbD w f v _ (by omega), if_neg (by omega)]
  · simp [hi]

end Sys2Proof.Machine
end

