-- ==== Sys2Proof/Laws/State.lean ====
section
/-!
SUPPORT. What each update of the state leaves as it was, field by field: one lemma per field and update, each true by `rfl`.
-/
namespace Sys2Proof.Machine

/-! ## The state -/

@[simp] theorem State.withChip_chip (s : State) (c : Chip) : (s.withChip c).chip = c := rfl
@[simp] theorem State.withChip_flash (s : State) (c : Chip) : (s.withChip c).flash = s.flash := rfl
@[simp] theorem State.withChip_pending (s : State) (c : Chip) : (s.withChip c).pending = s.pending := rfl

/-! ## The chip -/

@[simp] theorem Chip.wr_regs (c : Chip) (off : Nat) (w : Word) : (c.wr off w).regs = SMap.set c.regs off w (resetWordAt off) := rfl
@[simp] theorem Chip.wr_tabA (c : Chip) (off : Nat) (w : Word) : (c.wr off w).tabA = c.tabA := rfl
@[simp] theorem Chip.wr_tabB (c : Chip) (off : Nat) (w : Word) : (c.wr off w).tabB = c.tabB := rfl
@[simp] theorem Chip.wr_tabRef (c : Chip) (off : Nat) (w : Word) : (c.wr off w).tabRef = c.tabRef := rfl
@[simp] theorem Chip.wr_counters (c : Chip) (off : Nat) (w : Word) : (c.wr off w).counters = c.counters := rfl
@[simp] theorem Chip.wr_loPend (c : Chip) (off : Nat) (w : Word) : (c.wr off w).loPend = c.loPend := rfl
@[simp] theorem Chip.wr_hiLatch (c : Chip) (off : Nat) (w : Word) : (c.wr off w).hiLatch = c.hiLatch := rfl
@[simp] theorem Chip.wr_heldAcc (c : Chip) (off : Nat) (w : Word) : (c.wr off w).heldAcc = c.heldAcc := rfl
@[simp] theorem Chip.wr_watchUp (c : Chip) (off : Nat) (w : Word) : (c.wr off w).watchUp = c.watchUp := rfl
@[simp] theorem Chip.wr_watchTime (c : Chip) (off : Nat) (w : Word) : (c.wr off w).watchTime = c.watchTime := rfl
@[simp] theorem Chip.wr_slew (c : Chip) (off : Nat) (w : Word) : (c.wr off w).slew = c.slew := rfl
@[simp] theorem Chip.wr_timers (c : Chip) (off : Nat) (w : Word) : (c.wr off w).timers = c.timers := rfl
@[simp] theorem Chip.wr_out (c : Chip) (off : Nat) (w : Word) : (c.wr off w).out = c.out := rfl
@[simp] theorem Chip.wr_freeCtr (c : Chip) (off : Nat) (w : Word) : (c.wr off w).freeCtr = c.freeCtr := rfl
@[simp] theorem Chip.wr_ll (c : Chip) (off : Nat) (w : Word) : (c.wr off w).ll = c.ll := rfl
@[simp] theorem Chip.wr_map (c : Chip) (off : Nat) (w : Word) : (c.wr off w).map = c.map := rfl
@[simp] theorem Chip.wr_goodMap (c : Chip) (off : Nat) (w : Word) : (c.wr off w).goodMap = c.goodMap := rfl
@[simp] theorem Chip.wr_sw (c : Chip) (off : Nat) (w : Word) : (c.wr off w).sw = c.sw := rfl
@[simp] theorem Chip.wr_pci (c : Chip) (off : Nat) (w : Word) : (c.wr off w).pci = c.pci := rfl
@[simp] theorem Chip.wr_knd (c : Chip) (off : Nat) (w : Word) : (c.wr off w).knd = c.knd := rfl
@[simp] theorem Chip.wr_mor (c : Chip) (off : Nat) (w : Word) : (c.wr off w).mor = c.mor := rfl
@[simp] theorem Chip.wr_vsi (c : Chip) (off : Nat) (w : Word) : (c.wr off w).vsi = c.vsi := rfl
@[simp] theorem Chip.wr_rly (c : Chip) (off : Nat) (w : Word) : (c.wr off w).rly = c.rly := rfl
@[simp] theorem Chip.wr_saf (c : Chip) (off : Nat) (w : Word) : (c.wr off w).saf = c.saf := rfl
@[simp] theorem Chip.wr_bcn (c : Chip) (off : Nat) (w : Word) : (c.wr off w).bcn = c.bcn := rfl
@[simp] theorem Chip.wr_kpr (c : Chip) (off : Nat) (w : Word) : (c.wr off w).kpr = c.kpr := rfl
@[simp] theorem Chip.wr_pwr (c : Chip) (off : Nat) (w : Word) : (c.wr off w).pwr = c.pwr := rfl
@[simp] theorem Chip.wr_tel (c : Chip) (off : Nat) (w : Word) : (c.wr off w).tel = c.tel := rfl

@[simp] theorem Chip.setFld_tabA (c : Chip) (off : Nat) (f : Fld) (v : Nat) : (c.setFld off f v).tabA = c.tabA := rfl
@[simp] theorem Chip.setFld_tabB (c : Chip) (off : Nat) (f : Fld) (v : Nat) : (c.setFld off f v).tabB = c.tabB := rfl
@[simp] theorem Chip.setFld_tabRef (c : Chip) (off : Nat) (f : Fld) (v : Nat) : (c.setFld off f v).tabRef = c.tabRef := rfl
@[simp] theorem Chip.setFld_counters (c : Chip) (off : Nat) (f : Fld) (v : Nat) : (c.setFld off f v).counters = c.counters := rfl
@[simp] theorem Chip.setFld_loPend (c : Chip) (off : Nat) (f : Fld) (v : Nat) : (c.setFld off f v).loPend = c.loPend := rfl
@[simp] theorem Chip.setFld_hiLatch (c : Chip) (off : Nat) (f : Fld) (v : Nat) : (c.setFld off f v).hiLatch = c.hiLatch := rfl
@[simp] theorem Chip.setFld_heldAcc (c : Chip) (off : Nat) (f : Fld) (v : Nat) : (c.setFld off f v).heldAcc = c.heldAcc := rfl
@[simp] theorem Chip.setFld_watchUp (c : Chip) (off : Nat) (f : Fld) (v : Nat) : (c.setFld off f v).watchUp = c.watchUp := rfl
@[simp] theorem Chip.setFld_watchTime (c : Chip) (off : Nat) (f : Fld) (v : Nat) : (c.setFld off f v).watchTime = c.watchTime := rfl
@[simp] theorem Chip.setFld_slew (c : Chip) (off : Nat) (f : Fld) (v : Nat) : (c.setFld off f v).slew = c.slew := rfl
@[simp] theorem Chip.setFld_timers (c : Chip) (off : Nat) (f : Fld) (v : Nat) : (c.setFld off f v).timers = c.timers := rfl
@[simp] theorem Chip.setFld_out (c : Chip) (off : Nat) (f : Fld) (v : Nat) : (c.setFld off f v).out = c.out := rfl
@[simp] theorem Chip.setFld_freeCtr (c : Chip) (off : Nat) (f : Fld) (v : Nat) : (c.setFld off f v).freeCtr = c.freeCtr := rfl
@[simp] theorem Chip.setFld_ll (c : Chip) (off : Nat) (f : Fld) (v : Nat) : (c.setFld off f v).ll = c.ll := rfl
@[simp] theorem Chip.setFld_map (c : Chip) (off : Nat) (f : Fld) (v : Nat) : (c.setFld off f v).map = c.map := rfl
@[simp] theorem Chip.setFld_goodMap (c : Chip) (off : Nat) (f : Fld) (v : Nat) : (c.setFld off f v).goodMap = c.goodMap := rfl
@[simp] theorem Chip.setFld_sw (c : Chip) (off : Nat) (f : Fld) (v : Nat) : (c.setFld off f v).sw = c.sw := rfl
@[simp] theorem Chip.setFld_pci (c : Chip) (off : Nat) (f : Fld) (v : Nat) : (c.setFld off f v).pci = c.pci := rfl
@[simp] theorem Chip.setFld_knd (c : Chip) (off : Nat) (f : Fld) (v : Nat) : (c.setFld off f v).knd = c.knd := rfl
@[simp] theorem Chip.setFld_mor (c : Chip) (off : Nat) (f : Fld) (v : Nat) : (c.setFld off f v).mor = c.mor := rfl
@[simp] theorem Chip.setFld_vsi (c : Chip) (off : Nat) (f : Fld) (v : Nat) : (c.setFld off f v).vsi = c.vsi := rfl
@[simp] theorem Chip.setFld_rly (c : Chip) (off : Nat) (f : Fld) (v : Nat) : (c.setFld off f v).rly = c.rly := rfl
@[simp] theorem Chip.setFld_saf (c : Chip) (off : Nat) (f : Fld) (v : Nat) : (c.setFld off f v).saf = c.saf := rfl
@[simp] theorem Chip.setFld_bcn (c : Chip) (off : Nat) (f : Fld) (v : Nat) : (c.setFld off f v).bcn = c.bcn := rfl
@[simp] theorem Chip.setFld_kpr (c : Chip) (off : Nat) (f : Fld) (v : Nat) : (c.setFld off f v).kpr = c.kpr := rfl
@[simp] theorem Chip.setFld_pwr (c : Chip) (off : Nat) (f : Fld) (v : Nat) : (c.setFld off f v).pwr = c.pwr := rfl
@[simp] theorem Chip.setFld_tel (c : Chip) (off : Nat) (f : Fld) (v : Nat) : (c.setFld off f v).tel = c.tel := rfl

@[simp] theorem Chip.setBit_tabA (c : Chip) (off : Nat) (f : Fld) : (c.setBit off f).tabA = c.tabA := rfl
@[simp] theorem Chip.setBit_tabB (c : Chip) (off : Nat) (f : Fld) : (c.setBit off f).tabB = c.tabB := rfl
@[simp] theorem Chip.setBit_tabRef (c : Chip) (off : Nat) (f : Fld) : (c.setBit off f).tabRef = c.tabRef := rfl
@[simp] theorem Chip.setBit_counters (c : Chip) (off : Nat) (f : Fld) : (c.setBit off f).counters = c.counters := rfl
@[simp] theorem Chip.setBit_loPend (c : Chip) (off : Nat) (f : Fld) : (c.setBit off f).loPend = c.loPend := rfl
@[simp] theorem Chip.setBit_hiLatch (c : Chip) (off : Nat) (f : Fld) : (c.setBit off f).hiLatch = c.hiLatch := rfl
@[simp] theorem Chip.setBit_heldAcc (c : Chip) (off : Nat) (f : Fld) : (c.setBit off f).heldAcc = c.heldAcc := rfl
@[simp] theorem Chip.setBit_watchUp (c : Chip) (off : Nat) (f : Fld) : (c.setBit off f).watchUp = c.watchUp := rfl
@[simp] theorem Chip.setBit_watchTime (c : Chip) (off : Nat) (f : Fld) : (c.setBit off f).watchTime = c.watchTime := rfl
@[simp] theorem Chip.setBit_slew (c : Chip) (off : Nat) (f : Fld) : (c.setBit off f).slew = c.slew := rfl
@[simp] theorem Chip.setBit_timers (c : Chip) (off : Nat) (f : Fld) : (c.setBit off f).timers = c.timers := rfl
@[simp] theorem Chip.setBit_out (c : Chip) (off : Nat) (f : Fld) : (c.setBit off f).out = c.out := rfl
@[simp] theorem Chip.setBit_freeCtr (c : Chip) (off : Nat) (f : Fld) : (c.setBit off f).freeCtr = c.freeCtr := rfl
@[simp] theorem Chip.setBit_ll (c : Chip) (off : Nat) (f : Fld) : (c.setBit off f).ll = c.ll := rfl
@[simp] theorem Chip.setBit_map (c : Chip) (off : Nat) (f : Fld) : (c.setBit off f).map = c.map := rfl
@[simp] theorem Chip.setBit_goodMap (c : Chip) (off : Nat) (f : Fld) : (c.setBit off f).goodMap = c.goodMap := rfl
@[simp] theorem Chip.setBit_sw (c : Chip) (off : Nat) (f : Fld) : (c.setBit off f).sw = c.sw := rfl
@[simp] theorem Chip.setBit_pci (c : Chip) (off : Nat) (f : Fld) : (c.setBit off f).pci = c.pci := rfl
@[simp] theorem Chip.setBit_knd (c : Chip) (off : Nat) (f : Fld) : (c.setBit off f).knd = c.knd := rfl
@[simp] theorem Chip.setBit_mor (c : Chip) (off : Nat) (f : Fld) : (c.setBit off f).mor = c.mor := rfl
@[simp] theorem Chip.setBit_vsi (c : Chip) (off : Nat) (f : Fld) : (c.setBit off f).vsi = c.vsi := rfl
@[simp] theorem Chip.setBit_rly (c : Chip) (off : Nat) (f : Fld) : (c.setBit off f).rly = c.rly := rfl
@[simp] theorem Chip.setBit_saf (c : Chip) (off : Nat) (f : Fld) : (c.setBit off f).saf = c.saf := rfl
@[simp] theorem Chip.setBit_bcn (c : Chip) (off : Nat) (f : Fld) : (c.setBit off f).bcn = c.bcn := rfl
@[simp] theorem Chip.setBit_kpr (c : Chip) (off : Nat) (f : Fld) : (c.setBit off f).kpr = c.kpr := rfl
@[simp] theorem Chip.setBit_pwr (c : Chip) (off : Nat) (f : Fld) : (c.setBit off f).pwr = c.pwr := rfl
@[simp] theorem Chip.setBit_tel (c : Chip) (off : Nat) (f : Fld) : (c.setBit off f).tel = c.tel := rfl

@[simp] theorem Chip.clrFld_tabA (c : Chip) (off : Nat) (f : Fld) : (c.clrFld off f).tabA = c.tabA := rfl
@[simp] theorem Chip.clrFld_tabB (c : Chip) (off : Nat) (f : Fld) : (c.clrFld off f).tabB = c.tabB := rfl
@[simp] theorem Chip.clrFld_tabRef (c : Chip) (off : Nat) (f : Fld) : (c.clrFld off f).tabRef = c.tabRef := rfl
@[simp] theorem Chip.clrFld_counters (c : Chip) (off : Nat) (f : Fld) : (c.clrFld off f).counters = c.counters := rfl
@[simp] theorem Chip.clrFld_loPend (c : Chip) (off : Nat) (f : Fld) : (c.clrFld off f).loPend = c.loPend := rfl
@[simp] theorem Chip.clrFld_hiLatch (c : Chip) (off : Nat) (f : Fld) : (c.clrFld off f).hiLatch = c.hiLatch := rfl
@[simp] theorem Chip.clrFld_heldAcc (c : Chip) (off : Nat) (f : Fld) : (c.clrFld off f).heldAcc = c.heldAcc := rfl
@[simp] theorem Chip.clrFld_watchUp (c : Chip) (off : Nat) (f : Fld) : (c.clrFld off f).watchUp = c.watchUp := rfl
@[simp] theorem Chip.clrFld_watchTime (c : Chip) (off : Nat) (f : Fld) : (c.clrFld off f).watchTime = c.watchTime := rfl
@[simp] theorem Chip.clrFld_slew (c : Chip) (off : Nat) (f : Fld) : (c.clrFld off f).slew = c.slew := rfl
@[simp] theorem Chip.clrFld_timers (c : Chip) (off : Nat) (f : Fld) : (c.clrFld off f).timers = c.timers := rfl
@[simp] theorem Chip.clrFld_out (c : Chip) (off : Nat) (f : Fld) : (c.clrFld off f).out = c.out := rfl
@[simp] theorem Chip.clrFld_freeCtr (c : Chip) (off : Nat) (f : Fld) : (c.clrFld off f).freeCtr = c.freeCtr := rfl
@[simp] theorem Chip.clrFld_ll (c : Chip) (off : Nat) (f : Fld) : (c.clrFld off f).ll = c.ll := rfl
@[simp] theorem Chip.clrFld_map (c : Chip) (off : Nat) (f : Fld) : (c.clrFld off f).map = c.map := rfl
@[simp] theorem Chip.clrFld_goodMap (c : Chip) (off : Nat) (f : Fld) : (c.clrFld off f).goodMap = c.goodMap := rfl
@[simp] theorem Chip.clrFld_sw (c : Chip) (off : Nat) (f : Fld) : (c.clrFld off f).sw = c.sw := rfl
@[simp] theorem Chip.clrFld_pci (c : Chip) (off : Nat) (f : Fld) : (c.clrFld off f).pci = c.pci := rfl
@[simp] theorem Chip.clrFld_knd (c : Chip) (off : Nat) (f : Fld) : (c.clrFld off f).knd = c.knd := rfl
@[simp] theorem Chip.clrFld_mor (c : Chip) (off : Nat) (f : Fld) : (c.clrFld off f).mor = c.mor := rfl
@[simp] theorem Chip.clrFld_vsi (c : Chip) (off : Nat) (f : Fld) : (c.clrFld off f).vsi = c.vsi := rfl
@[simp] theorem Chip.clrFld_rly (c : Chip) (off : Nat) (f : Fld) : (c.clrFld off f).rly = c.rly := rfl
@[simp] theorem Chip.clrFld_saf (c : Chip) (off : Nat) (f : Fld) : (c.clrFld off f).saf = c.saf := rfl
@[simp] theorem Chip.clrFld_bcn (c : Chip) (off : Nat) (f : Fld) : (c.clrFld off f).bcn = c.bcn := rfl
@[simp] theorem Chip.clrFld_kpr (c : Chip) (off : Nat) (f : Fld) : (c.clrFld off f).kpr = c.kpr := rfl
@[simp] theorem Chip.clrFld_pwr (c : Chip) (off : Nat) (f : Fld) : (c.clrFld off f).pwr = c.pwr := rfl
@[simp] theorem Chip.clrFld_tel (c : Chip) (off : Nat) (f : Fld) : (c.clrFld off f).tel = c.tel := rfl

@[simp] theorem Chip.putBit_tabA (c : Chip) (off : Nat) (f : Fld) (i : Nat) (b : Bool) : (c.putBit off f i b).tabA = c.tabA := rfl
@[simp] theorem Chip.putBit_tabB (c : Chip) (off : Nat) (f : Fld) (i : Nat) (b : Bool) : (c.putBit off f i b).tabB = c.tabB := rfl
@[simp] theorem Chip.putBit_tabRef (c : Chip) (off : Nat) (f : Fld) (i : Nat) (b : Bool) : (c.putBit off f i b).tabRef = c.tabRef := rfl
@[simp] theorem Chip.putBit_counters (c : Chip) (off : Nat) (f : Fld) (i : Nat) (b : Bool) : (c.putBit off f i b).counters = c.counters := rfl
@[simp] theorem Chip.putBit_loPend (c : Chip) (off : Nat) (f : Fld) (i : Nat) (b : Bool) : (c.putBit off f i b).loPend = c.loPend := rfl
@[simp] theorem Chip.putBit_hiLatch (c : Chip) (off : Nat) (f : Fld) (i : Nat) (b : Bool) : (c.putBit off f i b).hiLatch = c.hiLatch := rfl
@[simp] theorem Chip.putBit_heldAcc (c : Chip) (off : Nat) (f : Fld) (i : Nat) (b : Bool) : (c.putBit off f i b).heldAcc = c.heldAcc := rfl
@[simp] theorem Chip.putBit_watchUp (c : Chip) (off : Nat) (f : Fld) (i : Nat) (b : Bool) : (c.putBit off f i b).watchUp = c.watchUp := rfl
@[simp] theorem Chip.putBit_watchTime (c : Chip) (off : Nat) (f : Fld) (i : Nat) (b : Bool) : (c.putBit off f i b).watchTime = c.watchTime := rfl
@[simp] theorem Chip.putBit_slew (c : Chip) (off : Nat) (f : Fld) (i : Nat) (b : Bool) : (c.putBit off f i b).slew = c.slew := rfl
@[simp] theorem Chip.putBit_timers (c : Chip) (off : Nat) (f : Fld) (i : Nat) (b : Bool) : (c.putBit off f i b).timers = c.timers := rfl
@[simp] theorem Chip.putBit_out (c : Chip) (off : Nat) (f : Fld) (i : Nat) (b : Bool) : (c.putBit off f i b).out = c.out := rfl
@[simp] theorem Chip.putBit_freeCtr (c : Chip) (off : Nat) (f : Fld) (i : Nat) (b : Bool) : (c.putBit off f i b).freeCtr = c.freeCtr := rfl
@[simp] theorem Chip.putBit_ll (c : Chip) (off : Nat) (f : Fld) (i : Nat) (b : Bool) : (c.putBit off f i b).ll = c.ll := rfl
@[simp] theorem Chip.putBit_map (c : Chip) (off : Nat) (f : Fld) (i : Nat) (b : Bool) : (c.putBit off f i b).map = c.map := rfl
@[simp] theorem Chip.putBit_goodMap (c : Chip) (off : Nat) (f : Fld) (i : Nat) (b : Bool) : (c.putBit off f i b).goodMap = c.goodMap := rfl
@[simp] theorem Chip.putBit_sw (c : Chip) (off : Nat) (f : Fld) (i : Nat) (b : Bool) : (c.putBit off f i b).sw = c.sw := rfl
@[simp] theorem Chip.putBit_pci (c : Chip) (off : Nat) (f : Fld) (i : Nat) (b : Bool) : (c.putBit off f i b).pci = c.pci := rfl
@[simp] theorem Chip.putBit_knd (c : Chip) (off : Nat) (f : Fld) (i : Nat) (b : Bool) : (c.putBit off f i b).knd = c.knd := rfl
@[simp] theorem Chip.putBit_mor (c : Chip) (off : Nat) (f : Fld) (i : Nat) (b : Bool) : (c.putBit off f i b).mor = c.mor := rfl
@[simp] theorem Chip.putBit_vsi (c : Chip) (off : Nat) (f : Fld) (i : Nat) (b : Bool) : (c.putBit off f i b).vsi = c.vsi := rfl
@[simp] theorem Chip.putBit_rly (c : Chip) (off : Nat) (f : Fld) (i : Nat) (b : Bool) : (c.putBit off f i b).rly = c.rly := rfl
@[simp] theorem Chip.putBit_saf (c : Chip) (off : Nat) (f : Fld) (i : Nat) (b : Bool) : (c.putBit off f i b).saf = c.saf := rfl
@[simp] theorem Chip.putBit_bcn (c : Chip) (off : Nat) (f : Fld) (i : Nat) (b : Bool) : (c.putBit off f i b).bcn = c.bcn := rfl
@[simp] theorem Chip.putBit_kpr (c : Chip) (off : Nat) (f : Fld) (i : Nat) (b : Bool) : (c.putBit off f i b).kpr = c.kpr := rfl
@[simp] theorem Chip.putBit_pwr (c : Chip) (off : Nat) (f : Fld) (i : Nat) (b : Bool) : (c.putBit off f i b).pwr = c.pwr := rfl
@[simp] theorem Chip.putBit_tel (c : Chip) (off : Nat) (f : Fld) (i : Nat) (b : Bool) : (c.putBit off f i b).tel = c.tel := rfl

@[simp] theorem Chip.resetReg_regs (c : Chip) (off : Nat) : (c.resetReg off).regs = c.regs.erase off := rfl
@[simp] theorem Chip.resetReg_tabA (c : Chip) (off : Nat) : (c.resetReg off).tabA = c.tabA := rfl
@[simp] theorem Chip.resetReg_tabB (c : Chip) (off : Nat) : (c.resetReg off).tabB = c.tabB := rfl
@[simp] theorem Chip.resetReg_tabRef (c : Chip) (off : Nat) : (c.resetReg off).tabRef = c.tabRef := rfl
@[simp] theorem Chip.resetReg_counters (c : Chip) (off : Nat) : (c.resetReg off).counters = c.counters := rfl
@[simp] theorem Chip.resetReg_loPend (c : Chip) (off : Nat) : (c.resetReg off).loPend = c.loPend := rfl
@[simp] theorem Chip.resetReg_hiLatch (c : Chip) (off : Nat) : (c.resetReg off).hiLatch = c.hiLatch := rfl
@[simp] theorem Chip.resetReg_heldAcc (c : Chip) (off : Nat) : (c.resetReg off).heldAcc = c.heldAcc := rfl
@[simp] theorem Chip.resetReg_watchUp (c : Chip) (off : Nat) : (c.resetReg off).watchUp = c.watchUp := rfl
@[simp] theorem Chip.resetReg_watchTime (c : Chip) (off : Nat) : (c.resetReg off).watchTime = c.watchTime := rfl
@[simp] theorem Chip.resetReg_slew (c : Chip) (off : Nat) : (c.resetReg off).slew = c.slew := rfl
@[simp] theorem Chip.resetReg_timers (c : Chip) (off : Nat) : (c.resetReg off).timers = c.timers := rfl
@[simp] theorem Chip.resetReg_out (c : Chip) (off : Nat) : (c.resetReg off).out = c.out := rfl
@[simp] theorem Chip.resetReg_freeCtr (c : Chip) (off : Nat) : (c.resetReg off).freeCtr = c.freeCtr := rfl
@[simp] theorem Chip.resetReg_ll (c : Chip) (off : Nat) : (c.resetReg off).ll = c.ll := rfl
@[simp] theorem Chip.resetReg_map (c : Chip) (off : Nat) : (c.resetReg off).map = c.map := rfl
@[simp] theorem Chip.resetReg_goodMap (c : Chip) (off : Nat) : (c.resetReg off).goodMap = c.goodMap := rfl
@[simp] theorem Chip.resetReg_sw (c : Chip) (off : Nat) : (c.resetReg off).sw = c.sw := rfl
@[simp] theorem Chip.resetReg_pci (c : Chip) (off : Nat) : (c.resetReg off).pci = c.pci := rfl
@[simp] theorem Chip.resetReg_knd (c : Chip) (off : Nat) : (c.resetReg off).knd = c.knd := rfl
@[simp] theorem Chip.resetReg_mor (c : Chip) (off : Nat) : (c.resetReg off).mor = c.mor := rfl
@[simp] theorem Chip.resetReg_vsi (c : Chip) (off : Nat) : (c.resetReg off).vsi = c.vsi := rfl
@[simp] theorem Chip.resetReg_rly (c : Chip) (off : Nat) : (c.resetReg off).rly = c.rly := rfl
@[simp] theorem Chip.resetReg_saf (c : Chip) (off : Nat) : (c.resetReg off).saf = c.saf := rfl
@[simp] theorem Chip.resetReg_bcn (c : Chip) (off : Nat) : (c.resetReg off).bcn = c.bcn := rfl
@[simp] theorem Chip.resetReg_kpr (c : Chip) (off : Nat) : (c.resetReg off).kpr = c.kpr := rfl
@[simp] theorem Chip.resetReg_pwr (c : Chip) (off : Nat) : (c.resetReg off).pwr = c.pwr := rfl
@[simp] theorem Chip.resetReg_tel (c : Chip) (off : Nat) : (c.resetReg off).tel = c.tel := rfl

@[simp] theorem Chip.putTab_regs (c : Chip) (off : Nat) (w : Word) : (c.putTab off w).regs = c.regs := rfl
@[simp] theorem Chip.putTab_tabA (c : Chip) (off : Nat) (w : Word) : (c.putTab off w).tabA = SMap.set c.tabA off w (resetWordAt off) := rfl
@[simp] theorem Chip.putTab_tabB (c : Chip) (off : Nat) (w : Word) : (c.putTab off w).tabB = SMap.set c.tabB off w (resetWordAt off) := rfl
@[simp] theorem Chip.putTab_tabRef (c : Chip) (off : Nat) (w : Word) : (c.putTab off w).tabRef = SMap.set c.tabRef off w (resetWordAt off) := rfl
@[simp] theorem Chip.putTab_counters (c : Chip) (off : Nat) (w : Word) : (c.putTab off w).counters = c.counters := rfl
@[simp] theorem Chip.putTab_loPend (c : Chip) (off : Nat) (w : Word) : (c.putTab off w).loPend = c.loPend := rfl
@[simp] theorem Chip.putTab_hiLatch (c : Chip) (off : Nat) (w : Word) : (c.putTab off w).hiLatch = c.hiLatch := rfl
@[simp] theorem Chip.putTab_heldAcc (c : Chip) (off : Nat) (w : Word) : (c.putTab off w).heldAcc = c.heldAcc := rfl
@[simp] theorem Chip.putTab_watchUp (c : Chip) (off : Nat) (w : Word) : (c.putTab off w).watchUp = c.watchUp := rfl
@[simp] theorem Chip.putTab_watchTime (c : Chip) (off : Nat) (w : Word) : (c.putTab off w).watchTime = c.watchTime := rfl
@[simp] theorem Chip.putTab_slew (c : Chip) (off : Nat) (w : Word) : (c.putTab off w).slew = c.slew := rfl
@[simp] theorem Chip.putTab_timers (c : Chip) (off : Nat) (w : Word) : (c.putTab off w).timers = c.timers := rfl
@[simp] theorem Chip.putTab_out (c : Chip) (off : Nat) (w : Word) : (c.putTab off w).out = c.out := rfl
@[simp] theorem Chip.putTab_freeCtr (c : Chip) (off : Nat) (w : Word) : (c.putTab off w).freeCtr = c.freeCtr := rfl
@[simp] theorem Chip.putTab_ll (c : Chip) (off : Nat) (w : Word) : (c.putTab off w).ll = c.ll := rfl
@[simp] theorem Chip.putTab_map (c : Chip) (off : Nat) (w : Word) : (c.putTab off w).map = c.map := rfl
@[simp] theorem Chip.putTab_goodMap (c : Chip) (off : Nat) (w : Word) : (c.putTab off w).goodMap = c.goodMap := rfl
@[simp] theorem Chip.putTab_sw (c : Chip) (off : Nat) (w : Word) : (c.putTab off w).sw = c.sw := rfl
@[simp] theorem Chip.putTab_pci (c : Chip) (off : Nat) (w : Word) : (c.putTab off w).pci = c.pci := rfl
@[simp] theorem Chip.putTab_knd (c : Chip) (off : Nat) (w : Word) : (c.putTab off w).knd = c.knd := rfl
@[simp] theorem Chip.putTab_mor (c : Chip) (off : Nat) (w : Word) : (c.putTab off w).mor = c.mor := rfl
@[simp] theorem Chip.putTab_vsi (c : Chip) (off : Nat) (w : Word) : (c.putTab off w).vsi = c.vsi := rfl
@[simp] theorem Chip.putTab_rly (c : Chip) (off : Nat) (w : Word) : (c.putTab off w).rly = c.rly := rfl
@[simp] theorem Chip.putTab_saf (c : Chip) (off : Nat) (w : Word) : (c.putTab off w).saf = c.saf := rfl
@[simp] theorem Chip.putTab_bcn (c : Chip) (off : Nat) (w : Word) : (c.putTab off w).bcn = c.bcn := rfl
@[simp] theorem Chip.putTab_kpr (c : Chip) (off : Nat) (w : Word) : (c.putTab off w).kpr = c.kpr := rfl
@[simp] theorem Chip.putTab_pwr (c : Chip) (off : Nat) (w : Word) : (c.putTab off w).pwr = c.pwr := rfl
@[simp] theorem Chip.putTab_tel (c : Chip) (off : Nat) (w : Word) : (c.putTab off w).tel = c.tel := rfl

@[simp] theorem Chip.commitWord_regs (c : Chip) (off : Nat) : (c.commitWord off).regs = c.regs := rfl
@[simp] theorem Chip.commitWord_counters (c : Chip) (off : Nat) : (c.commitWord off).counters = c.counters := rfl
@[simp] theorem Chip.commitWord_loPend (c : Chip) (off : Nat) : (c.commitWord off).loPend = c.loPend := rfl
@[simp] theorem Chip.commitWord_hiLatch (c : Chip) (off : Nat) : (c.commitWord off).hiLatch = c.hiLatch := rfl
@[simp] theorem Chip.commitWord_heldAcc (c : Chip) (off : Nat) : (c.commitWord off).heldAcc = c.heldAcc := rfl
@[simp] theorem Chip.commitWord_watchUp (c : Chip) (off : Nat) : (c.commitWord off).watchUp = c.watchUp := rfl
@[simp] theorem Chip.commitWord_watchTime (c : Chip) (off : Nat) : (c.commitWord off).watchTime = c.watchTime := rfl
@[simp] theorem Chip.commitWord_slew (c : Chip) (off : Nat) : (c.commitWord off).slew = c.slew := rfl
@[simp] theorem Chip.commitWord_timers (c : Chip) (off : Nat) : (c.commitWord off).timers = c.timers := rfl
@[simp] theorem Chip.commitWord_out (c : Chip) (off : Nat) : (c.commitWord off).out = c.out := rfl
@[simp] theorem Chip.commitWord_freeCtr (c : Chip) (off : Nat) : (c.commitWord off).freeCtr = c.freeCtr := rfl
@[simp] theorem Chip.commitWord_ll (c : Chip) (off : Nat) : (c.commitWord off).ll = c.ll := rfl
@[simp] theorem Chip.commitWord_map (c : Chip) (off : Nat) : (c.commitWord off).map = c.map := rfl
@[simp] theorem Chip.commitWord_goodMap (c : Chip) (off : Nat) : (c.commitWord off).goodMap = c.goodMap := rfl
@[simp] theorem Chip.commitWord_sw (c : Chip) (off : Nat) : (c.commitWord off).sw = c.sw := rfl
@[simp] theorem Chip.commitWord_pci (c : Chip) (off : Nat) : (c.commitWord off).pci = c.pci := rfl
@[simp] theorem Chip.commitWord_knd (c : Chip) (off : Nat) : (c.commitWord off).knd = c.knd := rfl
@[simp] theorem Chip.commitWord_mor (c : Chip) (off : Nat) : (c.commitWord off).mor = c.mor := rfl
@[simp] theorem Chip.commitWord_vsi (c : Chip) (off : Nat) : (c.commitWord off).vsi = c.vsi := rfl
@[simp] theorem Chip.commitWord_rly (c : Chip) (off : Nat) : (c.commitWord off).rly = c.rly := rfl
@[simp] theorem Chip.commitWord_saf (c : Chip) (off : Nat) : (c.commitWord off).saf = c.saf := rfl
@[simp] theorem Chip.commitWord_bcn (c : Chip) (off : Nat) : (c.commitWord off).bcn = c.bcn := rfl
@[simp] theorem Chip.commitWord_kpr (c : Chip) (off : Nat) : (c.commitWord off).kpr = c.kpr := rfl
@[simp] theorem Chip.commitWord_pwr (c : Chip) (off : Nat) : (c.commitWord off).pwr = c.pwr := rfl
@[simp] theorem Chip.commitWord_tel (c : Chip) (off : Nat) : (c.commitWord off).tel = c.tel := rfl

@[simp] theorem Chip.ctrAdd_regs (c : Chip) (kind i idx n : Nat) : (c.ctrAdd kind i idx n).regs = c.regs := rfl
@[simp] theorem Chip.ctrAdd_tabA (c : Chip) (kind i idx n : Nat) : (c.ctrAdd kind i idx n).tabA = c.tabA := rfl
@[simp] theorem Chip.ctrAdd_tabB (c : Chip) (kind i idx n : Nat) : (c.ctrAdd kind i idx n).tabB = c.tabB := rfl
@[simp] theorem Chip.ctrAdd_tabRef (c : Chip) (kind i idx n : Nat) : (c.ctrAdd kind i idx n).tabRef = c.tabRef := rfl
@[simp] theorem Chip.ctrAdd_loPend (c : Chip) (kind i idx n : Nat) : (c.ctrAdd kind i idx n).loPend = c.loPend := rfl
@[simp] theorem Chip.ctrAdd_hiLatch (c : Chip) (kind i idx n : Nat) : (c.ctrAdd kind i idx n).hiLatch = c.hiLatch := rfl
@[simp] theorem Chip.ctrAdd_heldAcc (c : Chip) (kind i idx n : Nat) : (c.ctrAdd kind i idx n).heldAcc = c.heldAcc := rfl
@[simp] theorem Chip.ctrAdd_watchUp (c : Chip) (kind i idx n : Nat) : (c.ctrAdd kind i idx n).watchUp = c.watchUp := rfl
@[simp] theorem Chip.ctrAdd_watchTime (c : Chip) (kind i idx n : Nat) : (c.ctrAdd kind i idx n).watchTime = c.watchTime := rfl
@[simp] theorem Chip.ctrAdd_slew (c : Chip) (kind i idx n : Nat) : (c.ctrAdd kind i idx n).slew = c.slew := rfl
@[simp] theorem Chip.ctrAdd_timers (c : Chip) (kind i idx n : Nat) : (c.ctrAdd kind i idx n).timers = c.timers := rfl
@[simp] theorem Chip.ctrAdd_out (c : Chip) (kind i idx n : Nat) : (c.ctrAdd kind i idx n).out = c.out := rfl
@[simp] theorem Chip.ctrAdd_freeCtr (c : Chip) (kind i idx n : Nat) : (c.ctrAdd kind i idx n).freeCtr = c.freeCtr := rfl
@[simp] theorem Chip.ctrAdd_ll (c : Chip) (kind i idx n : Nat) : (c.ctrAdd kind i idx n).ll = c.ll := rfl
@[simp] theorem Chip.ctrAdd_map (c : Chip) (kind i idx n : Nat) : (c.ctrAdd kind i idx n).map = c.map := rfl
@[simp] theorem Chip.ctrAdd_goodMap (c : Chip) (kind i idx n : Nat) : (c.ctrAdd kind i idx n).goodMap = c.goodMap := rfl
@[simp] theorem Chip.ctrAdd_sw (c : Chip) (kind i idx n : Nat) : (c.ctrAdd kind i idx n).sw = c.sw := rfl
@[simp] theorem Chip.ctrAdd_pci (c : Chip) (kind i idx n : Nat) : (c.ctrAdd kind i idx n).pci = c.pci := rfl
@[simp] theorem Chip.ctrAdd_knd (c : Chip) (kind i idx n : Nat) : (c.ctrAdd kind i idx n).knd = c.knd := rfl
@[simp] theorem Chip.ctrAdd_mor (c : Chip) (kind i idx n : Nat) : (c.ctrAdd kind i idx n).mor = c.mor := rfl
@[simp] theorem Chip.ctrAdd_vsi (c : Chip) (kind i idx n : Nat) : (c.ctrAdd kind i idx n).vsi = c.vsi := rfl
@[simp] theorem Chip.ctrAdd_rly (c : Chip) (kind i idx n : Nat) : (c.ctrAdd kind i idx n).rly = c.rly := rfl
@[simp] theorem Chip.ctrAdd_saf (c : Chip) (kind i idx n : Nat) : (c.ctrAdd kind i idx n).saf = c.saf := rfl
@[simp] theorem Chip.ctrAdd_bcn (c : Chip) (kind i idx n : Nat) : (c.ctrAdd kind i idx n).bcn = c.bcn := rfl
@[simp] theorem Chip.ctrAdd_kpr (c : Chip) (kind i idx n : Nat) : (c.ctrAdd kind i idx n).kpr = c.kpr := rfl
@[simp] theorem Chip.ctrAdd_pwr (c : Chip) (kind i idx n : Nat) : (c.ctrAdd kind i idx n).pwr = c.pwr := rfl
@[simp] theorem Chip.ctrAdd_tel (c : Chip) (kind i idx n : Nat) : (c.ctrAdd kind i idx n).tel = c.tel := rfl

@[simp] theorem Chip.ctrInc_regs (c : Chip) (kind i idx : Nat) : (c.ctrInc kind i idx).regs = c.regs := rfl
@[simp] theorem Chip.ctrInc_tabA (c : Chip) (kind i idx : Nat) : (c.ctrInc kind i idx).tabA = c.tabA := rfl
@[simp] theorem Chip.ctrInc_tabB (c : Chip) (kind i idx : Nat) : (c.ctrInc kind i idx).tabB = c.tabB := rfl
@[simp] theorem Chip.ctrInc_tabRef (c : Chip) (kind i idx : Nat) : (c.ctrInc kind i idx).tabRef = c.tabRef := rfl
@[simp] theorem Chip.ctrInc_loPend (c : Chip) (kind i idx : Nat) : (c.ctrInc kind i idx).loPend = c.loPend := rfl
@[simp] theorem Chip.ctrInc_hiLatch (c : Chip) (kind i idx : Nat) : (c.ctrInc kind i idx).hiLatch = c.hiLatch := rfl
@[simp] theorem Chip.ctrInc_heldAcc (c : Chip) (kind i idx : Nat) : (c.ctrInc kind i idx).heldAcc = c.heldAcc := rfl
@[simp] theorem Chip.ctrInc_watchUp (c : Chip) (kind i idx : Nat) : (c.ctrInc kind i idx).watchUp = c.watchUp := rfl
@[simp] theorem Chip.ctrInc_watchTime (c : Chip) (kind i idx : Nat) : (c.ctrInc kind i idx).watchTime = c.watchTime := rfl
@[simp] theorem Chip.ctrInc_slew (c : Chip) (kind i idx : Nat) : (c.ctrInc kind i idx).slew = c.slew := rfl
@[simp] theorem Chip.ctrInc_timers (c : Chip) (kind i idx : Nat) : (c.ctrInc kind i idx).timers = c.timers := rfl
@[simp] theorem Chip.ctrInc_out (c : Chip) (kind i idx : Nat) : (c.ctrInc kind i idx).out = c.out := rfl
@[simp] theorem Chip.ctrInc_freeCtr (c : Chip) (kind i idx : Nat) : (c.ctrInc kind i idx).freeCtr = c.freeCtr := rfl
@[simp] theorem Chip.ctrInc_ll (c : Chip) (kind i idx : Nat) : (c.ctrInc kind i idx).ll = c.ll := rfl
@[simp] theorem Chip.ctrInc_map (c : Chip) (kind i idx : Nat) : (c.ctrInc kind i idx).map = c.map := rfl
@[simp] theorem Chip.ctrInc_goodMap (c : Chip) (kind i idx : Nat) : (c.ctrInc kind i idx).goodMap = c.goodMap := rfl
@[simp] theorem Chip.ctrInc_sw (c : Chip) (kind i idx : Nat) : (c.ctrInc kind i idx).sw = c.sw := rfl
@[simp] theorem Chip.ctrInc_pci (c : Chip) (kind i idx : Nat) : (c.ctrInc kind i idx).pci = c.pci := rfl
@[simp] theorem Chip.ctrInc_knd (c : Chip) (kind i idx : Nat) : (c.ctrInc kind i idx).knd = c.knd := rfl
@[simp] theorem Chip.ctrInc_mor (c : Chip) (kind i idx : Nat) : (c.ctrInc kind i idx).mor = c.mor := rfl
@[simp] theorem Chip.ctrInc_vsi (c : Chip) (kind i idx : Nat) : (c.ctrInc kind i idx).vsi = c.vsi := rfl
@[simp] theorem Chip.ctrInc_rly (c : Chip) (kind i idx : Nat) : (c.ctrInc kind i idx).rly = c.rly := rfl
@[simp] theorem Chip.ctrInc_saf (c : Chip) (kind i idx : Nat) : (c.ctrInc kind i idx).saf = c.saf := rfl
@[simp] theorem Chip.ctrInc_bcn (c : Chip) (kind i idx : Nat) : (c.ctrInc kind i idx).bcn = c.bcn := rfl
@[simp] theorem Chip.ctrInc_kpr (c : Chip) (kind i idx : Nat) : (c.ctrInc kind i idx).kpr = c.kpr := rfl
@[simp] theorem Chip.ctrInc_pwr (c : Chip) (kind i idx : Nat) : (c.ctrInc kind i idx).pwr = c.pwr := rfl
@[simp] theorem Chip.ctrInc_tel (c : Chip) (kind i idx : Nat) : (c.ctrInc kind i idx).tel = c.tel := rfl

@[simp] theorem Chip.ctrClear_regs (c : Chip) (kind i : Nat) : (c.ctrClear kind i).regs = c.regs := rfl
@[simp] theorem Chip.ctrClear_tabA (c : Chip) (kind i : Nat) : (c.ctrClear kind i).tabA = c.tabA := rfl
@[simp] theorem Chip.ctrClear_tabB (c : Chip) (kind i : Nat) : (c.ctrClear kind i).tabB = c.tabB := rfl
@[simp] theorem Chip.ctrClear_tabRef (c : Chip) (kind i : Nat) : (c.ctrClear kind i).tabRef = c.tabRef := rfl
@[simp] theorem Chip.ctrClear_loPend (c : Chip) (kind i : Nat) : (c.ctrClear kind i).loPend = c.loPend := rfl
@[simp] theorem Chip.ctrClear_hiLatch (c : Chip) (kind i : Nat) : (c.ctrClear kind i).hiLatch = c.hiLatch := rfl
@[simp] theorem Chip.ctrClear_heldAcc (c : Chip) (kind i : Nat) : (c.ctrClear kind i).heldAcc = c.heldAcc := rfl
@[simp] theorem Chip.ctrClear_watchUp (c : Chip) (kind i : Nat) : (c.ctrClear kind i).watchUp = c.watchUp := rfl
@[simp] theorem Chip.ctrClear_watchTime (c : Chip) (kind i : Nat) : (c.ctrClear kind i).watchTime = c.watchTime := rfl
@[simp] theorem Chip.ctrClear_slew (c : Chip) (kind i : Nat) : (c.ctrClear kind i).slew = c.slew := rfl
@[simp] theorem Chip.ctrClear_timers (c : Chip) (kind i : Nat) : (c.ctrClear kind i).timers = c.timers := rfl
@[simp] theorem Chip.ctrClear_out (c : Chip) (kind i : Nat) : (c.ctrClear kind i).out = c.out := rfl
@[simp] theorem Chip.ctrClear_freeCtr (c : Chip) (kind i : Nat) : (c.ctrClear kind i).freeCtr = c.freeCtr := rfl
@[simp] theorem Chip.ctrClear_ll (c : Chip) (kind i : Nat) : (c.ctrClear kind i).ll = c.ll := rfl
@[simp] theorem Chip.ctrClear_map (c : Chip) (kind i : Nat) : (c.ctrClear kind i).map = c.map := rfl
@[simp] theorem Chip.ctrClear_goodMap (c : Chip) (kind i : Nat) : (c.ctrClear kind i).goodMap = c.goodMap := rfl
@[simp] theorem Chip.ctrClear_sw (c : Chip) (kind i : Nat) : (c.ctrClear kind i).sw = c.sw := rfl
@[simp] theorem Chip.ctrClear_pci (c : Chip) (kind i : Nat) : (c.ctrClear kind i).pci = c.pci := rfl
@[simp] theorem Chip.ctrClear_knd (c : Chip) (kind i : Nat) : (c.ctrClear kind i).knd = c.knd := rfl
@[simp] theorem Chip.ctrClear_mor (c : Chip) (kind i : Nat) : (c.ctrClear kind i).mor = c.mor := rfl
@[simp] theorem Chip.ctrClear_vsi (c : Chip) (kind i : Nat) : (c.ctrClear kind i).vsi = c.vsi := rfl
@[simp] theorem Chip.ctrClear_rly (c : Chip) (kind i : Nat) : (c.ctrClear kind i).rly = c.rly := rfl
@[simp] theorem Chip.ctrClear_saf (c : Chip) (kind i : Nat) : (c.ctrClear kind i).saf = c.saf := rfl
@[simp] theorem Chip.ctrClear_bcn (c : Chip) (kind i : Nat) : (c.ctrClear kind i).bcn = c.bcn := rfl
@[simp] theorem Chip.ctrClear_kpr (c : Chip) (kind i : Nat) : (c.ctrClear kind i).kpr = c.kpr := rfl
@[simp] theorem Chip.ctrClear_pwr (c : Chip) (kind i : Nat) : (c.ctrClear kind i).pwr = c.pwr := rfl
@[simp] theorem Chip.ctrClear_tel (c : Chip) (kind i : Nat) : (c.ctrClear kind i).tel = c.tel := rfl

@[simp] theorem Chip.stCtr_regs (c : Chip) (p idx : Nat) : (c.stCtr p idx).regs = c.regs := rfl
@[simp] theorem Chip.stCtr_tabA (c : Chip) (p idx : Nat) : (c.stCtr p idx).tabA = c.tabA := rfl
@[simp] theorem Chip.stCtr_tabB (c : Chip) (p idx : Nat) : (c.stCtr p idx).tabB = c.tabB := rfl
@[simp] theorem Chip.stCtr_tabRef (c : Chip) (p idx : Nat) : (c.stCtr p idx).tabRef = c.tabRef := rfl
@[simp] theorem Chip.stCtr_loPend (c : Chip) (p idx : Nat) : (c.stCtr p idx).loPend = c.loPend := rfl
@[simp] theorem Chip.stCtr_hiLatch (c : Chip) (p idx : Nat) : (c.stCtr p idx).hiLatch = c.hiLatch := rfl
@[simp] theorem Chip.stCtr_heldAcc (c : Chip) (p idx : Nat) : (c.stCtr p idx).heldAcc = c.heldAcc := rfl
@[simp] theorem Chip.stCtr_watchUp (c : Chip) (p idx : Nat) : (c.stCtr p idx).watchUp = c.watchUp := rfl
@[simp] theorem Chip.stCtr_watchTime (c : Chip) (p idx : Nat) : (c.stCtr p idx).watchTime = c.watchTime := rfl
@[simp] theorem Chip.stCtr_slew (c : Chip) (p idx : Nat) : (c.stCtr p idx).slew = c.slew := rfl
@[simp] theorem Chip.stCtr_timers (c : Chip) (p idx : Nat) : (c.stCtr p idx).timers = c.timers := rfl
@[simp] theorem Chip.stCtr_out (c : Chip) (p idx : Nat) : (c.stCtr p idx).out = c.out := rfl
@[simp] theorem Chip.stCtr_freeCtr (c : Chip) (p idx : Nat) : (c.stCtr p idx).freeCtr = c.freeCtr := rfl
@[simp] theorem Chip.stCtr_ll (c : Chip) (p idx : Nat) : (c.stCtr p idx).ll = c.ll := rfl
@[simp] theorem Chip.stCtr_map (c : Chip) (p idx : Nat) : (c.stCtr p idx).map = c.map := rfl
@[simp] theorem Chip.stCtr_goodMap (c : Chip) (p idx : Nat) : (c.stCtr p idx).goodMap = c.goodMap := rfl
@[simp] theorem Chip.stCtr_sw (c : Chip) (p idx : Nat) : (c.stCtr p idx).sw = c.sw := rfl
@[simp] theorem Chip.stCtr_pci (c : Chip) (p idx : Nat) : (c.stCtr p idx).pci = c.pci := rfl
@[simp] theorem Chip.stCtr_knd (c : Chip) (p idx : Nat) : (c.stCtr p idx).knd = c.knd := rfl
@[simp] theorem Chip.stCtr_mor (c : Chip) (p idx : Nat) : (c.stCtr p idx).mor = c.mor := rfl
@[simp] theorem Chip.stCtr_vsi (c : Chip) (p idx : Nat) : (c.stCtr p idx).vsi = c.vsi := rfl
@[simp] theorem Chip.stCtr_rly (c : Chip) (p idx : Nat) : (c.stCtr p idx).rly = c.rly := rfl
@[simp] theorem Chip.stCtr_saf (c : Chip) (p idx : Nat) : (c.stCtr p idx).saf = c.saf := rfl
@[simp] theorem Chip.stCtr_bcn (c : Chip) (p idx : Nat) : (c.stCtr p idx).bcn = c.bcn := rfl
@[simp] theorem Chip.stCtr_kpr (c : Chip) (p idx : Nat) : (c.stCtr p idx).kpr = c.kpr := rfl
@[simp] theorem Chip.stCtr_pwr (c : Chip) (p idx : Nat) : (c.stCtr p idx).pwr = c.pwr := rfl
@[simp] theorem Chip.stCtr_tel (c : Chip) (p idx : Nat) : (c.stCtr p idx).tel = c.tel := rfl

@[simp] theorem Chip.emit_regs (c : Chip) (o : Out) : (c.emit o).regs = c.regs := rfl
@[simp] theorem Chip.emit_tabA (c : Chip) (o : Out) : (c.emit o).tabA = c.tabA := rfl
@[simp] theorem Chip.emit_tabB (c : Chip) (o : Out) : (c.emit o).tabB = c.tabB := rfl
@[simp] theorem Chip.emit_tabRef (c : Chip) (o : Out) : (c.emit o).tabRef = c.tabRef := rfl
@[simp] theorem Chip.emit_counters (c : Chip) (o : Out) : (c.emit o).counters = c.counters := rfl
@[simp] theorem Chip.emit_loPend (c : Chip) (o : Out) : (c.emit o).loPend = c.loPend := rfl
@[simp] theorem Chip.emit_hiLatch (c : Chip) (o : Out) : (c.emit o).hiLatch = c.hiLatch := rfl
@[simp] theorem Chip.emit_heldAcc (c : Chip) (o : Out) : (c.emit o).heldAcc = c.heldAcc := rfl
@[simp] theorem Chip.emit_watchUp (c : Chip) (o : Out) : (c.emit o).watchUp = c.watchUp := rfl
@[simp] theorem Chip.emit_watchTime (c : Chip) (o : Out) : (c.emit o).watchTime = c.watchTime := rfl
@[simp] theorem Chip.emit_slew (c : Chip) (o : Out) : (c.emit o).slew = c.slew := rfl
@[simp] theorem Chip.emit_timers (c : Chip) (o : Out) : (c.emit o).timers = c.timers := rfl
@[simp] theorem Chip.emit_out (c : Chip) (o : Out) : (c.emit o).out = o :: c.out := rfl
@[simp] theorem Chip.emit_freeCtr (c : Chip) (o : Out) : (c.emit o).freeCtr = c.freeCtr := rfl
@[simp] theorem Chip.emit_ll (c : Chip) (o : Out) : (c.emit o).ll = c.ll := rfl
@[simp] theorem Chip.emit_map (c : Chip) (o : Out) : (c.emit o).map = c.map := rfl
@[simp] theorem Chip.emit_goodMap (c : Chip) (o : Out) : (c.emit o).goodMap = c.goodMap := rfl
@[simp] theorem Chip.emit_sw (c : Chip) (o : Out) : (c.emit o).sw = c.sw := rfl
@[simp] theorem Chip.emit_pci (c : Chip) (o : Out) : (c.emit o).pci = c.pci := rfl
@[simp] theorem Chip.emit_knd (c : Chip) (o : Out) : (c.emit o).knd = c.knd := rfl
@[simp] theorem Chip.emit_mor (c : Chip) (o : Out) : (c.emit o).mor = c.mor := rfl
@[simp] theorem Chip.emit_vsi (c : Chip) (o : Out) : (c.emit o).vsi = c.vsi := rfl
@[simp] theorem Chip.emit_rly (c : Chip) (o : Out) : (c.emit o).rly = c.rly := rfl
@[simp] theorem Chip.emit_saf (c : Chip) (o : Out) : (c.emit o).saf = c.saf := rfl
@[simp] theorem Chip.emit_bcn (c : Chip) (o : Out) : (c.emit o).bcn = c.bcn := rfl
@[simp] theorem Chip.emit_kpr (c : Chip) (o : Out) : (c.emit o).kpr = c.kpr := rfl
@[simp] theorem Chip.emit_pwr (c : Chip) (o : Out) : (c.emit o).pwr = c.pwr := rfl
@[simp] theorem Chip.emit_tel (c : Chip) (o : Out) : (c.emit o).tel = c.tel := rfl

@[simp] theorem Chip.drew_regs (c : Chip) : c.drew.regs = c.regs := rfl
@[simp] theorem Chip.drew_tabA (c : Chip) : c.drew.tabA = c.tabA := rfl
@[simp] theorem Chip.drew_tabB (c : Chip) : c.drew.tabB = c.tabB := rfl
@[simp] theorem Chip.drew_tabRef (c : Chip) : c.drew.tabRef = c.tabRef := rfl
@[simp] theorem Chip.drew_counters (c : Chip) : c.drew.counters = c.counters := rfl
@[simp] theorem Chip.drew_loPend (c : Chip) : c.drew.loPend = c.loPend := rfl
@[simp] theorem Chip.drew_hiLatch (c : Chip) : c.drew.hiLatch = c.hiLatch := rfl
@[simp] theorem Chip.drew_heldAcc (c : Chip) : c.drew.heldAcc = c.heldAcc := rfl
@[simp] theorem Chip.drew_watchUp (c : Chip) : c.drew.watchUp = c.watchUp := rfl
@[simp] theorem Chip.drew_watchTime (c : Chip) : c.drew.watchTime = c.watchTime := rfl
@[simp] theorem Chip.drew_slew (c : Chip) : c.drew.slew = c.slew := rfl
@[simp] theorem Chip.drew_timers (c : Chip) : c.drew.timers = c.timers := rfl
@[simp] theorem Chip.drew_out (c : Chip) : c.drew.out = c.out := rfl
@[simp] theorem Chip.drew_freeCtr (c : Chip) : c.drew.freeCtr = c.freeCtr + 1 := rfl
@[simp] theorem Chip.drew_ll (c : Chip) : c.drew.ll = c.ll := rfl
@[simp] theorem Chip.drew_map (c : Chip) : c.drew.map = c.map := rfl
@[simp] theorem Chip.drew_goodMap (c : Chip) : c.drew.goodMap = c.goodMap := rfl
@[simp] theorem Chip.drew_sw (c : Chip) : c.drew.sw = c.sw := rfl
@[simp] theorem Chip.drew_pci (c : Chip) : c.drew.pci = c.pci := rfl
@[simp] theorem Chip.drew_knd (c : Chip) : c.drew.knd = c.knd := rfl
@[simp] theorem Chip.drew_mor (c : Chip) : c.drew.mor = c.mor := rfl
@[simp] theorem Chip.drew_vsi (c : Chip) : c.drew.vsi = c.vsi := rfl
@[simp] theorem Chip.drew_rly (c : Chip) : c.drew.rly = c.rly := rfl
@[simp] theorem Chip.drew_saf (c : Chip) : c.drew.saf = c.saf := rfl
@[simp] theorem Chip.drew_bcn (c : Chip) : c.drew.bcn = c.bcn := rfl
@[simp] theorem Chip.drew_kpr (c : Chip) : c.drew.kpr = c.kpr := rfl
@[simp] theorem Chip.drew_pwr (c : Chip) : c.drew.pwr = c.pwr := rfl
@[simp] theorem Chip.drew_tel (c : Chip) : c.drew.tel = c.tel := rfl

@[simp] theorem Chip.arm_regs (c : Chip) (t : TimerId) (ns : Nat) : (c.arm t ns).regs = c.regs := rfl
@[simp] theorem Chip.arm_tabA (c : Chip) (t : TimerId) (ns : Nat) : (c.arm t ns).tabA = c.tabA := rfl
@[simp] theorem Chip.arm_tabB (c : Chip) (t : TimerId) (ns : Nat) : (c.arm t ns).tabB = c.tabB := rfl
@[simp] theorem Chip.arm_tabRef (c : Chip) (t : TimerId) (ns : Nat) : (c.arm t ns).tabRef = c.tabRef := rfl
@[simp] theorem Chip.arm_counters (c : Chip) (t : TimerId) (ns : Nat) : (c.arm t ns).counters = c.counters := rfl
@[simp] theorem Chip.arm_loPend (c : Chip) (t : TimerId) (ns : Nat) : (c.arm t ns).loPend = c.loPend := rfl
@[simp] theorem Chip.arm_hiLatch (c : Chip) (t : TimerId) (ns : Nat) : (c.arm t ns).hiLatch = c.hiLatch := rfl
@[simp] theorem Chip.arm_heldAcc (c : Chip) (t : TimerId) (ns : Nat) : (c.arm t ns).heldAcc = c.heldAcc := rfl
@[simp] theorem Chip.arm_watchUp (c : Chip) (t : TimerId) (ns : Nat) : (c.arm t ns).watchUp = c.watchUp := rfl
@[simp] theorem Chip.arm_watchTime (c : Chip) (t : TimerId) (ns : Nat) : (c.arm t ns).watchTime = c.watchTime := rfl
@[simp] theorem Chip.arm_slew (c : Chip) (t : TimerId) (ns : Nat) : (c.arm t ns).slew = c.slew := rfl
@[simp] theorem Chip.arm_timers (c : Chip) (t : TimerId) (ns : Nat) : (c.arm t ns).timers = (t, c.watchUp + ns) :: c.timers.filter (fun e => e.1 ≠ t) := rfl
@[simp] theorem Chip.arm_out (c : Chip) (t : TimerId) (ns : Nat) : (c.arm t ns).out = c.out := rfl
@[simp] theorem Chip.arm_freeCtr (c : Chip) (t : TimerId) (ns : Nat) : (c.arm t ns).freeCtr = c.freeCtr := rfl
@[simp] theorem Chip.arm_ll (c : Chip) (t : TimerId) (ns : Nat) : (c.arm t ns).ll = c.ll := rfl
@[simp] theorem Chip.arm_map (c : Chip) (t : TimerId) (ns : Nat) : (c.arm t ns).map = c.map := rfl
@[simp] theorem Chip.arm_goodMap (c : Chip) (t : TimerId) (ns : Nat) : (c.arm t ns).goodMap = c.goodMap := rfl
@[simp] theorem Chip.arm_sw (c : Chip) (t : TimerId) (ns : Nat) : (c.arm t ns).sw = c.sw := rfl
@[simp] theorem Chip.arm_pci (c : Chip) (t : TimerId) (ns : Nat) : (c.arm t ns).pci = c.pci := rfl
@[simp] theorem Chip.arm_knd (c : Chip) (t : TimerId) (ns : Nat) : (c.arm t ns).knd = c.knd := rfl
@[simp] theorem Chip.arm_mor (c : Chip) (t : TimerId) (ns : Nat) : (c.arm t ns).mor = c.mor := rfl
@[simp] theorem Chip.arm_vsi (c : Chip) (t : TimerId) (ns : Nat) : (c.arm t ns).vsi = c.vsi := rfl
@[simp] theorem Chip.arm_rly (c : Chip) (t : TimerId) (ns : Nat) : (c.arm t ns).rly = c.rly := rfl
@[simp] theorem Chip.arm_saf (c : Chip) (t : TimerId) (ns : Nat) : (c.arm t ns).saf = c.saf := rfl
@[simp] theorem Chip.arm_bcn (c : Chip) (t : TimerId) (ns : Nat) : (c.arm t ns).bcn = c.bcn := rfl
@[simp] theorem Chip.arm_kpr (c : Chip) (t : TimerId) (ns : Nat) : (c.arm t ns).kpr = c.kpr := rfl
@[simp] theorem Chip.arm_pwr (c : Chip) (t : TimerId) (ns : Nat) : (c.arm t ns).pwr = c.pwr := rfl
@[simp] theorem Chip.arm_tel (c : Chip) (t : TimerId) (ns : Nat) : (c.arm t ns).tel = c.tel := rfl

@[simp] theorem Chip.disarm_regs (c : Chip) (t : TimerId) : (c.disarm t).regs = c.regs := rfl
@[simp] theorem Chip.disarm_tabA (c : Chip) (t : TimerId) : (c.disarm t).tabA = c.tabA := rfl
@[simp] theorem Chip.disarm_tabB (c : Chip) (t : TimerId) : (c.disarm t).tabB = c.tabB := rfl
@[simp] theorem Chip.disarm_tabRef (c : Chip) (t : TimerId) : (c.disarm t).tabRef = c.tabRef := rfl
@[simp] theorem Chip.disarm_counters (c : Chip) (t : TimerId) : (c.disarm t).counters = c.counters := rfl
@[simp] theorem Chip.disarm_loPend (c : Chip) (t : TimerId) : (c.disarm t).loPend = c.loPend := rfl
@[simp] theorem Chip.disarm_hiLatch (c : Chip) (t : TimerId) : (c.disarm t).hiLatch = c.hiLatch := rfl
@[simp] theorem Chip.disarm_heldAcc (c : Chip) (t : TimerId) : (c.disarm t).heldAcc = c.heldAcc := rfl
@[simp] theorem Chip.disarm_watchUp (c : Chip) (t : TimerId) : (c.disarm t).watchUp = c.watchUp := rfl
@[simp] theorem Chip.disarm_watchTime (c : Chip) (t : TimerId) : (c.disarm t).watchTime = c.watchTime := rfl
@[simp] theorem Chip.disarm_slew (c : Chip) (t : TimerId) : (c.disarm t).slew = c.slew := rfl
@[simp] theorem Chip.disarm_timers (c : Chip) (t : TimerId) : (c.disarm t).timers = c.timers.filter (fun e => e.1 ≠ t) := rfl
@[simp] theorem Chip.disarm_out (c : Chip) (t : TimerId) : (c.disarm t).out = c.out := rfl
@[simp] theorem Chip.disarm_freeCtr (c : Chip) (t : TimerId) : (c.disarm t).freeCtr = c.freeCtr := rfl
@[simp] theorem Chip.disarm_ll (c : Chip) (t : TimerId) : (c.disarm t).ll = c.ll := rfl
@[simp] theorem Chip.disarm_map (c : Chip) (t : TimerId) : (c.disarm t).map = c.map := rfl
@[simp] theorem Chip.disarm_goodMap (c : Chip) (t : TimerId) : (c.disarm t).goodMap = c.goodMap := rfl
@[simp] theorem Chip.disarm_sw (c : Chip) (t : TimerId) : (c.disarm t).sw = c.sw := rfl
@[simp] theorem Chip.disarm_pci (c : Chip) (t : TimerId) : (c.disarm t).pci = c.pci := rfl
@[simp] theorem Chip.disarm_knd (c : Chip) (t : TimerId) : (c.disarm t).knd = c.knd := rfl
@[simp] theorem Chip.disarm_mor (c : Chip) (t : TimerId) : (c.disarm t).mor = c.mor := rfl
@[simp] theorem Chip.disarm_vsi (c : Chip) (t : TimerId) : (c.disarm t).vsi = c.vsi := rfl
@[simp] theorem Chip.disarm_rly (c : Chip) (t : TimerId) : (c.disarm t).rly = c.rly := rfl
@[simp] theorem Chip.disarm_saf (c : Chip) (t : TimerId) : (c.disarm t).saf = c.saf := rfl
@[simp] theorem Chip.disarm_bcn (c : Chip) (t : TimerId) : (c.disarm t).bcn = c.bcn := rfl
@[simp] theorem Chip.disarm_kpr (c : Chip) (t : TimerId) : (c.disarm t).kpr = c.kpr := rfl
@[simp] theorem Chip.disarm_pwr (c : Chip) (t : TimerId) : (c.disarm t).pwr = c.pwr := rfl
@[simp] theorem Chip.disarm_tel (c : Chip) (t : TimerId) : (c.disarm t).tel = c.tel := rfl

/-! ## A saturating count -/

@[simp] theorem Chip.satInc_tabA (c : Chip) (off : Nat) (f : Fld) : (c.satInc off f).tabA = c.tabA := by
  unfold Chip.satInc; split <;> rfl
@[simp] theorem Chip.satInc_tabB (c : Chip) (off : Nat) (f : Fld) : (c.satInc off f).tabB = c.tabB := by
  unfold Chip.satInc; split <;> rfl
@[simp] theorem Chip.satInc_tabRef (c : Chip) (off : Nat) (f : Fld) : (c.satInc off f).tabRef = c.tabRef := by
  unfold Chip.satInc; split <;> rfl
@[simp] theorem Chip.satInc_counters (c : Chip) (off : Nat) (f : Fld) : (c.satInc off f).counters = c.counters := by
  unfold Chip.satInc; split <;> rfl
@[simp] theorem Chip.satInc_loPend (c : Chip) (off : Nat) (f : Fld) : (c.satInc off f).loPend = c.loPend := by
  unfold Chip.satInc; split <;> rfl
@[simp] theorem Chip.satInc_hiLatch (c : Chip) (off : Nat) (f : Fld) : (c.satInc off f).hiLatch = c.hiLatch := by
  unfold Chip.satInc; split <;> rfl
@[simp] theorem Chip.satInc_heldAcc (c : Chip) (off : Nat) (f : Fld) : (c.satInc off f).heldAcc = c.heldAcc := by
  unfold Chip.satInc; split <;> rfl
@[simp] theorem Chip.satInc_watchUp (c : Chip) (off : Nat) (f : Fld) : (c.satInc off f).watchUp = c.watchUp := by
  unfold Chip.satInc; split <;> rfl
@[simp] theorem Chip.satInc_watchTime (c : Chip) (off : Nat) (f : Fld) : (c.satInc off f).watchTime = c.watchTime := by
  unfold Chip.satInc; split <;> rfl
@[simp] theorem Chip.satInc_slew (c : Chip) (off : Nat) (f : Fld) : (c.satInc off f).slew = c.slew := by
  unfold Chip.satInc; split <;> rfl
@[simp] theorem Chip.satInc_timers (c : Chip) (off : Nat) (f : Fld) : (c.satInc off f).timers = c.timers := by
  unfold Chip.satInc; split <;> rfl
@[simp] theorem Chip.satInc_out (c : Chip) (off : Nat) (f : Fld) : (c.satInc off f).out = c.out := by
  unfold Chip.satInc; split <;> rfl
@[simp] theorem Chip.satInc_freeCtr (c : Chip) (off : Nat) (f : Fld) : (c.satInc off f).freeCtr = c.freeCtr := by
  unfold Chip.satInc; split <;> rfl
@[simp] theorem Chip.satInc_ll (c : Chip) (off : Nat) (f : Fld) : (c.satInc off f).ll = c.ll := by
  unfold Chip.satInc; split <;> rfl
@[simp] theorem Chip.satInc_map (c : Chip) (off : Nat) (f : Fld) : (c.satInc off f).map = c.map := by
  unfold Chip.satInc; split <;> rfl
@[simp] theorem Chip.satInc_goodMap (c : Chip) (off : Nat) (f : Fld) : (c.satInc off f).goodMap = c.goodMap := by
  unfold Chip.satInc; split <;> rfl
@[simp] theorem Chip.satInc_sw (c : Chip) (off : Nat) (f : Fld) : (c.satInc off f).sw = c.sw := by
  unfold Chip.satInc; split <;> rfl
@[simp] theorem Chip.satInc_pci (c : Chip) (off : Nat) (f : Fld) : (c.satInc off f).pci = c.pci := by
  unfold Chip.satInc; split <;> rfl
@[simp] theorem Chip.satInc_knd (c : Chip) (off : Nat) (f : Fld) : (c.satInc off f).knd = c.knd := by
  unfold Chip.satInc; split <;> rfl
@[simp] theorem Chip.satInc_mor (c : Chip) (off : Nat) (f : Fld) : (c.satInc off f).mor = c.mor := by
  unfold Chip.satInc; split <;> rfl
@[simp] theorem Chip.satInc_vsi (c : Chip) (off : Nat) (f : Fld) : (c.satInc off f).vsi = c.vsi := by
  unfold Chip.satInc; split <;> rfl
@[simp] theorem Chip.satInc_rly (c : Chip) (off : Nat) (f : Fld) : (c.satInc off f).rly = c.rly := by
  unfold Chip.satInc; split <;> rfl
@[simp] theorem Chip.satInc_saf (c : Chip) (off : Nat) (f : Fld) : (c.satInc off f).saf = c.saf := by
  unfold Chip.satInc; split <;> rfl
@[simp] theorem Chip.satInc_bcn (c : Chip) (off : Nat) (f : Fld) : (c.satInc off f).bcn = c.bcn := by
  unfold Chip.satInc; split <;> rfl
@[simp] theorem Chip.satInc_kpr (c : Chip) (off : Nat) (f : Fld) : (c.satInc off f).kpr = c.kpr := by
  unfold Chip.satInc; split <;> rfl
@[simp] theorem Chip.satInc_pwr (c : Chip) (off : Nat) (f : Fld) : (c.satInc off f).pwr = c.pwr := by
  unfold Chip.satInc; split <;> rfl
@[simp] theorem Chip.satInc_tel (c : Chip) (off : Nat) (f : Fld) : (c.satInc off f).tel = c.tel := by
  unfold Chip.satInc; split <;> rfl

end Sys2Proof.Machine
end

