-- ==== Sys2Proof/Laws/Ops.lean ====
section
/-!
SUPPORT. Laws of the shared operations: what a register, a field, a table entry, a counter or a timer reads as after a write, and
what the Keeper's Log changes.
-/
namespace Sys2Proof.Machine

/-! ## Registers -/

@[simp] theorem Chip.rd_wr_same (c : Chip) (o : Nat) (w : Word) : (c.wr o w).rd o = w := SMap.get_set_same _ _ _ _

theorem Chip.rd_wr_other (c : Chip) {o o' : Nat} (w : Word) (h : o' ≠ o) : (c.wr o w).rd o' = c.rd o' :=
  SMap.get_set_other _ _ _ _ h

theorem Chip.rd_setFld_same (c : Chip) (o : Nat) (f : Fld) (v : Nat) : (c.setFld o f v).rd o = setF (c.rd o) f v := c.rd_wr_same o _

theorem Chip.rd_setFld_other (c : Chip) {o o' : Nat} (f : Fld) (v : Nat) (h : o' ≠ o) : (c.setFld o f v).rd o' = c.rd o' :=
  c.rd_wr_other _ h

theorem Chip.rd_setBit_other (c : Chip) {o o' : Nat} (f : Fld) (h : o' ≠ o) : (c.setBit o f).rd o' = c.rd o' := c.rd_setFld_other f 1 h

theorem Chip.rd_clrFld_other (c : Chip) {o o' : Nat} (f : Fld) (h : o' ≠ o) : (c.clrFld o f).rd o' = c.rd o' := c.rd_setFld_other f 0 h

theorem Chip.rd_putBit_other (c : Chip) {o o' : Nat} (f : Fld) (i : Nat) (b : Bool) (h : o' ≠ o) :
    (c.putBit o f i b).rd o' = c.rd o' := c.rd_setFld_other f _ h

theorem Chip.rd_satInc_other (c : Chip) {o o' : Nat} (f : Fld) (h : o' ≠ o) : (c.satInc o f).rd o' = c.rd o' := by
  unfold Chip.satInc
  split
  · exact c.rd_setFld_other f _ h
  · rfl

theorem Chip.fld_setFld_same (c : Chip) (o : Nat) (f : Fld) (v : Nat) (h : f.hi < 32) :
    (c.setFld o f v).fld o f = v % 2 ^ (f.hi + 1 - f.lo) := by
  rw [Chip.fld, Chip.rd_setFld_same, getF_setF_same _ _ _ h]

theorem Chip.fld_setFld_otherField (c : Chip) (o : Nat) (f g : Fld) (v : Nat) (hg : g.hi < 32) (h : g.hi < f.lo ∨ f.hi < g.lo) :
    (c.setFld o f v).fld o g = c.fld o g := by
  rw [Chip.fld, Chip.rd_setFld_same, getF_setF_other _ _ _ _ hg h, Chip.fld]

theorem Chip.fld_setFld_other (c : Chip) {o o' : Nat} (f g : Fld) (v : Nat) (h : o' ≠ o) : (c.setFld o f v).fld o' g = c.fld o' g := by
  rw [Chip.fld, Chip.rd_setFld_other c f v h, Chip.fld]

theorem Chip.flag_setBit_same (c : Chip) (o : Nat) (f : Fld) (h : f.hi < 32) (hw : f.lo ≤ f.hi) : (c.setBit o f).flag o f = true := by
  have hk : 1 < 2 ^ (f.hi + 1 - f.lo) := Nat.one_lt_two_pow (by omega)
  simp [Chip.flag, Chip.setBit, Chip.fld_setFld_same c o f 1 h, Nat.mod_eq_of_lt hk]

theorem Chip.flag_clrFld_same (c : Chip) (o : Nat) (f : Fld) (h : f.hi < 32) : (c.clrFld o f).flag o f = false := by
  simp [Chip.flag, Chip.clrFld, Chip.fld_setFld_same c o f 0 h]

@[simp] theorem Chip.rd_resetReg_same (c : Chip) (o : Nat) : (c.resetReg o).rd o = resetWordAt o := SMap.get_erase_same _ _ _

theorem Chip.rd_resetReg_other (c : Chip) {o o' : Nat} (h : o' ≠ o) : (c.resetReg o).rd o' = c.rd o' := SMap.get_erase_other _ _ h

/-! ## Committed tables and counters -/

@[simp] theorem Chip.tab_putTab_same (c : Chip) (b : Bool) (o : Nat) (w : Word) : (c.putTab o w).tab b o = w := by
  cases b <;> exact SMap.get_set_same _ _ _ _

theorem Chip.tab_putTab_other (c : Chip) (b : Bool) {o o' : Nat} (w : Word) (h : o' ≠ o) : (c.putTab o w).tab b o' = c.tab b o' := by
  cases b <;> exact SMap.get_set_other _ _ _ _ h

theorem Chip.ctr_ctrAdd_same (c : Chip) (kind i idx n : Nat) :
    (c.ctrAdd kind i idx n).ctr kind i idx = (c.ctr kind i idx + n) % 2 ^ 48 := SMap.get_set_same _ _ _ _

/-! ## Timers -/

@[simp] theorem Chip.armed_arm (c : Chip) (t : TimerId) (ns : Nat) : (c.arm t ns).armed t = true := by simp [Chip.armed, Chip.arm]

@[simp] theorem Chip.armed_disarm (c : Chip) (t : TimerId) : (c.disarm t).armed t = false := by simp [Chip.armed, Chip.disarm]

theorem Chip.armed_of_due (c : Chip) (t : TimerId) (h : c.due t = true) : c.armed t = true := by
  simp only [Chip.due, Chip.armed, List.any_eq_true, Bool.and_eq_true] at *
  obtain ⟨e, he, h1, -⟩ := h
  exact ⟨e, he, h1⟩

theorem Chip.armed_arm_other (c : Chip) {t u : TimerId} (ns : Nat) (h : u ≠ t) : (c.arm t ns).armed u = c.armed u := by
  simp only [Chip.armed, Chip.arm, List.any_cons, List.any_filter]
  rw [Bool.eq_iff_iff]
  simp only [Bool.or_eq_true, decide_eq_true_eq, List.any_eq_true, Bool.and_eq_true]
  constructor
  · rintro (h' | ⟨e, he, -, h2⟩)
    · exact absurd h'.symm h
    · exact ⟨e, he, h2⟩
  · rintro ⟨e, he, h2⟩
    exact .inr ⟨e, he, by simpa [h2] using h, h2⟩

/-! ## The Keeper's Log -/

/-- The registers that a log entry may change. -/
def isLogReg (o : Nat) : Prop := o = Reg.LOG_SEQ ∨ o = Reg.LOG_STATUS ∨ o = Reg.LOG_EVENT

/-- Two chips that differ at most in the Keeper's Log: its registers, its records and its timers. -/
structure Chip.SameButLog (a b : Chip) : Prop where
  regs : ∀ o, ¬ isLogReg o → b.rd o = a.rd o
  rest : { b with regs := a.regs, tel := a.tel, timers := a.timers } = a
  tel : { b.tel with recent := a.tel.recent, made := a.tel.made, keepPend := a.tel.keepPend, queue := a.tel.queue } = a.tel

theorem Chip.SameButLog.refl (a : Chip) : a.SameButLog a := ⟨fun _ _ => rfl, rfl, rfl⟩

theorem Chip.SameButLog.trans {a b c : Chip} (h : a.SameButLog b) (h' : b.SameButLog c) : a.SameButLog c := by
  refine ⟨fun o ho => (h'.regs o ho).trans (h.regs o ho), ?_, ?_⟩
  · rw [← h.rest, ← h'.rest]
  · rw [← h.tel, ← h'.tel]

theorem Chip.SameButLog.setFld (c : Chip) {o : Nat} (f : Fld) (v : Nat) (h : isLogReg o) : c.SameButLog (c.setFld o f v) :=
  ⟨fun _ ho => c.rd_setFld_other f v (fun e => ho (e ▸ h)), rfl, rfl⟩

theorem Chip.SameButLog.satInc (c : Chip) {o : Nat} (f : Fld) (h : isLogReg o) : c.SameButLog (c.satInc o f) := by
  unfold Chip.satInc
  split
  · exact .setFld c f _ h
  · exact .refl c

theorem Chip.SameButLog.addRec (c : Chip) (r : LogRec) : c.SameButLog (c.addRec r) := by
  have h1 : c.SameButLog (c.wr Reg.LOG_SEQ (c.rd Reg.LOG_SEQ + 1)) :=
    ⟨fun o ho => c.rd_wr_other _ (fun e => ho (.inl e)), rfl, rfl⟩
  have h2 : ∀ (c : Chip) (x : List LogRec), c.SameButLog { c with tel := { c.tel with recent := x } } :=
    fun _ _ => ⟨fun _ _ => rfl, rfl, rfl⟩
  have h3 : ∀ (c : Chip) (n : Nat) (x : List Nat) (t : TimerId) (ns : Nat),
      c.SameButLog (({ c with tel := { c.tel with made := n, keepPend := x } } : Chip).arm t ns) :=
    fun _ _ _ _ _ => ⟨fun _ _ => rfl, rfl, rfl⟩
  unfold Chip.addRec
  dsimp only
  split
  · exact ((h1.trans (h2 _ _)).trans (.setFld _ _ _ (.inr (.inl rfl)))).trans (h3 _ _ _ _ _)
  · exact (h1.trans (h2 _ _)).trans (.setFld _ _ _ (.inr (.inl rfl)))

theorem Chip.SameButLog.logNow (c : Chip) (r : LogRec) : c.SameButLog (c.logNow r) := by
  unfold Chip.logNow
  split
  · split
    · exact ⟨fun _ _ => rfl, rfl, rfl⟩
    · exact .addRec c r
  · exact .addRec c r

/-- Everything a log entry can do: it changes the Keeper's Log and nothing else. -/
theorem Chip.SameButLog.logFrom (c : Chip) (code : LogCode) (source : Nat) (key det : List Nat) :
    c.SameButLog (c.logFrom code source key det) := by
  unfold Chip.logFrom
  split
  · exact .satInc c _ (.inr (.inr rfl))
  · split
    · exact .logNow c _
    · split
      · exact ⟨fun _ _ => rfl, rfl, rfl⟩
      · exact .satInc c _ (.inr (.inr rfl))

theorem Chip.SameButLog.log (c : Chip) (code : LogCode) (key det : List Nat) : c.SameButLog (c.log code key det) :=
  .logFrom c code 90 key det

theorem Chip.rd_log (c : Chip) (code : LogCode) (key det : List Nat) {o : Nat} (h : ¬ isLogReg o) :
    (c.log code key det).rd o = c.rd o := (Chip.SameButLog.log c code key det).regs o h

end Sys2Proof.Machine
end

