-- ==== Sys2Proof/Laws/Bus.lean ====
section
/-!
SUPPORT. Laws of the register bus: everything a write access can do, the same for an access that reaches its register, the
gates, and the accesses that a reset held; and of what waits in the Relay engine, the Keeper's ring and the islands' clocks.
-/
namespace Sys2Proof.Machine

/-- Everything a write access can do: nothing at all where the bus does not run; one count of KEEPER_BUSY_CNT; its action once the
gate of its island is open, a wait where it carries a word and the island is in reset, or the error response of a parity error;
nothing, or one VIEW_WRITE record, outside the agent's view. All but the first and the wait end with a completion or an error
response. -/
theorem Chip.busAccess_cases (c : Chip) (ag : Agent) (off : Nat) (w : Option Word) (act : Chip → Chip) :
    (c.busRuns ag = false ∧ c.busAccess ag off w act = c) ∨
    (c.busRuns ag = true ∧ c.keeperBusy ag = true ∧ c.busAccess ag off w act = c.countBusy.emit (.regDone ag off)) ∨
    (c.busRuns ag = true ∧ c.keeperBusy ag = false ∧ c.sees ag off = .full ∧
      ((∃ x, w = some x ∧ c.islandHeld off = true ∧ c.busAccess ag off w act = c.holdAccess ag off (.write x)) ∨
        (w = none ∨ c.islandHeld off = false) ∧ (c.busUpset off = true ∧ c.busAccess ag off w act = c.parityEnd ag off ∨
          c.busUpset off = false ∧ c.busAccess ag off w act = (act (c.openGate off)).emit (.regDone ag off)))) ∨
    (c.busRuns ag = true ∧ c.keeperBusy ag = false ∧ c.sees ag off ≠ .full ∧
      (c.busAccess ag off w act = c.emit (.regDone ag off) ∨
        ∃ v, ag = .vsi v ∧ c.busAccess ag off w act = (c.log .viewWrite [v, off]).emit (.regDone ag off))) := by
  cases hr : c.busRuns ag
  · exact .inl ⟨rfl, by simp [Chip.busAccess, hr]⟩
  · cases hb : c.keeperBusy ag
    · cases hs : c.sees ag off
      · refine .inr (.inr (.inl ⟨rfl, rfl, rfl, ?_⟩))
        cases w with
        | none => exact .inr ⟨.inl rfl, by cases hu : c.busUpset off <;> simp [Chip.busAccess, hr, hb, hs, hu]⟩
        | some x =>
          cases hh : c.islandHeld off
          · exact .inr ⟨.inr rfl, by cases hu : c.busUpset off <;> simp [Chip.busAccess, hr, hb, hs, hh, hu]⟩
          · exact .inl ⟨x, rfl, rfl, by simp [Chip.busAccess, hr, hb, hs, hh]⟩
      · exact .inr (.inr (.inr ⟨rfl, rfl, by simp, .inl (by simp [Chip.busAccess, hr, hb, hs])⟩))
      · refine .inr (.inr (.inr ⟨rfl, rfl, by simp, ?_⟩))
        simp only [Chip.busAccess, hr, hb, hs, Bool.not_true, Bool.false_eq_true, if_false]
        cases ag with
        | vsi v =>
          cases hm : c.isManager v
          · exact .inr ⟨v, rfl, by simp [hm]⟩
          · exact .inl (by simp [hm])
        | keeper => exact .inl rfl
        | mgmt k => exact .inl rfl
        | lampRoom => exact .inl rfl
    · exact .inr (.inl ⟨rfl, rfl, by simp [Chip.busAccess, hr, hb]⟩)

/-- An access that reaches its register performs its action, with the gate of its island open, and completes. -/
theorem Chip.busAccess_of_reaches (c : Chip) (ag : Agent) (off : Nat) (w : Option Word) (act : Chip → Chip)
    (h : c.reaches ag off = true) : c.busAccess ag off w act = (act (c.openGate off)).emit (.regDone ag off) := by
  simp only [Chip.reaches, Bool.and_eq_true, Bool.not_eq_true', decide_eq_true_eq] at h
  obtain ⟨⟨⟨⟨h1, h2⟩, h3⟩, h5⟩, h4⟩ := h
  cases w <;> simp [Chip.busAccess, h1, h2, h3, h4, h5]

theorem Chip.busWrite_of_reaches (c : Chip) (ag : Agent) (off : Nat) (act : Chip → Chip) (h : c.reaches ag off = true) :
    c.busWrite ag off act = (act (c.openGate off)).emit (.regDone ag off) := c.busAccess_of_reaches ag off none act h

theorem Chip.busWriteW_of_reaches (c : Chip) (ag : Agent) (off : Nat) (w : Word) (act : Chip → Chip) (h : c.reaches ag off = true) :
    c.busWriteW ag off w act = (act (c.openGate off)).emit (.regDone ag off) := c.busAccess_of_reaches ag off (some w) act h

/-- With no access held, none is served. -/
theorem State.serveHeld_nil (s : State) (h : s.chip.heldAcc = []) : s.serveHeld = s := by
  have e : ({ s.chip with heldAcc := [] } : Chip) = s.chip := by rw [← h]
  simp only [State.serveHeld, h, List.filter_nil, List.foldl_nil]
  rw [e]

/-- An offset in no island that can be gated opens no gate. -/
theorem Chip.openGate_none (c : Chip) (off : Nat) (h : islandAt off = none) : c.openGate off = c := by
  simp [Chip.openGate, h]

/-- A gate that is open, with no request for it, stays as it is. -/
theorem Chip.openGate_open (c : Chip) (off i : Nat) (h : islandAt off = some i)
    (hg : c.fldBit Reg.GATE_STATUS (if i < 16 then Bit.GATE_STATUS_STATION else Bit.GATE_STATUS_RELAY) (if i < 16 then i else 0) = false)
    (hr : c.pwr.gateReq.contains (if i < 16 then 64 + i else 82) = false) : c.openGate off = c := by
  simp only [Chip.openGate, h, hg, hr, Bool.and_false, Bool.or_false, Bool.false_eq_true, if_false]

/-- Opening a gate touches GATE_STATUS alone among the registers. -/
theorem Chip.rd_openGate (c : Chip) (off : Nat) {o : Nat} (h : o ≠ Reg.GATE_STATUS) : (c.openGate off).rd o = c.rd o := by
  have key : ∀ (b : Bool) (f : Fld) (k : Nat) (g : List Nat) (a : List (Nat × Nat)),
      (if b = true then ({ c.putBit Reg.GATE_STATUS f k false with
        pwr := { (c.putBit Reg.GATE_STATUS f k false).pwr with gateReq := g, gateAfter := a } } : Chip) else c).rd o = c.rd o := by
    intro b f k g a
    cases b
    · rfl
    · exact Chip.rd_putBit_other c f k false h
  unfold Chip.openGate
  split
  · exact key _ _ _ _ _
  · rfl

/-! ## The Relay engine's writes and the Keeper's ring -/

@[simp] theorem Chip.addPost_posts (c : Chip) (n : Nat) (k : RPostKind) : (c.addPost n k).rly.posts = c.rly.posts ++ [⟨n, k⟩] := rfl
@[simp] theorem Chip.addPost_held (c : Chip) (n : Nat) (k : RPostKind) : (c.addPost n k).rly.held = c.rly.held := rfl
@[simp] theorem Chip.addPost_descs (c : Chip) (n : Nat) (k : RPostKind) : (c.addPost n k).rly.descs = c.rly.descs := rfl
@[simp] theorem Chip.addPost_ops (c : Chip) (n : Nat) (k : RPostKind) : (c.addPost n k).rly.ops = c.rly.ops := rfl
@[simp] theorem Chip.addPost_regs (c : Chip) (n : Nat) (k : RPostKind) : (c.addPost n k).regs = c.regs := rfl
@[simp] theorem Chip.addPost_sw (c : Chip) (n : Nat) (k : RPostKind) : (c.addPost n k).sw = c.sw := rfl
@[simp] theorem Chip.addPost_out (c : Chip) (n : Nat) (k : RPostKind) : (c.addPost n k).out = c.out := rfl

/-- A record that has reached its completion point waits in one of two places, and nothing else changes. -/
theorem Chip.finishRecord_cases (c : Chip) (r : RRec) :
    (c.bme (c.slVsi r.slice) = false ∧ c.finishRecord r = { c with rly := { c.rly with held := c.rly.held ++ [r] } }) ∨
    (c.bme (c.slVsi r.slice) = true ∧ c.finishRecord r = c.addPost r.slice (.record r)) := by
  cases h : c.bme (c.slVsi r.slice)
  · exact .inl ⟨rfl, by simp [Chip.finishRecord, h]⟩
  · exact .inr ⟨rfl, by simp [Chip.finishRecord, h]⟩

@[simp] theorem Chip.fetchedK_regs (c : Chip) (h : KHead) : (c.fetchedK h).regs = c.regs := by
  unfold Chip.fetchedK; split <;> rfl
@[simp] theorem Chip.fetchedK_out (c : Chip) (h : KHead) : (c.fetchedK h).out = c.out := by
  unfold Chip.fetchedK; split <;> rfl
@[simp] theorem Chip.fetchedK_busy (c : Chip) (h : KHead) : (c.fetchedK h).kpr.busy = c.kpr.busy := by
  unfold Chip.fetchedK; split <;> rfl
@[simp] theorem Chip.fetchedK_queue (c : Chip) (h : KHead) : (c.fetchedK h).kpr.queue = c.kpr.queue := by
  unfold Chip.fetchedK; split <;> rfl

/-! ## The islands' clocks -/

/-- Everything that taking the operating clocks can do: the list of the islands on the IRO shrinks, or nothing. -/
theorem Chip.reclock_cases (c : Chip) : c.reclock = c ∨ (c.pwr.pgood = true ∧ c.pwr.resetLow = false ∧
    c.reclock = { c with pwr := { c.pwr with lost := c.pwr.lost.filter (fun i => i == islLamp || !c.sourceRuns i) } }) := by
  unfold Chip.reclock
  cases hp : c.pwr.pgood
  · simp
  · cases hr : c.pwr.resetLow
    · exact .inr ⟨rfl, rfl, by simp [hp, hr]⟩
    · simp

@[simp] theorem Chip.reclock_regs (c : Chip) : c.reclock.regs = c.regs := by
  unfold Chip.reclock; split <;> rfl
@[simp] theorem Chip.reclock_out (c : Chip) : c.reclock.out = c.out := by
  unfold Chip.reclock; split <;> rfl

end Sys2Proof.Machine
end

