-- ==== Sys2Proof/Laws/Commit.lean ====
section
/-!
SUPPORT. Laws of a commit: what the tables in force hold after every selected word has been taken from the shadow.
-/
namespace Sys2Proof.Machine

@[simp] theorem Chip.rd_putTab (c : Chip) (o o' : Nat) (w : Word) : (c.putTab o w).rd o' = c.rd o' := rfl

@[simp] theorem Chip.rd_commitWord (c : Chip) (o o' : Nat) : (c.commitWord o).rd o' = c.rd o' := rfl

/-- A run of committed words leaves every register and puts the shadow's word at each of its offsets. -/
theorem Chip.commitWords (l : List Nat) : ∀ (c : Chip) (b : Bool) (o : Nat), (l.foldl Chip.commitWord c).rd o = c.rd o ∧
    (l.foldl Chip.commitWord c).tab b o = if o ∈ l then c.rd o else c.tab b o := by
  induction l with
  | nil => intro c b o; simp
  | cons a l ih =>
    intro c b o
    obtain ⟨h1, h2⟩ := ih (c.commitWord a) b o
    refine ⟨h1, h2.trans ?_⟩
    by_cases hl : o ∈ l
    · simp [hl]
    · by_cases ha : o = a
      · subst ha
        simp [hl, Chip.commitWord]
      · simp [hl, ha, Chip.commitWord, Chip.tab_putTab_other c b _ ha]

/-- A commit changes no register. -/
theorem Chip.rd_commitWhere (c : Chip) (covers : Nat → Bool) (o : Nat) : (c.commitWhere covers).rd o = c.rd o :=
  (Chip.commitWords _ c false o).1

/-- A word that the commit does not cover stays in force. -/
theorem Chip.tab_commitWhere_other (c : Chip) (covers : Nat → Bool) (b : Bool) (o : Nat) (h : covers o = false) :
    (c.commitWhere covers).tab b o = c.tab b o := by
  rw [Chip.commitWhere, (Chip.commitWords _ c b o).2, if_neg]
  intro hm
  have := (List.mem_filter.mp hm).2
  simp [h] at this

end Sys2Proof.Machine
end

