-- ==== Sys2Proof/Laws/Memory.lean ====
section
/-!
SUPPORT. Laws of the flash: every operation keeps the canonical form, reset has it, and what a byte reads as after each.
-/
namespace Sys2Proof.Machine

theorem Memory.wf_reset : Memory.wf State.reset.flash = true := rfl

theorem Flash.erase_wf (m : SMap Byte) (a n : Nat) (h : Memory.wf m = true) : Memory.wf (Flash.erase m a n) = true :=
  SMap.canonical_filter m _ _ h

theorem Flash.program_wf (bs : List Byte) : ∀ (m : SMap Byte) (a : Nat), Memory.wf m = true → Memory.wf (Flash.program m a bs) = true := by
  induction bs with
  | nil => intro m a h; exact h
  | cons b bs ih => intro m a h; exact ih _ _ (SMap.canonical_set m _ a b h)

/-- A byte outside the erased range reads as before. -/
theorem Flash.byte_erase_other (m : SMap Byte) (a n x : Nat) (h : x < a ∨ a + n ≤ x) :
    Flash.byte (Flash.erase m a n) x = Flash.byte m x := by
  unfold Flash.byte Flash.erase
  induction m with
  | nil => rfl
  | cons e m ih =>
    obtain ⟨k, v⟩ := e
    by_cases hk : a ≤ k ∧ k < a + n
    · rw [List.filter_cons_of_neg (by simp [hk]), ih, SMap.get_cons, if_neg (by omega)]
    · rw [List.filter_cons_of_pos (by simp; omega), SMap.get_cons, SMap.get_cons, ih]

/-- An erased byte reads 0xFF. -/
theorem Flash.byte_erase_in (m : SMap Byte) (a n x : Nat) (h1 : a ≤ x) (h2 : x < a + n) :
    Flash.byte (Flash.erase m a n) x = 0xFF#8 := by
  unfold Flash.byte Flash.erase
  induction m with
  | nil => rfl
  | cons e m ih =>
    obtain ⟨k, v⟩ := e
    by_cases hk : a ≤ k ∧ k < a + n
    · rw [List.filter_cons_of_neg (by simp [hk]), ih]
    · rw [List.filter_cons_of_pos (by simp; omega), SMap.get_cons, if_neg (by omega), ih]

/-- A byte outside the programmed range reads as before. -/
theorem Flash.byte_program_other (bs : List Byte) : ∀ (m : SMap Byte) (a x : Nat), (x < a ∨ a + bs.length ≤ x) →
    Flash.byte (Flash.program m a bs) x = Flash.byte m x := by
  induction bs with
  | nil => intro m a x _; rfl
  | cons b bs ih =>
    intro m a x h
    simp only [List.length_cons] at h
    have hx : x ≠ a := by omega
    rw [Flash.program, ih _ _ _ (by omega)]
    exact SMap.get_set_other m b _ _ hx

/-- A programmed byte reads as it was given. -/
theorem Flash.byte_program_in (bs : List Byte) : ∀ (m : SMap Byte) (a i : Nat) (h : i < bs.length),
    Flash.byte (Flash.program m a bs) (a + i) = bs[i] := by
  induction bs with
  | nil => intro m a i h; simp at h
  | cons b bs ih =>
    intro m a i h
    cases i with
    | zero =>
      rw [Flash.program, Flash.byte_program_other bs _ _ _ (by omega)]
      exact SMap.get_set_same m a b _
    | succ i =>
      have := ih (SMap.set m a b 0xFF#8) (a + 1) i (by simpa using h)
      rw [Flash.program, show a + (i + 1) = a + 1 + i by omega, this]
      rfl

end Sys2Proof.Machine
end

