-- ==== Sys2Proof/WellFormed.lean ====
section
/-!
DEFINITION. The well-formed commands: every operand lies in the range that the spec gives what it names.
-/
namespace Sys2Proof
open Sys2Proof.Machine

/-- The ranges of what operands name: 128 ports, 64 VSIs, 256 vBridges of a VSI, 256 device and function numbers, 16 stations,
4,096 slices, 64 lane quads, 32 cable sites, 2 Beacon rings, 2 management ports, 2 feeds, 8 points of the breaker curve, 90
islands, 8 traffic classes, 25 bits of a Fabric Address. -/
def portOk (p : Nat) : Bool := decide (p < 128)
def vsiOk (v : Nat) : Bool := decide (v < 64)
def vbrOk (b : Nat) : Bool := decide (b < 256)
def devfnOk (d : Nat) : Bool := decide (d < 256)
def stationOk (s : Nat) : Bool := decide (s < 16)
def sliceOk (s : Nat) : Bool := decide (s < 4096)
def quadOk (q : Nat) : Bool := decide (q < 64)
def siteOk (s : Nat) : Bool := decide (s < 32)
def ringOk (r : Nat) : Bool := decide (r < 2)
def mgmtOk (k : Nat) : Bool := decide (k < 2)
def feedOk (f : Nat) : Bool := decide (f < 2)
def pointOk (k : Nat) : Bool := decide (k < 8)
def islandOk (i : Nat) : Bool := decide (i < 90)
def tcOk (t : Nat) : Bool := decide (t < 8)
def faOk (fa : Nat) : Bool := decide (fa < 2 ^ 25)
def ridOk (r : Nat) : Bool := decide (r < 65536)
def tagOk (t : Nat) : Bool := decide (t < 16384)
def byteOk (b : Nat) : Bool := decide (b < 256)
def word16 (w : Nat) : Bool := decide (w < 65536)
def word32 (w : Nat) : Bool := decide (w < 2 ^ 32)
def genOk (g : Nat) : Bool := word16 g
def bytesOk (bs : List Nat) : Bool := bs.all byteOk

/-- An offset of BAR0 and the Keeper's map, at a register's alignment. -/
def offOk (off : Nat) : Bool := decide (off < 0x4000000) && decide (off % 4 = 0)

def Machine.Agent.ok : Agent → Bool
  | .vsi v => vsiOk v
  | .keeper => true
  | .mgmt k => mgmtOk k
  | .lampRoom => true

def Machine.KHead.ok (h : KHead) : Bool := word16 h.tag

/-- A command whose operands lie in their ranges. -/
def Instr.wf : Instr → Bool
  | .registerWrite ag off value => ag.ok && offOk off && word32 value
  | .regAccessBadSize ag off size _ => ag.ok && offOk off && decide (size ≠ 4)
  | .loReadLatch ag off => ag.ok && offOk off
  | .pcieFlitReceived p _ _ _ => portOk p
  | .pcieTlpReceived p => portOk p
  | .packetStaged st => stationOk st
  | .guardedCopyAllocated st src => stationOk st && decide (src < 16)
  | .copyHeld _ => true
  | .spillDone => true
  | .spilledReadback _ => true
  | .towerMatchCycle stalled => stalled.all stationOk
  | .cellArrivalOb st _ => stationOk st
  | .schedulerChoice p => portOk p
  | .packetTransmitted p => portOk p
  | .egressUnderrun p => portOk p
  | .pcieTlpAcked p => portOk p
  | .ortEntryAllocate p tag => portOk p && tagOk tag
  | .completionReceived p => portOk p
  | .ctoExpiry p tag => portOk p && tagOk tag
  | .quarantineEnd p tag => portOk p && tagOk tag
  | .pcieLinkDown p _ => portOk p
  | .pcieLinkUp p _ => portOk p
  | .dpcRelease p => portOk p
  | .prsntChange site _ _ => siteOk site
  | .cableMismatch p => portOk p
  | .perstAssert ag p => ag.ok && portOk p
  | .linkDisableSet ag p => ag.ok && portOk p
  | .linkDisableClear ag p => ag.ok && portOk p
  | .pllLockLost q => quadOk q
  | .pllRelocked q => quadOk q
  | .linkTrainingDone p _ => portOk p
  | .jointTrainingTimeout p => portOk p
  | .dimReceiverDetect q _ => quadOk q
  | .beaconFrameTimer => true
  | .beaconMarkReceived r _ => ringOk r
  | .beaconMessageReceived r _ => ringOk r
  | .holdover => true
  | .masterTakeover => true
  | .beaconWakePattern ring => ringOk ring
  | .spanFlitReceived p _ => portOk p
  | .spanFrameReceived p => portOk p
  | .signalMessageRouted p => portOk p
  | .spanFlitTransmit p => portOk p
  | .replayTimerExpiry p => portOk p
  | .fcStaleness p => portOk p
  | .kinitTimeout p => portOk p
  | .recoveryEntry p => portOk p
  | .recoveryExit p _ => portOk p
  | .recoveryTimeout p => portOk p
  | .phyDetectEntered p => portOk p
  | .echoRequestTimer p => portOk p
  | .holdRetryExpiry p => portOk p
  | .retrain ag p => ag.ok && portOk p
  | .revertHoldExpiry p => portOk p
  | .farErrSecondCopy _ => true
  | .farErrReceived => true
  | .farErrFilterExpiry v origin _ _ => vsiOk v && faOk origin
  | .quotaCommit ag st gen => ag.ok && stationOk st && genOk gen
  | .stnMcCommit ag st gen => ag.ok && stationOk st && genOk gen
  | .twrMcCommit ag gen => ag.ok && genOk gen
  | .poolCommit ag p gen => ag.ok && portOk p && genOk gen
  | .rtCommit ag gen => ag.ok && genOk gen
  | .winCommit ag gen => ag.ok && genOk gen
  | .fmcCommit ag gen => ag.ok && genOk gen
  | .secCommit ag gen => ag.ok && genOk gen
  | .schCommit ag gen => ag.ok && genOk gen
  | .fenceReq ag gen v _ => ag.ok && genOk gen && vsiOk v
  | .fenceDone => true
  | .secDrained => true
  | .felRdWrite ag v rd => ag.ok && vsiOk v && decide (rd < 128)
  | .kndFabRidWrite ag base => ag.ok && decide (base < 512)
  | .guardMapWrite ag v mask => ag.ok && vsiOk v && byteOk mask
  | .castOffReceived => true
  | .resendReceived => true
  | .refuseReceived => true
  | .noticeReceived => true
  | .mgmtReceived => true
  | .mgmtRepeatTimer _ => true
  | .castGapExpiry srcFa tc port => faOk srcFa && tcOk tc && portOk port
  | .custodyTimerExpiry srcFa tc destFa => faOk srcFa && tcOk tc && faOk destFa
  | .refuseBackoffExpiry srcFa tc destFa => faOk srcFa && tcOk tc && faOk destFa
  | .custodyLimitExpiry srcFa tc destFa => faOk srcFa && tcOk tc && faOk destFa
  | .epochGapExpiry srcFa tc destFa => faOk srcFa && tcOk tc && faOk destFa
  | .egressCtxAgeClose srcFa tc port => faOk srcFa && tcOk tc && portOk port
  | .dormantRecordExpiry srcFa tc destFa => faOk srcFa && tcOk tc && faOk destFa
  | .guardResidenceDrop _ => true
  | .bootHoldEnd => true
  | .configRequestReceived p _ _ => portOk p
  | .emulatedBarWrite v vbr devfn bar _ value => vsiOk v && vbrOk vbr && devfnOk devfn && decide (bar < 6) && word32 value
  | .emulatedMseWrite v vbr devfn _ => vsiOk v && vbrOk vbr && devfnOk devfn
  | .bind h v vbr _ _ prid devfn _ _ _ _ => h.ok && vsiOk v && vbrOk vbr && ridOk prid && devfnOk devfn
  | .bindPeer h port prid ownerFa ownerVsi proxy _ _ => h.ok && portOk port && ridOk prid && faOk ownerFa && vsiOk ownerVsi && vsiOk proxy
  | .unbind h _ v vbr devfn _ prid => h.ok && vsiOk v && vbrOk vbr && devfnOk devfn && ridOk prid
  | .setProxy h v _ => h.ok && vsiOk v
  | .setVbrCount h v n => h.ok && vsiOk v && decide (n ≤ 256)
  | .queryBind h _ v vbr devfn _ prid => h.ok && vsiOk v && vbrOk vbr && devfnOk devfn && ridOk prid
  | .bindProbeRetry v vbr devfn => vsiOk v && vbrOk vbr && devfnOk devfn
  | .upstreamPerst site _ => decide (site < 32)
  | .hotResetReceived p => portOk p
  | .sbrUpstreamBridge v => vsiOk v
  | .sbrVbridge v vbr => vsiOk v && vbrOk vbr
  | .emulatedFlr v vbr devfn => vsiOk v && vbrOk vbr && devfnOk devfn
  | .flrQuiesceDone v vbr devfn => vsiOk v && vbrOk vbr && devfnOk devfn
  | .quiesceTimeout v vbr devfn => vsiOk v && vbrOk vbr && devfnOk devfn
  | .flrFrsReceived v vbr devfn => vsiOk v && vbrOk vbr && devfnOk devfn
  | .flrFrsTimeout v vbr devfn => vsiOk v && vbrOk vbr && devfnOk devfn
  | .vsiReady v => vsiOk v
  | .vsiLeaveReset v => vsiOk v
  | .sliceGrant h v first _ => h.ok && vsiOk v && sliceOk first
  | .sliceRevoke h first _ => h.ok && sliceOk first
  | .sliceEnable ag slice => ag.ok && sliceOk slice
  | .sliceDrain ag slice => ag.ok && sliceOk slice
  | .sliceReset ag slice => ag.ok && sliceOk slice
  | .sqDb v slice off _ _ gen => vsiOk v && sliceOk slice && decide (off < 4096) && genOk gen
  | .cqDb v slice off _ _ gen => vsiOk v && sliceOk slice && decide (off < 4096) && genOk gen
  | .ibDb v slice off _ _ gen => vsiOk v && sliceOk slice && decide (off < 4096) && genOk gen
  | .descriptorFetch slice => sliceOk slice
  | .descriptorStart slice => sliceOk slice
  | .pieceIssue slice idx _ => sliceOk slice && word16 idx
  | .relayReadCompletion => true
  | .descriptorComplete slice idx => sliceOk slice && word16 idx
  | .intUnmask ag slice => ag.ok && sliceOk slice
  | .sendReceived => true
  | .sendReplyReceived => true
  | .sendTimeout _ => true
  | .relayBmeClear v => vsiOk v
  | .relayBmeSet v => vsiOk v
  | .relayFunctionFlr v => vsiOk v
  | .relayIslandReset => true
  | .bucketRefill => true
  | .policerRecover => true
  | .dbgAccess _ _ _ _ _ _ => true
  | .sectorBackgroundCompare _ => true
  | .fogCmdPortFog ag p => ag.ok && portOk p
  | .fogCmdClear ag p _ => ag.ok && portOk p
  | .fogCmdModuleFog ag => ag.ok
  | .fogRelease params _ => bytesOk params
  | .lockstepMismatch => true
  | .clockLost island => islandOk island
  | .powerDoubt => true
  | .feedLoss => true
  | .scrubPass _ _ => true
  | .comparatorSelftest _ => true
  | .injectGo ag cls p => ag.ok && decide (cls < 16) && portOk p
  | .fogNStuck => true
  | .thermalSample _ _ _ _ _ => true
  | .thermalFog _ => true
  | .keeperBoot _ => true
  | .crEnable ag => ag.ok
  | .crDisable ag => ag.ok
  | .crDb ag sq cq => ag.ok && word16 sq && word16 cq
  | .keeperCommandFetch _ _ _ _ => true
  | .nop h => h.ok
  | .imageBegin h _ _ => h.ok
  | .imageWrite h _ _ _ _ _ => h.ok
  | .imageVerify h _ => h.ok
  | .imageCommit h _ => h.ok
  | .imageActivate h => h.ok
  | .imageAccept h => h.ok
  | .imageAbort h _ => h.ok
  | .opKeyEnroll h _ _ _ => h.ok
  | .keyRevoke h k => h.ok && decide (k < 2)
  | .setCert h _ _ _ => h.ok
  | .mctpCommandReceived _ _ => true
  | .regRead port addr _ => mgmtOk port && word32 addr
  | .regWrite port addr data => mgmtOk port && word32 addr && data.all word32
  | .spdmRequest _ _ _ => true
  | .dbgNonce => true
  | .dbgUnlock _ => true
  | .dbgLock => true
  | .unlockLifetimeExpiry => true
  | .keeperDebug _ => true
  | .extest _ => true
  | .powerOn feed _ _ => feedOk feed
  | .crystalQualified => true
  | .crystalQualifyTimeout => true
  | .crystalLost => true
  | .stationStarted st => stationOk st
  | .islandStartTimeout => true
  | .bootEnd => true
  | .stnReset ag mask => ag.ok && word16 mask
  | .stationResetResume => true
  | .resetNFall => true
  | .resetNRise => true
  | .iroTrimWindow _ => true
  | .oppRegulatorReady st => stationOk st
  | .oppRegulatorTimeout st => stationOk st
  | .pwrTargetLit ag => ag.ok
  | .pwrTargetDim ag => ag.ok
  | .pwrTargetDark ag => ag.ok
  | .watchAlarm => true
  | .gateRequest island => islandOk island
  | .gateAck island => islandOk island
  | .gateAbandon island => islandOk island
  | .wakeAddressMatch => true
  | .comparatorTrip k _ => decide (k < 4)
  | .restoreStepReady => true
  | .restoreTimeout => true
  | .rampStart => true
  | .gateFullyEnhanced => true
  | .rampTimeout => true
  | .curveTrip point _ _ => pointOk point
  | .shortTrip _ => true
  | .soaModelUpdate _ => true
  | .ovTrip _ _ => true
  | .ovRecover => true
  | .retryDelayExpiry => true
  | .tripCountDecay => true
  | .pweLatchClear ag v => ag.ok && byteOk v
  | .pweApply ag v => ag.ok && byteOk v
  | .reverseCurrent feed => feedOk feed
  | .feedBelowWarning feed => feedOk feed
  | .feedArmed feed => feedOk feed
  | .feedWarnRelease => true
  | .feedDisarm feed => feedOk feed
  | .mateLatch sel => decide (sel < 8)
  | .mateLost => true
  | .lrStatus params _ => bytesOk params
  | .lrPweRead params _ => bytesOk params
  | .lrPweWrite params _ => bytesOk params
  | .lrPower params _ => bytesOk params
  | .i3cDynamicAddress port ep addr => mgmtOk port && decide (ep < 2) && decide (addr < 128)
  | .rstdaa port => mgmtOk port
  | .colEnable ag => ag.ok
  | .snapshot => true
  | .snapNow ag => ag.ok
  | .dumpRdWrite ag n => ag.ok && word32 n
  | .stagedDumpMove => true
  | .sndPop ag => ag.ok
  | .logSummary => true
  | .keepAreaProgram => true
  | .logFreeze ag _ => ag.ok
  | .freezeTimeout => true
  | .logRdSel ag area index => ag.ok && decide (area < 4) && decide (index < 16384)
  | .standbyConverterStop => true
  | .refclkQualified => true
  | .pcieReplayTimeout p _ => portOk p

end Sys2Proof
end

