-- ==== Sys2Proof/Tests/Slice0.lean ====
section
/-!
SUPPORT. Tests: small states, one theorem per obligation that shows a state and operands meeting the hypotheses of each of its
clauses, ill-formed commands that `Instr.wf` refuses, and figures that the manual works out.
-/
set_option maxRecDepth 100000
set_option linter.unusedVariables false
set_option linter.unusedTactic false
set_option linter.unreachableTactic false
set_option linter.unnecessarySeqFocus false
set_option Elab.async false
namespace Sys2Proof.Tests
open Sys2Proof Sys2Proof.Machine

/-! ## Small states -/

/-- A state with the given chip, nothing in flash and nothing queued. -/
def st (c : Chip) : State := { chip := c }

/-- The module is in RUN: power is good, clocks run, the Keeper serves, no Fog holds, and both paths of FOG_N have passed. -/
def upC : Chip :=
  ((((((({ pwr := { standby := true, pgood := true, ckg := true, addrSel := some 0 }, mor := { bootHold := false } } : Chip).setFld
    Reg.KPR_STATUS Bit.KPR_STATUS_STAGE 1).clrFld Reg.SAF_STATUS Bit.SAF_STATUS_MODULE_FOG).clrFld Reg.MOD_FOG_CAUSE
    Bit.MOD_FOG_CAUSE_CAUSE).setFld Reg.START_STATUS Bit.START_STATUS_STATION 0xFFFF).setBit Reg.START_STATUS
    Bit.START_STATUS_BEACON).setBit Reg.SAF_STATUS Bit.SAF_STATUS_KEEPER_PATH_OK).setBit Reg.SAF_STATUS Bit.SAF_STATUS_LAMP_PATH_OK

/-- A port map: port 0 is the upstream port of VSI 0, the manager; port 1 is a downstream port; ports 2 and 10 are
span ports; ports 8 and 9 share a lane quad; port 16 is a downstream port of 16 lanes; port 24 is the upstream port of VSI 1. -/
def portMap : List PortCfg :=
  [{ index := 0, present := true, width := 3, up := true, vsi := 0, vsiSet := true },
   { index := 1, present := true, width := 2, offset := 8 },
   { index := 2, present := true, width := 2, offset := 12, kaund := true, facing := true, vcEn := 1 }] ++
  List.replicate 5 ({ } : PortCfg) ++ [{ index := 8, present := true, width := 1 }, { index := 9, present := true, width := 1, offset := 2 },
   { index := 10, present := true, width := 2, offset := 4, kaund := true, vcEn := 1 }] ++ List.replicate 5 ({ } : PortCfg) ++ [{ index := 16, present := true, width := 4 }] ++ List.replicate 7 ({ } : PortCfg) ++
  [{ index := 24, present := true, width := 3, up := true, vsi := 1, vsiSet := true }]

/-- Tables in force: 64 entries for port 1, module 5 by port 10, every access allowed. -/
def tabs : SMap Word := [(Reg.ORT_LIMIT 1, 64), (Reg.MOD_ENT 5, 0x8A), (Reg.SEC_DEFAULT_0, 0xFFFFFFFF)]

/-- The module of `upC` with `portMap`: ports 0, 1 and 24 in DL_Active, the spans of ports 2 and 10 in UP, module 5
beyond port 10, VSI 0 and VSI 1 owned, port 1
bound to vBridge 0 of VSI 1, vBridge 0's memory range at 1 MiB, Memory Space Enable of both Relay functions set, and the BARs of VSI 1's above 4 GiB. -/
def fabC : Chip :=
  let c := { upC with
    tabA := tabs, tabB := tabs
    tabRef := tabs, map := portMap
    pci := { phyUp := [0, 1, 24], adv := [(0, [8, 64, 8, 8, 8, 64]), (1, [8, 64, 8, 8, 8, 64]), (24, [8, 64, 8, 8, 8, 64])] }
    sw := { txCredit := [(0, [8, 64, 8, 8, 8, 64]), (1, [8, 64, 8, 8, 8, 64]), (24, [8, 64, 8, 8, 8, 64])] }
    knd := { spans := [{ port := 2 }, { port := 10 }] }
    vsi := { ports := [(1, 0, 1)], vbrs := [{ v := 1, i := 0, ranges := [(0x100000, 0x1FFFFF)] }]
             vbrsB := [{ v := 1, i := 0, ranges := [(0x100000, 0x1FFFFF)] }] } }
  let c := ((c.setBit (Reg.PRT_STATUS 0) Bit.PRT_STATUS_DL_UP).setBit (Reg.PRT_STATUS 1) Bit.PRT_STATUS_DL_UP).setBit
    (Reg.PRT_STATUS 24) Bit.PRT_STATUS_DL_UP
  let c := (c.setBit (Reg.PRT_ID 2) Bit.PRT_ID_KAUND).setFld (Reg.SPAN_STATUS 2) Bit.SPAN_STATUS_STATE 2
  let c := (c.setBit (Reg.PRT_ID 10) Bit.PRT_ID_KAUND).setFld (Reg.SPAN_STATUS 10) Bit.SPAN_STATUS_STATE 2
  let c := (c.setFld Reg.KND_CTRL Bit.KND_CTRL_HOP_LIMIT 8).setFld Reg.KND_CTRL Bit.KND_CTRL_REVERT_HOLD 0
  let c := (c.setBit (Reg.VSI_ID 0) Bit.VSI_ID_OWNED).setBit (Reg.VSI_ID 0) Bit.VSI_ID_MANAGER
  let c := ((c.setBit (Reg.VSI_ID 1) Bit.VSI_ID_OWNED).setFld (Reg.VSI_ID 1) Bit.VSI_ID_PORT 24).setFld (Reg.VSI_ID 1)
    Bit.VSI_ID_VBR_COUNT 4
  let c := ((c.setCfg 0 1 keyMse 1).setCfg 1 1 keyMse 1).setCfg 1 1 (keyBar 0 true) 1
  ((c.setCfg 1 1 (keyBar 2 true) 2).setFld (Reg.VSI_ID 0) Bit.VSI_ID_VBR_COUNT 4).setFld Reg.KND_ID Bit.KND_ID_MODULE 2

/-- `fabC` with a whole TLP received on a port. -/
def rxC (p : Nat) (t : Tlp) : Chip :=
  { fabC with sw := { fabC.sw with rx := [{ port := p, tlp := t, len := 80, got := 80, whole := true }] } }

/-- A posted write of VSI 1 from its upstream port to port 1. -/
def wrK : Pkt :=
  { uid := 1, st := 3, inPort := 24, tlp := { kind := .mwr, addr := 0x100000, len := 64 }, egPort := 1, vsi := 1, actVsi := 1 }

/-- A read of VSI 1 on the same way. -/
def rdK : Pkt := { wrK with tlp := { kind := .mrd, addr := 0x100000, len := 64 } }

/-- `fabC` with a packet in the core. -/
def pktC (k : Pkt) : Chip := { fabC with sw := { fabC.sw with pkts := [k], nextUid := 2, nextOrder := 1 } }

/-- `fabC` with a packet queued on port 1. -/
def obC (k : Pkt) (e : ObEnt) : Chip := { pktC k with sw := { (pktC k).sw with obq := [e] } }

/-- The queue entry of a whole packet on port 1. -/
def fullE : ObEnt := { uid := 1, port := 1, tc := 0, vsi := 1, order := 0, full := true }

/-- A guarded frame of port 24 toward another module. -/
def grdK : Pkt :=
  { uid := 1, st := 3, inPort := 24, tlp := { kind := .mwr, len := 64 }, kh := some { destFa := 648, guarded := true, srcFa := 280, srcVsi := 1 }
    egPort := 2, guarded := true, vsi := 1, actVsi := 1 }

/-- A custody copy of that frame. -/
def copyK (s : CopySt) : Copy := { id := 0, srcFa := 280, tc := 0, destFa := 648, epoch := 1, n := 0, state := s, pkt := { grdK with uid := 9 }, gran := 4 }

/-- The stream of that frame. -/
def strm : IStream := { srcFa := 280, tc := 0, destFa := 648, epoch := 1, next := 1, low := 0, lastPort := some 2 }

/-- `fabC` with a copy and its stream. -/
def copyC (s : CopySt) (x : IStream) : Chip := { fabC with mor := { fabC.mor with copies := [copyK s], nextCopy := 1, streams := [x] } }

/-- An entry of the table of port 1: a read of 64 bytes for port 24. -/
def ortE : OrtEnt := { port := 1, mapRid := 0x100, mapTag := 5, origRid := 0x800, origTag := 7, ret := .local 3 0 24, vsi := 1, addr := 0x100000, remain := 64 }

/-- `fabC` with the span of port 2 in a state, and timers that are due. -/
def spanC (state : Nat) (due : List TimerId) : Chip :=
  { fabC.setFld (Reg.SPAN_STATUS 2) Bit.SPAN_STATUS_STATE state with timers := due.map (fun t => (t, 0)) }

/-- `upC` with timers that are due. -/
def dueC (due : List TimerId) : Chip := { upC with timers := due.map (fun t => (t, 0)) }

/-- `fabC` with a frame received on port 2. -/
def frmC (f : Frame) : Chip :=
  { fabC with sw := { fabC.sw with rx := [{ port := 2, frame := some f, len := 96, got := 96, whole := true }] } }

/-- A frame of another module that goes on to module 5, with its KH_CRC. -/
def frm : Frame := ({ kh := { destFa := 648, srcFa := 900 } } : Frame).seal

/-- `fabC` with a signal message received on port 2, and with one that ends here. -/
def sigC (m : SigMsg) : Chip := { fabC with knd := { fabC.knd with sigRx := [(2, m)] } }
def msgC (m : SigMsg) : Chip := { fabC with knd := { fabC.knd with delivered := [m] } }

/-- `fabC` with a port whose training may end: not in L0, and its quad's PLL locked. -/
def trnC (p : Nat) : Chip :=
  { (fabC.clrFld (Reg.PRT_STATUS p) Bit.PRT_STATUS_DL_UP).setBit (Reg.LQ_STATUS (if p = 1 then 2 else 4)) Bit.LQ_STATUS_PLL_LOCK
    with pci := { fabC.pci with phyUp := [0, 24] } }

/-- `fabC` with the command ring enabled and one entry written. -/
def ringC : Chip := { fabC.setBit Reg.CR_CTRL Bit.CR_CTRL_EN with kpr := { fabC.kpr with sqSeen := 1 } }

/-- `ringC` with port 16 bound to the manager, and so shared, VSI 5 a proxy. -/
def sharC : Chip :=
  { ringC.setBit (Reg.VSI_ID 5) Bit.VSI_ID_PROXY with vsi := { ringC.vsi with ports := [(1, 0, 1), (0, 0, 16)] } }

/-- A remote function binding of vBridge 1 of VSI 1. -/
def hostB : HostBind := { v := 1, vbr := 1, devfn := 0, local_ := none, targetFa := 648, prid := 0x100 }

/-- `fabC` with one function binding, and timers that are due. -/
def hostC (h : HostBind) (due : List TimerId) : Chip :=
  { fabC with vsi := { fabC.vsi with hosts := [h] }, timers := due.map (fun t => (t, 0)) }

/-- `fabC` with slice 4095 granted to VSI 1, in a state, its rings of 64 entries, Bus Master Enable set, and work in the engine. -/
def slC (state : Nat) (descs : List RDesc) (ops : List ROp) : Chip :=
  let c := { fabC with rly := { slices := [{ slice := 4095 }], descs, ops, nextOp := 3 } }
  let c := ((c.setFld (Reg.SLC_STATE 4095) Bit.SLC_STATE_STATE state).setFld (Reg.SLC_BIND 4095) Bit.SLC_BIND_VSI 1).setFld
    (Reg.SLC_BIND 4095) Bit.SLC_BIND_TC_MASK 1
  let c := ((c.setFld (Reg.RING_CFG 4095) Bit.RING_CFG_SQ_LOG2 6).setFld (Reg.RING_CFG 4095) Bit.RING_CFG_CQ_LOG2 6).setFld
    (Reg.RING_CFG 4095) Bit.RING_CFG_RUN_AHEAD 8
  (c.setBit (Reg.RF_STATUS 1) Bit.RF_STATUS_BME).setFld (Reg.SLC_RID 4095) Bit.SLC_RID_REQ_RID 1

/-- A descriptor of slice 4095. -/
def dsc (started : Bool) (d : Desc) : RDesc := { slice := 4095, idx := 0, d, started }

/-- An operation of slice 4095. -/
def opn (kind : ROpKind) : ROp := { id := 2, slice := 4095, idx := 0, kind, len := 64, dest := 648 }

/-- A Relay message. -/
def rmsg (reply : Bool) : Tlp := { kind := .msg, rmsg := some { reply, destSlice := 4095, srcSlice := 4095, ref := 0 } }

/-- `fabC` with module Fog for the start only, and all islands started. -/
def endC : Chip :=
  let c := (fabC.setBit Reg.SAF_STATUS Bit.SAF_STATUS_MODULE_FOG).setFld Reg.MOD_FOG_CAUSE Bit.MOD_FOG_CAUSE_CAUSE 0x20
  let c := ((c.setBit Reg.SAF_STATUS Bit.SAF_STATUS_KEEPER_PATH_OK).setBit Reg.SAF_STATUS Bit.SAF_STATUS_LAMP_PATH_OK).setBit
    Reg.START_STATUS Bit.START_STATUS_RELAY
  ((c.setBit Reg.START_STATUS Bit.START_STATUS_TOWER).setBit Reg.START_STATUS Bit.START_STATUS_MOORING).setFld Reg.START_STATUS
    Bit.START_STATUS_MC 15

/-- `fabC` with the shadows of the power-entry settings at the factory values, but `DELAY`. -/
def applC (delay : Nat) : Chip :=
  let c := (List.range 8).foldl (fun c k => (c.wr (Reg.CURVE_T k) (fabC.pwe (Reg.CURVE_T k))).wr (Reg.CURVE_I k) (fabC.pwe (Reg.CURVE_I k))) fabC
  let c := (c.wr Reg.WARN_THR (fabC.pwe Reg.WARN_THR)).wr Reg.THERM_CFG (fabC.pwe Reg.THERM_CFG)
  (c.wr Reg.RETRY_CFG (fabC.pwe Reg.RETRY_CFG)).setFld Reg.RETRY_CFG Bit.RETRY_CFG_DELAY delay

/-- `fabC` with the Collector enabled, and with its buffer full. -/
def colC : Chip := fabC.setBit Reg.COL_CTRL Bit.COL_CTRL_EN
def fulC : Chip := fabC.wr Reg.DUMP_WR 64

/-- A record of Recent that the Keep has not taken. -/
def recK : LogRec := { code := .powerDoubt, slot := some 0 }

/-- `fabC` with the manager's link and the Relay ready, and an entry of the dump. -/
def mgrC : Chip := fabC.setBit Reg.START_STATUS Bit.START_STATUS_RELAY
def dmpE : DumpEnt := { seq := 1, tTime := 2, tUp := 3, fsn := 4, sel := 1, missed := 0, len := 1, values := [5] }

/-! ## Well-formedness: an ill-formed command for each check, which the check refuses -/

theorem test_wf_accepts : (Instr.wf (.registerWrite .keeper 0x820000 1) = true) ∧ (Instr.wf (.sliceReset (.vsi 63) 4095) = true) := by decide

theorem test_wf_refuses_access : Instr.wf (.registerWrite (.vsi 64) 0 0) = false ∧ Instr.wf (.registerWrite (.mgmt 2) 0 0) = false ∧
    Instr.wf (.registerWrite .keeper 2 0) = false ∧ Instr.wf (.registerWrite .keeper 0x4000000 0) = false ∧
    Instr.wf (.registerWrite .keeper 0 (2 ^ 32)) = false ∧ Instr.wf (.regAccessBadSize .keeper 0 4 true) = false := by decide

theorem test_wf_refuses_names : Instr.wf (.packetTransmitted 128) = false ∧ Instr.wf (.vsiReady 64) = false ∧
    Instr.wf (.sbrVbridge 0 256) = false ∧ Instr.wf (.quiesceTimeout 0 0 256) = false ∧ Instr.wf (.packetStaged 16) = false ∧
    Instr.wf (.descriptorFetch 4096) = false ∧ Instr.wf (.pllLockLost 64) = false ∧ Instr.wf (.prsntChange 32 true none) = false ∧
    Instr.wf (.beaconWakePattern 2) = false ∧ Instr.wf (.rstdaa 2) = false ∧ Instr.wf (.feedArmed 2) = false ∧
    Instr.wf (.curveTrip 8 0 0) = false ∧ Instr.wf (.gateAck 90) = false := by decide

theorem test_wf_refuses_fields : Instr.wf (.castGapExpiry (2 ^ 25) 0 0) = false ∧ Instr.wf (.castGapExpiry 0 8 0) = false ∧
    Instr.wf (.ctoExpiry 0 16384) = false ∧ Instr.wf (.rtCommit .keeper 65536) = false ∧ Instr.wf (.guardMapWrite .keeper 0 256) = false ∧
    Instr.wf (.pieceIssue 0 65536 true) = false ∧ Instr.wf (.dumpRdWrite .keeper (2 ^ 32)) = false ∧
    Instr.wf (.nop { tag := 65536 }) = false ∧ Instr.wf (.queryBind {} 0 0 0 0 0 65536) = false ∧ Instr.wf (.lrStatus [256] 0) = false := by
  decide

theorem test_wf_refuses_ranges : Instr.wf (.emulatedBarWrite 0 0 0 6 false 0) = false ∧ Instr.wf (.setVbrCount {} 0 257) = false ∧
    Instr.wf (.sqDb 0 0 4096 0 0 0) = false ∧ Instr.wf (.injectGo .keeper 16 0) = false ∧ Instr.wf (.keyRevoke {} 2) = false ∧
    Instr.wf (.comparatorTrip 4 0) = false ∧ Instr.wf (.mateLatch 8) = false ∧ Instr.wf (.i3cDynamicAddress 0 2 0) = false ∧
    Instr.wf (.i3cDynamicAddress 0 0 128) = false ∧ Instr.wf (.logRdSel .keeper 4 0) = false ∧
    Instr.wf (.logRdSel .keeper 0 16384) = false ∧ Instr.wf (.felRdWrite .keeper 0 128) = false ∧
    Instr.wf (.kndFabRidWrite .keeper 512) = false := by decide

/-! ## Figures of the manual -/

/-- R535: both CRCs over the bytes "123456789". -/
theorem test_crc_check_values : crc16 0xFFFF [0x31, 0x32, 0x33, 0x34, 0x35, 0x36, 0x37, 0x38, 0x39] = 0x29B1 ∧
    crc8 0x313233343536373839 71 0 = 0xF4 := by decide +kernel

/-- 00_scope: FA 1207.33.96. -/
theorem test_fabric_address : mkFa 1207 33 96 = 0x012DD0E0 ∧ faReach 0x012DD0E0 = 1207 ∧ faModule 0x012DD0E0 = 33 ∧
    faPort 0x012DD0E0 = 96 := by decide

/-- 20_register_directory: the offsets worked out after Table 20.3. -/
theorem test_register_offsets : Reg.SLC_STATE 211 = 0x0210D304 ∧ Reg.FEL_PTR 5 = 0x00902804 ∧ Reg.SPAN_STATUS 120 = 0x005E0104 := by
  decide +kernel

/-- 20_register_directory: VSI 5 sees its own slice and its own log pointer; another's slice and a span port are hidden from it. -/
def viewC : Chip :=
  { (fabC.setBit (Reg.VSI_ID 5) Bit.VSI_ID_OWNED).setFld (Reg.SLC_BIND 211) Bit.SLC_BIND_VSI 5 with
    rly := { slices := [{ slice := 211 }, { slice := 212 }] } }
theorem test_host_view : ((viewC.setFld (Reg.SLC_STATE 211) Bit.SLC_STATE_STATE sActive).sees (.vsi 5) 0x0210D304 ≠ .hidden) ∧
    viewC.sees (.vsi 5) 0x0210D404 = .hidden ∧ viewC.sees (.vsi 5) 0x005E0104 = .hidden := by decide +kernel

/-- 02_switch_core: a 256-byte posted write of 288 bytes takes 3 cells. -/
theorem test_cells : Pkt.cells { wrK with tlp := { kind := .mwr, addr := 2 ^ 32, len := 256 } } = 3 := by decide +kernel

/-- Table 2.4, plane 0: 0 to 5 and 1 to 4 match, and the pointers that moved are g[5] = 1, a[0] = 6, g[4] = 2, a[1] = 5. -/
theorem test_match_plane0 :
    let req := fun i j => [(0, 4), (0, 5), (1, 4), (1, 6), (2, 4), (2, 5)].contains (i, j)
    let m := iterations 0 req (fun _ => false) 2 true
      { g := setNth (List.replicate 16 0) 4 1, a := setNth (setNth (setNth (List.replicate 16 0) 0 5) 1 4) 2 4 }
    m.done = [{ plane := 0, inp := 0, out := 5, mc := false }, { plane := 0, inp := 1, out := 4, mc := false }] ∧
    nth m.g 5 = 1 ∧ nth m.a 0 = 6 ∧ nth m.g 4 = 2 ∧ nth m.a 1 = 5 ∧ nth m.g 6 = 0 := by decide +kernel

/-- Table 5.5: H for 10 m, 50 m and 150 m on x16 at 128 GT/s. -/
theorem test_headroom :
    let c := (fabC.setFld (Reg.SPAN_STATUS 2) Bit.SPAN_STATUS_WIDTH 16).setBit (Reg.SPAN_STATUS 2) Bit.SPAN_STATUS_RATE
    c.headroom 2 204 = 49092 ∧ c.headroom 2 604 = 137092 ∧ c.headroom 2 1604 = 357092 := by decide +kernel

/-- 06_fabric: 4,096 bytes through a window with MRRS 1,024 leave as four reads. -/
theorem test_window_pieces :
    (Win.pieces { idx := 0, valid := true, base := 0, size := 1, vsi := 0, mps := 1, mrrs := 3, mc := false, off := 0, dest := 0 }
      { kind := .mrd, len := 4096 } 0x4080001000) =
      [(0x4080001000, 1024), (0x4080001400, 1024), (0x4080001800, 1024), (0x4080001C00, 1024)] := by decide +kernel

/-- 11_sectors: the first write piece to 0x…0E00 under MPS 512 is 512 bytes, and no piece crosses 0x…1000. -/
theorem test_relay_pieces : pieceLen 512 0x8000000E00 8192 = 512 ∧ pieceLen 4096 0x8000000E00 8192 = 512 := by decide

/-- Table 14.8: ports 40 and 44. -/
theorem test_portmap_entry : (portCfgOf (([0x38, 0x60, 0x01, 0x0F, 0, 0, 0, 0] : List Nat).map (BitVec.ofNat 8 ·))).facing = false ∧
    (portCfgOf (([0x38, 0x60, 0x01, 0x0F, 0, 0, 0, 0] : List Nat).map (BitVec.ofNat 8 ·))).width = 3 ∧
    (portCfgOf (([0x38, 0x60, 0x01, 0x0F, 0, 0, 0, 0] : List Nat).map (BitVec.ofNat 8 ·))).vcEn = 15 ∧
    (portCfgOf (([0xAC, 0x68, 0, 0x01, 0x4C, 0, 0, 0] : List Nat).map (BitVec.ofNat 8 ·))).index = 4 ∧
    (portCfgOf (([0xAC, 0x68, 0, 0x01, 0x4C, 0, 0, 0] : List Nat).map (BitVec.ofNat 8 ·))).offset = 8 ∧
    (portCfgOf (([0xAC, 0x68, 0, 0x01, 0x4C, 0, 0, 0] : List Nat).map (BitVec.ofNat 8 ·))).vsi = 12 := by decide +kernel

/-- 10_scheduling: 20,000 MB/s give 640 bytes in 32 ns (the tokens count thousandths of a byte). -/
theorem test_refill : ((fabC.setTokens 7 64 (-1000)).refill 7 20000 64).tokensOf 7 64 = 639000 := by decide +kernel

/-- 18_module_connections: ports 44, 46 and 47 lie on CS_11, and port 44 is its lead; port 40 leads CS_10. -/
def bifC : Chip :=
  { fabC with map := List.replicate 40 ({ } : PortCfg) ++ [{ index := 0, present := true, width := 3 }, {}, {}, {},
    { index := 4, present := true, width := 2, offset := 8 }, {}, { index := 6, present := true, width := 1, offset := 12 },
    { index := 7, present := true, width := 1, offset := 14 }] }
theorem test_lead_ports : bifC.leadOf 10 = some 40 ∧ bifC.leadOf 11 = some 44 ∧ bifC.sitesOf 47 = [11] := by decide +kernel

/-- 08_virtual_switches: the window of a bound BAR0 has BASE 0x…4000_0000 and OFFSET 0xFFFF_FFBD_C010_0000. -/
def barC : Chip := hostC { hostB with mse := true, bars := [{ idx := 0, win := 17, phys := 0x8000100000, size := 0x10000, addr := 0xC200000000, hi := true }] } []
theorem test_bar_write : ∃ t, exec (.emulatedBarWrite 1 1 0 0 false 0x40000000) (st barC) = .next t ∧
    (winOf t.chip.rd 17).base = 0xC240000000 ∧ (winOf t.chip.rd 17).off = 0xFFFFFFBDC0100000 := ⟨_, rfl, by decide +kernel⟩

/-! ## Commands -/

/-- R15, R19: a write reaches its register, and its reserved bits are ignored. -/
theorem test_register_write : ∃ t, exec (.registerWrite .keeper (Reg.ORT_LIMIT 1) 0xFFFFFFFF) (st upC) = .next t ∧
    t.chip.rd (Reg.ORT_LIMIT 1) ≠ 0xFFFFFFFF := ⟨_, rfl, by decide +kernel⟩

/-- R521: nothing stops the machine but a rating of Table 21.1; 75 V is within it, 76 V is not. -/
theorem test_absolute_maximum : (∃ t, exec (.ovTrip 75000 0) (st fabC) = .next t) ∧
    exec (.ovTrip 76000 0) (st fabC) = .fault .beyondAbsoluteMaximum := ⟨⟨_, rfl⟩, rfl⟩

/-- An empty queue passes time, a command at the front runs and leaves it. -/
theorem test_step : (∃ t, step { st upC with pending := [.nop {}] } = .next t ∧ t.pending = []) :=
  ⟨_, rfl, by decide +kernel⟩

/-! ## Witnesses: each clause of an obligation that has hypotheses is met by a concrete state -/

theorem witness_StepRunsFrontCommand :
    ∃ s : State, ∃ i : Instr, ∃ rest : List Instr, (s.pending = i :: rest) :=
  ⟨{ chip := upC, pending := [.resetNFall, .resetNRise] }, .resetNFall, [.resetNRise], by decide +kernel⟩

theorem witness_EmptyQueuePassesTime :
    (∃ s : State, (s.pending = []) ∧ (s.chip.pwr.standby = true)) ∧
    (∃ s : State, (s.pending = []) ∧ (s.chip.pwr.standby = false)) :=
  ⟨⟨st upC, by and_intros <;> decide +kernel⟩,
   ⟨State.reset, by and_intros <;> decide +kernel⟩⟩

theorem witness_RegisterWriteReachesItsRegister :
    (∃ s : State, ∃ ag : Agent, ∃ off : Nat, (s.chip.reaches ag off = true) ∧ (regAt off = none)) ∧
    (∃ s : State, ∃ ag : Agent, ∃ off : Nat, ∃ value : Nat, ∃ row : RegRow, ∃ ix : List Nat, (s.chip.reaches ag off = true) ∧
      (regAt off = some (row, ix)) ∧ ((s.chip.openGate off).ownRule s.logRecord ag off row (BitVec.ofNat 32 value) = none)) ∧
    (∃ s : State, ∃ ag : Agent, ∃ off : Nat, ∃ value : Nat, ∃ row : RegRow, ∃ ix : List Nat, ∃ c : Chip, (s.chip.reaches ag off = true) ∧
      (regAt off = some (row, ix)) ∧ ((s.chip.openGate off).ownRule s.logRecord ag off row (BitVec.ofNat 32 value) = some c)) ∧
    (∃ s : State, ∃ ag : Agent, (s.chip.busRuns ag = true) ∧ (s.chip.keeperBusy ag = true)) ∧
    (∃ s : State, ∃ v : Nat, ∃ off : Nat, (s.chip.busRuns (.vsi v) = true) ∧ (s.chip.keeperBusy (.vsi v) = false) ∧ (s.chip.isManager v = false) ∧
      (s.chip.sees (.vsi v) off = .hidden)) ∧
    (∃ s : State, ∃ ag : Agent, ∃ off : Nat, (s.chip.busRuns ag = true) ∧ (s.chip.keeperBusy ag = false) ∧ (s.chip.sees ag off = .full) ∧
      (s.chip.islandHeld off = true)) :=
  ⟨⟨st upC, .keeper, 0xFFFFFFC, by and_intros <;> decide +kernel⟩,
   by refine ⟨st upC, .keeper, Reg.WATCH_ALARM_LO, 1, _, _, ?_, rfl, ?_⟩ <;> and_intros <;> decide +kernel,
   by refine ⟨st upC, .keeper, Reg.RT_COMMIT, 1, _, _, _, ?_, rfl, rfl⟩ <;> and_intros <;> decide +kernel,
   ⟨st (fabC.setFld Reg.KPR_STATUS Bit.KPR_STATUS_STAGE 0), .vsi 1, by and_intros <;> decide +kernel⟩,
   ⟨st fabC, 1, Reg.RT_COMMIT, by and_intros <;> decide +kernel⟩,
   ⟨st (fabC.setFld Reg.STN_RESET Bit.STN_RESET_BUSY 8), .keeper, Reg.PRT_CTRL 24, by and_intros <;> decide +kernel⟩⟩

theorem witness_LoReadLatchesHi :
    ∃ s : State, ∃ ag : Agent, ∃ off : Nat, (s.chip.reaches ag off = true) ∧ (pairAt off = 1) ∧ (pairAt (off + 4) = 2) :=
  ⟨st upC, .keeper, Reg.WATCH_ALARM_LO, by and_intros <;> decide +kernel⟩

theorem witness_AccessOfAnotherSizeHasNoEffect :
    (∃ s : State, ∃ ag : Agent, ∃ size : Nat, ∃ o, (s.chip.busRuns ag = true) ∧ (s.chip.keeperBusy ag = false) ∧ (size ≠ 4) ∧ (o ≠ Reg.LOG_SEQ) ∧
      (o ≠ Reg.LOG_STATUS) ∧ (o ≠ Reg.LOG_EVENT)) ∧
    (∃ s : State, ∃ ag : Agent, ∃ size : Nat, (s.chip.busRuns ag = true) ∧ (s.chip.keeperBusy ag = false) ∧ (size ≠ 4) ∧ (s.chip.keeperRuns = true) ∧
      (s.chip.flag Reg.LOG_CTRL Bit.LOG_CTRL_FREEZE = false)) :=
  ⟨⟨st upC, .keeper, 8, 0, by and_intros <;> decide +kernel⟩,
   ⟨st upC, .keeper, 8, by and_intros <;> decide +kernel⟩⟩

theorem witness_RegisterMessagesReachTheBus :
    (∃ s : State, ∃ k : Nat, ∃ addr : Nat, ∃ count : Nat, (s.chip.busRuns (.mgmt k) = true) ∧ (s.chip.inRecovery = false) ∧ (1 ≤ count) ∧
      (count ≤ 16) ∧ (s.chip.msgHeld k addr count = false)) ∧
    (∃ s : State, ∃ k : Nat, ∃ addr : Nat, (s.chip.reaches (.mgmt k) addr = true) ∧ (s.chip.inRecovery = false) ∧ (pairAt addr = 0)) ∧
    (∃ s : State, ∃ k : Nat, ∃ addr : Nat, ∃ data : List Nat, (s.chip.busRuns (.mgmt k) = true) ∧ (s.chip.inRecovery = false) ∧ (1 ≤ data.length) ∧
      (data.length ≤ 16) ∧ (s.chip.msgHeld k addr data.length = false)) ∧
    (∃ s : State, ∃ k : Nat, ∃ addr : Nat, ∃ d : Nat, ∃ row : RegRow, ∃ ix : List Nat, (s.chip.reaches (.mgmt k) addr = true) ∧
      (s.chip.inRecovery = false) ∧ (regAt addr = some (row, ix)) ∧
      ((s.chip.openGate addr).ownRule s.logRecord (.mgmt k) addr row (BitVec.ofNat 32 d) = none)) ∧
    (∃ s : State, (s.chip.inRecovery = true)) :=
  ⟨⟨st upC, 0, Reg.WATCH_ALARM_LO, 16, by and_intros <;> decide +kernel⟩,
   ⟨st upC, 0, Reg.KPR_STATUS, by and_intros <;> decide +kernel⟩,
   ⟨st upC, 0, Reg.WATCH_ALARM_LO, [5], by and_intros <;> decide +kernel⟩,
   by refine ⟨st upC, 0, Reg.WATCH_ALARM_LO, 5, _, _, ?_, ?_, rfl, ?_⟩ <;> and_intros <;> decide +kernel,
   ⟨st (upC.setFld Reg.KPR_STATUS Bit.KPR_STATUS_STAGE 2), by decide +kernel⟩⟩

theorem witness_PciePacketsArrive :
    (∃ s : State, ∃ p : Nat, (s.chip.portUp p = true) ∧ (s.chip.isSpan p = false) ∧ (s.chip.dlUp p = true) ∧
      (s.chip.sw.rx.find? (fun r => r.port == p && !r.whole) = none)) ∧
    (∃ s : State, ∃ p : Nat, ∃ t : Tlp, (s.chip.portUp p = true) ∧ (s.chip.isSpan p = false) ∧ (s.chip.dlUp p = true) ∧
      (s.chip.poolUseOf p (2 * t.creditType) + t.creditH ≤ nth (SMap.get s.chip.pci.adv p []) (2 * t.creditType)) ∧
      (s.chip.poolUseOf p (2 * t.creditType + 1) + t.creditD ≤ nth (SMap.get s.chip.pci.adv p []) (2 * t.creditType + 1))) ∧
    (∃ s : State, ∃ p : Nat, ∃ r : Rx, ∃ c : Chip, ∃ v : Nat,
      (s.chip.takeRx p (fun r => !(r.tlp.kind == .cpl || r.tlp.kind == .cfgRd || r.tlp.kind == .cfgWr)) = some (r, c)) ∧ (s.chip.barTlp p = none) ∧
      (r.tlp.isMalformed = false) ∧ (r.tlp.isMem = true) ∧ (c.whose r.port r.tlp.rid = some v) ∧
      ((!(c.port r.port).up && c.acsBreaks r.port v r.tlp) = false) ∧
      (let m := c.submit { st := portStation r.port, src := portLocal r.port, port := r.port, v, path := b2n (!(c.port r.port).up) } (!(c.port r.port).up) r.tlp r.t0; m.uids ≠ [] ∧ m.what ≠ 5)) ∧
    (∃ s : State, ∃ p : Nat, ∃ r : Rx, ∃ c : Chip,
      (s.chip.takeRx p (fun r => !(r.tlp.kind == .cpl || r.tlp.kind == .cfgRd || r.tlp.kind == .cfgWr)) = some (r, c)) ∧ (r.tlp.isMalformed = true)) ∧
    (∃ s : State, ∃ p : Nat, ∃ r : Rx, ∃ c : Chip,
      (s.chip.takeRx p (fun r => !(r.tlp.kind == .cpl || r.tlp.kind == .cfgRd || r.tlp.kind == .cfgWr)) = some (r, c)) ∧
      (r.tlp.isMalformed = false) ∧ (r.tlp.kind = .mrdLk ∨ r.tlp.kind = .dmwr)) ∧
    (∃ s : State, ∃ p : Nat, ∃ r : Rx, ∃ l : List Rx, ∃ v : Nat, ∃ off : Nat, (s.chip.barTlp p = some (r, l, v, .rom off)) ∧ (r.whole = true) ∧
      (r.tlp.kind = .mrd)) ∧
    (∃ s : State, ∃ p : Nat, ∃ r : Rx, ∃ l : List Rx, ∃ v : Nat, ∃ off : Nat, (s.chip.barTlp p = some (r, l, v, .rom off)) ∧ (r.whole = true) ∧
      (r.tlp.kind = .mwr)) ∧
    (∃ c : Chip, ∃ v : Nat, ∃ len : Nat, ∃ i : Nat, (i < len) ∧ (c.keeperBusy (.vsi v) = true)) ∧
    (∃ c : Chip, ∃ v : Nat, ∃ len : Nat, ∃ i : Nat, ∃ l : LightList, (i < len) ∧ (c.keeperBusy (.vsi v) = false) ∧ (c.ll = some l)) :=
  ⟨⟨st fabC, 1, by and_intros <;> decide +kernel⟩,
   ⟨st fabC, 1, { kind := .mwr, len := 64 }, by and_intros <;> decide +kernel⟩,
   by refine ⟨st (rxC 24 { kind := .mwr, addr := 0x100000, len := 64 }), 24,
     { port := 24, tlp := { kind := .mwr, addr := 0x100000, len := 64 }, len := 80, got := 80, whole := true }, _, 1, rfl,
     ?_⟩ <;> and_intros <;> decide +kernel,
   by refine ⟨st (rxC 24 { kind := .mwr, addr := 0xFFF, len := 2 }), 24,
     { port := 24, tlp := { kind := .mwr, addr := 0xFFF, len := 2 }, len := 80, got := 80, whole := true }, _, rfl,
     ?_⟩ <;> and_intros <;> decide +kernel,
   by refine ⟨st (rxC 24 { kind := .mrdLk, addr := 0x100000, len := 4 }), 24,
     { port := 24, tlp := { kind := .mrdLk, addr := 0x100000, len := 4 }, len := 80, got := 80, whole := true }, _, rfl,
     ?_⟩ <;> and_intros <;> decide +kernel,
   by refine ⟨st { (rxC 24 { kind := .mrd, addr := 0x80000004, len := 4 }).setCfg 1 1 keyRom 0x80000001 with ll := some {} }, 24, _, _, _, _, rfl,
     ?_⟩ <;> and_intros <;> decide +kernel,
   by refine ⟨st { (rxC 24 { kind := .mwr, addr := 0x80000004, len := 4 }).setCfg 1 1 keyRom 0x80000001 with ll := some {} }, 24, _, _, _, _, rfl,
     ?_⟩ <;> and_intros <;> decide +kernel,
   ⟨fabC.setFld Reg.KPR_STATUS Bit.KPR_STATUS_STAGE 0, 1, 4, 3, by and_intros <;> decide +kernel⟩,
   ⟨{ fabC with ll := some { len := 3, image := [1, 2, 3] } }, 1, 4, 1, { len := 3, image := [1, 2, 3] }, by and_intros <;> decide +kernel⟩⟩

theorem witness_PcieCompletionsAndTimers :
    (∃ s : State, ∃ p : Nat, ∃ r : Rx, ∃ c : Chip, ∃ e : OrtEnt, (s.chip.takeRx p (fun r => r.tlp.kind == .cpl && r.whole) = some (r, c)) ∧
      (r.tlp.isMalformed = false) ∧ (c.ortFor p r.tlp = some e) ∧ (e.badCpl r.tlp = false) ∧ (e.ecc = 0) ∧ (c.saf.inject = none)) ∧
    (∃ s : State, ∃ p : Nat, ∃ r : Rx, ∃ c : Chip, (s.chip.takeRx p (fun r => r.tlp.kind == .cpl && r.whole) = some (r, c)) ∧
      (r.tlp.isMalformed = false) ∧ (c.ortFor p r.tlp = none) ∧ (c.quarFor p r.tlp = none)) ∧
    (∃ s : State, ∃ p : Nat, ∃ u : Unacked, ∃ l : List Unacked, (takeFirst (fun u => u.port == p) s.chip.pci.unacked = some (u, l))) ∧
    (∃ s : State, ∃ p : Nat, (s.chip.dlUp p = true) ∧ (s.chip.isSpan p = false)) ∧
    (∃ s : State, ∃ p : Nat, ∃ tag : Nat, ∃ e : OrtEnt, (s.chip.pci.ort.find? (fun e => e.port == p && e.mapTag == tag) = some e) ∧
      (s.chip.due (.cto p tag) = true) ∧ (s.chip.cplPending e = false) ∧ (e.ecc = 0) ∧ (s.chip.saf.inject = none)) ∧
    (∃ s : State, ∃ p : Nat, ∃ tag : Nat, (s.chip.due (.quarantine p tag) = true)) :=
  ⟨by refine ⟨st { rxC 1 { kind := .cpl, rid := 0x100, tag := 5, len := 64, byteCount := 64 } with pci := { fabC.pci with ort := [ortE] } }, 1, _, _, ortE, rfl, ?_⟩ <;> and_intros <;> decide +kernel,
   by refine ⟨st (rxC 1 { kind := .cpl, rid := 0x100, tag := 5, len := 64, byteCount := 64 }), 1, _, _, rfl, ?_⟩ <;> and_intros <;> decide +kernel,
   by refine ⟨st { fabC with pci := { fabC.pci with unacked := [{ port := 1, uid := 4, rel := none }] } }, 1, { port := 1, uid := 4, rel := none },
     [], rfl⟩ <;> and_intros <;> decide +kernel,
   ⟨st fabC, 1, by and_intros <;> decide +kernel⟩,
   by refine ⟨st { fabC with pci := { fabC.pci with ort := [ortE] }, timers := [(.cto 1 5, 0)] }, 1, 5, ortE, rfl,
     ?_⟩ <;> and_intros <;> decide +kernel,
   ⟨st { fabC with pci := { fabC.pci with quar := [{ port := 1, tag := 5, rid := 0x100, addr := 0, fin := 0 }] }, timers := [(.quarantine 1 5, 0)] },
     1, 5, by decide +kernel⟩⟩

theorem witness_CellsAreStagedAndMoved :
    (∃ s : State, ∃ st : Nat, ∃ src : Nat, ∃ k : Pkt, (st < 16) ∧ (s.chip.stSends st = true) ∧ (s.chip.bootFog = false) ∧
      (s.chip.ingestOf st < s.chip.ingestRate st) ∧
      (let c := (s.chip.dropNoTarget st).dropDown st; let c := if c.stUp st then c.feedReplay st else c; ((List.range 10).map (fun i => (SMap.get c.sw.lastSrc st 9 + 1 + i) % 10)).findSome? (fun src => (c.nextOf st src).bind (fun k => if k.fills 128 then some (src, k) else none)) = some (src, k))) ∧
    (∃ s : State, (s.chip.sw.g0 ≠ []) ∧ (s.chip.bootFog = false) ∧ (s.chip.clocked 80 = true)) ∧
    (∃ s : State, ∃ st : Nat, ∃ x : Transit, ∃ l : List Transit, ∃ refs : List (Nat × Nat),
      (takeFirst (fun t => t.out == st) s.chip.sw.transit = some (x, l)) ∧ (s.chip.saf.inject = none) ∧
      ((x.cell.segs.filter (·.first)).all (fun g => match s.chip.pkt g.uid with | some k => k.ihOk | none => true) = true) ∧
      (refs = x.cell.segs.flatMap (fun g => match s.chip.pkt g.uid with | some k => (if g.first then s.chip.targetsAt st k else (s.chip.sw.obq.filter (fun e => e.uid == g.uid && portStation e.port == st)).map (·.port)).map (fun p => (g.uid, p)) | none => [])) ∧
      (refsOver refs = false)) ∧
    (∃ s : State, ∃ st : Nat, ∃ x : Transit, ∃ l : List Transit, (takeFirst (fun t => t.out == st) s.chip.sw.transit = some (x, l)) ∧
      (s.chip.saf.inject = none)) :=
  ⟨⟨st (pktC wrK), 3, 0, wrK, by and_intros <;> decide +kernel⟩,
   ⟨st { pktC wrK with sw := { (pktC wrK).sw with g0 := List.replicate 16 0, a0 := List.replicate 16 0, g1 := List.replicate 16 0, a1 := List.replicate 16 0, voq := [{ st := 3, q := 0, cell := { st := 3, segs := [{ uid := 1, bytes := 96, first := true, last := true }] } }] } },
     by and_intros <;> decide +kernel⟩,
   by refine ⟨st { pktC { wrK with staged := 96 }.sealIh with sw := { (pktC { wrK with staged := 96 }.sealIh).sw with transit := [{ out := 0, mc := false, cell := { st := 3, segs := [{ uid := 1, bytes := 96, first := true, last := true }] } }] } },
     0, _, _, _, rfl, ?_, ?_, rfl, ?_⟩ <;> and_intros <;> decide +kernel,
   by refine ⟨st { pktC { wrK with staged := 96 }.sealIh with sw := { (pktC { wrK with staged := 96 }.sealIh).sw with transit := [{ out := 0, mc := false, cell := { st := 3, segs := [{ uid := 1, bytes := 96, first := true, last := true }] } }] } },
     0, _, _, rfl, ?_⟩ <;> and_intros <;> decide +kernel⟩

theorem witness_CustodyCopiesMoveThroughTheStore :
    (∃ s : State, ∃ st : Nat, ∃ src : Nat, ∃ k : Pkt, (s.chip.feedsLow = false) ∧ (s.chip.morRuns = true) ∧
      ((s.chip.sourceQueue st src).find? (fun k => s.chip.needsCopy k && (match k.kh with | some h => s.chip.streamReady h.srcFa h.tc h.destFa | none => false)) = some k) ∧
      ((s.chip.metaAccess (k.kh.getD {}).srcFa (k.kh.getD {}).tc (k.kh.getD {}).destFa).2 = true) ∧
      ((s.chip.metaAccess (k.kh.getD {}).srcFa (k.kh.getD {}).tc (k.kh.getD {}).destFa).1.dieHasRoom k.granules = true)) ∧
    (∃ s : State, ∃ id : Nat, ∃ k : Copy, (s.chip.morRuns = true) ∧ (s.chip.copy id = some k) ∧ (k.state = .filling) ∧
      (s.chip.pkt k.pkt.uid = none) ∧ ((s.chip.copyComplete k).pkt k.pkt.uid = none)) ∧
    (∃ s : State, ∃ k : Copy, (s.chip.morRuns = true) ∧ (s.chip.mor.copies.find? (fun k => k.state == .held) = some k) ∧
      (s.chip.flag Reg.MOR_STATUS Bit.MOR_STATUS_SPILLING = true) ∧ (s.chip.ovfGran + k.gran ≤ s.chip.ovfRoom)) ∧
    (∃ s : State, ∃ id : Nat, ∃ k : Copy, ∃ x : IStream, (s.chip.morRuns = true) ∧ (s.chip.copy id = some k) ∧ (k.state = .spilled) ∧
      (x ∈ s.chip.mor.streams) ∧ (k.of x = true) ∧ (k.epoch = x.epoch) ∧ (k.n ∈ x.replaying)) :=
  ⟨⟨st (pktC grdK), 3, 0, grdK, by and_intros <;> decide +kernel⟩,
   ⟨st (copyC .filling strm), 0, copyK .filling, by and_intros <;> decide +kernel⟩,
   ⟨st (((copyC .held strm).setBit Reg.MOR_STATUS Bit.MOR_STATUS_SPILLING).setFld Reg.MOR_CTRL Bit.MOR_CTRL_OVF_GIB 1), copyK .held,
     by and_intros <;> decide +kernel⟩,
   ⟨st (copyC .spilled { strm with replaying := [0] }), 0, copyK .spilled, { strm with replaying := [0] }, by and_intros <;> decide +kernel⟩⟩

theorem witness_PortsSendTheirPackets :
    (∃ s : State, ∃ p : Nat, ∃ v : Nat, ∃ x : ObEnt × Pkt, (s.chip.portUp p = true) ∧ (s.chip.busyPort p = false) ∧
      ((s.chip.syncPort p).classChoice p = some v) ∧ ((s.chip.syncPort p).classCand p v = some x) ∧
      ((((s.chip.syncPort p).chargeChoice p v x).sndPoint x.1.uid 6).needsEntry p x.2 = false) ∧
      ((((s.chip.syncPort p).chargeChoice p v x).sndPoint x.1.uid 6).isSpan p = false)) ∧
    (∃ s : State, ∃ p : Nat, ∃ v : Nat, ∃ x : ObEnt × Pkt, (s.chip.portUp p = true) ∧ (s.chip.busyPort p = false) ∧
      ((s.chip.syncPort p).classChoice p = some v) ∧ ((s.chip.syncPort p).classCand p v = some x) ∧
      ((((s.chip.syncPort p).chargeChoice p v x).sndPoint x.1.uid 6).needsEntry p x.2 = true)) ∧
    (∃ s : State, ∃ p : Nat, ∃ e : ObEnt, ∃ k : Pkt, (s.chip.sw.obq.find? (fun e => e.port == p && e.begun) = some e) ∧ (s.chip.pkt e.uid = some k) ∧
      (e.full = true) ∧ (e.null = false)) ∧
    (∃ s : State, ∃ p : Nat, ∃ e : ObEnt, ∃ k : Pkt, (s.chip.sw.obq.find? (fun e => e.port == p && e.begun) = some e) ∧ (s.chip.pkt e.uid = some k) ∧
      (e.full = false) ∧ (s.chip.isSpan p = false)) ∧
    (∃ s : State, ∃ p : Nat, ∃ tag : Nat, ∃ uid : Nat, ∃ e : ObEnt, ∃ k : Pkt, (s.chip.sw.npWait.find? (fun w => w.1 == p) = some (p, uid)) ∧
      (s.chip.sw.obq.find? (fun e => e.uid == uid && e.port == p) = some e) ∧ (s.chip.pkt uid = some k) ∧ (s.chip.portUp p = true) ∧
      (s.chip.busyPort p = false) ∧ (s.chip.inPortFog p = false) ∧ (s.chip.closedPort p = false) ∧ (s.chip.isSpan p = false) ∧
      (s.chip.noCredit p k = false) ∧ (e.full = true) ∧ (e.null = false) ∧ (s.chip.needsEntry p k = true) ∧ (s.chip.entryOk p tag k = true)) ∧
    (∃ s : State, ∃ p : Nat, ∃ uid : Nat, ∃ e : ObEnt, ∃ k : Pkt, (s.chip.sw.npWait.find? (fun w => w.1 == p) = some (p, uid)) ∧
      (s.chip.sw.obq.find? (fun e => e.uid == uid && e.port == p) = some e) ∧ (s.chip.pkt uid = some k) ∧ (s.chip.portUp p = true) ∧
      (s.chip.busyPort p = false) ∧ (s.chip.inPortFog p = false) ∧ (s.chip.closedPort p = false) ∧ (s.chip.isSpan p = false) ∧
      (s.chip.noCredit p k = false) ∧ (e.full = true) ∧ (e.null = false) ∧ (s.chip.needsEntry p k = false)) :=
  ⟨⟨st (obC wrK fullE), 1, 0, (fullE, wrK), by and_intros <;> decide +kernel⟩,
   ⟨st (obC rdK fullE), 1, 0, (fullE, rdK), by and_intros <;> decide +kernel⟩,
   ⟨st (obC wrK { fullE with begun := true }), 1, { fullE with begun := true }, wrK, by and_intros <;> decide +kernel⟩,
   ⟨st (obC wrK { fullE with begun := true, full := false }), 1, { fullE with begun := true, full := false }, wrK, by and_intros <;> decide +kernel⟩,
   ⟨st { (obC rdK fullE) with sw := { (obC rdK fullE).sw with npWait := [(1, 1)] } }, 1, 255, 1, fullE, rdK, by and_intros <;> decide +kernel⟩,
   ⟨st { (obC wrK fullE) with sw := { (obC wrK fullE).sw with npWait := [(1, 1)] } }, 1, 1, fullE, wrK, by and_intros <;> decide +kernel⟩⟩

theorem witness_SpanFlitsByState :
    (∃ s : State, ∃ p : Nat, ∃ f : Flit, (s.chip.portUp p = true) ∧ (s.chip.isSpan p = true) ∧ (s.chip.spanState p = spUp) ∧ (f.good = true)) ∧
    (∃ s : State, ∃ p : Nat, ∃ f : Flit, (s.chip.portUp p = true) ∧ (s.chip.isSpan p = true) ∧ (s.chip.spanState p = spUp) ∧ (f.good = false)) ∧
    (∃ s : State, ∃ p : Nat, (s.chip.portUp p = true) ∧ (s.chip.isSpan p = true) ∧ (s.chip.spanState p = spKinit)) ∧
    (∃ s : State, ∃ p : Nat, (s.chip.portUp p = true) ∧ (s.chip.isSpan p = true) ∧ (s.chip.spanState p = spUp)) ∧
    (∃ s : State, ∃ p : Nat, (s.chip.portUp p = true) ∧ (s.chip.isSpan p = true) ∧ (s.chip.spanState p = spKinit)) :=
  ⟨⟨st (spanC spUp []), 2, { ftype := .data, null := true }, by and_intros <;> decide +kernel⟩,
   ⟨st (spanC spUp []), 2, { good := false }, by and_intros <;> decide +kernel⟩,
   ⟨st (spanC spKinit []), 2, by and_intros <;> decide +kernel⟩,
   ⟨st (spanC spUp []), 2, by and_intros <;> decide +kernel⟩,
   ⟨st (spanC spKinit []), 2, by and_intros <;> decide +kernel⟩⟩

theorem witness_SpanTimersAndRecovery :
    (∃ s : State, ∃ p : Nat, (s.chip.spanState p = spUp) ∧ (s.chip.due (.replay p) = true) ∧ ((s.chip.span p).replay ≠ []) ∧
      ((s.chip.span p).replayFrom = ((s.chip.span p).lastAck + 1) % 65536) ∧
      ((s.chip.span p).replayCount < s.chip.fld (Reg.REPLAY_CFG p) Bit.REPLAY_CFG_NUM_LIMIT)) ∧
    (∃ s : State, ∃ p : Nat, (s.chip.spanState p = spUp) ∧ (s.chip.due (.stale p) = true)) ∧
    (∃ s : State, ∃ p : Nat, (s.chip.spanState p = spKinit) ∧ (s.chip.due (.kinit p) = true)) ∧
    (∃ s : State, ∃ p : Nat, (s.chip.spanState p = spRecovery) ∧ (s.chip.due (.recovery p) = true)) ∧
    (∃ s : State, ∃ p : Nat, (s.chip.due (.echoReq p) = true) ∧ (s.chip.spanState p = spUp)) ∧
    (∃ s : State, ∃ p : Nat, (s.chip.spanState p = spHeld) ∧ (s.chip.holdCause p = holdKaundRate) ∧ (s.chip.due (.holdRetry p) = true)) ∧
    (∃ s : State, ∃ p : Nat, (s.chip.due (.revert p) = true)) ∧
    (∃ s : State, ∃ p : Nat, (s.chip.due (.replay p) = false) ∧ (s.chip.due (.stale p) = false) ∧ (s.chip.due (.kinit p) = false) ∧
      (s.chip.due (.recovery p) = false) ∧ (s.chip.due (.echoReq p) = false) ∧ (s.chip.due (.holdRetry p) = false) ∧
      (s.chip.due (.revert p) = false)) ∧
    (∃ s : State, ∃ p : Nat, (s.chip.spanState p = spRecovery) ∧ (s.chip.due (.recovery p) = false)) ∧
    (∃ s : State, ∃ p : Nat, ∃ w : Nat, ∃ r : Nat, (s.chip.spanState p = spRecovery) ∧
      (w ≠ s.chip.fld (Reg.SPAN_STATUS p) Bit.SPAN_STATUS_WIDTH ∨ r ≠ s.chip.fld (Reg.SPAN_STATUS p) Bit.SPAN_STATUS_RATE)) ∧
    (∃ s : State, ∃ p : Nat, (s.chip.spanState p = spReset)) :=
  ⟨⟨st { spanC spUp [.replay 2] with knd := { spans := [{ port := 2, replay := [{ seq := 0 }] }] } }, 2, by and_intros <;> decide +kernel⟩,
   ⟨st (spanC spUp [.stale 2]), 2, by and_intros <;> decide +kernel⟩,
   ⟨st (spanC spKinit [.kinit 2]), 2, by and_intros <;> decide +kernel⟩,
   ⟨st (spanC spRecovery [.recovery 2]), 2, by and_intros <;> decide +kernel⟩,
   ⟨st (spanC spUp [.echoReq 2]), 2, by and_intros <;> decide +kernel⟩,
   ⟨st ((spanC spHeld [.holdRetry 2]).setFld (Reg.SPAN_STATUS 2) Bit.SPAN_STATUS_HOLD_CAUSE holdKaundRate), 2, by and_intros <;> decide +kernel⟩,
   ⟨st (spanC spUp [.revert 2]), 2, by decide +kernel⟩,
   ⟨st (spanC spUp []), 2, by and_intros <;> decide +kernel⟩,
   ⟨st (spanC spRecovery []), 2, by and_intros <;> decide +kernel⟩,
   ⟨st (spanC spRecovery []), 2, 4, 1, by and_intros <;> decide +kernel⟩,
   ⟨st (spanC spReset []), 2, by decide +kernel⟩⟩

theorem witness_FramesAndMessagesGoOn :
    (∃ s : State, ∃ p : Nat, ∃ q : Nat, ∃ r : Rx, ∃ l : List Rx, ∃ f : Frame, ∃ c : Chip, (s.chip.portUp p = true) ∧ (s.chip.inPortFog p = false) ∧
      (s.chip.inModFog = false) ∧ (s.chip.saf.inject = none) ∧
      (takeFirst (fun r => r.port == p && r.frame.isSome && !r.looked) s.chip.sw.rx = some (r, l)) ∧ (r.frame = some f) ∧ (f.crcOk = true) ∧
      (f.kh.mc = false) ∧ (s.chip.faHere f.kh.destFa = false) ∧ (min r.len 32 ≤ r.got) ∧
      (({ s.chip with sw := { s.chip.sw with rx := l } } : Chip).route r.port f.kh.destFa f.kh.srcFa f.kh.tc f.kh.alt = .to c q) ∧
      (c.leaveCheck r.port q f.kh = (c, none))) ∧
    (∃ s : State, ∃ p : Nat, ∃ r : Rx, ∃ l : List Rx, ∃ f : Frame, (s.chip.portUp p = true) ∧ (s.chip.inPortFog p = false) ∧
      (s.chip.inModFog = false) ∧ (s.chip.morRuns = true) ∧
      (takeFirst (fun r => r.port == p && r.frame.isSome && !r.looked) s.chip.sw.rx = some (r, l)) ∧ (r.frame = some f) ∧ (f.crcOk = false) ∧
      (r.whole = true) ∧ (min r.len 32 ≤ r.got)) ∧
    (∃ s : State, ∃ uid : Nat, ∃ k : Pkt, (s.chip.pkt uid = some k) ∧ (k.guarded = true) ∧ (k.rel = none) ∧ (k.whole = true) ∧
      (k.t0 + ms ≤ s.chip.now) ∧ ((k.kh.map (fun h => s.chip.faHere h.srcFa && k.copy.isNone)) = some false)) ∧
    (∃ s : State, ∃ p : Nat, ∃ q : Nat, ∃ m : SigMsg, ∃ l : List (Nat × SigMsg), (s.chip.portUp p = true) ∧ (s.chip.inPortFog p = false) ∧
      (takeFirst (fun x => x.1 == p) s.chip.knd.sigRx = some ((q, m), l)) ∧ (s.chip.faHere m.dest = true)) ∧
    (∃ s : State, ∃ p : Nat, ∃ q : Nat, ∃ e : Nat, ∃ m : SigMsg, ∃ l : List (Nat × SigMsg), ∃ c : Chip, (s.chip.portUp p = true) ∧
      (s.chip.inPortFog p = false) ∧ (takeFirst (fun x => x.1 == p) s.chip.knd.sigRx = some ((q, m), l)) ∧ (s.chip.faHere m.dest = false) ∧
      (({ s.chip with knd := { s.chip.knd with sigRx := l } } : Chip).route p m.dest m.origin m.tc 0 = .to c e) ∧
      (((c.port p).facing && (c.port e).facing) = false)) ∧
    (∃ s : State, ∃ id : Nat, ∃ m : SigMsg, (s.chip.knd.farSecond.find? (fun x => x.1 == id) = some (id, m)) ∧ (s.chip.due (.farSecond id) = true)) ∧
    (∃ s : State, ∃ c : Chip, ∃ d : Nat, ∃ tc : Nat, ∃ status : Nat, ∃ addr : Nat, ∃ v : Nat, ∃ ser : Nat, ∃ origin : Nat,
      (s.chip.takeMsg (fun m => m.stype == 4) = some (.farErr d tc status addr v ser origin, c)) ∧ (c.filterOf v = [])) ∧
    (∃ s : State, ∃ c : Chip, ∃ d : Nat, ∃ tc : Nat, ∃ status : Nat, ∃ addr : Nat, ∃ v : Nat, ∃ ser : Nat, ∃ origin : Nat, ∃ u : Nat,
      (s.chip.takeMsg (fun m => m.stype == 4) = some (.farErr d tc status addr v ser origin, c)) ∧ ((v, origin, ser, addr, u) ∈ c.knd.farFilter) ∧
      (c.now < u)) ∧
    (∃ s : State, ∃ v : Nat, ∃ origin : Nat, ∃ ser : Nat, ∃ addr : Nat, (s.chip.due (.farFilter v origin ser addr) = true)) ∧
    (∃ s : State, ∃ uid : Nat, ∃ r : Rx, ∃ l : List Rx, (s.chip.pkt uid = none) ∧ (takeFirst s.chip.agedRx s.chip.sw.rx = some (r, l))) :=
  ⟨by refine ⟨st (frmC frm), 2, 10, _, _, frm, _, ?_, ?_, ?_, ?_, rfl, ?_, ?_, ?_, ?_, ?_, rfl, ?_⟩ <;> and_intros <;> decide +kernel,
   by refine ⟨st (frmC { kh := { destFa := 648, srcFa := 900 } }), 2, _, _, { kh := { destFa := 648, srcFa := 900 } }, ?_, ?_, ?_, ?_, rfl,
     ?_⟩ <;> and_intros <;> decide +kernel,
   ⟨st { pktC { grdK with kh := some { destFa := 648, guarded := true, srcFa := 900 } } with watchUp := ms }, 1,
     { grdK with kh := some { destFa := 648, guarded := true, srcFa := 900 } }, by and_intros <;> decide +kernel⟩,
   ⟨st (sigC (.notice 280 0 648 50)), 2, 2, .notice 280 0 648 50, [], by and_intros <;> decide +kernel⟩,
   by refine ⟨st (sigC (.notice 648 0 900 50)), 2, 2, 10, .notice 648 0 900 50, [], _, ?_, ?_, ?_, ?_, rfl, ?_⟩ <;> and_intros <;> decide +kernel,
   ⟨st { fabC with knd := { fabC.knd with farSecond := [(3, .farErr 648 0 1 0 0 0 280)] }, timers := [(.farSecond 3, 0)] }, 3,
     .farErr 648 0 1 0 0 0 280, by and_intros <;> decide +kernel⟩,
   by refine ⟨st (msgC (.farErr 280 0 1 0x1000 1 7 648)), _, 280, 0, 1, 0x1000, 1, 7, 648, rfl, ?_⟩ <;> and_intros <;> decide +kernel,
   by refine ⟨st { msgC (.farErr 280 0 1 0x1000 1 7 648) with knd := { (msgC (.farErr 280 0 1 0x1000 1 7 648)).knd with farFilter := [(1, 648, 7, 0x1000, 1)] } },
     _, 280, 0, 1, 0x1000, 1, 7, 648, 1, rfl, ?_⟩ <;> and_intros <;> decide +kernel,
   ⟨st (dueC [.farFilter 1 648 7 0x1000]), 1, 648, 7, 0x1000, by decide +kernel⟩,
   ⟨st { fabC with watchUp := ms, sw := { fabC.sw with rx := [{ port := 2, frame := some { kh := { destFa := 648, guarded := true, srcFa := 900 } }, len := 96, got := 96, whole := true }] } },
     5, { port := 2, frame := some { kh := { destFa := 648, guarded := true, srcFa := 900 } }, len := 96, got := 96, whole := true }, [],
     by and_intros <;> decide +kernel⟩⟩

theorem witness_MessagesActWhereTheyEnd :
    (∃ s : State, ∃ c : Chip, ∃ d : Nat, ∃ t : Nat, ∃ o : Nat, ∃ e : Nat, ∃ n : Nat,
      (s.chip.takeMsg (fun m => match m with | .castOff _ _ _ _ _ r => !r | _ => false) = some (.castOff d t o e n false, c)) ∧
      (s.chip.morRuns = true)) ∧
    (∃ s : State, ∃ c : Chip, ∃ d : Nat, ∃ t : Nat, ∃ o : Nat, ∃ e : Nat, ∃ n : Nat,
      (s.chip.takeMsg (fun m => match m with | .castOff _ _ _ _ _ r => r | _ => false) = some (.castOff d t o e n true, c)) ∧
      (s.chip.morRuns = true)) ∧
    (∃ s : State, ∃ c : Chip, ∃ d : Nat, ∃ t : Nat, ∃ o : Nat, ∃ e : Nat, ∃ n : Nat, ∃ k : Nat,
      (s.chip.takeMsg (fun m => m.stype == 3) = some (.refuse d t o e n k, c)) ∧ (s.chip.morRuns = true)) ∧
    (∃ s : State, (s.chip.morRuns = false)) ∧
    (∃ c : Chip, ∃ d : Nat, ∃ t : Nat, ∃ o : Nat, ∃ x : IStream, (c.saf.inject = none) ∧ (c.stream d t o = some x) ∧ (x.ecc = 0)) ∧
    (∃ c : Chip, ∃ d : Nat, ∃ t : Nat, ∃ o : Nat, ∃ x : IStream, (c.saf.inject = none) ∧ (c.stream d t o = some x) ∧ (x.ecc = 1)) ∧
    (∃ c : Chip, ∃ d : Nat, ∃ t : Nat, ∃ o : Nat, ∃ x : IStream, (c.saf.inject = none) ∧ (c.stream d t o = some x) ∧ (x.ecc = 2)) ∧
    (∃ s : State, ∃ c : Chip, ∃ d : Nat, ∃ t : Nat, ∃ o : Nat, ∃ q : Nat, (s.chip.takeMsg (fun m => m.stype == 2) = some (.notice d t o q, c))) ∧
    (∃ s : State, ∃ c : Chip, ∃ d : Nat, ∃ o : Nat, ∃ i : Nat, ∃ bytes : List Nat,
      (s.chip.takeMsg (fun m => m.stype == 5) = some (.mgmt d o i bytes, c)) ∧ (c.keeperRuns = true) ∧ (nth bytes 0 = 1)) ∧
    (∃ s : State, ∃ c : Chip, ∃ d : Nat, ∃ o : Nat, ∃ i : Nat, ∃ bytes : List Nat,
      (s.chip.takeMsg (fun m => m.stype == 5) = some (.mgmt d o i bytes, c)) ∧ (c.keeperRuns = true) ∧ (nth bytes 0 ≠ 1) ∧
      (bitOf (nth bytes 1) 0 = true)) ∧
    (∃ s : State, ∃ c : Chip, ∃ d : Nat, ∃ o : Nat, ∃ i : Nat, ∃ bytes : List Nat,
      (s.chip.takeMsg (fun m => m.stype == 5) = some (.mgmt d o i bytes, c)) ∧ (c.keeperRuns = true) ∧ (nth bytes 0 ≠ 1) ∧
      (bitOf (nth bytes 1) 0 = false)) ∧
    (∃ s : State, ∃ c : Chip, ∃ d : Nat, ∃ o : Nat, ∃ i : Nat, ∃ bytes : List Nat,
      (s.chip.takeMsg (fun m => m.stype == 5) = some (.mgmt d o i bytes, c)) ∧ (c.keeperRuns = false)) ∧
    (∃ s : State, ∃ id : Nat, ∃ n : Nat, ∃ m : SigMsg, (s.chip.due (.mgmt id) = true) ∧
      (s.chip.kpr.mgmtPend.find? (fun x => x.1 == id) = some (id, m, n)) ∧ (n < 8)) ∧
    (∃ s : State, ∃ id : Nat, ∃ n : Nat, ∃ m : SigMsg, (s.chip.due (.mgmt id) = true) ∧
      (s.chip.kpr.mgmtPend.find? (fun x => x.1 == id) = some (id, m, n)) ∧ (8 ≤ n)) :=
  ⟨by refine ⟨st { copyC .held strm with knd := { fabC.knd with delivered := [.castOff 280 0 648 1 0 false] } }, _, 280, 0, 648, 1, 0, rfl, ?_⟩ <;> and_intros <;> decide +kernel,
   by refine ⟨st { copyC .held strm with knd := { fabC.knd with delivered := [.castOff 280 0 648 1 0 true] } }, _, 280, 0, 648, 1, 0, rfl,
     ?_⟩ <;> and_intros <;> decide +kernel,
   by refine ⟨st { copyC .held strm with knd := { fabC.knd with delivered := [.refuse 280 0 648 1 0 1] } }, _, 280, 0, 648, 1, 0, 1, rfl,
     ?_⟩ <;> and_intros <;> decide +kernel,
   ⟨st { copyC .held strm with pwr := { fabC.pwr with lost := [81] } }, by decide +kernel⟩,
   by refine ⟨copyC .held { strm with ecc := 0 }, 280, 0, 648, { strm with ecc := 0 }, ?_, rfl, ?_⟩ <;> and_intros <;> decide +kernel,
   by refine ⟨copyC .held { strm with ecc := 1 }, 280, 0, 648, { strm with ecc := 1 }, ?_, rfl, ?_⟩ <;> and_intros <;> decide +kernel,
   by refine ⟨copyC .held { strm with ecc := 2 }, 280, 0, 648, { strm with ecc := 2 }, ?_, rfl, ?_⟩ <;> and_intros <;> decide +kernel,
   by refine ⟨st (msgC (.notice 280 0 648 50)), _, 280, 0, 648, 50, rfl⟩ <;> and_intros <;> decide +kernel,
   by refine ⟨st (msgC (.mgmt 280 648 3 [1, 0])), _, 280, 648, 3, [1, 0], rfl, ?_⟩ <;> and_intros <;> decide +kernel,
   by refine ⟨st (msgC (.mgmt 280 648 3 [2, 1])), _, 280, 648, 3, [2, 1], rfl, ?_⟩ <;> and_intros <;> decide +kernel,
   by refine ⟨st (msgC (.mgmt 280 648 3 [2, 0])), _, 280, 648, 3, [2, 0], rfl, ?_⟩ <;> and_intros <;> decide +kernel,
   by refine ⟨st ((msgC (.mgmt 280 648 3 [2, 0])).clrFld Reg.KPR_STATUS Bit.KPR_STATUS_STAGE), _, 280, 648, 3, [2, 0], rfl,
     ?_⟩ <;> and_intros <;> decide +kernel,
   ⟨st { fabC with kpr := { fabC.kpr with mgmtPend := [(3, .mgmt 648 280 3 [2, 1], 7)] }, timers := [(.mgmt 3, 0)] }, 3, 7, .mgmt 648 280 3 [2, 1],
     by and_intros <;> decide +kernel⟩,
   ⟨st { fabC with kpr := { fabC.kpr with mgmtPend := [(3, .mgmt 648 280 3 [2, 1], 8)] }, timers := [(.mgmt 3, 0)] }, 3, 8, .mgmt 648 280 3 [2, 1],
     by and_intros <;> decide +kernel⟩⟩

theorem witness_MooringTimersAct :
    (∃ s : State, ∃ a : Nat, ∃ b : Nat, ∃ d : Nat, ∃ x : IStream, (s.chip.due (.custody a b d) = true) ∧ (s.chip.saf.inject = none) ∧
      (s.chip.stream a b d = some x) ∧ (x.ecc = 0) ∧ ((s.chip.copiesOf x) ≠ []) ∧ (x.failed = false)) ∧
    (∃ s : State, ∃ a : Nat, ∃ b : Nat, ∃ d : Nat, ∃ x : IStream, (s.chip.due (.refuse a b d) = true) ∧
      ((s.chip.disarm (.refuse a b d)).stream a b d = some x)) ∧
    (∃ s : State, ∃ a : Nat, ∃ b : Nat, ∃ d : Nat, ∃ x : IStream, (s.chip.due (.limit a b d) = true) ∧ (s.chip.stream a b d = some x) ∧
      ((s.chip.copiesOf x) ≠ []) ∧ (x.failed = false)) ∧
    (∃ s : State, ∃ a : Nat, ∃ b : Nat, ∃ d : Nat, (s.chip.due (.epochGap a b d) = true)) ∧
    (∃ s : State, ∃ a : Nat, ∃ b : Nat, ∃ d : Nat, (s.chip.due (.dormant a b d) = true) ∧
      (s.chip.mor.streams.find? (fun x => (s.chip.copiesOf x).isEmpty) = none)) ∧
    (∃ s : State, (s.chip.due .bootHold = true)) ∧
    (∃ s : State, ∃ a : Nat, ∃ b : Nat, ∃ p : Nat, ∃ x : ECtx, (s.chip.due (.castGap a b p) = true) ∧
      ((s.chip.disarm (.castGap a b p)).ectx a b p = some x) ∧ (x.castDue = true)) ∧
    (∃ s : State, ∃ a : Nat, ∃ b : Nat, ∃ p : Nat, (s.chip.due (.ctxAge a b p) = true)) :=
  ⟨⟨st { copyC .held strm with timers := [(.custody 280 0 648, 0)] }, 280, 0, 648, strm, by and_intros <;> decide +kernel⟩,
   ⟨st { copyC .held { strm with refused := true } with timers := [(.refuse 280 0 648, 0)] }, 280, 0, 648, { strm with refused := true },
     by and_intros <;> decide +kernel⟩,
   ⟨st { copyC .held strm with timers := [(.limit 280 0 648, 0)] }, 280, 0, 648, strm, by and_intros <;> decide +kernel⟩,
   ⟨st (dueC [.epochGap 280 0 648]), 280, 0, 648, by decide +kernel⟩,
   ⟨st (dueC [.dormant 280 0 648]), 280, 0, 648, by and_intros <;> decide +kernel⟩,
   ⟨st (dueC [.bootHold]), by decide +kernel⟩,
   ⟨st { fabC with mor := { fabC.mor with ctxs := [{ srcFa := 900, tc := 0, port := 10, epoch := 1, e := 5, castDue := true }] }, timers := [(.castGap 900 0 10, 0)] },
     900, 0, 10, { srcFa := 900, tc := 0, port := 10, epoch := 1, e := 5, castDue := true }, by and_intros <;> decide +kernel⟩,
   ⟨st (dueC [.ctxAge 900 0 10]), 900, 0, 10, by decide +kernel⟩⟩

theorem witness_BeaconFrameMarksBothRings :
    ∃ s : State, (s.chip.beaconRuns = true) :=
  ⟨st upC, by decide +kernel⟩

theorem witness_BeaconMarksAndHoldover :
    (∃ s : State, ∃ r : Nat, ∃ f : Nat, ∃ m : BeaconMark, (s.chip.beaconRuns = true) ∧ (m.codeOk = true) ∧ (m.crcOk = true) ∧ (m.spacingOk = true) ∧
      ((s.chip.ring r).lastFsn = some f) ∧ (m.fsn = (f + 1) % 2 ^ 32)) ∧
    (∃ s : State, ∃ m : BeaconMark, (s.chip.beaconRuns = true) ∧ (m.codeOk = false ∨ m.crcOk = false)) ∧
    (∃ s : State, ∃ r : Nat, ∃ m : BeaconMark, (s.chip.beaconRuns = true) ∧ (m.codeOk = true) ∧ (m.crcOk = true) ∧
      (m.spacingOk = false ∨ (∀ f, (s.chip.ring r).lastFsn = some f → m.fsn ≠ (f + 1) % 2 ^ 32))) ∧
    (∃ s : State, ∃ m : BeaconMsg, (s.chip.beaconRuns = true) ∧ (m.ok = false)) ∧
    (∃ s : State, ∃ m : BeaconMsg, (s.chip.beaconRuns = true) ∧ (m.ok = true) ∧ (s.chip.beaconDup m = true)) ∧
    (∃ s : State, ∃ m : BeaconMsg, (s.chip.beaconRuns = true) ∧ (m.ok = true) ∧ (s.chip.beaconDup m = false) ∧ (m.bcast = false) ∧
      (m.dest = s.chip.ownModule)) ∧
    (∃ s : State, ∃ m : BeaconMsg, (s.chip.beaconRuns = true) ∧ (m.ok = true) ∧ (s.chip.beaconDup m = false) ∧ (m.bcast = false) ∧
      (m.dest ≠ s.chip.ownModule) ∧ (m.hops + 1 < 128)) ∧
    (∃ s : State, ∃ m : BeaconMsg, (s.chip.beaconRuns = true) ∧ (m.ok = true) ∧ (s.chip.beaconDup m = false) ∧ (m.bcast = false) ∧
      (m.dest ≠ s.chip.ownModule) ∧ (128 ≤ m.hops + 1)) ∧
    (∃ s : State, ∃ m : BeaconMsg, (s.chip.beaconRuns = true) ∧ (m.ok = true) ∧ (s.chip.beaconDup m = false) ∧ (m.bcast = true) ∧
      (m.src ≠ s.chip.ownModule)) ∧
    (∃ s : State, ∃ m : BeaconMsg, (m.bcast = true) ∧ (m.src = s.chip.ownModule) ∧ (m.ok = true)) ∧
    (∃ s : State, (s.chip.beaconRuns = true) ∧ (s.chip.isMaster = false) ∧ (s.chip.flag Reg.BCN_STATUS Bit.BCN_STATUS_HOLDOVER = false) ∧
      (8 ≤ s.chip.bcn.ring0.quiet) ∧ (8 ≤ s.chip.bcn.ring1.quiet)) ∧
    (∃ s : State, (s.chip.beaconRuns = true) ∧ (s.chip.due .masterWait = true) ∧ (s.chip.flag Reg.BCN_STATUS Bit.BCN_STATUS_HOLDOVER = true) ∧
      (s.chip.fld Reg.GLB_PWR_STATUS Bit.GLB_PWR_STATUS_STATE = 0)) ∧
    (∃ s : State, ∃ r : Nat, (r < 2) ∧ (s.chip.wakeEnabled wakeBeacon = true) ∧ (s.chip.pwr.restoreStep = 0) ∧ (s.chip.pwr.darkStep = 6)) ∧
    (∃ s : State, ∃ r : Nat, (r < 2) ∧ (s.chip.wakeEnabled wakeBeacon = true) ∧ (s.chip.pwr.restoreStep = 0) ∧ (0 < s.chip.pwr.darkStep) ∧
      (s.chip.pwr.darkStep ≠ 6)) :=
  ⟨⟨st { upC with bcn := { ring0 := { lastFsn := some 0xFFFFFFFF } } }, 0, 0xFFFFFFFF, ({ fsn := 0 } : BeaconMark).seal, by and_intros <;> decide +kernel⟩,
   ⟨st upC, {}, by and_intros <;> decide +kernel⟩,
   ⟨st upC, 0, ({ fsn := 5, spacingOk := false } : BeaconMark).seal, by and_intros <;> decide +kernel⟩,
   ⟨st upC, {}, by and_intros <;> decide +kernel⟩,
   ⟨st { upC with bcn := { accepted := [(4, 9)] } }, ({ src := 4, seq := 9 } : BeaconMsg).seal, by and_intros <;> decide +kernel⟩,
   ⟨st fabC, ({ src := 4, seq := 9, dest := 2 } : BeaconMsg).seal, by and_intros <;> decide +kernel⟩,
   ⟨st fabC, ({ src := 4, seq := 9, dest := 3, hops := 126 } : BeaconMsg).seal, by and_intros <;> decide +kernel⟩,
   ⟨st fabC, ({ src := 4, seq := 9, dest := 3, hops := 127 } : BeaconMsg).seal, by and_intros <;> decide +kernel⟩,
   ⟨st fabC, ({ src := 4, seq := 9, bcast := true } : BeaconMsg).seal, by and_intros <;> decide +kernel⟩,
   ⟨st fabC, ({ src := 2, seq := 9, bcast := true } : BeaconMsg).seal, by and_intros <;> decide +kernel⟩,
   ⟨st { upC with bcn := { ring0 := { quiet := 8 }, ring1 := { quiet := 8 } } }, by and_intros <;> decide +kernel⟩,
   ⟨st ((dueC [.masterWait]).setBit Reg.BCN_STATUS Bit.BCN_STATUS_HOLDOVER), by and_intros <;> decide +kernel⟩,
   ⟨st { upC with pwr := { upC.pwr with darkStep := 6 } }, 1, by and_intros <;> decide +kernel⟩,
   ⟨st { upC with pwr := { upC.pwr with darkStep := 5 } }, 0, by and_intros <;> decide +kernel⟩⟩

theorem witness_CablesAndPortControl :
    (∃ s : State, ∃ site : Nat, ∃ low : Bool, (s.chip.pci.prsnt.contains site = low)) ∧
    (∃ s : State, ∃ site : Nat, ∃ low : Bool, ∃ ident : Option (List Nat), ∃ c : Chip, (s.chip.pci.prsnt.contains site = !low) ∧
      (c = { s.chip with pci := { s.chip.pci with prsnt := if low then site :: s.chip.pci.prsnt else s.chip.pci.prsnt.erase site, cableId := SMap.set s.chip.pci.cableId site (if low then ident else none) none } }) ∧
      (c.leadOf site = none)) ∧
    (∃ s : State, ∃ site : Nat, ∃ p : Nat, ∃ low : Bool, (s.chip.pci.prsnt.contains site = !low) ∧ (s.chip.leadOf site = some p)) ∧
    (∃ s : State, ∃ p : Nat, ((s.chip.port p).present = true) ∧ ((s.chip.port p).width = 4) ∧ ((s.chip.port p).up = false) ∧
      (∃ i ∈ s.chip.sitesOf p, s.chip.pci.prsnt.contains i = true) ∧ (∃ i ∈ s.chip.sitesOf p, s.chip.pci.prsnt.contains i = false)) ∧
    (∃ s : State, ∃ ag : Agent, ∃ p : Nat, (s.chip.reaches ag (Reg.PRT_CTRL p) = true) ∧ ((s.chip.port p).present = true) ∧
      ((s.chip.port p).up = false)) ∧
    (∃ s : State, ∃ ag : Agent, ∃ p : Nat, ∃ c : Chip, (s.chip.reaches ag (Reg.PRT_CTRL p) = true) ∧
      (c = ((s.chip.openGate (Reg.PRT_CTRL p)).setBit (Reg.PRT_CTRL p) Bit.PRT_CTRL_LINK_DISABLE).dropJoint p) ∧
      ((s.chip.openGate (Reg.PRT_CTRL p)).flag (Reg.PRT_CTRL p) Bit.PRT_CTRL_LINK_DISABLE = false) ∧ ((c.port p).present = true) ∧
      (c.isSpan p = false) ∧ (c.spanState p ≠ spHeld)) ∧
    (∃ s : State, ∃ ag : Agent, ∃ p : Nat, ∃ c : Chip, (s.chip.reaches ag (Reg.PRT_CTRL p) = true) ∧
      (c = ((s.chip.openGate (Reg.PRT_CTRL p)).setBit (Reg.PRT_CTRL p) Bit.PRT_CTRL_LINK_DISABLE).dropJoint p) ∧
      ((s.chip.openGate (Reg.PRT_CTRL p)).flag (Reg.PRT_CTRL p) Bit.PRT_CTRL_LINK_DISABLE = false) ∧ ((c.port p).present = true) ∧
      (c.isSpan p = true) ∧ (c.spanState p = spKinit ∨ c.spanState p = spUp ∨ c.spanState p = spRecovery)) ∧
    (∃ s : State, ∃ ag : Agent, ∃ p : Nat, ∃ c : Chip, (s.chip.reaches ag (Reg.PRT_CTRL p) = true) ∧
      (c = ((s.chip.openGate (Reg.PRT_CTRL p)).setBit (Reg.PRT_CTRL p) Bit.PRT_CTRL_LINK_DISABLE).dropJoint p) ∧
      ((s.chip.openGate (Reg.PRT_CTRL p)).flag (Reg.PRT_CTRL p) Bit.PRT_CTRL_LINK_DISABLE = false) ∧ ((c.port p).present = true) ∧
      (c.isSpan p = true) ∧ (c.spanState p = spHeld)) ∧
    (∃ s : State, ∃ ag : Agent, ∃ p : Nat, ∃ c : Chip, (s.chip.reaches ag (Reg.PRT_CTRL p) = true) ∧
      (c = ((s.chip.openGate (Reg.PRT_CTRL p)).setBit (Reg.PRT_CTRL p) Bit.PRT_CTRL_LINK_DISABLE).dropJoint p) ∧
      ((s.chip.openGate (Reg.PRT_CTRL p)).flag (Reg.PRT_CTRL p) Bit.PRT_CTRL_LINK_DISABLE = false) ∧ ((c.port p).present = true) ∧
      (c.isSpan p = true) ∧ (c.spanState p = spDown ∨ c.spanState p = spReset)) ∧
    (∃ s : State, ∃ ag : Agent, ∃ p : Nat, ∃ c : Chip, (s.chip.reaches ag (Reg.PRT_CTRL p) = true) ∧
      (c = (s.chip.openGate (Reg.PRT_CTRL p)).clrFld (Reg.PRT_CTRL p) Bit.PRT_CTRL_LINK_DISABLE)) ∧
    (∃ s : State, ∃ ag : Agent, ∃ p : Nat, (s.chip.reaches ag (Reg.SPAN_CTRL p) = true) ∧ ((s.chip.openGate (Reg.SPAN_CTRL p)).isSpan p = true) ∧
      ((s.chip.openGate (Reg.SPAN_CTRL p)).spanState p ≠ spHeld)) :=
  ⟨⟨st fabC, 0, false, by decide +kernel⟩,
   by refine ⟨st fabC, 31, true, none, _, ?_, rfl, ?_⟩ <;> and_intros <;> decide +kernel,
   ⟨st fabC, 0, 0, true, by and_intros <;> decide +kernel⟩,
   ⟨st { fabC with pci := { fabC.pci with prsnt := [4] } }, 16, by and_intros <;> decide +kernel⟩,
   ⟨st fabC, .keeper, 1, by and_intros <;> decide +kernel⟩,
   by refine ⟨st fabC, .keeper, 1, _, ?_, rfl, ?_⟩ <;> and_intros <;> decide +kernel,
   by refine ⟨st fabC, .keeper, 2, _, ?_, rfl, ?_⟩ <;> and_intros <;> decide +kernel,
   by refine ⟨st (spanC spHeld []), .keeper, 2, _, ?_, rfl, ?_⟩ <;> and_intros <;> decide +kernel,
   by refine ⟨st (spanC spDown []), .keeper, 2, _, ?_, rfl, ?_⟩ <;> and_intros <;> decide +kernel,
   by refine ⟨st fabC, .keeper, 2, _, ?_, rfl⟩ <;> and_intros <;> decide +kernel,
   ⟨st fabC, .keeper, 2, by and_intros <;> decide +kernel⟩⟩

theorem witness_LinksTrainAndFall :
    (∃ s : State, ∃ p : Nat, ∃ why : LinkLoss, (s.chip.isSpan p = false) ∧ (s.chip.dlUp p = true) ∧ (why.requested = true)) ∧
    (∃ s : State, ∃ p : Nat, ∃ why : LinkLoss, ∃ c : Chip, (s.chip.isSpan p = false) ∧ (s.chip.dlUp p = true) ∧ (why.requested = false) ∧
      (c = ((((({ s.chip with pci := { s.chip.pci with phyUp := s.chip.pci.phyUp.erase p } } : Chip).clrFld (Reg.PRT_STATUS p) Bit.PRT_STATUS_DL_UP).ctrInc kPort p 10).log .linkDown [p] [0]).setBit (Reg.PRT_EVENT p) Bit.PRT_EVENT_SURPRISE_DOWN).aerPort p .surpriseDown)) ∧
    (∃ s : State, ∃ p : Nat, (s.chip.pci.phyUp.contains p = true) ∧ (s.chip.dlUp p = false)) ∧
    (∃ s : State, ∃ q : Nat, (s.chip.flag (Reg.LQ_STATUS q) Bit.LQ_STATUS_PLL_LOCK = true)) ∧
    (∃ s : State, ∃ q : Nat, ∃ p : Nat, (q < 64) ∧ (s.chip.flag (Reg.LQ_STATUS q) Bit.LQ_STATUS_PLL_LOCK = false) ∧ (p ∈ s.chip.portsOfQuad q) ∧
      (s.chip.stUp (portStation p) = true)) ∧
    (∃ s : State, ∃ p : Nat, (s.chip.mayTrain p = true)) ∧
    (∃ s : State, ∃ p : Nat, ∃ r : TrainResult, (s.chip.mayTrain p = true) ∧ (r ≠ .fail) ∧ (s.chip.quadMate p = none)) ∧
    (∃ s : State, ∃ p : Nat, ∃ q : Nat, (s.chip.mayTrain p = true) ∧ (s.chip.quadMate p = some q) ∧
      (s.chip.pci.joint.find? (fun j => j.1 == q) = none)) ∧
    (∃ s : State, ∃ q : Nat, (s.chip.fld Reg.GLB_PWR_STATUS Bit.GLB_PWR_STATUS_STATE = 1) ∧ (s.chip.quadIdle q = true)) :=
  ⟨⟨st fabC, 24, .ownerReset, by and_intros <;> decide +kernel⟩,
   by refine ⟨st { fabC.clrFld (Reg.VSI_ID 0) Bit.VSI_ID_OWNED with tel := {} }, 0, .partner, _, ?_, ?_, ?_, rfl⟩ <;> and_intros <;> decide +kernel,
   ⟨st (fabC.clrFld (Reg.PRT_STATUS 1) Bit.PRT_STATUS_DL_UP), 1, by and_intros <;> decide +kernel⟩,
   ⟨st (fabC.setBit (Reg.LQ_STATUS 0) Bit.LQ_STATUS_PLL_LOCK), 0, by decide +kernel⟩,
   ⟨st fabC, 2, 1, by and_intros <;> decide +kernel⟩,
   ⟨st (trnC 1), 1, by decide +kernel⟩,
   ⟨st (trnC 1), 1, .l0 2 4 true false none false false 0 [], by and_intros <;> decide +kernel⟩,
   ⟨st (trnC 8), 8, 9, by and_intros <;> decide +kernel⟩,
   ⟨st ((({ fabC with pci := { fabC.pci with phyUp := [0, 24] } }).setFld Reg.GLB_PWR_STATUS Bit.GLB_PWR_STATUS_STATE 1).clrFld (Reg.PRT_STATUS 1) Bit.PRT_STATUS_DL_UP),
     2, by and_intros <;> decide +kernel⟩⟩

theorem witness_CommitPutsTheShadowIntoForce :
    (∃ s : State, ∃ ag : Agent, ∃ gen : Nat, (s.chip.reaches ag Reg.RT_COMMIT = true) ∧ (gen = s.chip.nextGen Reg.RT_ACTIVE_GEN) ∧
      (s.chip.firstRouteFault = none)) ∧
    (∃ s : State, ∃ ag : Agent, ∃ gen : Nat, (s.chip.reaches ag Reg.WIN_COMMIT = true) ∧ (gen = s.chip.nextGen Reg.WIN_ACTIVE_GEN) ∧
      (s.chip.firstWinFault = none) ∧ (s.chip.wgenItems (fun _ w => w == modSub 65536 gen 32768) = 0)) ∧
    (∃ s : State, ∃ ag : Agent, ∃ gen : Nat, (s.chip.reaches ag Reg.SEC_COMMIT = true) ∧ (gen = s.chip.nextGen Reg.SEC_ACTIVE_GEN) ∧
      (s.chip.firstSecFault = none)) ∧
    (∃ s : State, ∃ ag : Agent, ∃ gen : Nat, (s.chip.reaches ag Reg.SCH_COMMIT = true) ∧ (gen = s.chip.nextGen Reg.SCH_ACTIVE_GEN) ∧
      (s.chip.regs.find? (fun e => schBad e.1 e.2) = none)) ∧
    (∃ s : State, ∃ ag : Agent, ∃ gen : Nat, (s.chip.reaches ag Reg.TWR_MC_COMMIT = true) ∧ (gen = s.chip.nextGen Reg.TWR_MC_ACTIVE_GEN)) ∧
    (∃ s : State, ∃ ag : Agent, ∃ st : Nat, ∃ gen : Nat, (s.chip.reaches ag (Reg.STN_MC_COMMIT st) = true) ∧ (st < 16) ∧
      (gen = s.chip.nextGen (Reg.STN_MC_ACTIVE_GEN st))) ∧
    (∃ s : State, ∃ ag : Agent, ∃ gen : Nat, (s.chip.reaches ag Reg.FMC_COMMIT = true) ∧ (gen = s.chip.nextGen Reg.FMC_ACTIVE_GEN)) ∧
    (∃ s : State, ∃ ag : Agent, ∃ st : Nat, ∃ c : Chip, (s.chip.reaches ag (Reg.QUOTA_COMMIT st) = true) ∧
      (c = s.chip.openGate (Reg.QUOTA_COMMIT st)) ∧ (c.quotaOk st = true)) ∧
    (∃ s : State, ∃ ag : Agent, ∃ p : Nat, ∃ c : Chip, (s.chip.reaches ag (Reg.POOL_COMMIT p) = true) ∧ (c = s.chip.openGate (Reg.POOL_COMMIT p)) ∧
      (c.poolTotal p ≤ 2097152) ∧ (c.fld (Reg.NP_WAIT_QUOTA p) Bit.NP_WAIT_QUOTA_CELLS ≤ c.quota p) ∧
      (1 ≤ c.fld (Reg.ORT_LIMIT p) Bit.ORT_LIMIT_ENTRIES) ∧ (c.fld (Reg.ORT_LIMIT p) Bit.ORT_LIMIT_ENTRIES ≤ 2048)) :=
  ⟨⟨st upC, .keeper, 1, by and_intros <;> decide +kernel⟩,
   ⟨st upC, .keeper, 1, by and_intros <;> decide +kernel⟩,
   ⟨st upC, .keeper, 1, by and_intros <;> decide +kernel⟩,
   ⟨st upC, .keeper, 1, by and_intros <;> decide +kernel⟩,
   ⟨st upC, .keeper, 1, by and_intros <;> decide +kernel⟩,
   ⟨st upC, .keeper, 15, 1, by and_intros <;> decide +kernel⟩,
   ⟨st (upC.setFld Reg.FMC_ACTIVE_GEN ⟨15, 0⟩ 65535), .keeper, 0, by and_intros <;> decide +kernel⟩,
   by refine ⟨st fabC, .keeper, 4, _, ?_, rfl, ?_⟩ <;> and_intros <;> decide +kernel,
   by refine ⟨st ((fabC.setFld (Reg.ORT_LIMIT 1) Bit.ORT_LIMIT_ENTRIES 2048).clrFld (Reg.NP_WAIT_QUOTA 1) Bit.NP_WAIT_QUOTA_CELLS), .keeper, 1, _,
     ?_, rfl, ?_⟩ <;> and_intros <;> decide +kernel⟩

theorem witness_FencesAndFabricRegisters :
    (∃ s : State, ∃ ag : Agent, (s.chip.reaches ag Reg.FENCE_REQ = true)) ∧
    (∃ s : State, (s.chip.knd.fence.isSome = true) ∧ (s.chip.fenceCount = 0)) ∧
    (∃ s : State, (s.chip.secOld = 0)) ∧
    (∃ s : State, ∃ ag : Agent, ∃ v : Nat, ∃ rd : Nat, (s.chip.reaches ag (Reg.FEL_PTR v) = true) ∧ (rd < 128) ∧ (v < 64) ∧
      (modSub 128 (s.chip.fld (Reg.FEL_PTR v) Bit.FEL_PTR_WR) rd ≤ 64)) ∧
    (∃ s : State, ∃ ag : Agent, ∃ v : Nat, ∃ rd : Nat, (s.chip.reaches ag (Reg.FEL_PTR v) = true) ∧ (v < 64) ∧
      (64 < modSub 128 (s.chip.fld (Reg.FEL_PTR v) Bit.FEL_PTR_WR) rd)) ∧
    (∃ s : State, ∃ ag : Agent, (s.chip.reaches ag Reg.KND_FAB_RID = true) ∧ (∀ e ∈ s.chip.pci.ort, s.chip.isSpan e.port = false) ∧
      (∀ q ∈ s.chip.pci.quar, s.chip.isSpan q.port = false)) ∧
    (∃ s : State, ∃ ag : Agent, ∃ e : OrtEnt, (s.chip.reaches ag Reg.KND_FAB_RID = true) ∧ (e ∈ s.chip.pci.ort) ∧ (s.chip.isSpan e.port = true)) :=
  ⟨⟨st fabC, .keeper, by decide +kernel⟩,
   ⟨st { fabC with knd := { fabC.knd with fence := some (3, none) } }, by and_intros <;> decide +kernel⟩,
   ⟨st fabC, by decide +kernel⟩,
   ⟨st (fabC.setFld (Reg.FEL_PTR 63) Bit.FEL_PTR_WR 64), .keeper, 63, 0, by and_intros <;> decide +kernel⟩,
   ⟨st (fabC.setFld (Reg.FEL_PTR 63) Bit.FEL_PTR_WR 64), .keeper, 63, 127, by and_intros <;> decide +kernel⟩,
   ⟨st { fabC with pci := { fabC.pci with ort := [ortE] } }, .keeper, by and_intros <;> decide +kernel⟩,
   ⟨st { fabC with pci := { fabC.pci with ort := [{ ortE with port := 2 }] } }, .keeper, { ortE with port := 2 }, by and_intros <;> decide +kernel⟩⟩

theorem witness_GuardMapActsOnLaterLookups :
    ∃ s : State, ∃ ag : Agent, ∃ v : Nat, (s.chip.reaches ag (Reg.GUARD_MAP v) = true) ∧ (v < 64) :=
  ⟨st fabC, .keeper, 63, by and_intros <;> decide +kernel⟩

theorem witness_BindingCommandsComplete :
    (∃ s : State, ∃ h : KHead, ∃ v : Nat, ∃ vbr : Nat, ∃ target : Nat, ∃ prid : Nat, ∃ devfn : Nat, ∃ peer : Nat, ∃ wins : List (Nat × Nat),
      ∃ bars : List (Nat × Nat × Nat), ∃ fn : FnInfo, (s.chip.admitsK h (.bind v vbr 1 target prid devfn peer wins bars fn) = true) ∧
      (s.chip.kpr.busy = none) ∧ (s.chip.faHere target = true) ∧ (s.chip.ownedVsi v = true) ∧
      (vbr < s.chip.fld (Reg.VSI_ID v) Bit.VSI_ID_VBR_COUNT) ∧ (s.chip.vbrKind v vbr = 0) ∧ (s.chip.downPort (faPort target) = true) ∧
      (∀ b ∈ s.chip.vsi.ports, b.2.2 ≠ faPort target) ∧
      (s.chip.isManager v = false → (∀ x ∈ s.chip.vsi.hosts, x.local_ ≠ some (faPort target)) ∧ ∀ x ∈ s.chip.vsi.peers, x.port ≠ faPort target)) ∧
    (∃ s : State, ∃ h : KHead, ∃ port : Nat, ∃ prid : Nat, ∃ fa : Nat, ∃ ov : Nat, ∃ proxy : Nat, ∃ bars : List (Nat × Nat), ∃ pf : Option Nat,
      (s.chip.admitsK h (.bindPeer port prid fa ov proxy bars pf) = true) ∧ (s.chip.kpr.busy = none) ∧ (s.chip.downPort port = true) ∧ (proxy < 64) ∧
      (s.chip.flag (Reg.VSI_ID proxy) Bit.VSI_ID_PROXY = true) ∧ (s.chip.shared port = true) ∧ (s.chip.fnOwned port prid = false) ∧
      (s.chip.bindCount < 16384) ∧ (s.chip.faHere fa = false)) ∧
    (∃ s : State, ∃ h : KHead, ∃ v : Nat, ∃ vbr : Nat, ∃ kind : Nat, ∃ target : Nat, ∃ prid : Nat, ∃ devfn : Nat, ∃ peer : Nat,
      ∃ wins : List (Nat × Nat), ∃ bars : List (Nat × Nat × Nat), ∃ fn : FnInfo, ∃ b : BindFn, ∃ ws : List BarSt, ∃ x : HostBind, ∃ p,
      (s.chip.admitsK h (.bind v vbr kind target prid devfn peer wins bars fn) = true) ∧ (s.chip.kpr.busy = none) ∧ (kind = 2 ∨ kind = 3) ∧
      (b = (kBindFn v vbr kind target prid devfn peer wins bars fn).placed) ∧ (s.chip.bindFault b = none) ∧
      (ws = b.bars.filterMap (fun y => (b.winOf y.1).map (fun w => ({ idx := y.1, win := w, phys := y.2.1, size := y.2.2 } : BarSt)))) ∧
      (x = { v, vbr, devfn := b.devfn, local_ := s.chip.localTarget b, targetFa := target, prid, peerVsi := peer, bars := ws, fn, probe := if (s.chip.localTarget b).isNone then some (s.chip.now + s.chip.probeNs v) else none }) ∧
      (s.chip.localTarget b = some p)) ∧
    (∃ s : State, ∃ h : KHead, ∃ v : Nat, ∃ vbr : Nat, ∃ kind : Nat, ∃ target : Nat, ∃ prid : Nat, ∃ devfn : Nat, ∃ peer : Nat,
      ∃ wins : List (Nat × Nat), ∃ bars : List (Nat × Nat × Nat), ∃ fn : FnInfo, ∃ b : BindFn, ∃ ws : List BarSt, ∃ x : HostBind,
      (s.chip.admitsK h (.bind v vbr kind target prid devfn peer wins bars fn) = true) ∧ (s.chip.kpr.busy = none) ∧ (kind = 2 ∨ kind = 3) ∧
      (b = (kBindFn v vbr kind target prid devfn peer wins bars fn).placed) ∧ (s.chip.bindFault b = none) ∧
      (ws = b.bars.filterMap (fun y => (b.winOf y.1).map (fun w => ({ idx := y.1, win := w, phys := y.2.1, size := y.2.2 } : BarSt)))) ∧
      (x = { v, vbr, devfn := b.devfn, local_ := s.chip.localTarget b, targetFa := target, prid, peerVsi := peer, bars := ws, fn, probe := if (s.chip.localTarget b).isNone then some (s.chip.now + s.chip.probeNs v) else none }) ∧
      (s.chip.localTarget b = none)) ∧
    (∃ s : State, ∃ h : KHead, ∃ v : Nat, ∃ vbr : Nat, ∃ p : Nat, (s.chip.admitsK h (.unbindVbr v vbr) = true) ∧ (s.chip.kpr.busy = none) ∧
      (s.chip.ownedVsi v = true) ∧ (s.chip.vsi.ports.find? (fun b => b.1 == v && b.2.1 == vbr) = some (v, vbr, p))) ∧
    (∃ s : State, ∃ h : KHead, ∃ v : Nat, ∃ vbr : Nat, ∃ devfn : Nat, ∃ x : HostBind, (s.chip.kpr.busy = none) ∧ (s.chip.ownedVsi v = true) ∧
      (s.chip.hostAt v vbr devfn = some x) ∧ (s.chip.admitsK h (.unbindVbr v vbr) = true) ∧
      (s.chip.vsi.ports.find? (fun b => b.1 == v && b.2.1 == vbr) = none) ∧ (s.chip.vsi.hosts.filter (fun y => y.v == v && y.vbr == vbr) = [x])) ∧
    (∃ s : State, ∃ h : KHead, ∃ v : Nat, ∃ vbr : Nat, ∃ devfn : Nat, ∃ x : HostBind, (s.chip.kpr.busy = none) ∧ (s.chip.ownedVsi v = true) ∧
      (s.chip.hostAt v vbr devfn = some x) ∧ (s.chip.admitsK h (.unbindFn v vbr devfn) = true) ∧ (s.chip.vbrKind v vbr = 2)) ∧
    (∃ s : State, ∃ h : KHead, ∃ port : Nat, ∃ prid : Nat, ∃ b : PeerBind, (s.chip.admitsK h (.unbindPeer port prid) = true) ∧
      (s.chip.kpr.busy = none) ∧ (s.chip.vsi.peers.find? (fun b => b.port == port && b.prid == prid) = some b) ∧ (b.flrEnd ≤ s.chip.now)) ∧
    (∃ s : State, ∃ h : KHead, ∃ v : Nat, ∃ on : Bool, (s.chip.admitsK h (.setProxy v on) = true) ∧ (s.chip.kpr.busy = none) ∧ (v < 64) ∧
      (s.chip.portOfVsi v = none) ∧ (on = true ∨ s.chip.flag (Reg.VSI_ID v) Bit.VSI_ID_PROXY = true)) ∧
    (∃ s : State, ∃ h : KHead, ∃ v : Nat, ∃ n : Nat, (s.chip.admitsK h (.setVbrCount v n) = true) ∧ (s.chip.kpr.busy = none) ∧
      (s.chip.ownedVsi v = true) ∧ (1 ≤ n) ∧ (n ≤ 256) ∧ (s.chip.vsiInReset v = true)) ∧
    (∃ s : State, ∃ h : KHead, ∃ v : Nat, ∃ vbr : Nat, ∃ devfn : Nat, (s.chip.admitsK h (.queryVbr v vbr devfn) = true) ∧ (s.chip.kpr.busy = none)) ∧
    (∃ s : State, ∃ h : KHead, ∃ port : Nat, ∃ prid : Nat, (s.chip.admitsK h (.queryPeer port prid) = true) ∧ (s.chip.kpr.busy = none)) :=
  ⟨⟨st ringC, {}, 1, 3, 272, 0, 0, 0, [], [], {}, by and_intros <;> decide +kernel⟩,
   ⟨st sharC, {}, 16, 0x100, 648, 3, 5, [], none, by and_intros <;> decide +kernel⟩,
   by refine ⟨st sharC, {}, 1, 3, 3, 272, 0x100, 8, 0, [], [], {}, _, [], _, 16, ?_, ?_, ?_, rfl, ?_, rfl, rfl, ?_⟩ <;> and_intros <;> decide +kernel,
   by refine ⟨st ringC, {}, 1, 3, 2, 648, 0x100, 8, 3, [], [], {}, _, [], _, ?_, ?_, ?_, rfl, ?_, rfl, rfl, ?_⟩ <;> and_intros <;> decide +kernel,
   ⟨st ringC, {}, 1, 0, 1, by and_intros <;> decide +kernel⟩,
   ⟨st { ringC with vsi := { ringC.vsi with hosts := [hostB] } }, {}, 1, 1, 0, hostB, by and_intros <;> decide +kernel⟩,
   ⟨st ({ ringC with vsi := { ringC.vsi with hosts := [hostB] } }.setFld (Reg.VBR_STATE 1 1) Bit.VBR_STATE_KIND 2), {}, 1, 1, 0, hostB,
     by and_intros <;> decide +kernel⟩,
   ⟨st { ringC with vsi := { ringC.vsi with peers := [{ port := 16, prid := 0x100, ownerFa := 648, ownerVsi := 3, proxy := 5 }] } }, {}, 16, 0x100,
     { port := 16, prid := 0x100, ownerFa := 648, ownerVsi := 3, proxy := 5 }, by and_intros <;> decide +kernel⟩,
   ⟨st sharC, {}, 63, true, by and_intros <;> decide +kernel⟩,
   ⟨st (ringC.setBit (Reg.VSI_STATUS 1) Bit.VSI_STATUS_IN_RESET), {}, 1, 256, by and_intros <;> decide +kernel⟩,
   ⟨st ringC, {}, 1, 0, 0, by and_intros <;> decide +kernel⟩,
   ⟨st ringC, {}, 16, 0x100, by and_intros <;> decide +kernel⟩⟩

theorem witness_SliceCommandsAndWaits :
    (∃ s : State, ∃ h : KHead, ∃ v : Nat, ∃ first : Nat, ∃ count : Nat, (s.chip.admitsK h (.sliceGrant v first count) = true) ∧
      (s.chip.kpr.busy = none) ∧ (badRange first count = false) ∧ (v < 64) ∧ ((s.chip.portOfVsi v).isSome = true) ∧
      (s.chip.flag (Reg.VSI_ID v) Bit.VSI_ID_PROXY = false) ∧ (∀ x ∈ sliceRange first count, s.chip.relayGateOpen.slState x = sUngranted)) ∧
    (∃ s : State, ∃ h : KHead, ∃ first : Nat, ∃ count : Nat, (s.chip.admitsK h (.sliceRevoke first count) = true) ∧ (s.chip.kpr.busy = none) ∧
      (badRange first count = false) ∧
      (∀ x ∈ sliceRange first count, s.chip.slState x ≠ sActive ∧ (s.chip.slState x = sDraining ∨ s.chip.slState x = sHalted → s.chip.inflight x = 0))) ∧
    (∃ s : State, ∃ h : KHead, (s.chip.admitsK h .nop = true) ∧ (s.chip.kpr.busy = none)) ∧
    (∃ s : State, ∃ v : Nat, ∃ vbr : Nat, ∃ devfn : Nat, ∃ h : HostBind, (s.chip.hostAt v vbr devfn = some h) ∧ (h.flr = 1 ∨ h.flr = 7) ∧
      (s.chip.quiet h = true)) ∧
    (∃ s : State, ∃ h : KHead, ∃ v : Nat, ∃ i : Nat, (s.chip.kpr.busy = some (h, .unbindVbr v i)) ∧ (s.chip.unbindDone v i none = true)) ∧
    (∃ s : State, ∃ v : Nat, ∃ vbr : Nat, ∃ devfn : Nat, ∃ h : HostBind, (s.chip.due (.quiesce v vbr devfn) = true) ∧
      (s.chip.hostAt v vbr devfn = some h) ∧ (h.flr = 1 ∨ h.flr = 7)) ∧
    (∃ s : State, ∃ v : Nat, ∃ vbr : Nat, ∃ devfn : Nat, ∃ h : HostBind, (s.chip.hostAt v vbr devfn = some h) ∧ (h.probe.isSome = true) ∧
      (h.answer = some stSC) ∧ (s.chip.kpr.busy = none)) ∧
    (∃ s : State, ∃ v : Nat, ∃ vbr : Nat, ∃ devfn : Nat, ∃ h : HostBind, ∃ k : KHead, ∃ kind : Nat, ∃ target : Nat, ∃ prid : Nat, ∃ peer : Nat,
      ∃ wins : List (Nat × Nat), ∃ bars : List (Nat × Nat × Nat), ∃ fn : FnInfo, (s.chip.hostAt v vbr devfn = some h) ∧ (h.probe.isSome = true) ∧
      (h.answer = some stSC) ∧ (s.chip.kpr.busy = some (k, .bind v vbr kind target prid devfn peer wins bars fn))) ∧
    (∃ s : State, ∃ v : Nat, ∃ vbr : Nat, ∃ devfn : Nat, ∃ h : HostBind, ∃ st, (s.chip.hostAt v vbr devfn = some h) ∧ (h.probe.isSome = true) ∧
      (h.answer = some st) ∧ (st ≠ stSC) ∧ (st ≠ stRRS)) ∧
    (∃ s : State, ∃ v : Nat, ∃ vbr : Nat, ∃ devfn : Nat, ∃ h : HostBind, (s.chip.hostAt v vbr devfn = some h) ∧ (h.probe.isSome = true) ∧
      (h.answer = none) ∧ (s.chip.due (.probeLimit v vbr devfn) = false) ∧ (s.chip.due (.probe v vbr devfn) = true)) :=
  ⟨⟨st ringC, {}, 1, 4094, 2, by and_intros <;> decide +kernel⟩,
   ⟨st ringC, {}, 0, 2, by and_intros <;> decide +kernel⟩,
   ⟨st ringC, {}, by and_intros <;> decide +kernel⟩,
   ⟨st (hostC { hostB with flr := 1 } []), 1, 1, 0, { hostB with flr := 1 }, by and_intros <;> decide +kernel⟩,
   ⟨st { ringC with kpr := { ringC.kpr with busy := some ({}, .unbindVbr 1 1) } }, {}, 1, 1, by and_intros <;> decide +kernel⟩,
   ⟨st (hostC { hostB with flr := 1 } [.quiesce 1 1 0]), 1, 1, 0, { hostB with flr := 1 }, by and_intros <;> decide +kernel⟩,
   ⟨st (hostC { hostB with probe := some 5, answer := some 0 } []), 1, 1, 0, { hostB with probe := some 5, answer := some 0 },
     by and_intros <;> decide +kernel⟩,
   ⟨st { hostC { hostB with probe := some 5, answer := some 0 } [] with kpr := { (hostC hostB []).kpr with busy := some ({}, .bind 1 1 3 648 0x100 0 3 [] [] {}) } },
     1, 1, 0, { hostB with probe := some 5, answer := some 0 }, {}, 3, 648, 0x100, 3, [], [], {}, by and_intros <;> decide +kernel⟩,
   ⟨st (hostC { hostB with probe := some 5, answer := some 1 } []), 1, 1, 0, { hostB with probe := some 5, answer := some 1 }, 1,
     by and_intros <;> decide +kernel⟩,
   ⟨st (hostC { hostB with probe := some 5 } [.probe 1 1 0]), 1, 1, 0, { hostB with probe := some 5 }, by and_intros <;> decide +kernel⟩⟩

theorem witness_ImageCommandsComplete :
    (∃ s : State, ∃ h : KHead, ∃ kind : Nat, ∃ len : Nat, (s.chip.admitsK h (.imageBegin kind len) = true) ∧ (s.chip.kpr.busy = none) ∧ (kind < 2) ∧
      (0 < len) ∧ (len ≤ slotSize kind) ∧ (s.chip.kStage kind ≠ stVerified)) ∧
    (∃ s : State, ∃ h : KHead, ∃ kind : Nat, ∃ len : Nat, (s.chip.admitsK h (.imageBegin kind len) = true) ∧ (s.chip.kpr.busy = none) ∧ (kind < 2) ∧
      (0 < len) ∧ (len ≤ slotSize kind) ∧ (s.chip.kStage kind = stVerified)) ∧
    (∃ s : State, ∃ h : KHead, ∃ kind : Nat, ∃ off : Nat, ∃ len : Nat, ∃ addr : Nat, ∃ data : List Byte,
      (s.chip.admitsK h (.imageWrite kind off len addr data) = true) ∧ (s.chip.kpr.busy = none) ∧ (kind < 2) ∧ (0 < len) ∧ (len ≤ 1048576) ∧
      (off + len ≤ slotSize kind) ∧ (s.chip.kStage kind = stWriting) ∧ (h.mctp = true) ∧ (len ≤ 1024) ∧ (len ≤ data.length)) ∧
    (∃ s : State, ∃ h : KHead, ∃ kind : Nat, ∃ off : Nat, ∃ len : Nat, ∃ addr : Nat, ∃ data : List Byte,
      (s.chip.admitsK h (.imageWrite kind off len addr data) = true) ∧ (s.chip.kpr.busy = none) ∧ (kind < 2) ∧ (0 < len) ∧ (len ≤ 1048576) ∧
      (off + len ≤ slotSize kind) ∧ (s.chip.kStage kind = stWriting) ∧ (h.mctp = false) ∧ ((s.chip.managerRead addr len).2 = true) ∧
      (len ≤ data.length)) ∧
    (∃ s : State, ∃ h : KHead, ∃ kind : Nat, ∃ off : Nat, ∃ len : Nat, ∃ addr : Nat, ∃ data : List Byte,
      (s.chip.admitsK h (.imageWrite kind off len addr data) = true) ∧ (s.chip.kpr.busy = none) ∧ (kind < 2) ∧ (0 < len) ∧ (len ≤ 1048576) ∧
      (off + len ≤ slotSize kind) ∧ (s.chip.kStage kind ≠ stWriting)) ∧
    (∃ s : State, ∃ h : KHead, ∃ kind : Nat, ∃ slot : Nat, ∃ n : Nat, (s.chip.admitsK h (.imageVerify kind) = true) ∧ (s.chip.kpr.busy = none) ∧
      (kind < 2) ∧ (slot = s.chip.inactive s.flash kind) ∧ (n = (if kind = 0 then s.chip.fwCheck s.flash slot else s.chip.llCheck s.flash slot)) ∧
      (s.chip.kStage kind = stWriting)) ∧
    (∃ s : State, ∃ h : KHead, ∃ kind : Nat, ∃ slot : Nat, ∃ n : Nat, (s.chip.admitsK h (.imageVerify kind) = true) ∧ (s.chip.kpr.busy = none) ∧
      (kind < 2) ∧ (slot = s.chip.inactive s.flash kind) ∧ (n = (if kind = 0 then s.chip.fwCheck s.flash slot else s.chip.llCheck s.flash slot)) ∧
      (s.chip.kStage kind ≠ stWriting)) ∧
    (∃ s : State, ∃ h : KHead, ∃ mask : Nat, ∃ kinds : List Nat, (s.chip.admitsK h (.imageCommit mask) = true) ∧ (s.chip.kpr.busy = none) ∧
      (kinds = [0, 1].filter (fun k => bitOf mask k)) ∧ (∀ k ∈ kinds, s.chip.kStage k = stVerified)) ∧
    (∃ s : State, ∃ h : KHead, ∃ mask : Nat, ∃ kinds : List Nat, (s.chip.admitsK h (.imageCommit mask) = true) ∧ (s.chip.kpr.busy = none) ∧
      (kinds = [0, 1].filter (fun k => bitOf mask k)) ∧ (∃ k ∈ kinds, s.chip.kStage k ≠ stVerified)) ∧
    (∃ s : State, ∃ h : KHead, ∃ kind : Nat, (s.chip.admitsK h (.imageAbort kind) = true) ∧ (s.chip.kpr.busy = none) ∧ (kind < 2)) ∧
    (∃ s : State, ∃ h : KHead, ∃ kind : Nat, (s.chip.admitsK h (.imageAbort kind) = true) ∧ (s.chip.kpr.busy = none) ∧ (2 ≤ kind)) ∧
    (∃ s : State, ∃ h : KHead, (s.chip.admitsK h .imageActivate = true) ∧ (s.chip.kpr.busy = none)) ∧
    (∃ s : State, ∃ h : KHead, (s.chip.admitsK h .imageAccept = true) ∧ (s.chip.kpr.busy = none) ∧
      (s.chip.flag Reg.KPR_STATUS Bit.KPR_STATUS_FALLBACK = false)) ∧
    (∃ s : State, ∃ h : KHead, (s.chip.admitsK h .imageAccept = true) ∧ (s.chip.kpr.busy = none) ∧
      (s.chip.flag Reg.KPR_STATUS Bit.KPR_STATUS_FALLBACK = true)) ∧
    (∃ s : State, ∃ h : KHead, ∃ kind : Nat, ∃ off : Nat, ∃ len : Nat, ∃ addr : Nat, ∃ mask : Nat, ∃ data : List Byte, ∃ x,
      (x ∈ [(Instr.imageBegin h kind len, KCmd.imageBegin kind len), (.imageWrite h kind off len addr data, .imageWrite kind off len addr data), (.imageVerify h kind, .imageVerify kind), (.imageCommit h mask, .imageCommit mask), (.imageActivate h, .imageActivate), (.imageAccept h, .imageAccept), (.imageAbort h kind, .imageAbort kind)]) ∧
      (s.chip.admitsK h x.2 = false)) ∧
    (∃ s : State, ∃ h : KHead, ∃ kind : Nat, ∃ off : Nat, ∃ len : Nat, ∃ addr : Nat, ∃ mask : Nat, ∃ data : List Byte, ∃ x,
      (x ∈ [(Instr.imageBegin h kind len, KCmd.imageBegin kind len), (.imageWrite h kind off len addr data, .imageWrite kind off len addr data), (.imageVerify h kind, .imageVerify kind), (.imageCommit h mask, .imageCommit mask), (.imageActivate h, .imageActivate), (.imageAccept h, .imageAccept), (.imageAbort h kind, .imageAbort kind)]) ∧
      (s.chip.admitsK h x.2 = true) ∧ (s.chip.kpr.busy.isSome = true)) :=
  ⟨⟨st ringC, {}, 1, 0x400000, by and_intros <;> decide +kernel⟩,
   ⟨st (ringC.setKStage 1 stVerified), {}, 1, 1, by and_intros <;> decide +kernel⟩,
   ⟨st (fabC.setKStage 1 stWriting), { mctp := true }, 1, 0x3FFFFF, 1, 0, [5], by and_intros <;> decide +kernel⟩,
   ⟨st (ringC.setKStage 1 stWriting), {}, 1, 0, 1, 0x1000, [5], by and_intros <;> decide +kernel⟩,
   ⟨st ringC, {}, 1, 0, 1, 0x1000, [], by and_intros <;> decide +kernel⟩,
   by refine ⟨st (ringC.setKStage 0 stWriting), {}, 0, _, _, ?_, ?_, ?_, rfl, rfl, ?_⟩ <;> and_intros <;> decide +kernel,
   by refine ⟨st ringC, {}, 1, _, _, ?_, ?_, ?_, rfl, rfl, ?_⟩ <;> and_intros <;> decide +kernel,
   ⟨st (ringC.setKStage 0 stVerified), {}, 1, [0], by and_intros <;> decide +kernel⟩,
   ⟨st (ringC.setKStage 0 stVerified), {}, 3, [0, 1], by and_intros <;> decide +kernel⟩,
   ⟨st fabC, { mctp := true }, 1, by and_intros <;> decide +kernel⟩,
   ⟨st fabC, { mctp := true }, 2, by and_intros <;> decide +kernel⟩,
   ⟨st ringC, {}, by and_intros <;> decide +kernel⟩,
   ⟨st ringC, {}, by and_intros <;> decide +kernel⟩,
   ⟨st (ringC.setBit Reg.KPR_STATUS Bit.KPR_STATUS_FALLBACK), {}, by and_intros <;> decide +kernel⟩,
   ⟨st fabC, {}, 0, 0, 0, 0, 0, [], (Instr.imageActivate {}, KCmd.imageActivate), by and_intros <;> decide +kernel⟩,
   ⟨st { fabC with kpr := { fabC.kpr with busy := some ({}, .nop) } }, { mctp := true }, 0, 0, 0, 0, 0, [],
     (Instr.imageActivate { mctp := true }, KCmd.imageActivate), by and_intros <;> decide +kernel⟩⟩

theorem witness_KeyCommandsComplete :
    (∃ s : State, ∃ h : KHead, ∃ kind : Nat, ∃ addr : Nat, ∃ key : List Byte, ∃ c : Chip, ∃ free : Option Nat, ∃ slot,
      (s.chip.admitsK h (.opKeyEnroll kind addr key) = true) ∧ (s.chip.kpr.busy = none) ∧ (kind < 2) ∧ (s.chip.managerRead addr 1793 = (c, true)) ∧
      (1793 ≤ key.length) ∧ (free = (if kind = 0 then freeSlot c.kpr.opLl0 c.kpr.opLl1 else freeSlot c.kpr.opDbg0 c.kpr.opDbg1)) ∧
      (free = some slot)) ∧
    (∃ s : State, ∃ h : KHead, ∃ kind : Nat, ∃ addr : Nat, ∃ key : List Byte, ∃ c : Chip, ∃ free : Option Nat,
      (s.chip.admitsK h (.opKeyEnroll kind addr key) = true) ∧ (s.chip.kpr.busy = none) ∧ (kind < 2) ∧ (s.chip.managerRead addr 1793 = (c, true)) ∧
      (1793 ≤ key.length) ∧ (free = (if kind = 0 then freeSlot c.kpr.opLl0 c.kpr.opLl1 else freeSlot c.kpr.opDbg0 c.kpr.opDbg1)) ∧ (free = none)) ∧
    (∃ s : State, ∃ h : KHead, ∃ k : Nat, (s.chip.admitsK h (.keyRevoke k) = true) ∧ (s.chip.kpr.busy = none) ∧ (k < 2) ∧ (s.chip.kpr.fwKey ≠ k) ∧
      (bitOf s.chip.kpr.revoke k = false)) ∧
    (∃ s : State, ∃ h : KHead, ∃ addr : Nat, ∃ len : Nat, ∃ cert : List Byte, (s.chip.admitsK h (.setCert addr len cert) = true) ∧
      (s.chip.kpr.busy = none) ∧ (0 < len) ∧ (len ≤ 32768) ∧ ((s.chip.managerRead addr len).2 = true) ∧ (len ≤ cert.length)) :=
  ⟨by refine ⟨st ringC, {}, 0, 0x1000, List.replicate 1793 5, _, _, 0, ?_, ?_, ?_, Prod.ext rfl (by decide +kernel), ?_, rfl, ?_⟩ <;> and_intros <;> decide +kernel,
   by refine ⟨st { ringC with kpr := { ringC.kpr with opDbg0 := { en := true }, opDbg1 := { en := true } } }, {}, 1, 0x1000, List.replicate 1793 5,
     _, none, ?_, ?_, ?_, Prod.ext rfl (by decide +kernel), ?_⟩ <;> and_intros <;> decide +kernel,
   ⟨st ringC, {}, 1, by and_intros <;> decide +kernel⟩,
   ⟨st ringC, {}, 0x1000, 2, [5, 6], by and_intros <;> decide +kernel⟩⟩

theorem witness_CommandRingRuns :
    (∃ s : State, ∃ ag : Agent, (s.chip.reaches ag Reg.CR_CTRL = true) ∧ (s.chip.crOn = false)) ∧
    (∃ s : State, ∃ ag : Agent, (s.chip.reaches ag Reg.CR_CTRL = true) ∧ (s.chip.crOn = true)) ∧
    (∃ s : State, ∃ ag : Agent, ∃ sq : Nat, ∃ cq : Nat, (s.chip.reaches ag Reg.CR_DB = true) ∧ (s.chip.crOn = true) ∧ (sq < 65536) ∧
      (ahead16 sq s.chip.kpr.sqSeen = true) ∧ (modSub (2 ^ 16) sq s.chip.kpr.sqFetched ≤ s.chip.crSize) ∧
      (modSub (2 ^ 16) cq s.chip.kpr.cqRead ≤ modSub (2 ^ 16) s.chip.kpr.cqWritten s.chip.kpr.cqRead)) ∧
    (∃ s : State, ∃ ag : Agent, ∃ sq : Nat, (s.chip.reaches ag Reg.CR_DB = true) ∧ (s.chip.crOn = true) ∧ (ahead16 sq s.chip.kpr.sqSeen = false)) ∧
    (∃ s : State, (s.chip.keeperServes = true) ∧ (s.chip.crOn = true) ∧ (s.chip.kpr.busy = none) ∧ (s.chip.kpr.sqSeen ≠ s.chip.kpr.sqFetched) ∧
      (modSub (2 ^ 16) s.chip.kpr.cqWritten s.chip.kpr.cqRead < s.chip.crCqSize) ∧ (s.chip.managerLink = true)) ∧
    (∃ h : KHead, (h.mctp = false)) ∧
    (∃ h : KHead, (h.mctp = true)) ∧
    (∃ s : State, ∃ entry : List Byte, ∃ data : List Byte, (s.chip.keeperServes = true) ∧ (s.chip.pwr.addrSel.isSome = true) ∧
      (isImageCode (entryCmd entry [] {} data).code = true)) :=
  ⟨⟨st fabC, .keeper, by and_intros <;> decide +kernel⟩,
   ⟨st ringC, .keeper, by and_intros <;> decide +kernel⟩,
   ⟨st { ringC with kpr := { ringC.kpr with sqFetched := 65535, sqSeen := 65535, cqWritten := 3 } }, .keeper, 0, 3, by and_intros <;> decide +kernel⟩,
   ⟨st ringC, .keeper, 65535, by and_intros <;> decide +kernel⟩,
   ⟨st { ringC with kpr := { ringC.kpr with sqSeen := 1 } }, by and_intros <;> decide +kernel⟩,
   ⟨{}, by decide +kernel⟩,
   ⟨{ mctp := true }, by decide +kernel⟩,
   ⟨st fabC, [0x35], [], by and_intros <;> decide +kernel⟩⟩

theorem witness_ManagementConnectorAnswers :
    (∃ s : State, (s.chip.pwr.standby = true) ∧ (s.chip.pwr.addrSel = none)) ∧
    (∃ s : State, ∃ n : Nat, (s.chip.pwr.addrSel = some n)) ∧
    (∃ s : State, (s.chip.busRuns .keeper = true) ∧ (s.chip.pwrState < 2)) ∧
    (∃ s : State, ∃ port : Nat, ∃ ep : Nat, ∃ k : Nat, (s.chip.lampAnswers = true) ∧ (dynKey port ep = some k) ∧
      (k = 1 ∨ s.chip.busRuns (.mgmt port) = true)) ∧
    (∃ s : State, (s.chip.lampAnswers = true)) ∧
    (∃ s : State, (s.chip.lampAnswers = true)) ∧
    (∃ s : State, (s.chip.lampAnswers = true)) ∧
    (∃ s : State, (s.chip.lampAnswers = true)) ∧
    (∃ s : State, (s.chip.lampAnswers = true) ∧ (s.chip.pwrState < 2) ∧ (s.chip.pwr.darkStep = 0) ∧ (s.chip.pwr.restoreStep = 0) ∧
      (s.chip.busRuns .keeper = true)) ∧
    (∃ s : State, (s.chip.lampAnswers = true) ∧ (s.chip.pwrState = 2 ∨ 0 < s.chip.pwr.darkStep ∨ 0 < s.chip.pwr.restoreStep)) ∧
    (∃ s : State, ∃ ps : List Nat, (s.chip.lampAnswers = true) ∧ (ps.length ≠ 0)) ∧
    (∃ s : State, ∃ ps : List Nat, (s.chip.lampAnswers = true) ∧ (ps.length ≠ 1)) ∧
    (∃ s : State, ∃ ps : List Nat, (s.chip.lampAnswers = true) ∧ (ps.length ≠ 5)) ∧
    (∃ s : State, ∃ t, (exec .resetNFall s = .next t)) ∧
    (∃ s : State, ∃ t, (exec .resetNRise s = .next t)) ∧
    (∃ s : State, ∃ feed, ∃ diode, ∃ inlet, ∃ t, (s.chip.pwr.standby = false) ∧ (feed < 2) ∧ (exec (.powerOn feed diode inlet) s = .next t)) :=
  ⟨⟨st { upC with pwr := { upC.pwr with addrSel := none } }, by and_intros <;> decide +kernel⟩,
   ⟨st upC, 0, by decide +kernel⟩,
   ⟨st (upC.setFld Reg.GLB_PWR_STATUS Bit.GLB_PWR_STATUS_STATE 1), by and_intros <;> decide +kernel⟩,
   ⟨st upC, 1, 0, 2, by and_intros <;> decide +kernel⟩,
   ⟨st upC, by decide +kernel⟩,
   ⟨st upC, by decide +kernel⟩,
   ⟨st upC, by decide +kernel⟩,
   ⟨st upC, by decide +kernel⟩,
   ⟨st upC, by and_intros <;> decide +kernel⟩,
   ⟨st { upC with pwr := { upC.pwr with darkStep := 1 } }, by and_intros <;> decide +kernel⟩,
   ⟨st upC, [1], by and_intros <;> decide +kernel⟩,
   ⟨st upC, [], by and_intros <;> decide +kernel⟩,
   ⟨st upC, [1, 2, 3, 4], by and_intros <;> decide +kernel⟩,
   by refine ⟨st upC, _, rfl⟩ <;> and_intros <;> decide +kernel,
   by refine ⟨st upC, _, rfl⟩ <;> and_intros <;> decide +kernel,
   by refine ⟨State.reset, 1, 4800, 2500, _, ?_, ?_, rfl⟩ <;> and_intros <;> decide +kernel⟩

theorem witness_HostViewAndVsiResets :
    (∃ s : State, ∃ p : Nat, ∃ v : Nat, ∃ r : Rx, ∃ c : Chip, ((s.chip.port p).up = true) ∧
      (s.chip.takeRx p (fun x => x.whole && (x.tlp.kind == .cfgRd || x.tlp.kind == .cfgWr)) = some (r, c)) ∧ (c.vsiOfPort p = some v)) ∧
    (∃ s : State, ∃ p : Nat, ∃ r : Rx, ∃ c : Chip, ((s.chip.port p).up = true) ∧
      (s.chip.takeRx p (fun x => x.whole && (x.tlp.kind == .cfgRd || x.tlp.kind == .cfgWr)) = some (r, c)) ∧ (c.vsiOfPort p = none)) ∧
    (∃ s : State, ∃ v : Nat, ∃ vbr : Nat, ∃ devfn : Nat, ∃ h : HostBind, (s.chip.hostAt v vbr devfn = some h) ∧ (h.flr = 0)) ∧
    (∃ s : State, ∃ v : Nat, ∃ vbr : Nat, ∃ devfn : Nat, ∃ h : HostBind, (s.chip.hostAt v vbr devfn = some h) ∧ (h.flr = 0)) ∧
    (∃ s : State, ∃ v : Nat, ∃ vbr : Nat, ∃ devfn : Nat, ∃ h : HostBind, (s.chip.hostAt v vbr devfn = some h) ∧ (h.flr = 0)) ∧
    (∃ s : State, ∃ v : Nat, ∃ vbr : Nat, ∃ devfn : Nat, ∃ h : HostBind, (s.chip.hostAt v vbr devfn = some h) ∧ (h.flr = 5 ∨ h.flr = 6) ∧
      (s.chip.due (.frs v vbr devfn) = true)) ∧
    (∃ s : State, ∃ p : Nat, ∃ v : Nat, ((s.chip.port p).up = true) ∧ (s.chip.vsiOfPort p = some v)) ∧
    (∃ s : State, ∃ v : Nat, (v < 64) ∧ (s.chip.vsiInReset v = false)) ∧
    (∃ s : State, ∃ v : Nat, (s.chip.vsiInReset v = true)) ∧
    (∃ s : State, ∃ v : Nat, ∃ i : Nat, ∃ b : Nat × Nat × Nat, (s.chip.vsiInReset v = false) ∧ (s.chip.isManager v = false) ∧
      (s.chip.vsi.ports.find? (fun b => b.1 == v && b.2.1 == i) = some b)) ∧
    (∃ s : State, ∃ v : Nat, ∃ i : Nat, (s.chip.vsiInReset v = false) ∧ (s.chip.vsi.ports.find? (fun b => b.1 == v && b.2.1 == i) = none)) ∧
    (∃ s : State, ∃ v : Nat, (s.chip.vsiCanRun v = true) ∧ (s.chip.flag (Reg.VSI_STATUS v) Bit.VSI_STATUS_READY = false)) ∧
    (∃ s : State, ∃ v : Nat, ∃ p : Nat, (s.chip.relaySettle.portOfVsi v = some p) ∧ (s.chip.relaySettle.perstLow p = false) ∧
      (s.chip.relaySettle.dlUp p = true) ∧ (s.chip.relaySettle.vsiInReset v = true) ∧
      (∀ h ∈ s.chip.relaySettle.vsi.hosts, h.v = v → h.byReset = true → h.flr ≠ 1) ∧
      (∀ n ∈ s.chip.relaySettle.slicesOf v, s.chip.relaySettle.slState n = sStopped)) :=
  ⟨by refine ⟨st (rxC 24 { kind := .cfgRd }), 24, 1, _, _, ?_, rfl, ?_⟩ <;> and_intros <;> decide +kernel,
   by refine ⟨st ((rxC 24 { kind := .cfgWr }).clrFld (Reg.VSI_ID 1) Bit.VSI_ID_OWNED), 24, _, _, ?_, rfl, ?_⟩ <;> and_intros <;> decide +kernel,
   ⟨st (hostC { hostB with bars := [{ idx := 0, win := 3, phys := 0x10000, size := 4096 }] } []), 1, 1, 0,
     { hostB with bars := [{ idx := 0, win := 3, phys := 0x10000, size := 4096 }] }, by and_intros <;> decide +kernel⟩,
   ⟨st (hostC hostB []), 1, 1, 0, hostB, by and_intros <;> decide +kernel⟩,
   ⟨st (hostC hostB []), 1, 1, 0, hostB, by and_intros <;> decide +kernel⟩,
   ⟨st (hostC { hostB with flr := 6 } [.frs 1 1 0]), 1, 1, 0, { hostB with flr := 6 }, by and_intros <;> decide +kernel⟩,
   ⟨st fabC, 24, 1, by and_intros <;> decide +kernel⟩,
   ⟨st (fabC.clrFld (Reg.VSI_STATUS 63) Bit.VSI_STATUS_IN_RESET), 63, by and_intros <;> decide +kernel⟩,
   ⟨st (fabC.setBit (Reg.VSI_STATUS 1) Bit.VSI_STATUS_IN_RESET), 1, by decide +kernel⟩,
   ⟨st (fabC.clrFld (Reg.VSI_STATUS 1) Bit.VSI_STATUS_IN_RESET), 1, 0, (1, 0, 1), by and_intros <;> decide +kernel⟩,
   ⟨st ((hostC hostB []).clrFld (Reg.VSI_STATUS 1) Bit.VSI_STATUS_IN_RESET), 1, 1, by and_intros <;> decide +kernel⟩,
   ⟨st { fabC.setBit Reg.START_STATUS Bit.START_STATUS_RELAY with vsi := { fabC.vsi with loaded := [1] } }, 1, by and_intros <;> decide +kernel⟩,
   ⟨st (fabC.setBit (Reg.VSI_STATUS 1) Bit.VSI_STATUS_IN_RESET), 1, 24, by and_intros <;> decide +kernel⟩⟩

theorem witness_SliceCommandsFollowTheStates :
    (∃ s : State, ∃ ag : Agent, ∃ n : Nat, (s.chip.reaches ag (Reg.SLC_CTRL n) = true) ∧ ((s.chip.openGate (Reg.SLC_CTRL n)).slState n = sStopped)) ∧
    (∃ s : State, ∃ ag : Agent, ∃ n : Nat, (s.chip.reaches ag (Reg.SLC_CTRL n) = true) ∧ ((s.chip.openGate (Reg.SLC_CTRL n)).slState n = sActive)) ∧
    (∃ s : State, ∃ ag : Agent, ∃ n : Nat, (s.chip.reaches ag (Reg.SLC_CTRL n) = true) ∧
      ((s.chip.openGate (Reg.SLC_CTRL n)).slState n = sDraining ∨ (s.chip.openGate (Reg.SLC_CTRL n)).slState n = sHalted) ∧
      ((s.chip.openGate (Reg.SLC_CTRL n)).inflight n = 0)) ∧
    (∃ c : Chip, ∃ n : Nat, ∃ d, (n < 4096) ∧ (d ∈ (c.sliceReset n).rly.descs)) ∧
    (∃ c : Chip, ∃ n : Nat, ∃ r, (n < 4096) ∧ (r ∈ (c.sliceReset n).rly.held)) ∧
    (∃ c : Chip, ∃ n : Nat, ∃ o, (n < 4096) ∧ (o ∈ (c.sliceReset n).rly.ops)) ∧
    (∃ c : Chip, ∃ n : Nat, ∃ p, (n < 4096) ∧ (p ∈ (c.sliceReset n).rly.posts)) :=
  ⟨⟨st (slC sStopped [] []), .vsi 1, 4095, by and_intros <;> decide +kernel⟩,
   ⟨st (slC sActive [] []), .vsi 1, 4095, by and_intros <;> decide +kernel⟩,
   ⟨st (slC sHalted [] []), .keeper, 4095, by and_intros <;> decide +kernel⟩,
   ⟨slC sActive [{ dsc false {} with slice := 3 }] [], 4095, { dsc false {} with slice := 3 }, by and_intros <;> decide +kernel⟩,
   ⟨{ slC sActive [] [] with rly := { held := [{ slice := 3, sqIndex := 0, tag := 0, status := 0 }] } }, 4095,
     { slice := 3, sqIndex := 0, tag := 0, status := 0 }, by and_intros <;> decide +kernel⟩,
   ⟨slC sActive [] [{ opn .read with slice := 3 }], 4095, { opn .read with slice := 3 }, by and_intros <;> decide +kernel⟩,
   ⟨{ slC sActive [] [] with rly := { (slC sActive [] []).rly with posts := [⟨3, .intr 0⟩] } }, 4095, ⟨3, .intr 0⟩, by and_intros <;> decide +kernel⟩⟩

theorem witness_DoorbellsAreTakenOrRefused :
    (∃ s : State, ∃ v : Nat, ∃ n : Nat, ∃ count : Nat, (s.chip.relayMse v = true) ∧ (s.chip.clocked 82 = true) ∧
      (s.chip.slState n = sActive ∨ s.chip.slState n = sDraining) ∧ (s.chip.slVsi n = v) ∧ (count < 2 ^ 32) ∧
      (ahead32 count (s.chip.rd (Reg.SQ_SEEN n)).toNat = true) ∧ (modSub (2 ^ 32) count (s.chip.fetched n) ≤ s.chip.sqSize n)) ∧
    (∃ s : State, ∃ v : Nat, ∃ n : Nat, ∃ count : Nat, (s.chip.relayMse v = true) ∧ (s.chip.clocked 82 = true) ∧
      (s.chip.slState n = sActive ∨ s.chip.slState n = sDraining) ∧ (s.chip.slVsi n = v) ∧ (count < 2 ^ 32) ∧
      (count = (s.chip.rd (Reg.SQ_SEEN n)).toNat)) ∧
    (∃ s : State, ∃ v : Nat, ∃ n : Nat, ∃ count : Nat, (s.chip.relayMse v = true) ∧ (s.chip.clocked 82 = true) ∧
      (s.chip.slState n = sActive ∨ s.chip.slState n = sDraining) ∧ (s.chip.slVsi n = v) ∧ (count < 2 ^ 32) ∧
      (count ≠ (s.chip.rd (Reg.SQ_SEEN n)).toNat) ∧
      (¬(ahead32 count (s.chip.rd (Reg.SQ_SEEN n)).toNat = true ∧ modSub (2 ^ 32) count (s.chip.fetched n) ≤ s.chip.sqSize n))) ∧
    (∃ s : State, ∃ v : Nat, ∃ n : Nat, ∃ count : Nat, (s.chip.relayMse v = true) ∧ (s.chip.clocked 82 = true) ∧
      (s.chip.slState n = sActive ∨ s.chip.slState n = sDraining) ∧ (s.chip.slVsi n = v) ∧ (count < 2 ^ 32) ∧
      (ahead32 count (s.chip.rslice n).cqRead = true) ∧
      (modSub (2 ^ 32) count (s.chip.rslice n).cqRead ≤ modSub (2 ^ 32) (s.chip.written n) (s.chip.rslice n).cqRead)) ∧
    (∃ s : State, ∃ v : Nat, ∃ n : Nat, ∃ count : Nat, (s.chip.relayMse v = true) ∧ (s.chip.clocked 82 = true) ∧
      (s.chip.slState n = sActive ∨ s.chip.slState n = sDraining) ∧ (s.chip.slVsi n = v) ∧ (count < 2 ^ 32) ∧ (count = (s.chip.rslice n).cqRead)) ∧
    (∃ s : State, ∃ v : Nat, ∃ n : Nat, ∃ count : Nat, (s.chip.relayMse v = true) ∧ (s.chip.clocked 82 = true) ∧
      (s.chip.slState n = sActive ∨ s.chip.slState n = sDraining) ∧ (s.chip.slVsi n = v) ∧ (count < 2 ^ 32) ∧ (count ≠ (s.chip.rslice n).cqRead) ∧
      (¬(ahead32 count (s.chip.rslice n).cqRead = true ∧ modSub (2 ^ 32) count (s.chip.rslice n).cqRead ≤ modSub (2 ^ 32) (s.chip.written n) (s.chip.rslice n).cqRead))) ∧
    (∃ s : State, ∃ v : Nat, ∃ n : Nat, ∃ count : Nat, (s.chip.relayMse v = true) ∧ (s.chip.clocked 82 = true) ∧
      (s.chip.slState n = sActive ∨ s.chip.slState n = sDraining) ∧ (s.chip.slVsi n = v) ∧ (count < 2 ^ 32) ∧
      (ahead32 count (s.chip.rslice n).ibBack = true) ∧
      (modSub (2 ^ 32) count (s.chip.rslice n).ibBack ≤ modSub (2 ^ 32) (s.chip.rslice n).ibUsed (s.chip.rslice n).ibBack)) ∧
    (∃ s : State, ∃ v : Nat, ∃ n : Nat, ∃ count : Nat, (s.chip.relayMse v = true) ∧ (s.chip.clocked 82 = true) ∧
      (s.chip.slState n = sActive ∨ s.chip.slState n = sDraining) ∧ (s.chip.slVsi n = v) ∧ (count < 2 ^ 32) ∧ (count = (s.chip.rslice n).ibBack)) ∧
    (∃ s : State, ∃ v : Nat, ∃ n : Nat, ∃ count : Nat, (s.chip.relayMse v = true) ∧ (s.chip.clocked 82 = true) ∧
      (s.chip.slState n = sActive ∨ s.chip.slState n = sDraining) ∧ (s.chip.slVsi n = v) ∧ (count < 2 ^ 32) ∧ (count ≠ (s.chip.rslice n).ibBack) ∧
      (¬(ahead32 count (s.chip.rslice n).ibBack = true ∧ modSub (2 ^ 32) count (s.chip.rslice n).ibBack ≤ modSub (2 ^ 32) (s.chip.rslice n).ibUsed (s.chip.rslice n).ibBack))) ∧
    (∃ s : State, ∃ v : Nat, ∃ n : Nat, ∃ off : Nat, ∃ size : Nat, ∃ count : Nat, ∃ gen : Nat, ∃ i,
      (i ∈ [Instr.sqDb v n off size count gen, .cqDb v n off size count gen, .ibDb v n off size count gen]) ∧ (s.chip.relayMse v = true) ∧
      (s.chip.clocked 82 = true) ∧ (s.chip.slState n = sUngranted ∨ s.chip.slVsi n ≠ v)) ∧
    (∃ s : State, ∃ v : Nat, ∃ n : Nat, ∃ off : Nat, ∃ size : Nat, ∃ count : Nat, ∃ gen : Nat, ∃ want : Nat, ∃ i,
      (i ∈ [(Instr.sqDb v n off size count gen, 0), (.cqDb v n off size count gen, 8), (.ibDb v n off size count gen, 16)]) ∧ (want = i.2) ∧
      (s.chip.relayMse v = true) ∧ (s.chip.clocked 82 = true) ∧ (s.chip.slState n ≠ sUngranted) ∧ (s.chip.slVsi n = v) ∧ (off ≠ want ∨ size ≠ 8)) ∧
    (∃ s : State, ∃ v : Nat, ∃ n : Nat, ∃ off : Nat, ∃ size : Nat, ∃ count : Nat, ∃ gen : Nat, ∃ want : Nat, ∃ i,
      (i ∈ [(Instr.sqDb v n off size count gen, 0), (.cqDb v n off size count gen, 8), (.ibDb v n off size count gen, 16)]) ∧ (want = i.2) ∧
      (s.chip.relayMse v = true) ∧ (s.chip.clocked 82 = true) ∧ (s.chip.slState n ≠ sUngranted) ∧ (s.chip.slVsi n = v) ∧ (off = want) ∧ (size = 8) ∧
      (gen ≠ s.chip.fld (Reg.RING_GEN n) Bit.RING_GEN_GEN ∨ s.chip.slState n ≠ sActive ∧ s.chip.slState n ≠ sDraining)) ∧
    (∃ s : State, ∃ v : Nat, ∃ n : Nat, ∃ off : Nat, ∃ size : Nat, ∃ count : Nat, ∃ gen : Nat, ∃ i,
      (i ∈ [(Instr.sqDb v n off size count gen, 0), (.cqDb v n off size count gen, 8), (.ibDb v n off size count gen, 16)]) ∧
      (s.chip.relayMse v = false)) ∧
    (∃ s : State, ∃ v : Nat, ∃ n : Nat, ∃ off : Nat, ∃ size : Nat, ∃ count : Nat, ∃ gen : Nat, ∃ i,
      (i ∈ [(Instr.sqDb v n off size count gen, 0), (.cqDb v n off size count gen, 8), (.ibDb v n off size count gen, 16)]) ∧
      (s.chip.relayMse v = true) ∧ (s.chip.clocked 82 = false)) :=
  ⟨⟨st (slC sActive [] []), 1, 4095, 64, by and_intros <;> decide +kernel⟩,
   ⟨st (slC sActive [] []), 1, 4095, 0, by and_intros <;> decide +kernel⟩,
   ⟨st (slC sDraining [] []), 1, 4095, 65, by and_intros <;> decide +kernel⟩,
   ⟨st ((slC sDraining [] []).wr (Reg.CQ_WRITTEN 4095) 64), 1, 4095, 64, by and_intros <;> decide +kernel⟩,
   ⟨st (slC sActive [] []), 1, 4095, 0, by and_intros <;> decide +kernel⟩,
   ⟨st (slC sActive [] []), 1, 4095, 0xFFFFFFFF, by and_intros <;> decide +kernel⟩,
   ⟨st { slC sActive [] [] with rly := { slices := [{ slice := 4095, ibUsed := 2 }] } }, 1, 4095, 2, by and_intros <;> decide +kernel⟩,
   ⟨st { slC sActive [] [] with rly := { slices := [{ slice := 4095, ibUsed := 2 }] } }, 1, 4095, 0, by and_intros <;> decide +kernel⟩,
   ⟨st { slC sActive [] [] with rly := { slices := [{ slice := 4095, ibUsed := 2 }] } }, 1, 4095, 3, by and_intros <;> decide +kernel⟩,
   ⟨st fabC, 1, 4095, 0, 8, 1, 0, Instr.cqDb 1 4095 0 8 1 0, by and_intros <;> decide +kernel⟩,
   ⟨st (slC sStopped [] []), 1, 4095, 0, 4, 1, 0, 16, (Instr.ibDb 1 4095 0 4 1 0, 16), by and_intros <;> decide +kernel⟩,
   ⟨st (slC sStopped [] []), 1, 4095, 0, 8, 1, 0, 0, (Instr.sqDb 1 4095 0 8 1 0, 0), by and_intros <;> decide +kernel⟩,
   ⟨st ((slC sActive [] []).setCfg 1 1 keyMse 0), 1, 4095, 0, 8, 1, 0, (Instr.sqDb 1 4095 0 8 1 0, 0), by and_intros <;> decide +kernel⟩,
   ⟨st { slC sActive [] [] with pwr := { fabC.pwr with lost := [82] } }, 1, 4095, 0, 8, 1, 0, (Instr.sqDb 1 4095 0 8 1 0, 0),
     by and_intros <;> decide +kernel⟩⟩

theorem witness_InterruptsAndBusMasterEnable :
    (∃ c : Chip, ∃ n : Nat, (c.flag (Reg.INT_CTRL n) Bit.INT_CTRL_MASK = true)) ∧
    (∃ s : State, ∃ ag : Agent, ∃ n : Nat, (s.chip.reaches ag (Reg.INT_CTRL n) = true) ∧
      ((s.chip.openGate (Reg.INT_CTRL n)).flag (Reg.INT_CTRL n) Bit.INT_CTRL_PENDING = true) ∧
      ((s.chip.openGate (Reg.INT_CTRL n)).bme ((s.chip.openGate (Reg.INT_CTRL n)).slVsi n) = true)) ∧
    (∃ s : State, ∃ ag : Agent, ∃ n : Nat, (s.chip.reaches ag (Reg.INT_CTRL n) = true) ∧
      ((s.chip.openGate (Reg.INT_CTRL n)).flag (Reg.INT_CTRL n) Bit.INT_CTRL_PENDING = false)) ∧
    (∃ c : Chip, ∃ n : Nat, (c.postsOf n = [])) ∧
    (∃ c : Chip, ∃ n : Nat, ∃ r, (c.postsOf n = [⟨n, .record r⟩])) ∧
    (∃ c : Chip, ∃ n : Nat, ∃ tc, (c.postsOf n = [⟨n, .intr tc⟩])) ∧
    (∃ c : Chip, ∃ n : Nat, ∃ x, (c.postsOf n = [⟨n, .inbox x⟩])) ∧
    (∃ s : State, ∃ v : Nat, (s.chip.bme v = true) ∧ (s.chip.rly.descs = []) ∧ (s.chip.rly.ops = []) ∧ (s.chip.rly.posts = [])) ∧
    (∃ s : State, ∃ v : Nat, (s.chip.bme v = false)) :=
  ⟨⟨(slC sActive [] []).setBit (Reg.INT_CTRL 4095) Bit.INT_CTRL_MASK, 4095, by decide +kernel⟩,
   ⟨st ((slC sActive [] []).setBit (Reg.INT_CTRL 4095) Bit.INT_CTRL_PENDING), .vsi 1, 4095, by and_intros <;> decide +kernel⟩,
   ⟨st (slC sActive [] []), .vsi 1, 4095, by and_intros <;> decide +kernel⟩,
   ⟨fabC, 4095, by decide +kernel⟩,
   ⟨{ slC sActive [] [] with rly := { (slC sActive [] []).rly with posts := [⟨4095, .record { slice := 4095, sqIndex := 3, tag := 0, status := 0 }⟩] } },
     4095, { slice := 4095, sqIndex := 3, tag := 0, status := 0 }, by decide +kernel⟩,
   ⟨{ slC sActive [] [] with rly := { (slC sActive [] []).rly with posts := [⟨4095, .intr 2⟩] } }, 4095, 2, by decide +kernel⟩,
   ⟨{ slC sActive [] [] with rly := { (slC sActive [] []).rly with posts := [⟨4095, .inbox {}⟩] } }, 4095, ({} : Inbox), by decide +kernel⟩,
   ⟨st (slC sActive [] []), 1, by and_intros <;> decide +kernel⟩,
   ⟨st fabC, 63, by decide +kernel⟩⟩

theorem witness_DescriptorsRun :
    (∃ s : State, ∃ n : Nat, ∃ c : Chip, (s.chip.fetchReady n = true) ∧ (s.chip.relayPump.syncSlices = c) ∧ (c.sliceChoice = some n) ∧
      ((c.nextPost n).isNone = true)) ∧
    (∃ s : State, ∃ n : Nat, ∃ d : RDesc, ∃ c : Chip, (s.chip.startable n = some d) ∧ (s.chip.relayPump.syncSlices = c) ∧ (c.sliceChoice = some n) ∧
      ((c.nextPost n).isNone = true) ∧ (c.startStatus n d.d = 0)) ∧
    (∃ s : State, ∃ n : Nat, ∃ d : RDesc, ∃ c : Chip, (s.chip.startable n = some d) ∧ (s.chip.relayPump.syncSlices = c) ∧ (c.sliceChoice = some n) ∧
      ((c.nextPost n).isNone = true) ∧ (c.startStatus n d.d ≠ 0)) ∧
    (∃ s : State, ∃ n : Nat, ∃ idx : Nat, ∃ d : RDesc, ∃ c : Chip, (s.chip.rdesc n idx = some d) ∧ (s.chip.slIssues n = true) ∧
      (s.chip.relayPump.syncSlices = c) ∧ (c.sliceChoice = some n) ∧ ((c.nextPost n).isNone = true) ∧ (s.chip.readReady d = true)) ∧
    (∃ s : State, ∃ n : Nat, ∃ idx : Nat, ∃ d : RDesc, ∃ c : Chip, (s.chip.rdesc n idx = some d) ∧ (s.chip.slIssues n = true) ∧
      (s.chip.relayPump.syncSlices = c) ∧ (c.sliceChoice = some n) ∧ ((c.nextPost n).isNone = true) ∧ (s.chip.writeReady d = true)) ∧
    (∃ c : Chip, ∃ p : RPost, (c.rly.posts = [p]) ∧ (c.syncSlices.sliceChoice = some p.slice) ∧ (c.syncSlices.mayPost p.slice = true)) ∧
    (∃ c : Chip, (c.rly.posts = [])) ∧
    (∃ s : State, ∃ id : Nat, ∃ t : Tlp, ∃ ends : Bool, ∃ rest : List (Nat × Tlp × Bool), ∃ o : ROp, (s.chip.clocked 82 = true) ∧
      (s.chip.rly.cpls = (id, t, ends) :: rest) ∧ (s.chip.rly.ops.find? (fun o => o.id == id && (o.kind == .fetch || o.kind == .read)) = some o) ∧
      (o.slice ≠ dbgSlice)) ∧
    (∃ s : State, ∃ n : Nat, ∃ idx : Nat, ∃ d : RDesc, (s.chip.rdesc n idx = some d) ∧ (s.chip.descFinished d = true) ∧ (s.chip.inModFog = false) ∧
      (s.chip.slState n = sActive ∨ s.chip.slState n = sDraining)) ∧
    (∃ s : State, ∃ srcFa : Nat, ∃ port : Nat, ∃ tc : Nat, ∃ x : Tlp, ∃ m : RelayMsg, ∃ c : Chip,
      (s.chip.takeRmsg false = some ((srcFa, port, tc, x), m, c))) ∧
    (∃ s : State, ∃ x : Nat × Nat × Nat × Tlp, ∃ m : RelayMsg, ∃ c : Chip, ∃ o, (s.chip.takeRmsg true = some (x, m, c)) ∧
      (c.rly.ops.find? (fun o => o.kind == .send && o.slice == m.srcSlice && o.idx % c.sqSize o.slice == m.ref && o.dest == x.1) = some o)) ∧
    (∃ s : State, ∃ x : Nat × Nat × Nat × Tlp, ∃ m : RelayMsg, ∃ c : Chip, (s.chip.takeRmsg true = some (x, m, c)) ∧
      (c.rly.ops.find? (fun o => o.kind == .send && o.slice == m.srcSlice && o.idx % c.sqSize o.slice == m.ref && o.dest == x.1) = none)) ∧
    (∃ s : State, ∃ id : Nat, ∃ o : ROp, (s.chip.due (.send id) = true) ∧ (s.chip.rly.ops.find? (fun o => o.id == id && o.kind == .send) = some o)) :=
  ⟨by refine ⟨st ((slC sActive [] []).wr (Reg.SQ_SEEN 4095) 1), 4095, _, ?_, rfl, ?_⟩ <;> and_intros <;> decide +kernel,
   by refine ⟨st (slC sActive [dsc false {}] []), 4095, dsc false {}, _, ?_, rfl, ?_⟩ <;> and_intros <;> decide +kernel,
   by refine ⟨st (slC sDraining [dsc false { opcode := 8 }] []), 4095, dsc false { opcode := 8 }, _, ?_, rfl, ?_⟩ <;> and_intros <;> decide +kernel,
   by refine ⟨st (slC sActive [dsc true { opcode := 1, len := 64, src := 0x400000, dst := 0x500000 }] []), 4095, 0,
     dsc true { opcode := 1, len := 64, src := 0x400000, dst := 0x500000 }, _, ?_, ?_, rfl, ?_⟩ <;> and_intros <;> decide +kernel,
   by refine ⟨st (slC sActive [dsc true { opcode := 2, len := 64, dst := 0x500000 }] []), 4095, 0,
     dsc true { opcode := 2, len := 64, dst := 0x500000 }, _, ?_, ?_, rfl, ?_⟩ <;> and_intros <;> decide +kernel,
   ⟨{ slC sActive [] [] with rly := { (slC sActive [] []).rly with posts := [⟨4095, .intr 0⟩] } }, ⟨4095, .intr 0⟩, by and_intros <;> decide +kernel⟩,
   ⟨fabC, by decide +kernel⟩,
   ⟨st { slC sActive [dsc true { opcode := 1, len := 64 }] [{ opn .read with frames := 1 }] with rly := { (slC sActive [dsc true { opcode := 1, len := 64 }] [{ opn .read with frames := 1 }]).rly with cpls := [(2, { kind := .cpl, len := 64 }, true)] } },
     2, { kind := .cpl, len := 64 }, true, [], { opn .read with frames := 1 }, by and_intros <;> decide +kernel⟩,
   ⟨st (slC sActive [dsc true {}] []), 4095, 0, dsc true {}, by and_intros <;> decide +kernel⟩,
   by refine ⟨st { fabC with rly := { fabC.rly with msgs := [(648, 24, 0, rmsg false)] } }, 648, 24, 0, rmsg false, _, _,
     rfl⟩ <;> and_intros <;> decide +kernel,
   by refine ⟨st { slC sActive [] [{ opn .send with tc := 0 }] with rly := { (slC sActive [] [opn .send]).rly with msgs := [(648, 24, 0, rmsg true)] } },
     (648, 24, 0, rmsg true), _, _, opn .send, rfl, rfl⟩ <;> and_intros <;> decide +kernel,
   by refine ⟨st { fabC with rly := { fabC.rly with msgs := [(648, 24, 0, rmsg true)] } }, (648, 24, 0, rmsg true), _, _, rfl,
     rfl⟩ <;> and_intros <;> decide +kernel,
   ⟨st { slC sActive [] [opn .send] with timers := [(.send 2, 0)] }, 2, opn .send, by and_intros <;> decide +kernel⟩⟩

theorem witness_TicksAndStationResets :
    (∃ s : State, ∃ ag : Agent, ∃ st : Nat, (s.chip.reaches ag Reg.STN_RESET = true) ∧ (st < 16)) ∧
    (∃ s : State, ∃ st : Nat, ∃ l : LightList, (s.chip.ll = some l) ∧ (s.chip.keeperRuns = true) ∧ (s.chip.clocked (64 + st) = true) ∧
      ((s.chip.fldBit Reg.STN_RESET Bit.STN_RESET_BUSY st = true ∧ s.chip.due (.stnReset st) = true) ∨ s.chip.pwr.starting.contains st = true)) ∧
    (∃ s : State, ∃ st : Nat, ∃ l : LightList, (s.chip.ll = some l) ∧ (s.chip.keeperRuns = false) ∧ (s.chip.clocked (64 + st) = true) ∧
      (s.chip.heldAcc.all s.chip.stillHeld = true) ∧ (s.chip.fldBit Reg.STN_RESET Bit.STN_RESET_BUSY st = true) ∧
      (s.chip.due (.stnReset st) = true)) ∧
    (∃ s : State, ∃ l : LightList, (s.chip.ll = some l) ∧ (s.chip.keeperRuns = true)) ∧
    (∃ s : State, ∃ h : HeldAccess, (s.chip.heldAcc = [h]) ∧ (s.chip.stillHeld h = false)) :=
  ⟨⟨st fabC, .keeper, 15, by and_intros <;> decide +kernel⟩,
   ⟨st { fabC with ll := some {}, pwr := { fabC.pwr with starting := [3] } }, 3, {}, by and_intros <;> decide +kernel⟩,
   ⟨st { (fabC.setFld Reg.STN_RESET Bit.STN_RESET_BUSY 8).setFld Reg.KPR_STATUS Bit.KPR_STATUS_STAGE 0 with ll := some {}, timers := [(.stnReset 3, 0)] },
     3, {}, by and_intros <;> decide +kernel⟩,
   ⟨st { fabC with ll := some {}, pwr := { fabC.pwr with stnWait := [3] } }, {}, by and_intros <;> decide +kernel⟩,
   ⟨st { fabC with heldAcc := [⟨.keeper, Reg.PRT_CTRL 24, .read⟩] }, ⟨.keeper, Reg.PRT_CTRL 24, .read⟩, by and_intros <;> decide +kernel⟩⟩

theorem witness_FogCommandsComplete :
    (∃ s : State, ∃ ag : Agent, ∃ p : Nat, (s.chip.reaches ag Reg.FOG_CMD = true) ∧ ((s.chip.port p).present = true)) ∧
    (∃ s : State, ∃ ag : Agent, (s.chip.reaches ag Reg.FOG_CMD = true) ∧ (s.chip.inModFog = false)) ∧
    (∃ s : State, ∃ ag : Agent, ∃ trigger, (s.chip.reaches ag Reg.FOG_CMD = true) ∧ (s.chip.inModFog = true ∨ trigger = true)) ∧
    (∃ s : State, (s.chip.lampAnswers = true) ∧ (s.chip.inModFog = true) ∧ (s.chip.keeperRuns = true) ∧ (s.chip.pwrState ≠ 2)) ∧
    (∃ s : State, (s.chip.lampAnswers = true) ∧ (s.chip.inModFog = false)) ∧
    (∃ s : State, ∃ ag : Agent, ∃ cls : Nat, ∃ p : Nat, (s.chip.reaches ag Reg.INJECT = true) ∧
      (s.chip.flag Reg.SAF_CTRL Bit.SAF_CTRL_LOCK = false) ∧ (1 ≤ cls) ∧ (cls ≤ 8) ∧ (cls ≠ 7) ∧ (p < 128)) ∧
    (∃ s : State, ∃ ag : Agent, ∃ p : Nat, (s.chip.reaches ag Reg.INJECT = true) ∧ (s.chip.flag Reg.SAF_CTRL Bit.SAF_CTRL_LOCK = false) ∧ (p < 128)) ∧
    (∃ s : State, ∃ ag : Agent, ∃ cls : Nat, ∃ p : Nat, (s.chip.reaches ag Reg.INJECT = true) ∧
      (s.chip.flag Reg.SAF_CTRL Bit.SAF_CTRL_LOCK = false) ∧ (cls = 0 ∨ 9 ≤ cls) ∧ (cls < 16) ∧ (p < 128)) ∧
    (∃ s : State, ∃ ag : Agent, (s.chip.reaches ag Reg.INJECT = true) ∧ (s.chip.flag Reg.SAF_CTRL Bit.SAF_CTRL_LOCK = true)) ∧
    (∃ c : Chip, ∃ o, (c.inModFog = true) ∧ (o ≠ Reg.LOG_SEQ) ∧ (o ≠ Reg.LOG_STATUS) ∧ (o ≠ Reg.LOG_EVENT)) ∧
    (∃ c : Chip, ∃ p : Nat, ∃ o, (c.inPortFog p = true) ∧ (o ≠ Reg.LOG_SEQ) ∧ (o ≠ Reg.LOG_STATUS) ∧ (o ≠ Reg.LOG_EVENT)) :=
  ⟨⟨st fabC, .keeper, 1, by and_intros <;> decide +kernel⟩,
   ⟨st fabC, .keeper, by and_intros <;> decide +kernel⟩,
   ⟨st (fabC.setFld Reg.SAF_STATUS Bit.SAF_STATUS_MODULE_FOG 1), .keeper, false, by and_intros <;> decide +kernel⟩,
   ⟨st (fabC.setFld Reg.SAF_STATUS Bit.SAF_STATUS_MODULE_FOG 1), by and_intros <;> decide +kernel⟩,
   ⟨st fabC, by and_intros <;> decide +kernel⟩,
   ⟨st fabC, .keeper, 3, 1, by and_intros <;> decide +kernel⟩,
   ⟨st fabC, .keeper, 1, by and_intros <;> decide +kernel⟩,
   ⟨st fabC, .keeper, 15, 127, by and_intros <;> decide +kernel⟩,
   ⟨st (fabC.setBit Reg.SAF_CTRL Bit.SAF_CTRL_LOCK), .keeper, by and_intros <;> decide +kernel⟩,
   ⟨(fabC.setFld Reg.SAF_STATUS Bit.SAF_STATUS_MODULE_FOG 1), Reg.KND_CTRL, by and_intros <;> decide +kernel⟩,
   ⟨(fabC.setFld (Reg.PORT_FOG 0) Bit.PORT_FOG_FOG 2), 1, Reg.KND_CTRL, by and_intros <;> decide +kernel⟩⟩

theorem witness_MonitorsAct :
    (∃ s : State, ∃ kind : Nat, ∃ target : Nat, ∃ addr : Nat, ∃ len : Nat, ∃ write : Bool, ∃ a : Access,
      (a = { kind, target, addr, read := !write, write, vsi := 0 }) ∧ (s.chip.busRuns .keeper = true) ∧ (s.chip.kpr.dbgResult ≠ 2) ∧ (1 ≤ len) ∧
      (addr % 8 + len ≤ 8) ∧ ((s.chip.dbgHits false a).length ≤ 1) ∧ (s.chip.dbgHits true a = s.chip.dbgHits false a)) ∧
    (∃ s : State, (s.chip.pwr.pgood = true) ∧ (s.chip.pwr.resetLow = false) ∧ (s.chip.clocked 88 = true) ∧ (s.chip.kpr.halted = false)) ∧
    (∃ s : State, (s.chip.busRuns .keeper = true) ∧ (s.chip.secDiff = [])) ∧
    (∃ s : State, ∃ o, ∃ rest, (s.chip.busRuns .keeper = true) ∧ (s.chip.secDiff = o :: rest)) ∧
    (∃ s : State, (s.chip.busRuns .keeper = true) ∧ (s.chip.keeperRuns = true) ∧ (∀ e ∈ s.chip.pci.ort, e.ecc = 0) ∧
      (∀ x ∈ s.chip.mor.streams, x.ecc = 0) ∧ (∀ x ∈ s.chip.mor.ctxs, x.ecc = 0)) ∧
    (∃ s : State, ∃ i : Nat, (s.chip.busRuns .keeper = true) ∧ (i < 64)) ∧
    (∃ s : State, ∃ i : Nat, (s.chip.busRuns .keeper = true) ∧ (64 ≤ i) ∧ (i ≤ 88) ∧ (s.chip.keeperRuns = true ∨ i = 88)) ∧
    (∃ s : State, ∃ u : State, (s.chip.pwr.standby = true) ∧
      (u = (s.withChip ((((s.chip.setBit Reg.SAF_EVENT Bit.SAF_EVENT_POWER_DOUBT).setBit Reg.SAF_STATUS Bit.SAF_STATUS_POWER_DOUBT).log .powerDoubt []).moduleFog fogPowerDoubt 0))) ∧
      (s.chip.pwrState ≠ 2)) ∧
    (∃ s : State, ∃ u : State, (s.chip.pwr.standby = true) ∧
      (u = (s.withChip ((((s.chip.setBit Reg.SAF_EVENT Bit.SAF_EVENT_POWER_DOUBT).setBit Reg.SAF_STATUS Bit.SAF_STATUS_POWER_DOUBT).log .powerDoubt []).moduleFog fogPowerDoubt 0))) ∧
      (s.chip.pwrState = 2)) ∧
    (∃ s : State, (s.chip.pwr.standby = true) ∧ (s.chip.feedsLow = true) ∧ (s.chip.pwrState ≠ 2)) ∧
    (∃ s : State, ∃ k, ∃ t, (s.chip.pwr.standby = true) ∧ (k < 3) ∧ (exec .powerDoubt s = .next t)) ∧
    (∃ s : State, ∃ k, ∃ t, ∃ u, (s.chip.pwr.standby = true) ∧ (k < 3) ∧ (exec .powerDoubt s = .next t) ∧
      (exec (.comparatorSelftest [3]) t = .next u)) ∧
    (∃ s : State, (s.chip.pwr.standby = true) ∧ (s.chip.saf.keeperPull = true ∨ s.chip.saf.lampPull = true)) ∧
    (∃ s : State, ∃ j : Int, (s.chip.keeperRuns = true) ∧ (s.chip.pwrState ≠ 2) ∧ (10500 < j) ∧ (j ≤ 12500)) ∧
    (∃ s : State, ∃ j : Int, (s.chip.keeperRuns = true) ∧ (s.chip.pwrState ≠ 2) ∧ (10500 < j) ∧ (j ≤ 12500)) :=
  ⟨by refine ⟨st fabC, 0, 3, 0x1000, 4, true, _, rfl, ?_⟩ <;> and_intros <;> decide +kernel,
   ⟨st upC, by and_intros <;> decide +kernel⟩,
   ⟨st fabC, by and_intros <;> decide +kernel⟩,
   ⟨st { fabC with tabB := [(Reg.SEC_DEFAULT_0, 1)] }, Reg.SEC_DEFAULT_0, ([] : List Nat), by and_intros <;> decide +kernel⟩,
   ⟨st fabC, by and_intros <;> decide +kernel⟩,
   ⟨st fabC, 5, by and_intros <;> decide +kernel⟩,
   ⟨st fabC, 81, by and_intros <;> decide +kernel⟩,
   by refine ⟨st fabC, _, ?_, rfl, ?_⟩ <;> and_intros <;> decide +kernel,
   by refine ⟨st (fabC.setFld Reg.GLB_PWR_STATUS Bit.GLB_PWR_STATUS_STATE 2), _, ?_, rfl, ?_⟩ <;> and_intros <;> decide +kernel,
   ⟨st { fabC with pwr := { fabC.pwr with present := [0], low := [0] } }, by and_intros <;> decide +kernel⟩,
   by refine ⟨st fabC, 2, _, ?_, ?_, rfl⟩ <;> and_intros <;> decide +kernel,
   by refine ⟨st fabC, 2, _, _, ?_, ?_, rfl, rfl⟩ <;> and_intros <;> decide +kernel,
   ⟨st { fabC with saf := { fabC.saf with keeperPull := true } }, by and_intros <;> decide +kernel⟩,
   ⟨st fabC, 11000, by and_intros <;> decide +kernel⟩,
   ⟨st fabC, 12500, by and_intros <;> decide +kernel⟩⟩

theorem witness_BootStartsTheModule :
    (∃ s : State, ∃ o : BootOutcome, (s.chip.mayBoot = true) ∧ (o.lockOk = false)) ∧
    (∃ s : State, ∃ o : BootOutcome, ∃ c : Chip, (s.chip.mayBoot = true) ∧ (o.lockOk = true) ∧
      (c = s.chip.syncFuses.setFld Reg.KPR_STATUS Bit.KPR_STATUS_NO_RECORD (b2n (commitNow s.flash).isNone))) ∧
    (∃ s : State, (s.chip.due .islandStart = true) ∧ (islandsToStart.all s.chip.islandUp = true)) ∧
    (∃ s : State, (s.chip.due .islandStart = true) ∧ (islandsToStart.all s.chip.islandUp = false)) ∧
    (∃ s : State, (s.chip.bootEnds = true)) :=
  ⟨⟨st (fabC.setFld Reg.KPR_STATUS Bit.KPR_STATUS_STAGE 0), { lockOk := false, cmpFail := [], outside := false, keeperPath := true, lampPath := true, missing := [] }, by and_intros <;> decide +kernel⟩,
   by refine ⟨st (fabC.setFld Reg.KPR_STATUS Bit.KPR_STATUS_STAGE 0),
     { lockOk := true, cmpFail := [], outside := false, keeperPath := true, lampPath := true, missing := [] }, _, ?_, ?_,
     rfl⟩ <;> and_intros <;> decide +kernel,
   ⟨st { endC with timers := [(.islandStart, 0)] }, by and_intros <;> decide +kernel⟩,
   ⟨st { fabC with timers := [(.islandStart, 0)] }, by and_intros <;> decide +kernel⟩,
   ⟨st endC, by decide +kernel⟩⟩

theorem witness_SpdmAndDebugComplete :
    (∃ s : State, ∃ via : Nat, ∃ who : Nat, (s.chip.keeperServes = true) ∧
      (via < 2 ∧ s.chip.pwr.addrSel.isSome = true ∨ 2 ≤ via ∧ (s.chip.port (via - 2)).up = true ∧ s.chip.dlUp (via - 2) = true) ∧
      (s.chip.spdmStage who ≠ 0 ∨ s.chip.kpr.spdm.length < 8)) ∧
    (∃ s : State, ∃ via : Nat, ∃ who : Nat, (s.chip.keeperServes = true) ∧
      (via < 2 ∧ s.chip.pwr.addrSel.isSome = true ∨ 2 ≤ via ∧ (s.chip.port (via - 2)).up = true ∧ s.chip.dlUp (via - 2) = true) ∧
      (s.chip.spdmStage who = 0) ∧ (8 ≤ s.chip.kpr.spdm.length)) ∧
    (∃ s : State, ∃ who : Nat, (s.chip.spdmStage who = 1)) ∧
    (∃ s : State, ∃ who : Nat, (s.chip.spdmStage who = 2)) ∧
    (∃ s : State, ∃ who : Nat, ∃ i, (s.chip.spdmStage who ≠ 3) ∧ (1 ≤ i) ∧ (i ≤ 6)) ∧
    (∃ s : State, ∃ who : Nat, ∃ i, (s.chip.spdmStage who = 3) ∧ (1 ≤ i) ∧ (i ≤ 6)) ∧
    (∃ s : State, ∃ who : Nat, ∃ chain : List Byte, (s.chip.spdmStage who = 3) ∧ (0 < chain.length) ∧ (chain.length ≤ 32768)) ∧
    (∃ s : State, ∃ who : Nat, ∃ slot : Nat, ∃ chain : List Byte, (s.chip.spdmStage who = 3) ∧ (slot ≠ 1 ∨ chain.length = 0 ∨ 32768 < chain.length)) ∧
    (∃ via : Nat, (via ≠ 0)) ∧
    (∃ s : State, (s.chip.keeperServes = true) ∧ (s.chip.kpr.nonceAfter ≤ s.chip.now)) ∧
    (∃ s : State, (s.chip.keeperServes = true)) ∧
    (∃ s : State, (s.chip.unlocked = true)) ∧
    (∃ s : State, (s.chip.due .unlock = true)) ∧
    (∃ s : State, (s.chip.busRuns .keeper = true) ∧ (s.chip.flag Reg.DBG_STATUS Bit.DBG_STATUS_KEEPER_DEBUG = true)) ∧
    (∃ s : State, (s.chip.pwr.resetLow = true)) ∧
    (∃ s : State, (s.chip.pwr.resetLow = false) ∧ (s.chip.pwr.standby = true)) :=
  ⟨⟨st fabC, 26, 8, by and_intros <;> decide +kernel⟩,
   ⟨st { fabC with kpr := { fabC.kpr with spdm := (List.range 8).map (fun x => (x, 1)) } }, 1, 9, by and_intros <;> decide +kernel⟩,
   ⟨st { fabC with kpr := { fabC.kpr with spdm := [(4, 1)] } }, 4, by decide +kernel⟩,
   ⟨st { fabC with kpr := { fabC.kpr with spdm := [(4, 2)] } }, 4, by decide +kernel⟩,
   ⟨st fabC, 4, 6, by and_intros <;> decide +kernel⟩,
   ⟨st { fabC with kpr := { fabC.kpr with spdm := [(4, 3)] } }, 4, 6, by and_intros <;> decide +kernel⟩,
   ⟨st { fabC with kpr := { fabC.kpr with spdm := [(4, 3)] } }, 4, List.replicate 32768 5, by and_intros <;> decide +kernel⟩,
   ⟨st { fabC with kpr := { fabC.kpr with spdm := [(4, 3)] } }, 4, 0, [], by and_intros <;> decide +kernel⟩,
   ⟨1, by decide +kernel⟩,
   ⟨st fabC, by and_intros <;> decide +kernel⟩,
   ⟨st fabC, by decide +kernel⟩,
   ⟨st { fabC with timers := [(.unlock, 5)] }, by decide +kernel⟩,
   ⟨st { fabC with timers := [(.unlock, 0)] }, by decide +kernel⟩,
   ⟨st ((fabC.setFld Reg.SAF_STATUS Bit.SAF_STATUS_MODULE_FOG 1).setBit Reg.DBG_STATUS Bit.DBG_STATUS_KEEPER_DEBUG),
     by and_intros <;> decide +kernel⟩,
   ⟨st { fabC with pwr := { fabC.pwr with resetLow := true } }, by decide +kernel⟩,
   ⟨st fabC, by and_intros <;> decide +kernel⟩⟩

theorem witness_HotSwapControllerActs :
    (∃ s : State, (s.chip.mayRamp = true)) ∧
    (∃ s : State, (s.chip.flag Reg.PWE_STATUS Bit.PWE_STATUS_RAMPING = true)) ∧
    (∃ s : State, (s.chip.due .ramp = true) ∧ (s.chip.flag Reg.PWE_STATUS Bit.PWE_STATUS_RAMPING = true)) ∧
    (∃ s : State, ∃ k : Nat, ∃ ma : Nat, ∃ t : Nat, (k < 8) ∧ (s.chip.flag Reg.PWE_STATUS Bit.PWE_STATUS_GATE_FULL = true) ∧
      (s.chip.pweF (Reg.CURVE_I k) Bit.CURVE_I_MA < ma) ∧ (s.chip.pweF (Reg.CURVE_T k) Bit.CURVE_T_US ≤ t)) ∧
    (∃ s : State, ∃ ma : Nat, (40000 < ma) ∧ (s.chip.pweOn = true)) ∧
    (∃ s : State, (s.chip.pwr.standby = true)) ∧
    (∃ s : State, ∃ mv : Nat, (s.chip.pwr.standby = true) ∧ (63000 < mv) ∧ (mv ≤ 75000)) ∧
    (∃ s : State, (s.chip.due .retryDelay = true)) ∧
    (∃ s : State, (s.chip.due .tripDecay = true) ∧ (s.chip.flag Reg.PWE_STATUS Bit.PWE_STATUS_GATE_FULL = true)) ∧
    (∃ s : State, ∃ ag : Agent, ∃ v : Nat, (s.chip.reaches ag Reg.PWE_LATCH = true) ∧ (v % 256 = 0x5A)) ∧
    (∃ s : State, ∃ ag : Agent, ∃ v : Nat, (s.chip.reaches ag Reg.PWE_LATCH = true) ∧ (v % 256 ≠ 0x5A)) ∧
    (∃ s : State, ∃ ag : Agent, ∃ v : Nat, (s.chip.reaches ag Reg.PWE_APPLY = true) ∧ (v % 256 = 0xA5) ∧ (s.chip.applyOk = true)) ∧
    (∃ s : State, ∃ ag : Agent, ∃ v : Nat, (s.chip.reaches ag Reg.PWE_APPLY = true) ∧ (v % 256 = 0xA5) ∧ (s.chip.applyOk = false)) ∧
    (∃ s : State, ∃ ag : Agent, ∃ v : Nat, (s.chip.reaches ag Reg.PWE_APPLY = true) ∧ (v % 256 ≠ 0xA5)) :=
  ⟨⟨st { fabC with pwr := { fabC.pwr with present := [0] } }, by decide +kernel⟩,
   ⟨st (fabC.setBit Reg.PWE_STATUS Bit.PWE_STATUS_RAMPING), by decide +kernel⟩,
   ⟨st { fabC.setBit Reg.PWE_STATUS Bit.PWE_STATUS_RAMPING with timers := [(.ramp, 0)] }, by and_intros <;> decide +kernel⟩,
   ⟨st (fabC.setBit Reg.PWE_STATUS Bit.PWE_STATUS_GATE_FULL), 7, 65000, 4000000000, by and_intros <;> decide +kernel⟩,
   ⟨st (fabC.setBit Reg.PWE_STATUS Bit.PWE_STATUS_FET_ON), 40001, by and_intros <;> decide +kernel⟩,
   ⟨st (fabC.setBit Reg.PWE_STATUS Bit.PWE_STATUS_FET_ON), by decide +kernel⟩,
   ⟨st (fabC.setBit Reg.PWE_STATUS Bit.PWE_STATUS_FET_ON), 75000, by and_intros <;> decide +kernel⟩,
   ⟨st { fabC with timers := [(.retryDelay, 0)] }, by decide +kernel⟩,
   ⟨st { fabC.setBit Reg.PWE_STATUS Bit.PWE_STATUS_GATE_FULL with timers := [(.tripDecay, 0)] }, by and_intros <;> decide +kernel⟩,
   ⟨st fabC, .keeper, 0x5A, by and_intros <;> decide +kernel⟩,
   ⟨st fabC, .keeper, 0x5B, by and_intros <;> decide +kernel⟩,
   ⟨st (applC 31), .keeper, 0xA5, by and_intros <;> decide +kernel⟩,
   ⟨st (applC 0), .keeper, 0xA5, by and_intros <;> decide +kernel⟩,
   ⟨st fabC, .keeper, 0xA4, by and_intros <;> decide +kernel⟩⟩

theorem witness_FeedsPowerOnAndReset :
    (∃ s : State, ∃ f : Nat, (s.chip.pwr.standby = true) ∧ (f < 2) ∧ (s.chip.armed_ f = false)) ∧
    (∃ s : State, ∃ f : Nat, (s.chip.pwr.standby = true) ∧ (f < 2) ∧ (s.chip.kStage 0 = stIdle) ∧ (s.chip.kStage 1 = stIdle)) ∧
    (∃ s : State, ∃ f : Nat, (s.chip.pwr.standby = true) ∧ (f < 2) ∧ (s.chip.armed_ f = true) ∧ (s.chip.pwr.low.contains f = true)) ∧
    (∃ s : State, (s.chip.flag Reg.PWE_STATUS Bit.PWE_STATUS_WARN = true) ∧ (s.chip.pwr.warnHold ≤ s.chip.now)) ∧
    (∃ s : State, ∃ feed : Nat, (s.chip.pwr.standby = false) ∧ (feed < 2)) ∧
    (∃ s : State, (s.chip.pwr.standby = true)) ∧
    (∃ s : State, (s.chip.pwr.resetLow = false) ∧ (s.chip.pwr.standby = true)) ∧
    (∃ s : State, (s.chip.pwr.resetLow = true) ∧ (s.chip.pwr.standby = true)) :=
  ⟨⟨st fabC, 1, by and_intros <;> decide +kernel⟩,
   ⟨st fabC, 0, by and_intros <;> decide +kernel⟩,
   ⟨st { fabC.setBit Reg.PWE_STATUS (armedFld 1) with pwr := { fabC.pwr with low := [1] } }, 1, by and_intros <;> decide +kernel⟩,
   ⟨st (fabC.setBit Reg.PWE_STATUS Bit.PWE_STATUS_WARN), by and_intros <;> decide +kernel⟩,
   ⟨State.reset, 1, by and_intros <;> decide +kernel⟩,
   ⟨st fabC, by decide +kernel⟩,
   ⟨st fabC, by and_intros <;> decide +kernel⟩,
   ⟨st { fabC with pwr := { fabC.pwr with resetLow := true } }, by and_intros <;> decide +kernel⟩⟩

theorem witness_ClocksQualifyAndAreTrimmed :
    (∃ s : State, (s.chip.pwr.standby = true) ∧ (s.chip.flag Reg.CLK_STATUS Bit.CLK_STATUS_XTAL_OK = false) ∧
      (s.chip.pwr.lost.contains islLamp = false)) ∧
    (∃ s : State, (s.chip.due .crystal = true) ∧ (s.chip.flag Reg.CLK_STATUS Bit.CLK_STATUS_XTAL_OK = false)) ∧
    (∃ s : State, (s.chip.pwr.standby = true) ∧ (s.chip.flag Reg.CLK_STATUS Bit.CLK_STATUS_REFCLK_OK = false)) ∧
    (∃ c : Chip, ∃ ref : Nat, ∃ i, (ref < 2) ∧ (c.pwr.pgood = true) ∧ (c.pwr.resetLow = false) ∧ (i ≠ islLamp) ∧ (i < 83 ∨ 87 < i)) ∧
    (∃ c : Chip, ∃ ref : Nat, (ref < 2) ∧ (c.pwr.pgood = false ∨ c.pwr.resetLow = true)) ∧
    (∃ ref : Nat, ∃ o, (ref < 2) ∧ (o ≠ Reg.CLK_STATUS)) ∧
    (∃ s : State, (s.chip.flag Reg.CLK_STATUS Bit.CLK_STATUS_XTAL_OK = true)) ∧
    (∃ s : State, ∃ err : Int, (s.chip.pwr.standby = true) ∧ (s.chip.trimSource ≠ 0) ∧ (s.chip.trimSource < 4) ∧ (-2048 ≤ err) ∧ (err ≤ 2047) ∧
      (s.chip.flag Reg.IRO_TRIM Bit.IRO_TRIM_AUTO = true)) :=
  ⟨⟨st fabC, by and_intros <;> decide +kernel⟩,
   ⟨st { fabC with timers := [(.crystal, 0)] }, by and_intros <;> decide +kernel⟩,
   ⟨st fabC, by and_intros <;> decide +kernel⟩,
   ⟨fabC, 1, 82, by and_intros <;> decide +kernel⟩,
   ⟨{ fabC with pwr := { fabC.pwr with resetLow := true } }, 0, by and_intros <;> decide +kernel⟩,
   ⟨0, Reg.CLK_EVENT, by and_intros <;> decide +kernel⟩,
   ⟨st (fabC.setBit Reg.CLK_STATUS Bit.CLK_STATUS_XTAL_OK), by decide +kernel⟩,
   ⟨st ((fabC.setBit Reg.CLK_STATUS Bit.CLK_STATUS_XTAL_OK).setBit Reg.IRO_TRIM Bit.IRO_TRIM_AUTO), 2047, by and_intros <;> decide +kernel⟩⟩

theorem witness_PowerStatesFollowTheirCommands :
    (∃ s : State, ∃ st : Nat, ∃ x : OppSeq, (s.chip.oppOf st = some x) ∧ (x.rise = false ∨ x.newer = none ∨ x.newer = some x.target)) ∧
    (∃ s : State, ∃ st : Nat, ∃ x : OppSeq, ∃ t, (s.chip.oppOf st = some x) ∧ (x.rise = true) ∧ (x.newer = some t) ∧ (t ≠ x.target)) ∧
    (∃ s : State, ∃ st : Nat, ∃ x : OppSeq, (s.chip.oppOf st = some x) ∧ (s.chip.due (.opp st) = true)) ∧
    (∃ s : State, ∃ ag : Agent, (s.chip.reaches ag Reg.GLB_PWR_CTRL = true) ∧ (s.chip.pwrState ≤ 1) ∧ (s.chip.pwr.darkStep = 0) ∧
      (s.chip.pwrState = 0)) ∧
    (∃ s : State, ∃ ag : Agent, (s.chip.reaches ag Reg.GLB_PWR_CTRL = true) ∧ (s.chip.pwrState ≤ 1) ∧ (s.chip.pwr.darkStep = 0) ∧
      (s.chip.pwrState = 1)) ∧
    (∃ s : State, ∃ ag : Agent, (s.chip.reaches ag Reg.GLB_PWR_CTRL = true) ∧ (0 < s.chip.pwr.darkStep)) ∧
    (∃ s : State, ∃ i : Nat, (s.chip.mayGate i = true)) ∧
    (∃ s : State, ∃ i : Nat, (s.chip.pwr.gateReq.contains i = true) ∧ (s.chip.pwr.darkStep = 0) ∧ (64 ≤ i) ∧ (i < 80)) ∧
    (∃ s : State, ∃ i : Nat, (s.chip.pwr.gateReq.contains i = true) ∧ (s.chip.pwr.darkStep = 0) ∧ (i = 82)) ∧
    (∃ s : State, ∃ i : Nat, (s.chip.pwr.gateReq.contains i = true) ∧ (s.chip.pwr.darkStep = 0) ∧ (i < 64)) ∧
    (∃ s : State, ∃ i : Nat, (s.chip.pwr.gateReq = [i]) ∧ (s.chip.pwr.darkStep = 3)) ∧
    (∃ s : State, (s.chip.pwr.standby = true) ∧ (s.chip.flag Reg.WAKE_CTRL Bit.WAKE_CTRL_ALARM_ARMED = true) ∧
      (s.chip.pair Reg.WATCH_ALARM_LO Reg.WATCH_ALARM_HI ≤ s.chip.watchTime)) ∧
    (∃ s : State, (s.chip.wakeEnabled wakeAddr = true) ∧ (s.chip.pwr.restoreStep = 0) ∧ (s.chip.pwr.darkStep = 6)) ∧
    (∃ s : State, (s.chip.wakeEnabled wakeAddr = true) ∧ (s.chip.pwr.restoreStep = 0) ∧ (1 ≤ s.chip.pwr.darkStep) ∧ (s.chip.pwr.darkStep < 6)) ∧
    (∃ s : State, ∃ k : Nat, (s.chip.pwr.standby = true) ∧ (k < 2)) ∧
    (∃ s : State, ∃ k : Nat, (s.chip.pwr.standby = true) ∧ (k < 3)) ∧
    (∃ s : State, (1 ≤ s.chip.pwr.restoreStep) ∧ (s.chip.pwr.restoreStep < 4) ∧ (s.chip.pwr.resetStart = false ∨ s.chip.pwr.restoreStep < 3)) ∧
    (∃ s : State, (3 ≤ s.chip.pwr.restoreStep) ∧ (s.chip.pwr.resetStart = true)) ∧
    (∃ s : State, (4 ≤ s.chip.pwr.restoreStep) ∧ (s.chip.pwr.resetStart = false)) ∧
    (∃ s : State, (1 ≤ s.chip.pwr.restoreStep) ∧ (s.chip.due .restore = true)) :=
  ⟨⟨st { fabC with timers := [(.opp 3, 0)], pwr := { fabC.pwr with opp := [{ st := 3, target := 4, rise := true }] } }, 3, { st := 3, target := 4, rise := true }, by and_intros <;> decide +kernel⟩,
   ⟨st { fabC with pwr := { fabC.pwr with opp := [{ st := 3, target := 0, rise := true, newer := some 1 }] } }, 3,
     { st := 3, target := 0, rise := true, newer := some 1 }, 1, by and_intros <;> decide +kernel⟩,
   ⟨st { fabC with timers := [(.opp 3, 0)], pwr := { fabC.pwr with opp := [{ st := 3, target := 4, rise := true }] } }, 3,
     { st := 3, target := 4, rise := true }, by and_intros <;> decide +kernel⟩,
   ⟨st fabC, .keeper, by and_intros <;> decide +kernel⟩,
   ⟨st (fabC.setFld Reg.GLB_PWR_STATUS Bit.GLB_PWR_STATUS_STATE 1), .keeper, by and_intros <;> decide +kernel⟩,
   ⟨st { fabC with pwr := { fabC.pwr with darkStep := 3 } }, .keeper, by and_intros <;> decide +kernel⟩,
   ⟨st (fabC.setFld Reg.GATE_CTRL Bit.GATE_CTRL_STN_GATE_EN 0x8000), 79, by decide +kernel⟩,
   ⟨st { fabC with pwr := { fabC.pwr with gateReq := [79] } }, 79, by and_intros <;> decide +kernel⟩,
   ⟨st { fabC with pwr := { fabC.pwr with gateReq := [82] } }, 82, by and_intros <;> decide +kernel⟩,
   ⟨st { fabC with pwr := { fabC.pwr with gateReq := [63] } }, 63, by and_intros <;> decide +kernel⟩,
   ⟨st { fabC with pwr := { fabC.pwr with gateReq := [88], darkStep := 3 } }, 88, by and_intros <;> decide +kernel⟩,
   ⟨st ((fabC.setBit Reg.WAKE_CTRL Bit.WAKE_CTRL_ALARM_ARMED).setFld Reg.GLB_PWR_STATUS Bit.GLB_PWR_STATUS_STATE 2),
     by and_intros <;> decide +kernel⟩,
   ⟨st { fabC.wr Reg.WAKE_CTRL 0xFFFF with pwr := { fabC.pwr with darkStep := 6 } }, by and_intros <;> decide +kernel⟩,
   ⟨st { fabC.wr Reg.WAKE_CTRL 0xFFFF with pwr := { fabC.pwr with darkStep := 4 } }, by and_intros <;> decide +kernel⟩,
   ⟨st fabC, 1, by and_intros <;> decide +kernel⟩,
   ⟨st fabC, 2, by and_intros <;> decide +kernel⟩,
   ⟨st { fabC with pwr := { fabC.pwr with restoreStep := 1 } }, by and_intros <;> decide +kernel⟩,
   ⟨st { fabC with pwr := { fabC.pwr with restoreStep := 3, resetStart := true } }, by and_intros <;> decide +kernel⟩,
   ⟨st { fabC with pwr := { fabC.pwr with restoreStep := 4 } }, by and_intros <;> decide +kernel⟩,
   ⟨st { fabC with pwr := { fabC.pwr with restoreStep := 1 }, timers := [(.restore, 0)] }, by and_intros <;> decide +kernel⟩⟩

theorem witness_CollectorTakesSnapshots :
    (∃ s : State, ∃ ag : Agent, (s.chip.reaches ag Reg.COL_CTRL = true) ∧ (s.chip.flag Reg.COL_CTRL Bit.COL_CTRL_EN = false)) ∧
    (∃ s : State, (s.chip.flag Reg.COL_CTRL Bit.COL_CTRL_EN = true) ∧ (s.chip.due .collect = true)) ∧
    (∃ c : Chip, ∃ t : Nat, (c.timers.find? (fun e => decide (e.1 = .collect)) = some (.collect, t))) ∧
    (∃ s : State, ∃ ag : Agent, (s.chip.reaches ag Reg.SNAP_NOW = true) ∧ (s.chip.flag Reg.COL_CTRL Bit.COL_CTRL_EN = true)) ∧
    (∃ c : Chip, (c.flag Reg.COL_CTRL Bit.COL_CTRL_LOC = false) ∧ (c.dumpFree = true) ∧ (c.managerUp = true) ∧ (c.collectorRuns = true)) ∧
    (∃ c : Chip, (c.flag Reg.COL_CTRL Bit.COL_CTRL_LOC = false) ∧ (c.dumpFree = false)) ∧
    (∃ c : Chip, (c.flag Reg.COL_CTRL Bit.COL_CTRL_LOC = true) ∧ (c.collectorRuns = true) ∧
      (c.stagedBytes + ceilDiv c.dumpEntry.len 64 * 64 ≤ c.stageRoom)) ∧
    (∃ c : Chip, (c.flag Reg.COL_CTRL Bit.COL_CTRL_LOC = true) ∧ (c.collectorRuns = true) ∧
      (c.stageRoom < c.stagedBytes + ceilDiv c.dumpEntry.len 64 * 64)) ∧
    (∃ s : State, ∃ ag : Agent, (s.chip.reaches ag Reg.DUMP_RD = true)) ∧
    (∃ s : State, ∃ d : DumpEnt, ∃ ds : List DumpEnt, (s.chip.tel.staged = d :: ds) ∧ (s.chip.dumpFree = true) ∧ (s.chip.collectorRuns = true)) ∧
    (∃ s : State, ∃ ag : Agent, (s.chip.reaches ag Reg.SND_POP = true)) :=
  ⟨⟨st fabC, .keeper, by and_intros <;> decide +kernel⟩,
   ⟨st { colC with timers := [(.collect, 0)] }, by and_intros <;> decide +kernel⟩,
   ⟨{ colC with timers := [(.collect, 5)] }, 5, by decide +kernel⟩,
   ⟨st colC, .keeper, by and_intros <;> decide +kernel⟩,
   ⟨mgrC, by and_intros <;> decide +kernel⟩,
   ⟨fulC, by and_intros <;> decide +kernel⟩,
   ⟨((mgrC.setBit Reg.COL_CTRL Bit.COL_CTRL_LOC).setFld Reg.DUMP_CFG Bit.DUMP_CFG_STAGE_MIB 1), by and_intros <;> decide +kernel⟩,
   ⟨((mgrC.setBit Reg.COL_CTRL Bit.COL_CTRL_LOC).setFld Reg.DUMP_CFG Bit.DUMP_CFG_STAGE_MIB 0), by and_intros <;> decide +kernel⟩,
   ⟨st fabC, .keeper, by decide +kernel⟩,
   ⟨st { mgrC with tel := { mgrC.tel with staged := [dmpE] } }, dmpE, [], by and_intros <;> decide +kernel⟩,
   ⟨st fabC, .keeper, by decide +kernel⟩⟩

theorem witness_LogKeepsSummarisesAndFreezes :
    (∃ s : State, ∃ k : Nat, ∃ rest : List Nat, ∃ r : LogRec, (s.chip.tel.keepPend = k :: rest) ∧ (s.chip.keeperRuns = true) ∧
      (s.chip.due (.keep k) = true) ∧ (s.chip.flag Reg.LOG_CTRL Bit.LOG_CTRL_FREEZE = false) ∧ (s.chip.slotRec k = some r)) ∧
    (∃ s : State, (s.chip.keeperRuns = true) ∧ (s.chip.summaryDue = true) ∧ (s.chip.flag Reg.LOG_CTRL Bit.LOG_CTRL_FREEZE = false)) ∧
    (∃ s : State, ∃ ag : Agent, (s.chip.reaches ag Reg.LOG_CTRL = true) ∧ (s.chip.flag Reg.LOG_CTRL Bit.LOG_CTRL_FREEZE = false)) ∧
    (∃ s : State, ∃ ag : Agent, (s.chip.reaches ag Reg.LOG_CTRL = true) ∧ (s.chip.flag Reg.LOG_CTRL Bit.LOG_CTRL_FREEZE = true)) ∧
    (∃ s : State, (s.chip.due .freeze = true) ∧ (s.chip.flag Reg.LOG_CTRL Bit.LOG_CTRL_FREEZE = true)) ∧
    (∃ c : Chip, ∃ o, (c.flag Reg.LOG_CTRL Bit.LOG_CTRL_FREEZE = true) ∧ (o ≠ Reg.LOG_EVENT)) ∧
    (∃ s : State, (s.chip.flag Reg.LOG_CTRL Bit.LOG_CTRL_FREEZE = true)) :=
  ⟨⟨st { fabC with tel := { fabC.tel with keepPend := [0], recent := [recK] }, timers := [(.keep 0, 0)] }, 0, [], recK, by and_intros <;> decide +kernel⟩,
   ⟨st { fabC with watchUp := 4000 * sec }, by and_intros <;> decide +kernel⟩,
   ⟨st fabC, .keeper, by and_intros <;> decide +kernel⟩,
   ⟨st ((fabC.setBit Reg.LOG_CTRL Bit.LOG_CTRL_FREEZE).setFld Reg.LOG_CTRL Bit.LOG_CTRL_SUM_PERIOD 60), .keeper, by and_intros <;> decide +kernel⟩,
   ⟨st { (fabC.setBit Reg.LOG_CTRL Bit.LOG_CTRL_FREEZE).setFld Reg.LOG_CTRL Bit.LOG_CTRL_SUM_PERIOD 60 with timers := [(.freeze, 0)] },
     by and_intros <;> decide +kernel⟩,
   ⟨(fabC.setBit Reg.LOG_CTRL Bit.LOG_CTRL_FREEZE), Reg.KND_CTRL, by and_intros <;> decide +kernel⟩,
   ⟨st (fabC.setBit Reg.LOG_CTRL Bit.LOG_CTRL_FREEZE), by decide +kernel⟩⟩

theorem witness_LogReadLoadsItsRecord :
    (∃ s : State, ∃ ag : Agent, ∃ area : Nat, ∃ index : Nat, (s.chip.reaches ag Reg.LOG_RD_SEL = true) ∧ (area < 3) ∧ (index < 2 ^ 14)) ∧
    (∃ index : Nat, (index < 256)) ∧
    (∃ index : Nat, (256 ≤ index)) :=
  ⟨⟨st fabC, .keeper, 2, 0, by and_intros <;> decide +kernel⟩,
   ⟨255, by decide +kernel⟩,
   ⟨256, by decide +kernel⟩⟩

theorem witness_FlashStaysCanonical :
    ∃ s : State, ∃ t : State, (s.flashOk = true) ∧ (step s = .next t) :=
  by refine ⟨st upC, _, ?_, rfl⟩ <;> and_intros <;> decide +kernel

theorem witness_CommandsKeepTheQueueAndTheFlash :
    (∃ i : Instr, ∃ s : State, ∃ t : State, (exec i s = .next t)) ∧
    (∃ i : Instr, ∃ s : State, ∃ t : State, (i.mayProgram = false) ∧ (exec i s = .next t)) :=
  ⟨by refine ⟨.resetNFall, st upC, _, rfl⟩ <;> and_intros <;> decide +kernel,
   by refine ⟨.resetNFall, st upC, _, ?_, rfl⟩ <;> and_intros <;> decide +kernel⟩

theorem witness_PlainWriteTakesFieldsByType :
    (∃ c : Chip, ∃ off : Nat, ∃ row : RegRow, ∃ ix : List Nat, ∃ f, (regAt off = some (row, ix)) ∧ (row.pair = 0) ∧ (f ∈ row.fields) ∧
      (f.kind = .ro ∨ f.kind = .wo ∨ f.kind = .hook ∨ f.kind = .rwl ∧ c.blockLocked off = true)) ∧
    (∃ c : Chip, ∃ off : Nat, ∃ row : RegRow, ∃ ix : List Nat, ∃ f, (regAt off = some (row, ix)) ∧ (row.pair = 0) ∧ (f ∈ row.fields) ∧
      (f.kind = .rw ∨ f.kind = .rwl ∧ c.blockLocked off = false)) ∧
    (∃ off : Nat, ∃ row : RegRow, ∃ ix : List Nat, ∃ f, (regAt off = some (row, ix)) ∧ (row.pair = 0) ∧ (f ∈ row.fields) ∧ (f.kind = .w1c)) ∧
    (∃ off : Nat, ∃ row : RegRow, ∃ ix : List Nat, ∃ f, (regAt off = some (row, ix)) ∧ (row.pair = 0) ∧ (f ∈ row.fields) ∧ (f.kind = .clr)) ∧
    (∃ off : Nat, ∃ row : RegRow, ∃ ix : List Nat, ∃ f, (regAt off = some (row, ix)) ∧ (row.pair = 0) ∧ (f ∈ row.fields) ∧ (f.kind = .set1)) ∧
    (∃ off : Nat, ∃ row : RegRow, ∃ ix : List Nat, ∃ o, (regAt off = some (row, ix)) ∧ (row.pair = 0) ∧ (o ≠ off) ∧ (o ≠ Reg.LOG_SEQ) ∧
      (o ≠ Reg.LOG_STATUS) ∧ (o ≠ Reg.LOG_EVENT)) :=
  ⟨by refine ⟨upC, Reg.GLB_ID, _, _, _, rfl, ?_, List.mem_cons_self, .inl rfl⟩ <;> and_intros <;> decide +kernel,
   by refine ⟨upC, Reg.OPP_DIM, _, _, _, rfl, ?_, List.mem_cons_self, .inl rfl⟩ <;> and_intros <;> decide +kernel,
   by refine ⟨0x10004, _, _, _, rfl, ?_, List.mem_cons_self, rfl⟩ <;> and_intros <;> decide +kernel,
   by refine ⟨0x80008, _, _, _, rfl, ?_, List.mem_cons_self, rfl⟩ <;> and_intros <;> decide +kernel,
   by refine ⟨Reg.GLB_LOCK, _, _, _, rfl, ?_, List.mem_cons_self, rfl⟩ <;> and_intros <;> decide +kernel,
   by refine ⟨Reg.OPP_DIM, _, _, 0, rfl, ?_⟩ <;> and_intros <;> decide +kernel⟩

theorem witness_PairTakesEffectOnHi :
    (∃ off : Nat, ∃ lo : RegRow, ∃ hi : RegRow, ∃ i : List Nat, ∃ j : List Nat, ∃ f, (regAt off = some (lo, i)) ∧ (lo.pair = 1) ∧
      (regAt (off + 4) = some (hi, j)) ∧ (hi.pair = 2) ∧ (∀ f ∈ lo.fields, f.kind = .rw ∧ f.mn = 0 ∧ f.mx = fldMax ⟨f.hi, f.lo⟩) ∧
      (∀ f ∈ hi.fields, f.kind = .rw ∧ f.mn = 0 ∧ f.mx = fldMax ⟨f.hi, f.lo⟩) ∧ (f ∈ lo.fields)) ∧
    (∃ off : Nat, ∃ lo : RegRow, ∃ hi : RegRow, ∃ i : List Nat, ∃ j : List Nat, ∃ f, (regAt off = some (lo, i)) ∧ (lo.pair = 1) ∧
      (regAt (off + 4) = some (hi, j)) ∧ (hi.pair = 2) ∧ (∀ f ∈ lo.fields, f.kind = .rw ∧ f.mn = 0 ∧ f.mx = fldMax ⟨f.hi, f.lo⟩) ∧
      (∀ f ∈ hi.fields, f.kind = .rw ∧ f.mn = 0 ∧ f.mx = fldMax ⟨f.hi, f.lo⟩) ∧ (f ∈ hi.fields)) ∧
    (∃ off : Nat, ∃ lo : RegRow, ∃ hi : RegRow, ∃ i : List Nat, ∃ j : List Nat, ∃ o, (regAt off = some (lo, i)) ∧ (lo.pair = 1) ∧
      (regAt (off + 4) = some (hi, j)) ∧ (hi.pair = 2) ∧ (∀ f ∈ lo.fields, f.kind = .rw ∧ f.mn = 0 ∧ f.mx = fldMax ⟨f.hi, f.lo⟩) ∧
      (∀ f ∈ hi.fields, f.kind = .rw ∧ f.mn = 0 ∧ f.mx = fldMax ⟨f.hi, f.lo⟩) ∧ (o ≠ off) ∧ (o ≠ off + 4)) :=
  ⟨by refine ⟨Reg.WATCH_ALARM_LO, _, _, _, _, _, rfl, ?_, rfl, ?_, ?_, ?_, List.mem_cons_self⟩ <;> and_intros <;> decide +kernel,
   by refine ⟨Reg.WATCH_ALARM_LO, _, _, _, _, _, rfl, ?_, rfl, ?_, ?_, ?_, List.mem_cons_self⟩ <;> and_intros <;> decide +kernel,
   by refine ⟨Reg.WATCH_ALARM_LO, _, _, _, _, 0, rfl, ?_, rfl, ?_⟩ <;> and_intros <;> decide +kernel⟩

theorem witness_NewestRecordAbsorbsItsRepeats :
    (∃ c : Chip, ∃ n : LogRec, ∃ r : LogRec, ∃ rest : List LogRec, (c.tel.recent = n :: rest) ∧ (n.kind = 0) ∧ (n.code = r.code) ∧
      (n.source = r.source) ∧ (n.key = r.key) ∧ (n.rep < 65535)) ∧
    (∃ c : Chip, ∃ n : LogRec, ∃ r : LogRec, ∃ rest : List LogRec, (c.tel.recent = n :: rest) ∧
      (n.kind ≠ 0 ∨ n.code ≠ r.code ∨ n.source ≠ r.source ∨ n.key ≠ r.key ∨ 65535 ≤ n.rep)) :=
  ⟨by refine ⟨{ upC with tel := { recent := [{ code := .linkUp, rep := 65534 }] } }, { code := .linkUp, rep := 65534 }, { code := .linkUp }, [], rfl, ?_, rfl, rfl, rfl, by decide⟩ <;> and_intros <;> decide +kernel,
   by refine ⟨{ upC with tel := { recent := [{ code := .linkUp, rep := 65535 }] } }, { code := .linkUp, rep := 65535 }, { code := .linkUp }, [], rfl,
     ?_⟩ <;> and_intros <;> decide +kernel⟩

theorem witness_HostWritesOutsideItsViewChangeNothing :
    ∃ s : State, ∃ t : State, ∃ v : Nat, ∃ off : Nat, ∃ value : Nat, ∃ o, (s.chip.isManager v = false) ∧ (s.chip.sees (.vsi v) off ≠ .full) ∧
      (exec (.registerWrite (.vsi v) off value) s = .next t) ∧ (o ≠ Reg.LOG_SEQ) ∧ (o ≠ Reg.LOG_STATUS) ∧ (o ≠ Reg.LOG_EVENT) ∧ (o ≠ Reg.KPR_EVENT) :=
  by refine ⟨st upC, _, 3, Reg.RT_COMMIT, 1, 0, ?_, ?_, rfl, ?_⟩ <;> and_intros <;> decide +kernel

theorem witness_DataFlitsBySequence :
    (∃ c : Chip, ∃ p : Nat, ∃ f : Flit, (f.seq = (c.span p).rxE) ∧ (f.null = false) ∧ (f.payload = [])) ∧
    (∃ c : Chip, ∃ p : Nat, ∃ f : Flit, (f.seq ≠ (c.span p).rxE) ∧ (behind16 f.seq (c.span p).rxE = true)) ∧
    (∃ c : Chip, ∃ p : Nat, ∃ f : Flit, (f.seq ≠ (c.span p).rxE) ∧ (behind16 f.seq (c.span p).rxE = false)) :=
  ⟨⟨fabC, 2, { seq := 0 }, by and_intros <;> decide +kernel⟩,
   ⟨fabC, 2, { seq := 65535 }, by and_intros <;> decide +kernel⟩,
   ⟨fabC, 2, { seq := 1 }, by and_intros <;> decide +kernel⟩⟩

theorem witness_StreamMessagesChangeTheirStream :
    (∃ c : Chip, ∃ src : Nat, ∃ tc : Nat, ∃ dest : Nat, ∃ epoch : Nat, ∃ x : IStream, ∃ a, ∃ b, ∃ d, (c.stream src tc dest = some x) ∧
      (x.failed = false) ∧ (x.epoch = epoch) ∧ ((a, b, d) ≠ (src, tc, dest))) ∧
    (∃ c : Chip, ∃ src : Nat, ∃ tc : Nat, ∃ dest : Nat, ∃ epoch : Nat, ∃ x : IStream, ∃ o, (c.stream src tc dest = some x) ∧ (x.failed = false) ∧
      (x.epoch = epoch) ∧ (o ≠ Reg.MOR_EVENT)) ∧
    (∃ c : Chip, ∃ src : Nat, ∃ tc : Nat, ∃ dest : Nat, ∃ epoch : Nat, ∃ n : Nat, ∃ x : IStream, (c.stream src tc dest = some x) ∧
      (x.failed = false) ∧ (x.epoch = epoch) ∧ (x.held < modSub 65536 (n + 1) x.low) ∧ (modSub 65536 (n + 1) x.low ≤ 32767)) ∧
    (∃ c : Chip, ∃ src : Nat, ∃ tc : Nat, ∃ dest : Nat, ∃ epoch : Nat, ∃ n : Nat, ∃ x : IStream, (c.stream src tc dest = some x) ∧
      (x.failed = false) ∧ (x.epoch = epoch) ∧ (x.held < modSub 65536 (n + 1) x.low) ∧ (32767 < modSub 65536 (n + 1) x.low)) ∧
    (∃ c : Chip, ∃ src : Nat, ∃ tc : Nat, ∃ dest : Nat, ∃ epoch : Nat, ∃ x : IStream, (c.stream src tc dest = some x) ∧ (x.failed = false) ∧
      (x.epoch ≠ epoch)) :=
  ⟨by refine ⟨copyC .held strm, 280, 0, 648, 1, strm, 281, 0, 648, rfl, ?_⟩ <;> and_intros <;> decide +kernel,
   by refine ⟨copyC .held strm, 280, 0, 648, 1, strm, 0, rfl, ?_⟩ <;> and_intros <;> decide +kernel,
   by refine ⟨copyC .held strm, 280, 0, 648, 1, 32766, strm, rfl, ?_⟩ <;> and_intros <;> decide +kernel,
   by refine ⟨copyC .held strm, 280, 0, 648, 1, 32767, strm, rfl, ?_⟩ <;> and_intros <;> decide +kernel,
   by refine ⟨copyC .held strm, 280, 0, 648, 2, strm, rfl, ?_⟩ <;> and_intros <;> decide +kernel⟩

theorem witness_CommitsOfAnotherGenerationAreRejected :
    (∃ s : State, ∃ ag : Agent, ∃ st : Nat, ∃ gen : Nat, (s.chip.reaches ag (Reg.QUOTA_COMMIT st) = true) ∧
      (gen ≠ (s.chip.openGate (Reg.QUOTA_COMMIT st)).nextGen (Reg.QUOTA_ACTIVE_GEN st))) ∧
    (∃ s : State, ∃ ag : Agent, ∃ st : Nat, ∃ gen : Nat, (s.chip.reaches ag (Reg.STN_MC_COMMIT st) = true) ∧
      (gen ≠ (s.chip.openGate (Reg.STN_MC_COMMIT st)).nextGen (Reg.STN_MC_ACTIVE_GEN st))) ∧
    (∃ s : State, ∃ ag : Agent, ∃ gen : Nat, (s.chip.reaches ag Reg.TWR_MC_COMMIT = true) ∧ (gen ≠ s.chip.nextGen Reg.TWR_MC_ACTIVE_GEN)) ∧
    (∃ s : State, ∃ ag : Agent, ∃ p : Nat, ∃ gen : Nat, (s.chip.reaches ag (Reg.POOL_COMMIT p) = true) ∧
      (gen ≠ (s.chip.openGate (Reg.POOL_COMMIT p)).nextGen (Reg.POOL_ACTIVE_GEN p))) ∧
    (∃ s : State, ∃ ag : Agent, ∃ gen : Nat, (s.chip.reaches ag Reg.RT_COMMIT = true) ∧ (gen ≠ s.chip.nextGen Reg.RT_ACTIVE_GEN)) ∧
    (∃ s : State, ∃ ag : Agent, ∃ gen : Nat, (s.chip.reaches ag Reg.WIN_COMMIT = true) ∧ (gen ≠ s.chip.nextGen Reg.WIN_ACTIVE_GEN)) ∧
    (∃ s : State, ∃ ag : Agent, ∃ gen : Nat, (s.chip.reaches ag Reg.FMC_COMMIT = true) ∧ (gen ≠ s.chip.nextGen Reg.FMC_ACTIVE_GEN)) ∧
    (∃ s : State, ∃ ag : Agent, ∃ gen : Nat, (s.chip.reaches ag Reg.SEC_COMMIT = true) ∧ (gen ≠ s.chip.nextGen Reg.SEC_ACTIVE_GEN)) ∧
    (∃ s : State, ∃ ag : Agent, ∃ gen : Nat, (s.chip.reaches ag Reg.SCH_COMMIT = true) ∧ (gen ≠ s.chip.nextGen Reg.SCH_ACTIVE_GEN)) :=
  ⟨⟨st fabC, .keeper, 15, 0, by and_intros <;> decide +kernel⟩,
   ⟨st fabC, .keeper, 15, 2, by and_intros <;> decide +kernel⟩,
   ⟨st fabC, .keeper, 0, by and_intros <;> decide +kernel⟩,
   ⟨st fabC, .keeper, 127, 0, by and_intros <;> decide +kernel⟩,
   ⟨st fabC, .vsi 0, 2, by and_intros <;> decide +kernel⟩,
   ⟨st fabC, .vsi 0, 2, by and_intros <;> decide +kernel⟩,
   ⟨st fabC, .vsi 0, 0, by and_intros <;> decide +kernel⟩,
   ⟨st fabC, .mgmt 0, 0, by and_intros <;> decide +kernel⟩,
   ⟨st fabC, .mgmt 0, 0, by and_intros <;> decide +kernel⟩⟩

theorem witness_FailedBindChangesNothing :
    ∃ s : State, ∃ h : KHead, ∃ v : Nat, ∃ vbr : Nat, ∃ kind : Nat, ∃ target : Nat, ∃ prid : Nat, ∃ devfn : Nat, ∃ peer : Nat,
      ∃ wins : List (Nat × Nat), ∃ bars : List (Nat × Nat × Nat), ∃ fn : FnInfo, ∃ a : KAns,
      (s.chip.admitsK h (.bind v vbr kind target prid devfn peer wins bars fn) = true) ∧ (s.chip.kpr.busy = none) ∧ (kind = 2 ∨ kind = 3) ∧
      (s.chip.bindFault (kBindFn v vbr kind target prid devfn peer wins bars fn).placed = some a) ∧
      (a.status = stOwned → s.chip.faHere target = true → s.chip.fnInFlr (faPort target) prid = false) :=
  by refine ⟨st ringC, {}, 63, 0, 2, 648, 0x100, 0, 3, [], [], {}, _, ?_, ?_, ?_, rfl, ?_⟩ <;> and_intros <;> decide +kernel

theorem witness_CompletedCommandsLeaveARecord :
    (∃ s : State, ∃ h : KHead, ∃ k : KCmd, (h.mctp = false) ∧ (s.chip.crOn = false) ∧ (k ≠ .imageActivate)) ∧
    (∃ s : State, ∃ h : KHead, ∃ k : KCmd, (h.mctp = false) ∧ (h.intr = false) ∧ (s.chip.crOn = true) ∧ (s.chip.kpr.noRecord = false) ∧
      (s.chip.managerLink = true) ∧ (k ≠ .imageActivate)) ∧
    (∃ h : KHead, ∃ k : KCmd, (h.mctp = true) ∧ (k ≠ .imageActivate)) :=
  ⟨⟨st fabC, {}, .nop, by and_intros <;> decide +kernel⟩,
   ⟨st ringC, {}, .nop, by and_intros <;> decide +kernel⟩,
   ⟨{ mctp := true }, .imageAccept, by and_intros <;> decide +kernel⟩⟩

theorem witness_TripOpensTheFet :
    ∃ cause : Nat, ∃ point : Nat, (1 ≤ cause) ∧ (cause ≤ 6) ∧ (point < 8) :=
  ⟨6, 7, by and_intros <;> decide +kernel⟩

end Sys2Proof.Tests
end

section
/-!
PROOFS. The register bus (chapter 00, R14 to R18, and R379, R513, R514): what one written field takes, what a written word makes
of its register and of a pair, and where a write access ends.
-/
namespace Sys2Proof.Machine

/-! ## The register directory -/

/-- The bits of a field. -/
abbrev FieldRow.place (f : FieldRow) : Fld := ⟨f.hi, f.lo⟩

/-- Two fields share no bit. -/
abbrev FieldRow.apart (f g : FieldRow) : Prop := f.hi < g.lo ∨ g.hi < f.lo

/-- The fields of a register lie in its 32 bits. -/
abbrev fieldsFit (fs : List FieldRow) : Prop := ∀ f ∈ fs, f.lo ≤ f.hi ∧ f.hi < 32

theorem findRow_mem {rows : List RegRow} {off : Nat} {row : RegRow} {ix : List Nat} (h : findRow rows off = some (row, ix)) :
    row ∈ rows := by
  induction rows with
  | nil => simp [findRow] at h
  | cons r rows ih =>
    unfold findRow at h
    split at h
    · split at h
      · cases h; exact List.mem_cons_self
      · exact List.mem_cons_of_mem _ (ih h)
    · exact List.mem_cons_of_mem _ (ih h)

/-- The fields of a row lie in the word, no two of them on one bit. -/
def RegRow.fieldsOk (row : RegRow) : Bool :=
  decide (fieldsFit row.fields ∧ row.fields.Pairwise FieldRow.apart)

theorem rowsAt_fieldsOk (off : Nat) : (rowsAt off).all RegRow.fieldsOk = true := by
  unfold rowsAt
  repeat' apply iteInduction (motive := fun rows => List.all rows RegRow.fieldsOk = true) <;> intro
  all_goals decide +kernel

theorem regAt_fields {off : Nat} {row : RegRow} {ix : List Nat} (h : regAt off = some (row, ix)) :
    fieldsFit row.fields ∧ row.fields.Pairwise FieldRow.apart :=
  of_decide_eq_true (List.all_eq_true.mp (rowsAt_fieldsOk off) row (findRow_mem h))

/-- A field of the register at an offset is of type RWL. -/
def rwlAt (off : Nat) : Bool :=
  match regAt off with
  | some (row, _) => row.fields.any (fun f => f.kind == .rwl)
  | none => false

theorem rwlAt_of_mem {off : Nat} {row : RegRow} {ix : List Nat} {f : FieldRow} (h : regAt off = some (row, ix))
    (hf : f ∈ row.fields) (hk : f.kind = .rwl) : rwlAt off = true := by
  simpa [rwlAt, h] using ⟨f, hf, hk⟩

/-- No LOCK bit lies in a register with RWL fields. -/
theorem ne_lock_of_rwlAt {off : Nat} (h : rwlAt off = true) : off ≠ Reg.GLB_LOCK ∧ off ≠ Reg.SAF_CTRL := by
  constructor <;> rintro rfl <;> revert h <;> decide +kernel

/-- The registers whose writes LOCK can record hold nothing of the log. -/
theorem not_isLogReg_of_lockable {off : Nat} (h : rwlAt off = true ∨ off = Reg.SAF_CTRL) : ¬ isLogReg off := by
  rintro (rfl | rfl | rfl) <;> revert h <;> decide +kernel

theorem ne_safCtrl_of_pair {off : Nat} {row : RegRow} {ix : List Nat} (h : regAt off = some (row, ix)) (hp : row.pair ≠ 0) :
    off ≠ Reg.SAF_CTRL := by
  rintro rfl
  have h0 : pairAt Reg.SAF_CTRL = 0 := by decide +kernel
  exact hp (by simpa [pairAt, h] using h0)

/-! ## One field of a written word (Table 0.4) -/

/-- What a field holds after a write of `v` over `old`. -/
def FieldRow.taken (f : FieldRow) (locked : Bool) (old v : Nat) : Nat :=
  let ranged := if f.mn ≤ v ∧ v ≤ f.mx then v else old
  match f.kind with
  | .ro => old
  | .wo => old
  | .hook => old
  | .rw => ranged
  | .rwl => if locked then old else ranged
  | .w1c => old - (old &&& v)
  | .clr => if v = 0 then old else 0
  | .set1 => if v = 1 then 1 else old

/-- LOCK matters to an RWL field alone. -/
theorem FieldRow.taken_lock_irrel (f : FieldRow) (a b : Bool) (old v : Nat) (h : f.kind = .rwl → a = b) :
    f.taken a old v = f.taken b old v := by
  unfold FieldRow.taken
  cases hk : f.kind with
  | rwl => rw [h hk]
  | ro | rw | w1c | clr | wo | set1 | hook => rfl

/-- Everything that a written word can do to one field: nothing, or the field takes its new value, which fits it. -/
theorem Chip.writeField_cases (c : Chip) (off : Nat) (w : Word) (f : FieldRow) (hf : f.lo ≤ f.hi) :
    let v := f.taken (c.blockLocked off) (c.fld off f.place) (getF w f.place)
    (c.writeField off w f = c ∧ v = c.fld off f.place) ∨
    (c.writeField off w f = c.setFld off f.place v ∧ v < 2 ^ (f.hi + 1 - f.lo)) := by
  have hold : c.fld off f.place < 2 ^ (f.hi + 1 - f.lo) := getF_lt _ _
  have hnew : getF w f.place < 2 ^ (f.hi + 1 - f.lo) := getF_lt _ _
  have hone : 1 < 2 ^ (f.hi + 1 - f.lo) := Nat.one_lt_two_pow (by omega)
  cases hk : f.kind with
  | ro | wo | hook => exact .inl (by simp [Chip.writeField, FieldRow.taken, hk])
  | rw =>
    by_cases hr : f.mn ≤ getF w f.place ∧ getF w f.place ≤ f.mx
    · exact .inr (by simp [Chip.writeField, FieldRow.taken, hk, hr, hnew])
    · exact .inl (by simp [Chip.writeField, FieldRow.taken, hk, hr])
  | rwl =>
    cases hl : c.blockLocked off
    · by_cases hr : f.mn ≤ getF w f.place ∧ getF w f.place ≤ f.mx
      · exact .inr (by simp [Chip.writeField, FieldRow.taken, hk, hl, hr, hnew])
      · exact .inl (by simp [Chip.writeField, FieldRow.taken, hk, hl, hr])
    · exact .inl (by simp [Chip.writeField, FieldRow.taken, hk, hl])
  | w1c => exact .inr ⟨by simp [Chip.writeField, FieldRow.taken, hk], by simp only [FieldRow.taken, hk]; omega⟩
  | clr =>
    by_cases hv : getF w f.place = 0
    · exact .inl (by simp [Chip.writeField, FieldRow.taken, hk, hv])
    · exact .inr (by simp [Chip.writeField, FieldRow.taken, hk, hv, Chip.clrFld])
  | set1 =>
    by_cases hv : getF w f.place = 1
    · exact .inr (by simp [Chip.writeField, FieldRow.taken, hk, hv, Chip.setBit, hone])
    · exact .inl (by simp [Chip.writeField, FieldRow.taken, hk, hv])

section Field
variable (c : Chip) (off : Nat) (w : Word) (f : FieldRow)

theorem Chip.fld_writeField_same (hf : f.lo ≤ f.hi) (hw : f.hi < 32) : (c.writeField off w f).fld off f.place =
    f.taken (c.blockLocked off) (c.fld off f.place) (getF w f.place) := by
  obtain ⟨h, hv⟩ | ⟨h, hv⟩ := c.writeField_cases off w f hf
  · rw [h, hv]
  · rw [h, Chip.fld_setFld_same c off _ _ hw, Nat.mod_eq_of_lt hv]

theorem Chip.fld_writeField_apart (hf : f.lo ≤ f.hi) {g : FieldRow} (hg : g.hi < 32) (h : f.apart g) :
    (c.writeField off w f).fld off g.place = c.fld off g.place := by
  obtain ⟨e, -⟩ | ⟨e, -⟩ := c.writeField_cases off w f hf
  · rw [e]
  · rw [e, Chip.fld_setFld_otherField c off _ _ _ hg h.symm]

theorem Chip.rd_writeField_other (hf : f.lo ≤ f.hi) {o : Nat} (h : o ≠ off) : (c.writeField off w f).rd o = c.rd o := by
  obtain ⟨e, -⟩ | ⟨e, -⟩ := c.writeField_cases off w f hf
  · rw [e]
  · rw [e, Chip.rd_setFld_other c _ _ h]

end Field

/-- The LOCK bits lie in two registers. -/
theorem Chip.blockLocked_congr {a b : Chip} (off : Nat) (hg : a.rd Reg.GLB_LOCK = b.rd Reg.GLB_LOCK)
    (hs : a.rd Reg.SAF_CTRL = b.rd Reg.SAF_CTRL) : a.blockLocked off = b.blockLocked off := by
  simp only [Chip.blockLocked, Chip.flag, Chip.fld, hg, hs]

/-! ## The fields of a written word -/

section Fields
variable (off : Nat) (w : Word)

theorem Chip.rd_writeFields_other {o : Nat} (h : o ≠ off) :
    ∀ (fs : List FieldRow) (c : Chip), fieldsFit fs → (c.writeFields off w fs).rd o = c.rd o
  | [], _, _ => rfl
  | f :: fs, c, hfit => by
    have hf := (hfit f List.mem_cons_self).1
    have ih := Chip.rd_writeFields_other h fs (c.writeField off w f) (fun g hg => hfit g (List.mem_cons_of_mem _ hg))
    exact ih.trans (c.rd_writeField_other off w f hf h)

theorem Chip.fld_writeFields_apart {g : FieldRow} (hg : g.hi < 32) :
    ∀ (fs : List FieldRow) (c : Chip), fieldsFit fs → (∀ f ∈ fs, g.apart f) →
      (c.writeFields off w fs).fld off g.place = c.fld off g.place
  | [], _, _, _ => rfl
  | f :: fs, c, hfit, hap => by
    have hf := (hfit f List.mem_cons_self).1
    have ih := Chip.fld_writeFields_apart hg fs (c.writeField off w f) (fun x hx => hfit x (List.mem_cons_of_mem _ hx))
      (fun x hx => hap x (List.mem_cons_of_mem _ hx))
    exact ih.trans (c.fld_writeField_apart off w f hf hg (hap f List.mem_cons_self).symm)

/-- Each field of a written word takes its value as if it were written alone: the fields share no bit, and no LOCK bit that
counts for one of them is another of them. -/
theorem Chip.fld_writeFields {f : FieldRow} (hlock : f.kind = .rwl → off ≠ Reg.GLB_LOCK ∧ off ≠ Reg.SAF_CTRL) :
    ∀ (fs : List FieldRow) (c : Chip), fieldsFit fs → fs.Pairwise FieldRow.apart → f ∈ fs →
      (c.writeFields off w fs).fld off f.place = f.taken (c.blockLocked off) (c.fld off f.place) (getF w f.place)
  | [], _, _, _, hm => absurd hm List.not_mem_nil
  | g :: fs, c, hfit, hap, hm => by
    obtain ⟨hg, hgw⟩ := hfit g List.mem_cons_self
    obtain ⟨hgap, hap⟩ := List.pairwise_cons.mp hap
    have hfit' : fieldsFit fs := fun x hx => hfit x (List.mem_cons_of_mem _ hx)
    obtain rfl | hm := List.mem_cons.mp hm
    · exact (Chip.fld_writeFields_apart off w hgw fs _ hfit' hgap).trans (c.fld_writeField_same off w f hg hgw)
    · have ih := Chip.fld_writeFields hlock fs (c.writeField off w g) hfit' hap hm
      rw [c.fld_writeField_apart off w g hg (hfit' f hm).2 (hgap f hm)] at ih
      refine ih.trans (f.taken_lock_irrel _ _ _ _ fun hk => ?_)
      obtain ⟨h1, h2⟩ := hlock hk
      exact Chip.blockLocked_congr off (c.rd_writeField_other off w g hg h1.symm) (c.rd_writeField_other off w g hg h2.symm)

end Fields

/-! ## The plain write (R15, R17, R18) -/

/-- A field of full range takes every value. -/
theorem FieldRow.taken_full {f : FieldRow} (hk : f.kind = .rw) (hmn : f.mn = 0) (hmx : f.mx = fldMax f.place) (locked : Bool)
    (old : Nat) (w : Word) : f.taken locked old (getF w f.place) = getF w f.place := by
  simp [FieldRow.taken, hk, hmn, hmx, getF_le_fldMax]

/-- A register of full-range fields holds in them what was written. -/
theorem Chip.fld_writeFields_full {off : Nat} {row : RegRow} {ix : List Nat} (h : regAt off = some (row, ix))
    (hrw : ∀ f ∈ row.fields, f.kind = .rw ∧ f.mn = 0 ∧ f.mx = fldMax f.place) (c : Chip) (w : Word) :
    ∀ f ∈ row.fields, (c.writeFields off w row.fields).fld off f.place = getF w f.place := by
  intro f hf
  obtain ⟨hk, hmn, hmx⟩ := hrw f hf
  obtain ⟨hfit, hap⟩ := regAt_fields h
  rw [Chip.fld_writeFields off w (by simp [hk]) _ c hfit hap hf, FieldRow.taken_full hk hmn hmx]

section PlainWrite
variable (c : Chip) (ag : Agent) {off : Nat} {row : RegRow} {ix : List Nat} (w : Word)

/-- A register that is no half of a pair takes the fields of the word; LOCK adds at most a record to the Keeper's Log. -/
theorem Chip.plainWrite_single_sameButLog (hp : row.pair = 0) :
    (c.writeFields off w row.fields).SameButLog (c.plainWrite ag off row w) := by
  simp only [Chip.plainWrite, hp, Nat.zero_ne_one, OfNat.zero_ne_ofNat, if_false]
  split
  · exact .log _ _ _ _
  · exact .refl _

/-- The record of a write that met LOCK does not touch the register written. -/
theorem Chip.rd_plainWrite_single_self (h : regAt off = some (row, ix)) (hp : row.pair = 0) :
    (c.plainWrite ag off row w).rd off = (c.writeFields off w row.fields).rd off := by
  by_cases hl : isLogReg off
  · have hn : ¬ (rwlAt off = true ∨ off = Reg.SAF_CTRL) := fun h => not_isLogReg_of_lockable h hl
    have hu : (row.fields.any (fun f => f.kind == .rwl) || off == Reg.SAF_CTRL) = false := by
      simpa [rwlAt, h] using hn
    simp [Chip.plainWrite, hp, hu]
  · exact (c.plainWrite_single_sameButLog ag w hp).regs off hl

theorem Chip.fld_plainWrite_single (h : regAt off = some (row, ix)) (hp : row.pair = 0) {f : FieldRow} (hf : f ∈ row.fields) :
    (c.plainWrite ag off row w).fld off f.place = f.taken (c.blockLocked off) (c.fld off f.place) (getF w f.place) := by
  rw [Chip.fld, c.rd_plainWrite_single_self ag w h hp, ← Chip.fld]
  exact Chip.fld_writeFields off w (fun hk => ne_lock_of_rwlAt (rwlAt_of_mem h hf hk)) row.fields c (regAt_fields h).1
    (regAt_fields h).2 hf

theorem Chip.rd_plainWrite_single_other (h : regAt off = some (row, ix)) (hp : row.pair = 0) {o : Nat} (ho : o ≠ off)
    (hl : ¬ isLogReg o) : (c.plainWrite ag off row w).rd o = c.rd o :=
  ((c.plainWrite_single_sameButLog ag w hp).regs o hl).trans (Chip.rd_writeFields_other off w ho _ c (regAt_fields h).1)

theorem Chip.pendingLo_eq_get (lo : Nat) : c.pendingLo lo = SMap.get c.loPend lo (c.rd lo) := by
  unfold Chip.pendingLo SMap.get
  cases c.loPend.find? (fun e => e.1 == lo) <;> rfl

/-- A _LO waits for its _HI. -/
theorem Chip.plainWrite_lo (hp : row.pair = 1) :
    c.plainWrite ag off row w = { c with loPend := SMap.insert off w (c.loPend.erase off) } := by
  simp [Chip.plainWrite, hp]

theorem Chip.pendingLo_plainWrite_lo (hp : row.pair = 1) : (c.plainWrite ag off row w).pendingLo off = w := by
  rw [c.plainWrite_lo ag w hp, Chip.pendingLo_eq_get, SMap.get_insert _ _ _ _ _ (SMap.free_erase _ _), if_pos rfl]

/-- A _HI whose fields are all RW completes the pair with the _LO that waits. -/
theorem Chip.plainWrite_hi {lo : RegRow} {i : List Nat} (h : regAt (off + 4) = some (row, ix)) (hp : row.pair = 2)
    (hk : ∀ f ∈ row.fields, f.kind = .rw) (hlo : regAt off = some (lo, i)) : c.plainWrite ag (off + 4) row w =
      (c.writeFields off (c.pendingLo off) lo.fields).writeFields (off + 4) w row.fields := by
  have hs : off + 4 ≠ Reg.SAF_CTRL := ne_safCtrl_of_pair h (by omega)
  have hu : (row.fields.any (fun f => f.kind == .rwl) || off + 4 == Reg.SAF_CTRL) = false := by
    simpa [hs] using fun f hf => by simp [hk f hf]
  simp [Chip.plainWrite, hp, hlo, hu]

end PlainWrite

/-- Settles O8: the row's fields share no bit (the directory's table), so each takes its value as if it were written alone. -/
theorem plainWriteTakesFieldsByType : Obligations.PlainWriteTakesFieldsByType := by
  intro c ag off row ix w h hp
  refine ⟨fun f hf => ?_, fun o ho h1 h2 h3 => c.rd_plainWrite_single_other ag w h hp ho (by simp [isLogReg, *])⟩
  rw [c.fld_plainWrite_single ag w h hp hf]
  refine ⟨fun hk => ?_, fun hk => ?_, fun hk => ?_, fun hk => ?_, fun hk => ?_⟩
  · obtain hk | hk | hk | ⟨hk, hl⟩ := hk <;> simp [FieldRow.taken, *]
  · obtain hk | ⟨hk, hl⟩ := hk <;> simp [FieldRow.taken, *]
  all_goals simp [FieldRow.taken, hk]

/-- Settles O9: the second _LO write replaces the first, and the _HI write gives both halves their words. -/
theorem pairTakesEffectOnHi : Obligations.PairTakesEffectOnHi := by
  intro c a b g off lo hi i j v w h hlo hlop hhi hhip hlok hhik
  have hrd : ∀ o, ((c.plainWrite a off lo v).plainWrite b off lo w).rd o = c.rd o := fun o => by
    simp only [Chip.plainWrite_lo _ _ _ hlop]; rfl
  rw [Chip.plainWrite_hi _ g h hhi hhip (fun f hf => (hhik f hf).1) hlo, Chip.pendingLo_plainWrite_lo _ b w hlop]
  refine ⟨hrd, fun f hf => ?_, Chip.fld_writeFields_full hhi hhik _ h, fun o h1 h2 => ?_⟩
  · rw [Chip.fld, Chip.rd_writeFields_other _ h (by omega) _ _ (regAt_fields hhi).1, ← Chip.fld]
    exact Chip.fld_writeFields_full hlo hlok _ w f hf
  · rw [Chip.rd_writeFields_other _ h h2 _ _ (regAt_fields hhi).1, Chip.rd_writeFields_other _ w h1 _ _ (regAt_fields hlo).1, hrd]

/-! ## Where a write access ends (R14, R15, R379, R513, R514) -/

theorem exec_registerWrite (ag : Agent) (off value : Nat) (s : State) : exec (.registerWrite ag off value) s =
    .next (s.withChip (s.chip.busWriteW ag off (BitVec.ofNat 32 value)
      (fun c => c.regWrite s.logRecord ag off (BitVec.ofNat 32 value)))) := rfl

theorem exec_registerWrite_of_reaches (ag : Agent) (off value : Nat) (s : State) (h : s.chip.reaches ag off = true) :
    exec (.registerWrite ag off value) s =
      .next (s.withChip (((s.chip.openGate off).regWrite s.logRecord ag off (BitVec.ofNat 32 value)).emit (.regDone ag off))) := by
  rw [exec_registerWrite, Chip.busWriteW_of_reaches _ _ _ _ _ h]

/-- R513: an offset that holds no register ignores a write. -/
theorem Chip.regWrite_of_none (c : Chip) (rec : Nat → Nat → Option (List Nat)) (ag : Agent) {off : Nat} (w : Word)
    (h : regAt off = none) : c.regWrite rec ag off w = c := by
  simp [Chip.regWrite, h]

/-- The register's own rule, else the plain write. -/
theorem Chip.regWrite_of_some (c : Chip) (rec : Nat → Nat → Option (List Nat)) (ag : Agent) {off : Nat} (w : Word) {row : RegRow}
    {ix : List Nat} (h : regAt off = some (row, ix)) :
    c.regWrite rec ag off w = (c.ownRule rec ag off row w).getD (c.plainWrite ag off row w) := by
  simp [Chip.regWrite, h]

/-- R379: an access that meets a busy Keeper is counted and completes. -/
theorem Chip.busAccess_of_busy (c : Chip) {ag : Agent} (off : Nat) (w : Option Word) (act : Chip → Chip)
    (hr : c.busRuns ag = true) (hb : c.keeperBusy ag = true) : c.busAccess ag off w act = c.countBusy.emit (.regDone ag off) := by
  simp [Chip.busAccess, hr, hb]

/-- R514: a host's write outside its view is recorded and completes. -/
theorem Chip.busAccess_of_hidden (c : Chip) {v off : Nat} (w : Option Word) (act : Chip → Chip) (hr : c.busRuns (.vsi v) = true)
    (hb : c.keeperBusy (.vsi v) = false) (hm : c.isManager v = false) (hs : c.sees (.vsi v) off = .hidden) :
    c.busAccess (.vsi v) off w act = (c.log .viewWrite [v, off]).emit (.regDone (.vsi v) off) := by
  simp [Chip.busAccess, hr, hb, hm, hs]

/-- R21: a write waits at the crossing into an island in reset. -/
theorem Chip.busWriteW_of_held (c : Chip) {ag : Agent} {off : Nat} (w : Word) (act : Chip → Chip) (hr : c.busRuns ag = true)
    (hb : c.keeperBusy ag = false) (hs : c.sees ag off = .full) (hh : c.islandHeld off = true) :
    c.busWriteW ag off w act = c.holdAccess ag off (.write w) := by
  simp [Chip.busWriteW, Chip.busAccess, hr, hb, hs, hh]

/-- Settles O7: the ends of a bus access, and the register's own rule or the plain write where it reaches. -/
theorem registerWriteReachesItsRegister : Obligations.RegisterWriteReachesItsRegister := by
  refine ⟨fun s ag off value h hn => ?_, fun s ag off value row ix h hr ho => ?_, fun s ag off value row ix c h hr ho => ?_,
    fun s ag off value hr hb => ?_, fun s v off value hr hb hm hs => ?_, fun s ag off value hr hb hs hh => ?_⟩
  · rw [exec_registerWrite_of_reaches ag off value s h, Chip.regWrite_of_none _ _ ag _ hn]
  · rw [exec_registerWrite_of_reaches ag off value s h, Chip.regWrite_of_some _ _ ag _ hr, ho, Option.getD_none]
  · rw [exec_registerWrite_of_reaches ag off value s h, Chip.regWrite_of_some _ _ ag _ hr, ho, Option.getD_some]
  · rw [exec_registerWrite, Chip.busWriteW, Chip.busAccess_of_busy _ off _ _ hr hb]
  · rw [exec_registerWrite, Chip.busWriteW, Chip.busAccess_of_hidden _ _ _ hr hb hm hs]
  · rw [exec_registerWrite, Chip.busWriteW_of_held _ _ _ hr hb hs hh]

/-- The newest record after a log entry has the entry's code and key, whether it is new or absorbed the entry (R506). -/
theorem Chip.logNow_newest (c : Chip) (r : LogRec) :
    ∃ n rest, (c.logNow r).tel.recent = n :: rest ∧ n.code = r.code ∧ n.key = r.key := by
  have hadd : ∃ n rest, (c.addRec r).tel.recent = n :: rest ∧ n.code = r.code ∧ n.key = r.key := by
    unfold Chip.addRec
    dsimp only
    split <;> exact ⟨_, _, rfl, rfl, rfl⟩
  unfold Chip.logNow
  split
  · split
    · next hsame =>
      obtain ⟨-, hcode, -, hkey, -⟩ := hsame
      exact ⟨_, _, rfl, hcode, hkey⟩
    · exact hadd
  · exact hadd

/-- With the Keeper running and no freeze, a log entry is the newest record. -/
theorem Chip.log_newest (c : Chip) (code : LogCode) (key det : List Nat) (hk : c.keeperRuns = true)
    (hf : c.flag Reg.LOG_CTRL Bit.LOG_CTRL_FREEZE = false) :
    ∃ n rest, (c.log code key det).tel.recent = n :: rest ∧ n.code = code ∧ n.key = key := by
  have h : c.log code key det = c.logNow (c.mkRec code 90 key det) := by
    simp [Chip.log, Chip.logFrom, hk, hf]
  rw [h]
  exact c.logNow_newest _

theorem exec_regAccessBadSize (ag : Agent) (off size : Nat) (write : Bool) (s : State) :
    exec (.regAccessBadSize ag off size write) s = .next (s.withChip (s.chip.badSize ag off size write)) := rfl

/-- R14: an access of another size is its record and its answer. -/
theorem Chip.badSize_of_runs (c : Chip) {ag : Agent} (off : Nat) {size : Nat} (write : Bool) (hr : c.busRuns ag = true)
    (hb : c.keeperBusy ag = false) (hs : size ≠ 4) : c.badSize ag off size write =
      (c.log .accessSize [ag.num, off, size]).emit (if write then .regDone ag off else .regData ag off 0) := by
  simp [Chip.badSize, Chip.badAccess, hr, hb, hs]

/-- Settles O11: the access is its record and its answer, and the record is the log's newest. -/
theorem accessOfAnotherSizeHasNoEffect : Obligations.AccessOfAnotherSizeHasNoEffect := by
  intro s ag off size hr hb hs
  refine ⟨?_, ?_, fun o h1 h2 h3 => Chip.rd_log _ _ _ _ (by simp [isLogReg, *]), Chip.log_newest _ _ _ _⟩
  · rw [exec_regAccessBadSize, Chip.badSize_of_runs _ off true hr hb hs, if_pos rfl]
  · rw [exec_regAccessBadSize, Chip.badSize_of_runs _ off false hr hb hs, if_neg Bool.false_ne_true]

/-! ## A host outside its view (R514) -/

/-- What a write that does not reach its register leaves: all but the Keeper's Log, the count of busy accesses and its answer. -/
structure Chip.Untouched (ag : Agent) (off : Nat) (a b : Chip) : Prop where
  regs : ∀ o, ¬ isLogReg o → o ≠ Reg.KPR_EVENT → b.rd o = a.rd o
  out : b.out = a.out ∨ b.out = .regDone ag off :: a.out
  rest : { b with regs := a.regs, tel := a.tel, timers := a.timers, out := a.out } = a

theorem Chip.Untouched.refl (c : Chip) (ag : Agent) (off : Nat) : c.Untouched ag off c := ⟨fun _ _ _ => rfl, .inl rfl, rfl⟩

/-- A part of the chip that lies outside the log, the registers, the timers and the answers stands. -/
theorem Chip.Untouched.part {α : Type} {ag : Agent} {off : Nat} {a b : Chip} (h : a.Untouched ag off b) (p : Chip → α)
    (hp : p { b with regs := a.regs, tel := a.tel, timers := a.timers, out := a.out } = p b) : p b = p a :=
  hp.symm.trans (congrArg p h.rest)

/-- A log entry and a completion. -/
theorem Chip.Untouched.of_log {a b : Chip} (ag : Agent) (off : Nat) (h : a.SameButLog b) :
    a.Untouched ag off (b.emit (.regDone ag off)) where
  regs o ho _ := h.regs o ho
  out := .inr (congrArg (fun c : Chip => Out.regDone ag off :: c.out) h.rest :)
  rest := (congrArg (fun c : Chip => { c with out := a.out }) h.rest :)

/-- A count of KEEPER_BUSY_CNT and a completion. -/
theorem Chip.Untouched.of_busy (c : Chip) (ag : Agent) (off : Nat) : c.Untouched ag off (c.countBusy.emit (.regDone ag off)) where
  regs o _ ho := c.rd_satInc_other _ ho
  out := .inr (by simp [Chip.countBusy])
  rest := by unfold Chip.countBusy Chip.satInc; split <;> rfl

/-- A write access to a register that the agent's view does not show whole. -/
theorem Chip.Untouched.of_hidden (c : Chip) {ag : Agent} {off : Nat} (w : Option Word) (act : Chip → Chip)
    (h : c.sees ag off ≠ .full) : c.Untouched ag off (c.busAccess ag off w act) := by
  obtain ⟨-, e⟩ | ⟨-, -, e⟩ | ⟨-, -, hfull, -⟩ | ⟨-, -, -, e | ⟨v, rfl, e⟩⟩ := c.busAccess_cases ag off w act
  · rw [e]; exact .refl c ag off
  · rw [e]; exact .of_busy c ag off
  · exact absurd hfull h
  · rw [e]; exact .of_log ag off (.refl c)
  · rw [e]; exact .of_log _ off (.log c _ _ _)

/-- Settles O13, from what a write access does that its agent does not see whole. -/
theorem hostWritesOutsideItsViewChangeNothing : Obligations.HostWritesOutsideItsViewChangeNothing := by
  intro s t v off value _ hs ht
  rw [exec_registerWrite] at ht
  cases ht
  have h := Chip.Untouched.of_hidden s.chip (some (BitVec.ofNat 32 value))
    (fun c => c.regWrite s.logRecord (.vsi v) off (BitVec.ofNat 32 value)) hs
  exact ⟨fun o h1 h2 h3 h4 => h.regs o (by simp [isLogReg, *]) h4, h.part Chip.tabA rfl, h.part Chip.tabB rfl,
    h.part Chip.tabRef rfl, h.part Chip.counters rfl, h.out, h.part Chip.sw rfl, h.part Chip.pci rfl, h.part Chip.mor rfl,
    h.part Chip.vsi rfl, h.part Chip.rly rfl, h.part Chip.kpr rfl, h.part Chip.pwr rfl, rfl⟩

end Sys2Proof.Machine
end

section
/-!
PROOFS. Staging, the Tower and the arrival of its cells (chapters 01 and 02, R24, R36 to R61): one cell of a station's intake, one
CT of the Tower, and a cell at its output buffer.
-/
namespace Sys2Proof.Machine

/-! ## Staging (R24, R36 to R45) -/

theorem exec_packetStaged (st : Nat) (s : State) : exec (.packetStaged st) s = .next (s.withChip (s.chip.stage st)) := rfl

/-- What PACKET_STAGED finds at a station: no packet that has nowhere to go, and the replays of an up station fed in. -/
def Chip.stagingView (c : Chip) (st : Nat) : Chip :=
  let c := (c.dropNoTarget st).dropDown st
  if c.stUp st then c.feedReplay st else c

/-- The first source of the rotation with a cell's worth ready, and its packet (R24; where the rotation starts before a source was
served is the model's choice, log 185). -/
def Chip.rotationPick (c : Chip) (st : Nat) : Option (Nat × Pkt) :=
  ((List.range 10).map (fun i => (SMap.get c.sw.lastSrc st 9 + 1 + i) % 10)).findSome? (fun src =>
    (c.nextOf st src).bind (fun k => if k.fills 128 then some (src, k) else none))

/-- R24, R76: a station that sends, and that its clock lets ingest (the model's rate, log 154), stages a cell of the source that
the rotation picks. -/
theorem Chip.stage_of_pick (c : Chip) {st src : Nat} {k : Pkt} (hst : st < 16) (hs : c.stSends st = true) (hf : c.bootFog = false)
    (hi : c.ingestOf st < c.ingestRate st) (hp : (c.stagingView st).rotationPick st = some (src, k)) :
    c.stage st = (c.stagingView st).stageFrom st src k := by
  simp only [Chip.rotationPick, Chip.stagingView] at hp
  simp [Chip.stage, Chip.stagingView, hst, hs, hf, hi, hp]

/-! ## One CT of the Tower (R50 to R57) -/

theorem exec_towerMatchCycle (stalled : List Nat) (s : State) :
    exec (.towerMatchCycle stalled) s = .next (s.withChip (s.chip.towerCycle stalled).relayCt.ingestCts) := rfl

/-- R50: a Tower that runs sends, writes what was announced and matches the next CT on the predicted counts. -/
theorem Chip.towerCycle_of_runs (c : Chip) (stalled : List Nat) (hg : c.sw.g0 ≠ []) (hf : c.bootFog = false)
    (hc : c.clocked 80 = true) : c.towerCycle stalled =
      let d := (c.sw.matches_.foldl Chip.sendMatch { c with sw := { c.sw with matches_ := [] } }).writeAnnounced stalled
      d.matchNext (fun i q => if q = 16 then d.voqCount i 16
        else c.voqCount i q + c.annCount i q - (c.sw.matches_.filter (fun m => m.inp == i && m.out == q && !m.mc)).length) := by
  have hgo : ¬ (c.sw.g0.isEmpty || c.bootFog || !c.clocked 80) = true := by simp [hg, hf, hc]
  rw [Chip.towerCycle, if_neg hgo]
  dsimp only
  congr 1
  funext i q
  by_cases hq : q = 16 <;> simp [hq]

/-! ## Arrival in an output buffer (R38, R60, R61) -/

theorem exec_cellArrivalOb (st : Nat) (tagOk : Bool) (s : State) :
    exec (.cellArrivalOb st tagOk) s = .next (s.withChip (s.chip.arrive st tagOk)) := rfl

/-- With no injection pending none is met (R366). -/
theorem Chip.injected_of_none (c : Chip) (cls : Nat) (hits : Nat → Bool) (h : c.saf.inject = none) : c.injected cls hits = false := by
  simp [Chip.injected, h]

/-- The internal headers that start in a cell agree (R38). -/
def Chip.headsOk (c : Chip) (cell : Cell) : Bool :=
  (cell.segs.filter (·.first)).all (fun g => match c.pkt g.uid with
    | some k => k.ihOk
    | none => true)

/-- The references that a cell is stored with: one for each of its packets at each port that it goes to (R60). -/
def Chip.refsAt (c : Chip) (st : Nat) (cell : Cell) : List (Nat × Nat) :=
  cell.segs.flatMap (fun g =>
    match c.pkt g.uid with
    | some k =>
      (if g.first then c.targetsAt st k
       else (c.sw.obq.filter (fun e => e.uid == g.uid && portStation e.port == st)).map (·.port)).map (fun p => (g.uid, p))
    | none => [])

/-- A cell that fails a check of its headers or references goes no further, and its station's ports enter Fog (R38). -/
def Chip.arriveFailed (c : Chip) (st : Nat) (cell : Cell) (mark : Fld) : Chip :=
  ((c.setBit (Reg.STN_STATUS st) mark).purgeSegs cell.segs).hdrCrcFail st

/-- A cell is stored with its references, and its packets arrive (R60, R61). -/
def Chip.storeCell (c : Chip) (st : Nat) (cell : Cell) (refs : List (Nat × Nat)) : Chip :=
  let c := (refs.map (·.2)).dedup.foldl Chip.countReserve c
  let c := if refs.isEmpty then c
    else { c with sw := { c.sw with obCells := c.sw.obCells ++ [{ st, segs := cell.segs, refs }] } }
  cell.segs.foldl (fun c g => c.arriveSeg st cell g) c

/-- With no injection pending, the first cell in flight for a station leaves it and is checked: its tag and its headers, which the
cells in flight do not touch, then its references. -/
theorem Chip.arrive_of_first (c : Chip) {st : Nat} {x : Transit} {l : List Transit} (tagOk : Bool)
    (h : takeFirst (fun t => t.out == st) c.sw.transit = some (x, l)) (hi : c.saf.inject = none) : c.arrive st tagOk =
      let d : Chip := { c with sw := { c.sw with transit := l } }
      if !(tagOk && c.headsOk x.cell) then d.arriveFailed st x.cell Bit.STN_STATUS_CRC_FAIL
      else if refsOver (c.refsAt st x.cell) then d.arriveFailed st x.cell Bit.STN_STATUS_REFCNT_ERR
      else d.storeCell st x.cell (c.refsAt st x.cell) := by
  have hj := Chip.injected_of_none { c with sw := { c.sw with transit := l } } 2 (fun p => portStation p == st) hi
  unfold Chip.arrive
  simp only [h, hj, Bool.not_false, Bool.and_true]
  rfl

/-- Settles O17: each command under its conditions is the one branch of its operation. -/
theorem cellsAreStagedAndMoved : Obligations.CellsAreStagedAndMoved := by
  refine ⟨fun s st src k hst hs hf hi hp => ?_, fun s stalled hg hf hc => ?_, fun s st x l refs h hi hh hrefs hr => ?_,
    fun s st x l h hi => ?_⟩
  · rw [exec_packetStaged, s.chip.stage_of_pick hst hs hf hi hp]
    rfl
  · rw [exec_towerMatchCycle, s.chip.towerCycle_of_runs stalled hg hf hc]
  · obtain rfl : refs = s.chip.refsAt st x.cell := hrefs
    have hheads : s.chip.headsOk x.cell = true := hh
    rw [exec_cellArrivalOb, s.chip.arrive_of_first true h hi]
    simp only [hheads, hr, Bool.and_self, Bool.not_true, Bool.false_eq_true, if_false]
    rfl
  · rw [exec_cellArrivalOb, s.chip.arrive_of_first false h hi]
    rfl

end Sys2Proof.Machine
end

section
/-!
PROOFS. Doorbells of the Relay engine (R21, R266, R279, R280): which writes to a doorbell page reach their register, and what a
count does there.
-/
namespace Sys2Proof.Machine

/-! ## A write to a doorbell page -/

section Exec
variable (v n off size count gen : Nat) (s : State)

theorem exec_sqDb : exec (.sqDb v n off size count gen) s = .next (s.withChip (s.chip.hostDb v n off size 0 count gen)) := rfl

theorem exec_cqDb : exec (.cqDb v n off size count gen) s = .next (s.withChip (s.chip.hostDb v n off size 8 count gen)) := rfl

theorem exec_ibDb : exec (.ibDb v n off size count gen) s = .next (s.withChip (s.chip.hostDb v n off size 16 count gen)) := rfl

end Exec

/-- A doorbell write of VSI `v` to the page of slice `n`, with the offset of its register. -/
theorem exec_doorbell {v n off size count gen : Nat} {i : Instr × Nat} (h : i ∈ [(Instr.sqDb v n off size count gen, 0),
    (.cqDb v n off size count gen, 8), (.ibDb v n off size count gen, 16)]) (s : State) :
    exec i.1 s = .next (s.withChip (s.chip.hostDb v n off size i.2 count gen)) := by
  simp only [List.mem_cons, List.not_mem_nil, or_false] at h
  obtain rfl | rfl | rfl := h
  · exact exec_sqDb ..
  · exact exec_cqDb ..
  · exact exec_ibDb ..

section Page
variable (c : Chip) {v : Nat} (n off size want count gen : Nat)

/-- R21: the crossing into a Relay in reset holds the write. -/
theorem Chip.hostDb_held (hm : c.relayMse v = true) (hc : c.clocked 82 = false) : c.hostDb v n off size want count gen =
    c.holdAccess (.vsi v) Reg.RLY_CTRL (.page n off size want count gen) := by
  simp [Chip.hostDb, hm, hc]

/-- Without Memory Space Enable there is no page. -/
theorem Chip.hostDb_no_page (hm : c.relayMse v = false) : c.hostDb v n off size want count gen = c := by
  simp [Chip.hostDb, Chip.doorbell, hm]

theorem Chip.hostDb_of_clocked (hc : c.clocked 82 = true) : c.hostDb v n off size want count gen =
    c.doorbell v n off size want gen (fun c => c.ringDb want n count) := by
  simp [Chip.hostDb, hc]

variable (act : Chip → Chip) (hm : c.relayMse v = true)
include hm

theorem Chip.doorbell_foreign (h : c.slState n = sUngranted ∨ c.slVsi n ≠ v) :
    c.doorbell v n off size want gen act = c.satInc Reg.RLY_EVENT Bit.RLY_EVENT_FOREIGN_DB := by
  simp [Chip.doorbell, hm, h]

variable (hg : c.slState n ≠ sUngranted) (hv : c.slVsi n = v)
include hg hv

theorem Chip.doorbell_malformed (h : off ≠ want ∨ size ≠ 8) :
    c.doorbell v n off size want gen act = c.setBit (Reg.SLC_EVENT n) Bit.SLC_EVENT_DB_BAD := by
  simp [Chip.doorbell, hm, hg, hv, h]

theorem Chip.doorbell_stale
    (h : gen ≠ c.fld (Reg.RING_GEN n) Bit.RING_GEN_GEN ∨ c.slState n ≠ sActive ∧ c.slState n ≠ sDraining) :
    c.doorbell v n want 8 want gen act = c.setBit (Reg.SLC_EVENT n) Bit.SLC_EVENT_DB_STALE := by
  have hs : !(c.slState n = sActive ∨ c.slState n = sDraining) ∨ gen ≠ c.fld (Reg.RING_GEN n) Bit.RING_GEN_GEN := by
    simpa [or_comm] using h
  simp only [Chip.doorbell, hm, hg, hv, if_pos hs]
  simp

end Page

/-- R280: a well-formed doorbell of the generation in force reaches its register while the slice runs. -/
theorem Chip.doorbell_taken (c : Chip) {v n : Nat} (want : Nat) (act : Chip → Chip) (hm : c.relayMse v = true)
    (hr : c.slState n = sActive ∨ c.slState n = sDraining) (hv : c.slVsi n = v) :
    c.doorbell v n want 8 want (c.fld (Reg.RING_GEN n) Bit.RING_GEN_GEN) act = act c := by
  have hg : c.slState n ≠ sUngranted := by obtain h | h := hr <;> simp [h, sActive, sDraining, sUngranted]
  simp [Chip.doorbell, hm, hg, hv, hr]

/-! ## The count (R279, R280) -/

theorem ahead32_self (a : Nat) : ahead32 a a = false := by
  have h : modSub (2 ^ 32) a a = 0 := by unfold modSub; omega
  rw [ahead32, h]
  rfl

/-- The ends of a count `count` at a register that holds `cur`, with `e` the chip after it: taken (`d`), a repeat, or DB_RANGE. -/
structure Chip.CountEnds (c : Chip) (n count cur span room : Nat) (d e : Chip) : Prop where
  taken : ahead32 count cur = true → span ≤ room → e = d
  repeated : count = cur → e = c
  outOfRange : count ≠ cur → ¬(ahead32 count cur = true ∧ span ≤ room) → e = c.setBit (Reg.SLC_EVENT n) Bit.SLC_EVENT_DB_RANGE

theorem Chip.countEnds (c d : Chip) (n count cur span room : Nat) : c.CountEnds n count cur span room d
    (if ahead32 count cur && decide (span ≤ room) then d else c.dbRange n count cur) where
  taken ha hr := by simp [ha, hr]
  repeated he := by simp [he, ahead32_self, Chip.dbRange]
  outOfRange hn ht := by
    have hf : (ahead32 count cur && decide (span ≤ room)) = false := by simpa using ht
    simp [hf, hn, Chip.dbRange]

/-- The outcomes of a command that takes a count to its register. -/
theorem Chip.CountEnds.outcomes {s : State} {i : Instr} {n count cur span room : Nat} {d e : Chip}
    (h : s.chip.CountEnds n count cur span room d e) (he : exec i s = .next (s.withChip e)) :
    (ahead32 count cur = true → span ≤ room → exec i s = .next (s.withChip d)) ∧ (count = cur → exec i s = .next s) ∧
    (count ≠ cur → ¬(ahead32 count cur = true ∧ span ≤ room) →
      exec i s = .next (s.withChip (s.chip.setBit (Reg.SLC_EVENT n) Bit.SLC_EVENT_DB_RANGE))) :=
  ⟨fun ha hr => by rw [he, h.taken ha hr], fun hc => by rw [he, h.repeated hc]; rfl, fun hn ho => by rw [he, h.outOfRange hn ho]⟩

section Registers
variable (c : Chip) (n : Nat) {count : Nat}

theorem Chip.sqDb_ends : c.CountEnds n count (c.rd (Reg.SQ_SEEN n)).toNat (modSub (2 ^ 32) count (c.fetched n)) (c.sqSize n)
    ((c.wr (Reg.SQ_SEEN n) (BitVec.ofNat 32 count)).dbTaken n) (c.sqDb n count) := c.countEnds _ ..

theorem Chip.cqDb_ends : c.CountEnds n count (c.rslice n).cqRead (modSub (2 ^ 32) count (c.rslice n).cqRead)
    (modSub (2 ^ 32) (c.written n) (c.rslice n).cqRead) ((c.putRslice { c.rslice n with cqRead := count }).dbTaken n)
    (c.cqDb n count) := c.countEnds _ ..

theorem Chip.ibDb_ends : c.CountEnds n count (c.rslice n).ibBack (modSub (2 ^ 32) count (c.rslice n).ibBack)
    (modSub (2 ^ 32) (c.rslice n).ibUsed (c.rslice n).ibBack) ((c.putRslice { c.rslice n with ibBack := count }).dbTaken n)
    (c.ibDb n count) := c.countEnds _ ..

end Registers

@[simp] theorem Chip.dbTaken_rd (c : Chip) (n o : Nat) : (c.dbTaken n).rd o = c.rd o := rfl

/-! ## The record of a slice -/

@[simp] theorem Chip.rslice_slice (c : Chip) (n : Nat) : (c.rslice n).slice = n := by
  unfold Chip.rslice
  cases h : c.rly.slices.find? (fun x => x.slice == n) with
  | none => rfl
  | some x => simpa using List.find?_some h

theorem Chip.rslice_putRslice_same (c : Chip) (x : RSlice) : (c.putRslice x).rslice x.slice = x := by
  simp [Chip.rslice, Chip.putRslice]

theorem Chip.rslice_putRslice_other (c : Chip) {x : RSlice} {m : Nat} (h : m ≠ x.slice) : (c.putRslice x).rslice m = c.rslice m := by
  have hl : (x :: c.rly.slices.filter (fun y => y.slice != x.slice)).find? (fun y => y.slice == m) =
      c.rly.slices.find? (fun y => y.slice == m) := by
    rw [List.find?_cons_of_neg (by simpa using Ne.symm h), List.find?_filter]
    congr 1
    funext y
    by_cases hy : y.slice = m <;> simp [hy, h]
  exact congrArg (fun o => Option.getD o { slice := m }) hl

/-- A count that is taken into the record of its slice changes that record alone. -/
theorem Chip.dbTaken_putRslice_frame (c : Chip) {x : RSlice} {n : Nat} (hx : x.slice = n) :
    ((c.putRslice x).dbTaken n).rslice n = x ∧ (∀ m, m ≠ x.slice → ((c.putRslice x).dbTaken n).rslice m = c.rslice m) ∧
    ((c.putRslice x).dbTaken n).regs = c.regs ∧ ((c.putRslice x).dbTaken n).out = c.out := by
  subst hx
  exact ⟨c.rslice_putRslice_same x, fun _ hm => c.rslice_putRslice_other hm, rfl, rfl⟩

/-- A well-formed doorbell of a running slice, with the generation in force and a count of 32 bits, reaches its register (Table 9.5). -/
theorem exec_runningDoorbell (s : State) {v n count : Nat} (hm : s.chip.relayMse v = true) (hc : s.chip.clocked 82 = true)
    (hr : s.chip.slState n = sActive ∨ s.chip.slState n = sDraining) (hv : s.chip.slVsi n = v) (hlt : count < 2 ^ 32) :
    exec (.sqDb v n 0 8 count (s.chip.fld (Reg.RING_GEN n) Bit.RING_GEN_GEN)) s = .next (s.withChip (s.chip.sqDb n count)) ∧
    exec (.cqDb v n 8 8 count (s.chip.fld (Reg.RING_GEN n) Bit.RING_GEN_GEN)) s = .next (s.withChip (s.chip.cqDb n count)) ∧
    exec (.ibDb v n 16 8 count (s.chip.fld (Reg.RING_GEN n) Bit.RING_GEN_GEN)) s = .next (s.withChip (s.chip.ibDb n count)) := by
  have hdb : ∀ want, s.chip.hostDb v n want 8 want count (s.chip.fld (Reg.RING_GEN n) Bit.RING_GEN_GEN) =
      s.chip.ringDb want n count := fun want => by
    rw [Chip.hostDb_of_clocked _ _ _ _ _ _ _ hc, Chip.doorbell_taken _ _ _ hm hr hv]
  have hcount : count % 4294967296 = count := Nat.mod_eq_of_lt hlt
  simp [exec_sqDb, exec_cqDb, exec_ibDb, hdb, Chip.ringDb, hcount]

/-- Settles O45: the cases of a doorbell page exclude each other, and so do the ends of a count at its register. -/
theorem doorbellsAreTakenOrRefused : Obligations.DoorbellsAreTakenOrRefused := by
  refine ⟨fun s v n count hm hc hr hv hlt => ?_, fun s v n off size count gen i hi hm hc h => ?_,
    fun s v n off size count gen want i hi hw hm hc hg hv => ?_, fun s v n off size count gen i hi => ⟨fun hm => ?_, fun hm hc => ?_⟩⟩
  · obtain ⟨esq, ecq, eib⟩ := exec_runningDoorbell s hm hc hr hv hlt
    obtain ⟨sqTaken, sqRepeated, sqRange⟩ := (s.chip.sqDb_ends n).outcomes esq
    obtain ⟨cqTaken, cqRepeated, cqRange⟩ := (s.chip.cqDb_ends n).outcomes ecq
    obtain ⟨ibTaken, ibRepeated, ibRange⟩ := (s.chip.ibDb_ends n).outcomes eib
    refine ⟨fun ha hr => ⟨_, sqTaken ha hr, ?_, fun o ho => s.chip.rd_wr_other _ ho, rfl, rfl, rfl⟩, sqRepeated, sqRange,
      fun ha hr => ⟨_, cqTaken ha hr, ?_⟩, cqRepeated, cqRange, fun ha hr => ⟨_, ibTaken ha hr, ?_⟩, ibRepeated, ibRange⟩
    · simp only [State.withChip_chip, Chip.dbTaken_rd, Chip.rd_wr_same, BitVec.toNat_ofNat, Nat.mod_eq_of_lt hlt]
    · obtain ⟨hsame, hother, hregs, hout⟩ := s.chip.dbTaken_putRslice_frame (x := { s.chip.rslice n with cqRead := count })
        (s.chip.rslice_slice n)
      exact ⟨congrArg (·.cqRead) hsame, hother, hregs, hout, rfl⟩
    · obtain ⟨hsame, hother, hregs, hout⟩ := s.chip.dbTaken_putRslice_frame (x := { s.chip.rslice n with ibBack := count })
        (s.chip.rslice_slice n)
      exact ⟨congrArg (·.ibBack) hsame, hother, hregs, hout, rfl⟩
  · obtain ⟨want, hi⟩ : ∃ want, (i, want) ∈ [(Instr.sqDb v n off size count gen, 0), (.cqDb v n off size count gen, 8),
        (.ibDb v n off size count gen, 16)] := by
      simp only [List.mem_cons, List.not_mem_nil, or_false, Prod.mk.injEq] at hi ⊢
      obtain rfl | rfl | rfl := hi <;> simp
    rw [exec_doorbell hi, Chip.hostDb_of_clocked _ _ _ _ _ _ _ hc, Chip.doorbell_foreign _ _ _ _ _ _ _ hm h]
  · rw [exec_doorbell hi, Chip.hostDb_of_clocked _ _ _ _ _ _ _ hc]
    subst hw
    refine ⟨fun h => by rw [Chip.doorbell_malformed _ _ _ _ _ _ _ hm hg hv h], fun ho hs h => ?_⟩
    subst ho hs
    rw [Chip.doorbell_stale _ _ _ _ _ hm hg hv h]
  · rw [exec_doorbell hi, Chip.hostDb_no_page _ _ _ _ _ _ _ hm]
    rfl
  · rw [exec_doorbell hi, Chip.hostDb_held _ _ _ _ _ _ _ hm hc]

end Sys2Proof.Machine
end

section
/-!
PROOFS. The ticks of the buckets and the policers (R320, R323), and the reset and start of a station (R21, R107, R417, R418).
-/
namespace Sys2Proof.Machine

/-! ## Buckets (R320) -/

theorem Chip.tokensOf_eq_get (c : Chip) (key burst : Nat) :
    c.tokensOf key burst = SMap.get c.sw.tokens key (burst * 256000 : Nat) := by
  unfold Chip.tokensOf SMap.get
  cases c.sw.tokens.find? (fun e => e.1 == key) <;> rfl

@[simp] theorem Chip.tokensOf_setTokens_same (c : Chip) (key burst : Nat) (t : Int) :
    (c.setTokens key burst t).tokensOf key burst = t := by
  rw [Chip.tokensOf_eq_get]
  exact SMap.get_set_same _ _ _ _

theorem exec_bucketRefill (s : State) : exec .bucketRefill s = .next (s.withChip s.chip.bucketRefill) := rfl

theorem exec_policerRecover (s : State) : exec .policerRecover s = .next (s.withChip s.chip.policerRecover) := rfl

/-! ## Policers (R323) -/

/-- Policer `i` rises towards its base. -/
def Chip.raisePolicer (c : Chip) (i : Nat) : Chip :=
  c.setPolEff (i / 8) (i % 8) (increased (c.polEff (i / 8) (i % 8)) (c.polBase (i / 8) (i % 8)) c.incShift)

/-- What a rise of some of the 512 policers leaves: every register behind POL_EFF, and all that is no register. -/
theorem Chip.raisePolicers_frame :
    ∀ (l : List Nat) (c : Chip), (∀ i ∈ l, i < 512) → { l.foldl Chip.raisePolicer c with regs := c.regs } = c ∧
      ∀ o, Reg.SLICE_WT 0 ≤ o → (l.foldl Chip.raisePolicer c).rd o = c.rd o
  | [], _, _ => ⟨rfl, fun _ _ => rfl⟩
  | i :: l, c, h => by
    obtain ⟨hrest, hrd⟩ := Chip.raisePolicers_frame l (c.raisePolicer i) (fun j hj => h j (List.mem_cons_of_mem _ hj))
    have hi : i < 512 := h i List.mem_cons_self
    refine ⟨congrArg (fun d : Chip => { d with regs := c.regs }) hrest, fun o ho => (hrd o ho).trans (c.rd_wr_other _ ?_)⟩
    simp only [Reg.SLICE_WT, Reg.POL_EFF] at ho ⊢
    omega

/-- The policers that rise: those below their base that have been quiet. -/
def Chip.risingPolicers (c : Chip) : List Nat :=
  (List.range 512).filter (fun i => (c.rd (Reg.POL_EFF (i / 8) (i % 8))).toNat != 0 && c.quietFor (keyPol (i / 8) (i % 8)))

theorem Chip.risingPolicers_lt (c : Chip) : ∀ i ∈ c.risingPolicers, i < 512 :=
  fun _ hi => List.mem_range.mp (List.mem_filter.mp hi).1

/-- Slice `x` rises towards its base (R326). -/
def Chip.raiseSlice (c : Chip) (x : Nat) : Chip :=
  c.setSlicePace x (increased (c.slicePace x) (c.sliceBase x) c.incShift)

/-- The slices that rise: those below their base that have been quiet. -/
def Chip.risingSlices (c : Chip) : List Nat :=
  (c.rly.slices.map (·.slice)).filter (fun x => (c.rd (Reg.SLICE_PACE x)).toNat != 0 && c.quietFor (keySliceBucket x))

/-- A rise of policers leaves which slices rise. -/
theorem Chip.risingSlices_raisePolicers (c : Chip) {l : List Nat} (h : ∀ i ∈ l, i < 512) :
    (l.foldl Chip.raisePolicer c).risingSlices = c.risingSlices := by
  obtain ⟨hrest, hrd⟩ := Chip.raisePolicers_frame l c h
  have hrly : (l.foldl Chip.raisePolicer c).rly = c.rly := (congrArg Chip.rly hrest :)
  have hquiet : (l.foldl Chip.raisePolicer c).quietFor = c.quietFor := (congrArg Chip.quietFor hrest :)
  have hpace : ∀ x, (l.foldl Chip.raisePolicer c).rd (Reg.SLICE_PACE x) = c.rd (Reg.SLICE_PACE x) := fun x => hrd _ (by
    simp only [Reg.SLICE_WT, Reg.SLICE_PACE]
    omega)
  simp only [Chip.risingSlices, hrly, hquiet, hpace]

/-- R323, R326: the policers rise first, and then the slices. -/
theorem Chip.policerRecover_eq (c : Chip) : c.policerRecover =
    c.risingSlices.foldl Chip.raiseSlice (c.risingPolicers.foldl Chip.raisePolicer c) := by
  rw [← c.risingSlices_raisePolicers c.risingPolicers_lt]
  delta Chip.policerRecover Chip.risingSlices Chip.raiseSlice Chip.risingPolicers Chip.raisePolicer
  with_reducible rfl

/-! ## Accesses that a crossing held (R21) -/

/-- What waits still where its island is in reset, so that only BUSY and the islands on the IRO count. -/
theorem Chip.stillHeld_congr {a b : Chip} (hr : b.regs = a.regs) (hl : b.pwr.lost = a.pwr.lost) : b.stillHeld = a.stillHeld := by
  have hi : b.islandHeld = a.islandHeld := by
    funext off
    simp only [Chip.islandHeld, Chip.fldBit, Chip.fld, Chip.rd, Chip.clocked, hr, hl]
  funext h
  simp only [Chip.stillHeld, hi]

/-- While every access still waits, none is served. -/
theorem State.serveHeld_all (s : State) (h : s.chip.heldAcc.all s.chip.stillHeld = true) : s.serveHeld = s := by
  have hall : ∀ x ∈ s.chip.heldAcc, s.chip.stillHeld x = true := List.all_eq_true.mp h
  have hstay : s.chip.heldAcc.filter s.chip.stillHeld = s.chip.heldAcc := List.filter_eq_self.mpr hall
  have hgo : s.chip.heldAcc.filter (fun x => !s.chip.stillHeld x) = [] :=
    List.filter_eq_nil_iff.mpr (fun x hx => by simp [hall x hx])
  simp only [State.serveHeld, hstay, hgo, List.foldl_nil]

/-- The one access that waited, and waits no more, is served. -/
theorem State.serveHeld_one (s : State) {h : HeldAccess} (he : s.chip.heldAcc = [h]) (hs : s.chip.stillHeld h = false) :
    s.serveHeld = (s.withChip { s.chip with heldAcc := [] }).serveOne h := by
  simp [State.serveHeld, he, hs, State.withChip]

/-! ## Stations (R107, R417, R418) -/

theorem bitsSet_two_pow {st : Nat} (h : st < 16) : bitsSet (2 ^ st) 16 = [st] := by
  have all : ∀ n < 16, bitsSet (2 ^ n) 16 = [n] := by decide
  exact all st h

/-- R417: one bit of REQ resets its station. -/
theorem Chip.stnResetWrite_two_pow (c : Chip) {st : Nat} (h : st < 16) : c.stnResetWrite (2 ^ st) = c.stationReset st := by
  rw [Chip.stnResetWrite, bitsSet_two_pow h]
  rfl

theorem exec_stnReset (ag : Agent) (mask : Nat) (s : State) : exec (.stnReset ag mask) s =
    .next (s.withChip (s.chip.busWrite ag Reg.STN_RESET (fun c => c.stnResetWrite mask))) := rfl

theorem exec_stationStarted (st : Nat) (s : State) :
    exec (.stationStarted st) s = .next (s.withChip (s.chip.stationStarted st)).serveHeld := rfl

theorem exec_stationResetResume (s : State) :
    exec .stationResetResume s = .next (s.withChip s.chip.stationResume).serveHeld := rfl

section Start
variable (c : Chip) {st : Nat} {l : LightList} (hl : c.ll = some l)
include hl

/-- A station starts from the Light List once its reset is over, or when the boot starts it. -/
theorem Chip.stationStarted_of_runs (hk : c.keeperRuns = true) (hc : c.clocked (64 + st) = true)
    (h : (c.fldBit Reg.STN_RESET Bit.STN_RESET_BUSY st = true ∧ c.due (.stnReset st) = true) ∨ c.pwr.starting.contains st = true) :
    c.stationStarted st = c.startStation l st := by
  have hgo : (c.fldBit Reg.STN_RESET Bit.STN_RESET_BUSY st && c.due (.stnReset st) || c.pwr.starting.contains st) = true := by
    simpa using h
  simp only [Chip.stationStarted, hl, hc, hk, hgo, Bool.not_true, Bool.false_eq_true, if_false, if_true]

/-- R417: while the Keeper does not run, a reset that is over waits for it. -/
theorem Chip.stationStarted_of_waits (hk : c.keeperRuns = false) (hc : c.clocked (64 + st) = true)
    (hb : c.fldBit Reg.STN_RESET Bit.STN_RESET_BUSY st = true) (hd : c.due (.stnReset st) = true) : c.stationStarted st =
    ({ c with pwr := { c.pwr with stnWait := st :: c.pwr.stnWait.erase st } } : Chip).disarm (.stnReset st) := by
  simp [Chip.stationStarted, hl, hc, hk, hb, hd]

theorem Chip.stationResume_of_runs (hk : c.keeperRuns = true) : c.stationResume =
    (c.pwr.stnWait.filter (fun n => c.clocked (64 + n))).foldl (fun c n => c.startStation l n) c := by
  simp [Chip.stationResume, hl, hk]

end Start

/-- Settles O48: the ticks are their operations; a station start and the accesses held, by the case of each. -/
theorem ticksAndStationResets : Obligations.TicksAndStationResets := by
  refine ⟨fun s => by rw [exec_bucketRefill, Chip.bucketRefill], fun c k rate burst => c.tokensOf_setTokens_same k burst _,
    fun s => by rw [exec_policerRecover, Chip.policerRecover_eq]; rfl, fun s ag st hr hst => ?_,
    fun s st l hl hk hc h => ?_, fun s st l hl hk hc hh hb hd => ?_, fun s l hl hk => ?_, fun s h he hs => s.serveHeld_one he hs⟩
  · rw [exec_stnReset, s.chip.busWrite_of_reaches _ _ _ hr, s.chip.openGate_none _ (by decide), Chip.stnResetWrite_two_pow _ hst]
  · rw [exec_stationStarted, s.chip.stationStarted_of_runs hl hk hc h]
  · have hw := s.chip.stationStarted_of_waits hl hk hc hb hd
    have hsame : (s.chip.stationStarted st).stillHeld = s.chip.stillHeld := Chip.stillHeld_congr (by rw [hw]; rfl) (by rw [hw]; rfl)
    refine ⟨s.withChip (s.chip.stationStarted st), ?_, by rw [hw]; exact ⟨rfl, rfl, rfl, rfl⟩⟩
    rw [exec_stationStarted, State.serveHeld_all]
    rw [State.withChip_chip, hsame, hw]
    exact hh
  · rw [exec_stationResetResume, s.chip.stationResume_of_runs hl hk]

end Sys2Proof.Machine
end

section
/-!
PROOFS. The clock sources (R21, R426 to R431, R434): the crystal and the PCIe reference, the PLLs of the CKG, and the trim of the IRO.
-/
namespace Sys2Proof.Machine

/-! ## Flags of a register -/

section Flag
variable (c : Chip) {o o' : Nat} (f g : Fld)

theorem Chip.flag_setFld_same (v : Nat) (hf : f.hi < 32) : (c.setFld o f v).flag o f = (v % 2 ^ (f.hi + 1 - f.lo) != 0) :=
  congrArg (· != 0) (c.fld_setFld_same o f v hf)

theorem Chip.flag_setFld_other (v : Nat) (h : o' ≠ o) : (c.setFld o f v).flag o' g = c.flag o' g :=
  congrArg (· != 0) (c.fld_setFld_other f g v h)

theorem Chip.flag_setFld_otherField (v : Nat) (hg : g.hi < 32) (h : g.hi < f.lo ∨ f.hi < g.lo) :
    (c.setFld o f v).flag o g = c.flag o g :=
  congrArg (· != 0) (c.fld_setFld_otherField o f g v hg h)

end Flag

/-- A log entry leaves the flags of the other registers. -/
theorem Chip.flag_log (c : Chip) (code : LogCode) (key det : List Nat) {o : Nat} (f : Fld) (h : ¬ isLogReg o) :
    (c.log code key det).flag o f = c.flag o f := by
  simp only [Chip.flag, Chip.fld, c.rd_log code key det h]

/-- Of the timers a log entry arms those of the Keep area alone (R509). -/
theorem Chip.armed_log (c : Chip) (code : LogCode) (key det : List Nat) {t : TimerId} (h : ∀ n, t ≠ .keep n) :
    (c.log code key det).armed t = c.armed t := by
  have hadd : ∀ (c : Chip) (r : LogRec), (c.addRec r).armed t = c.armed t := by
    intro c r
    unfold Chip.addRec
    dsimp only
    split
    · exact Chip.armed_arm_other _ _ (h _)
    · rfl
  have hnow : ∀ (c : Chip) (r : LogRec), (c.logNow r).armed t = c.armed t := by
    intro c r
    unfold Chip.logNow
    repeat' split
    · rfl
    · exact hadd c r
    · exact hadd c r
  unfold Chip.log Chip.logFrom
  dsimp only
  repeat' split
  · simp [Chip.armed]
  · exact hnow c _
  · rfl
  · simp [Chip.armed]

/-! ## Sources (R426 to R429) -/

theorem exec_crystalQualified (s : State) : exec .crystalQualified s = .next (s.withChip s.chip.crystalQualified).serveHeld := rfl

theorem exec_crystalQualifyTimeout (s : State) :
    exec .crystalQualifyTimeout s = .next (s.withChip s.chip.crystalTimeout).serveHeld := rfl

theorem exec_refclkQualified (s : State) : exec .refclkQualified s = .next (s.withChip s.chip.refclkQualified).serveHeld := rfl

theorem exec_crystalLost (s : State) : exec .crystalLost s = .next (s.withChip s.chip.crystalLost) := rfl

@[simp] theorem Chip.armed_setBit (c : Chip) (o : Nat) (f : Fld) (t : TimerId) : (c.setBit o f).armed t = c.armed t := rfl

/-- A crystal that qualifies runs the Lamp Room, and the CKG takes it unless it has taken the PCIe reference (R427, R428). -/
theorem Chip.crystalQualified_of_new (c : Chip) (hs : c.pwr.standby = true)
    (hx : c.flag Reg.CLK_STATUS Bit.CLK_STATUS_XTAL_OK = false) (hl : c.pwr.lost.contains islLamp = false) : c.crystalQualified =
      let d := (c.setBit Reg.CLK_STATUS Bit.CLK_STATUS_XTAL_OK).setBit Reg.CLK_STATUS Bit.CLK_STATUS_LAMP_ON_XTAL
      if c.pwr.ckg = true ∧ c.armed .crystal = false then d.reclock else (d.disarm .crystal).ckgLock 0 := by
  simp only [Chip.crystalQualified, hs, hx, hl, Bool.not_true, Bool.or_self, Bool.false_eq_true, if_false, Chip.setBit_pwr,
    Chip.armed_setBit, Bool.and_eq_true, Bool.not_eq_true']

/-- R427: the crystal is late, and the CKG takes the PCIe reference that has qualified. -/
theorem Chip.crystalTimeout_of_due (c : Chip) (hd : c.due .crystal = true)
    (hx : c.flag Reg.CLK_STATUS Bit.CLK_STATUS_XTAL_OK = false) : c.crystalTimeout =
      let d := ((c.setBit Reg.CLK_EVENT Bit.CLK_EVENT_XTAL_FAIL).disarm .crystal).log .crystalFail []
      if c.flag Reg.CLK_STATUS Bit.CLK_STATUS_REFCLK_OK then d.ckgLock 1 else d := by
  have hr : (((c.setBit Reg.CLK_EVENT Bit.CLK_EVENT_XTAL_FAIL).disarm .crystal).log .crystalFail []).flag Reg.CLK_STATUS
      Bit.CLK_STATUS_REFCLK_OK = c.flag Reg.CLK_STATUS Bit.CLK_STATUS_REFCLK_OK :=
    (Chip.flag_log _ _ _ _ _ (by simp [isLogReg])).trans (c.flag_setFld_other _ _ 1 (by decide))
  simp only [Chip.crystalTimeout, hd, hx, hr, Bool.not_false, Bool.and_self, if_true]

/-- R427: a PCIe reference that qualifies is taken where the crystal was late or is lost. -/
theorem Chip.refclkQualified_of_new (c : Chip) (hs : c.pwr.standby = true)
    (hr : c.flag Reg.CLK_STATUS Bit.CLK_STATUS_REFCLK_OK = false) : c.refclkQualified =
      let d := (c.setBit Reg.CLK_STATUS Bit.CLK_STATUS_REFCLK_OK).log .refclk []
      if c.armed .crystal = false ∧ c.flag Reg.CLK_STATUS Bit.CLK_STATUS_XTAL_OK = false then d.ckgLock 1 else d := by
  have hx : ((c.setBit Reg.CLK_STATUS Bit.CLK_STATUS_REFCLK_OK).log .refclk []).flag Reg.CLK_STATUS Bit.CLK_STATUS_XTAL_OK =
      c.flag Reg.CLK_STATUS Bit.CLK_STATUS_XTAL_OK :=
    (Chip.flag_log _ _ _ _ _ (by simp [isLogReg])).trans (c.flag_setFld_otherField _ _ 1 (by decide) (by decide))
  have ha : ((c.setBit Reg.CLK_STATUS Bit.CLK_STATUS_REFCLK_OK).log .refclk []).armed .crystal = c.armed .crystal :=
    (Chip.armed_log _ _ _ _ (by simp)).trans (c.armed_setBit _ _ _)
  simp only [Chip.refclkQualified, hs, hr, hx, ha, Bool.not_true, Bool.or_self, Bool.false_eq_true, if_false, Bool.and_eq_true,
    Bool.not_eq_true']

/-! ## The PLLs of the CKG (R433, R434) -/

section Ckg
variable (c : Chip) (ref : Nat)

/-- The chip whose CKG has taken a source, with its islands still as they were. -/
def Chip.ckgOn : Chip := { c with pwr := { c.pwr with ckg := true } }.setFld Reg.CLK_STATUS Bit.CLK_STATUS_CKG_REF ref

theorem Chip.ckgLock_rd (o : Nat) : (c.ckgLock ref).rd o = (c.ckgOn ref).rd o :=
  congrArg (fun r => SMap.get r o (resetWordAt o)) (c.ckgOn ref).reclock_regs

theorem Chip.ckgLock_out : (c.ckgLock ref).out = c.out := (c.ckgOn ref).reclock_out

theorem Chip.ckgLock_ckg : (c.ckgLock ref).pwr.ckg = true := by
  obtain h | ⟨-, -, h⟩ := (c.ckgOn ref).reclock_cases
  · exact (congrArg (·.pwr.ckg) h :)
  · exact (congrArg (·.pwr.ckg) h :)

/-- R434: with the power good and RESET_N high, every island but the Lamp Room that the CKG clocks takes its clock. -/
theorem Chip.ckgLock_clocked (hp : c.pwr.pgood = true) (hr : c.pwr.resetLow = false) {i : Nat} (hl : i ≠ islLamp)
    (hi : i < 83 ∨ 87 < i) : (c.ckgLock ref).clocked i = true := by
  have hsrc : (c.ckgOn ref).sourceRuns i = true := by
    rw [Chip.sourceRuns, if_neg (by omega)]
    rfl
  have hp' : (c.ckgOn ref).pwr.pgood = true := hp
  have hr' : (c.ckgOn ref).pwr.resetLow = false := hr
  have hlock : c.ckgLock ref = (c.ckgOn ref).reclock := rfl
  simp [hlock, Chip.reclock, hp', hr', Chip.clocked, hl, hsrc]

/-- Without power, or in RESET_N, the islands stay as they are. -/
theorem Chip.ckgLock_lost (h : c.pwr.pgood = false ∨ c.pwr.resetLow = true) : (c.ckgLock ref).pwr.lost = c.pwr.lost := by
  have hstay : ((c.ckgOn ref).pwr.resetLow || !(c.ckgOn ref).pwr.pgood) = true := by
    obtain h | h := h
    · exact (congrArg (fun b => c.pwr.resetLow || !b) h).trans (Bool.or_true _)
    · exact (congrArg (fun b => b || !c.pwr.pgood) h).trans (Bool.true_or _)
  have hlock : c.ckgLock ref = c.ckgOn ref := if_pos hstay
  rw [hlock]
  rfl

end Ckg

/-! ## The loss of the crystal (R361, R428, R435) -/

/-- The marks that the loss of the crystal leaves. -/
def Chip.markCrystalLost (c : Chip) : Chip :=
  (((((c.setBit Reg.CLK_EVENT Bit.CLK_EVENT_XTAL_LOST).setBit Reg.CLK_EVENT Bit.CLK_EVENT_FORCED_SWITCH).setBit
    Reg.MON_STATUS Bit.MON_STATUS_XTAL).clrFld Reg.CLK_STATUS Bit.CLK_STATUS_LAMP_ON_XTAL).setBit
    Reg.SAF_EVENT Bit.SAF_EVENT_CLOCK_LOSS).clrFld Reg.CLK_STATUS Bit.CLK_STATUS_XTAL_OK

/-- Beside the marks, only CKG_REF and the Keeper's Log change among the registers. -/
theorem Chip.flag_crystalLost (c : Chip) (hx : c.flag Reg.CLK_STATUS Bit.CLK_STATUS_XTAL_OK = true) {o : Nat} (f : Fld)
    (hm : o ∈ [Reg.CLK_STATUS, Reg.CLK_EVENT, Reg.MON_STATUS, Reg.SAF_EVENT]) (hf : f.hi < 32)
    (hr : o ≠ Reg.CLK_STATUS ∨ f.hi < Bit.CLK_STATUS_CKG_REF.lo ∨ Bit.CLK_STATUS_CKG_REF.hi < f.lo) :
    c.crystalLost.flag o f = c.markCrystalLost.flag o f := by
  have hl : ¬ isLogReg o := by
    rintro (rfl | rfl | rfl) <;> revert hm <;> decide
  simp only [Chip.crystalLost, hx, Bool.not_true, Bool.false_eq_true, if_false, Chip.flag_log _ _ _ _ f hl]
  split
  · by_cases ho : o = Reg.CLK_STATUS
    · subst ho
      exact Chip.flag_setFld_otherField _ _ f 1 hf (hr.resolve_left (fun h => h rfl))
    · exact Chip.flag_setFld_other _ _ f 1 ho
  · rfl

/-! ## The trim of the IRO (R431) -/

/-- The trim code after a window that measured `err`: against the error, by 32 steps at most, within its field (the step is the
model's choice, log 125). -/
def trimCode (code : Nat) (err : Int) : Int := max 0 (min 1023 ((code : Int) - max (-32) (min 32 (err.tdiv 10))))

theorem trimCode_bounds (code : Nat) (err : Int) : 0 ≤ trimCode code err ∧ trimCode code err < 1024 := by
  unfold trimCode
  omega

theorem exec_iroTrimWindow (err : Int) (s : State) (h : s.chip.pwr.standby = true) :
    exec (.iroTrimWindow err) s = .next (s.withChip (s.chip.iroTrim err)) :=
  congrArg (fun c => Host.Outcome.next (s.withChip c)) (if_pos h)

/-- A window with a reference and AUTO set writes what it measured and the new code. -/
theorem Chip.iroTrim_auto (c : Chip) (err : Int) (hs : c.pwr.standby = true) (hsrc : c.trimSource ≠ 0)
    (ha : c.flag Reg.IRO_TRIM Bit.IRO_TRIM_AUTO = true) : c.iroTrim err =
    (((c.setFld Reg.CLK_STATUS Bit.CLK_STATUS_TRIM_SRC c.trimSource).setFld Reg.IRO_TRIM Bit.IRO_TRIM_ERR (err % 4096).toNat).setFld
      Reg.CLK_STATUS Bit.CLK_STATUS_TRIM_LOCKED (b2n (decide (-50 ≤ err ∧ err ≤ 50)))).setFld
      Reg.IRO_TRIM Bit.IRO_TRIM_CODE (trimCode (c.fld Reg.IRO_TRIM Bit.IRO_TRIM_CODE) err).toNat := by
  simp (disch := decide) only [Chip.iroTrim, Chip.setFld_pwr, hs, hsrc, Bool.not_true, decide_false, Bool.or_self, Bool.false_eq_true,
    if_false, Chip.flag_setFld_other, Chip.flag_setFld_otherField, ha, if_true, Chip.fld_setFld_other, Chip.fld_setFld_otherField, trimCode]

/-- Settles O56: the sources by the cases of each, and the registers through the fields that each of them writes. -/
theorem clocksQualifyAndAreTrimmed : Obligations.ClocksQualifyAndAreTrimmed := by
  refine ⟨fun s hs hx hl => ?_, fun s hd hx => ?_, fun s hs hr => ?_, fun c ref href => ⟨c.ckgLock_ckg ref, ?_,
    fun hp hr i hl hi => c.ckgLock_clocked ref hp hr hl hi, c.ckgLock_lost ref, fun o ho => ?_, c.ckgLock_out ref⟩,
    fun s hx => ⟨_, exec_crystalLost s, ?_⟩, fun s err hs h0 h4 hlo hhi ha => ⟨_, exec_iroTrimWindow err s hs, ?_⟩⟩
  · rw [exec_crystalQualified, s.chip.crystalQualified_of_new hs hx hl]
  · rw [exec_crystalQualifyTimeout, s.chip.crystalTimeout_of_due hd hx]
  · rw [exec_refclkQualified, s.chip.refclkQualified_of_new hs hr]
  · rw [Chip.fld, Chip.ckgLock_rd, ← Chip.fld, Chip.ckgOn, Chip.fld_setFld_same _ _ _ _ (by decide)]
    exact Nat.mod_eq_of_lt href
  · rw [Chip.ckgLock_rd]
    exact Chip.rd_setFld_other _ _ _ ho
  · refine ⟨?_, ?_, ?_, ?_, ?_, ?_, rfl⟩
    all_goals
      simp (disch := decide) only [State.withChip_chip, s.chip.flag_crystalLost hx, Chip.markCrystalLost, Chip.setBit, Chip.clrFld,
        Chip.flag_setFld_same, Chip.flag_setFld_other, Chip.flag_setFld_otherField]
      decide
  · rw [State.withChip_chip, s.chip.iroTrim_auto err hs h0 ha]
    obtain ⟨hc0, hc1⟩ := trimCode_bounds (s.chip.fld Reg.IRO_TRIM Bit.IRO_TRIM_CODE) err
    refine ⟨?_, ?_, ?_, fun o h1 h2 => ?_, rfl⟩
    · have hcode : (trimCode (s.chip.fld Reg.IRO_TRIM Bit.IRO_TRIM_CODE) err).toNat < 2 ^ 10 := by omega
      rw [Chip.fld_setFld_same _ _ _ _ (by decide)]
      exact (congrArg Int.ofNat (Nat.mod_eq_of_lt hcode)).trans (Int.toNat_of_nonneg hc0)
    · rw [Chip.flag_setFld_other _ _ _ _ (by decide), Chip.flag_setFld_same _ _ _ (by decide)]
      by_cases h : -50 ≤ err ∧ err ≤ 50 <;> simp [h, b2n, Bit.CLK_STATUS_TRIM_LOCKED]
    · simp (disch := decide) only [Chip.fld_setFld_other, Chip.fld_setFld_otherField, Chip.fld_setFld_same]
      exact Nat.mod_eq_of_lt h4
    · simp only [Chip.rd_setFld_other _ _ _ h1, Chip.rd_setFld_other _ _ _ h2]

end Sys2Proof.Machine
end

section
/-!
PROOFS. Commits that are rejected (R193): where the write of a commit ends, and what a commit of another generation does.
-/
namespace Sys2Proof.Machine

/-! ## A command that is one write access -/

section Access
variable {i : Instr} {s : State} {ag : Agent} {off : Nat} {w : Option Word} {act : Chip → Chip} {d : Chip}

/-- A command that is one write access performs its action with the gate open, where it reaches its register, and completes. -/
theorem exec_access_of_reaches (hi : exec i s = .next (s.withChip (s.chip.busAccess ag off w act)))
    (hr : s.chip.reaches ag off = true) (hd : act (s.chip.openGate off) = d) :
    exec i s = .next (s.withChip (d.emit (.regDone ag off))) := by
  rw [hi, s.chip.busAccess_of_reaches ag off w act hr, hd]

/-- The same for a register in no island with a gate. -/
theorem exec_ungated_access_of_reaches (hi : exec i s = .next (s.withChip (s.chip.busAccess ag off w act)))
    (hr : s.chip.reaches ag off = true) (hn : islandAt off = none) (hd : act s.chip = d) :
    exec i s = .next (s.withChip (d.emit (.regDone ag off))) :=
  exec_access_of_reaches hi hr ((congrArg act (s.chip.openGate_none off hn)).trans hd)

end Access

/-! ## A generation that is not the next (R193) -/

section BadGen
variable (c : Chip) {gen : Nat}

theorem Chip.quotaCommit_badGen (st : Nat) (h : gen ≠ c.nextGen (Reg.QUOTA_ACTIVE_GEN st)) :
    c.quotaCommit st gen = c.setBit (Reg.STN_STATUS st) Bit.STN_STATUS_COMMIT_REJECT := if_neg (fun hok => h hok.1)

theorem Chip.stnMcCommit_badGen (st : Nat) (h : gen ≠ c.nextGen (Reg.STN_MC_ACTIVE_GEN st)) :
    c.stnMcCommit st gen = c.setBit (Reg.STN_STATUS st) Bit.STN_STATUS_MC_COMMIT_REJECT := if_neg h

theorem Chip.twrMcCommit_badGen (h : gen ≠ c.nextGen Reg.TWR_MC_ACTIVE_GEN) :
    c.twrMcCommit gen = c.setBit Reg.TWR_EVENT Bit.TWR_EVENT_COMMIT_REJECT := if_neg h

theorem Chip.poolCommit_badGen (p : Nat) (h : gen ≠ c.nextGen (Reg.POOL_ACTIVE_GEN p)) :
    c.poolCommit p gen = c.setBit (Reg.PRT_EVENT p) Bit.PRT_EVENT_COMMIT_REJECT := if_neg (fun hok => h hok.1)

theorem Chip.rtCommit_badGen (h : gen ≠ c.nextGen Reg.RT_ACTIVE_GEN) : c.rtCommit gen = c.kndReject 0 causeBadGen 0 := if_pos h

theorem Chip.winCommit_badGen (h : gen ≠ c.nextGen Reg.WIN_ACTIVE_GEN) : c.winCommit gen = c.kndReject 1 causeBadGen 0 := if_pos h

theorem Chip.fmcCommit_badGen (h : gen ≠ c.nextGen Reg.FMC_ACTIVE_GEN) : c.fmcCommit gen = c.kndReject 2 causeBadGen 0 := if_pos h

theorem Chip.secCommit_badGen (h : gen ≠ c.nextGen Reg.SEC_ACTIVE_GEN) : c.secCommit gen = c.secReject causeBadGen 0 [] := if_pos h

theorem Chip.schCommit_badGen (h : gen ≠ c.nextGen Reg.SCH_ACTIVE_GEN) : c.schCommit gen = c.schReject 1 0 := if_pos h

end BadGen

/-- Settles O31: each commit is one write access, and its first check is the generation; the blocks of the Tower, the fabric, the
sectors and the scheduler lie in no island with a gate. -/
theorem commitsOfAnotherGenerationAreRejected : Obligations.CommitsOfAnotherGenerationAreRejected := by
  refine ⟨fun s ag st gen hr hg => ?_, fun s ag st gen hr hg => ?_, fun s ag gen hr hg => ?_, fun s ag p gen hr hg => ?_,
    fun s ag gen hr hg => ?_, fun s ag gen hr hg => ?_, fun s ag gen hr hg => ?_, fun s ag gen hr hg => ?_, fun s ag gen hr hg => ?_⟩
  · exact exec_access_of_reaches rfl hr (Chip.quotaCommit_badGen _ st hg)
  · exact exec_access_of_reaches rfl hr (Chip.stnMcCommit_badGen _ st hg)
  · exact exec_ungated_access_of_reaches rfl hr (by decide) (Chip.twrMcCommit_badGen _ hg)
  · exact exec_access_of_reaches rfl hr (Chip.poolCommit_badGen _ p hg)
  · exact exec_ungated_access_of_reaches rfl hr (by decide) (Chip.rtCommit_badGen _ hg)
  · exact exec_ungated_access_of_reaches rfl hr (by decide) (Chip.winCommit_badGen _ hg)
  · exact exec_ungated_access_of_reaches rfl hr (by decide) (Chip.fmcCommit_badGen _ hg)
  · exact exec_ungated_access_of_reaches rfl hr (by decide) (Chip.secCommit_badGen _ hg)
  · exact exec_ungated_access_of_reaches rfl hr (by decide) (Chip.schCommit_badGen _ hg)

end Sys2Proof.Machine
end

section
/-!
PROOFS. What arrives on a PCIe port (chapter 03, R66, R67, R183, R250, R406): flits and their shares, the TLPs that are looked up,
and reads of the expansion ROM BAR.
-/
namespace Sys2Proof.Machine

/-! ## Counters -/

/-- A count of another index stands: the low six bits of a key are its index. -/
theorem Chip.ctr_ctrAdd_other (c : Chip) (kind kind' i i' n : Nat) {idx idx' : Nat} (h : idx' < 64) (h' : idx < 64) (hne : idx' ≠ idx) :
    (c.ctrAdd kind i idx n).ctr kind' i' idx' = c.ctr kind' i' idx' :=
  SMap.get_set_other _ _ _ _ (by unfold ctrKey; omega)

/-! ## The report of an error (R102) -/

@[simp] theorem Chip.setCfgBit_sw (c : Chip) (v fn key : Nat) (bit : Option Nat) : (c.setCfgBit v fn key bit).sw = c.sw := by
  cases bit <;> rfl

@[simp] theorem Chip.aer_sw (c : Chip) (v : Nat) (vbr : Option Nat) (e : AerErr) : (c.aer v vbr e).sw = c.sw := by
  simp [Chip.aer]

@[simp] theorem Chip.aerPort_sw (c : Chip) (p : Nat) (e : AerErr) : (c.aerPort p e).sw = c.sw := by
  unfold Chip.aerPort
  split
  · split
    · exact c.aer_sw _ _ e
    · rfl
  · exact (List.foldl_hom (g₂ := fun w _ => w) Chip.sw (fun d (b : Nat × Nat) => (d.aer_sw b.1 (some b.2) e).symm)).symm.trans
      (List.foldl_fixed _)

/-! ## Flits (R66, R67) -/

theorem exec_pcieFlitReceived (p : Nat) (good : Bool) (segs : List TlpSeg) (fc : List Nat) (s : State) :
    exec (.pcieFlitReceived p good segs fc) s = .next (s.withChip (s.chip.flitIn p good segs fc)) := rfl

section Flit
variable (c : Chip) {p : Nat} (hu : c.portUp p = true) (hs : c.isSpan p = false) (hd : c.dlUp p = true)
include hu hs hd

/-- R66: a good flit returns its credits, unless the return breaks flow control, and gives its shares in order. -/
theorem Chip.flitIn_good (segs : List TlpSeg) (fc : List Nat) : c.flitIn p true segs fc =
    if c.fcBroken p fc then (segs.foldl (fun c g => c.flitSeg p g) c).portError p .flowControlProtocol
    else segs.foldl (fun c g => c.flitSeg p g) (c.creditsIn p fc) := by
  cases hb : c.fcBroken p fc <;> simp [Chip.flitIn, hu, hs, hd, hb]

theorem Chip.flitIn_bad (segs : List TlpSeg) (fc : List Nat) : c.flitIn p false segs fc = c.badFlit p := by
  simp [Chip.flitIn, hu, hs, hd]

/-- A good flit that returns no credits gives its one share. -/
theorem Chip.flitIn_one (g : TlpSeg) : c.flitIn p true [g] [] = c.flitSeg p g := by
  simp [c.flitIn_good hu hs hd, Chip.fcBroken, Chip.creditsIn]

end Flit

/-- With nothing in progress at a port there is nothing to cut short. -/
theorem Chip.cutShort_of_none (c : Chip) (p : Nat) (h : c.sw.rx.find? (fun r => r.port == p && !r.whole) = none) :
    c.cutShort p = c := by
  simp [Chip.cutShort, h]

/-- R67: a flit that fails its check while nothing is in progress is counted, answered by a NAK and reported. -/
theorem Chip.badFlit_of_none (c : Chip) (p : Nat) (h : c.sw.rx.find? (fun r => r.port == p && !r.whole) = none) :
    c.badFlit p = (((c.ctrInc kPort p 4).ctrInc kPort p 5).emit (.dllNak p)).aerPort p .badTlp :=
  Chip.cutShort_of_none _ p (by rw [Chip.aerPort_sw]; exact h)

/-! ## A whole TLP in one flit (R66) -/

/-- What a port has received of a TLP that one share brought whole. -/
def Chip.wholeRx (c : Chip) (p : Nat) (t : Tlp) : Rx :=
  { port := p, tlp := t, len := t.bytes, got := t.bytes, whole := true, t0 := c.now }

/-- A TLP within the advertised credits takes its units and waits in the pool, counted. -/
theorem Chip.flitSeg_whole (c : Chip) (p : Nat) (t : Tlp)
    (hh : c.poolUseOf p (2 * t.creditType) + t.creditH ≤ nth (SMap.get c.pci.adv p []) (2 * t.creditType))
    (hd : c.poolUseOf p (2 * t.creditType + 1) + t.creditD ≤ nth (SMap.get c.pci.adv p []) (2 * t.creditType + 1)) :
    c.flitSeg p { start := some t, bytes := t.bytes, last := true } =
      let d := c.addPool p t.creditType t.creditH t.creditD
      (({ d with sw := { d.sw with rx := d.sw.rx ++ [c.wholeRx p t] } } : Chip).ctrInc kPort p 0).ctrAdd kPort p 2 t.bytes :=
  if_neg (fun hover => hover.elim (Nat.not_lt.mpr hh) (Nat.not_lt.mpr hd))

/-! ## Lookup (R183, R250) -/

theorem exec_pcieTlpReceived (p : Nat) (s : State) : exec (.pcieTlpReceived p) s = .next (s.tlpArrived p) := rfl

/-- What is taken from a port is its oldest TLP that waits, which the filter accepts; the port is not in Fog. -/
theorem Chip.takeRx_some {c d : Chip} {p : Nat} {f : Rx → Bool} {r : Rx} (h : c.takeRx p f = some (r, d)) :
    c.inPortFog p = false ∧ f r = true ∧ ∃ l, takeFirst (c.rxReady p) c.sw.rx = some (r, l) := by
  unfold Chip.takeRx at h
  split at h
  · next r' l hl =>
    split at h
    · next hok =>
      cases h
      simp only [Bool.and_eq_true, Bool.not_eq_true'] at hok
      exact ⟨hok.2, hok.1, l, hl⟩
    · cases h
  · cases h

/-- A TLP that is malformed, or no memory request, names no BAR. -/
theorem Chip.barTlp_of_takeRx {c d : Chip} {p : Nat} {f : Rx → Bool} {r : Rx} (h : c.takeRx p f = some (r, d))
    (hr : (r.tlp.isMem && !r.tlp.isMalformed) = false) : c.barTlp p = none := by
  obtain ⟨-, -, l, hl⟩ := Chip.takeRx_some h
  simp [Chip.barTlp, hl, hr]

/-- R183: a TLP that names no BAR is looked up. -/
theorem exec_pcieTlpReceived_of_lookup (s : State) {p : Nat} {r : Rx} {c : Chip}
    (h : s.chip.takeRx p (fun r => !(r.tlp.kind == .cpl || r.tlp.kind == .cfgRd || r.tlp.kind == .cfgWr)) = some (r, c))
    (hb : s.chip.barTlp p = none) : exec (.pcieTlpReceived p) s = .next (s.withChip (c.receive r)) := by
  rw [exec_pcieTlpReceived, State.tlpArrived, hb]
  simp only [Chip.tlpIn, h]
  rfl

/-- R185: a malformed TLP is dropped and reported. -/
theorem Chip.receive_malformed (c : Chip) (r : Rx) (h : r.tlp.isMalformed = true) :
    c.receive r = ((c.putGone r).ackNow r []).portError r.port .malformedTlp := if_pos h

/-- A locked read or a deferrable write is refused. -/
theorem Chip.receive_refused (c : Chip) (r : Rx) (hm : r.tlp.isMalformed = false) (hk : r.tlp.kind = .mrdLk ∨ r.tlp.kind = .dmwr) :
    c.receive r = ((((c.setBit (Reg.PRT_EVENT r.port) Bit.PRT_EVENT_REFUSED_REQ).refuseAt r.port r.tlp stUR).putGone r).ackNow r
      []).portError r.port .unsupportedRequest := by
  obtain hk | hk := hk <;> simp [Chip.receive, hm, hk]

theorem Tlp.kind_of_isMem {t : Tlp} (h : t.isMem = true) : t.kind ≠ .mrdLk ∧ t.kind ≠ .dmwr := by
  constructor <;> intro hk <;> simp [Tlp.isMem, hk] at h

/-- The looked-up packets of a memory request that a port received for a VSI. -/
def Chip.lookedUp (c : Chip) (r : Rx) (v : Nat) : Submitted :=
  c.submit { st := portStation r.port, src := portLocal r.port, port := r.port, v, path := b2n (!(c.port r.port).up) }
    (!(c.port r.port).up) r.tlp r.t0

/-- Looked-up packets enter the core: they take what has arrived of their TLP, whose units and acknowledgement go their way. -/
def Submitted.enter (m : Submitted) (r : Rx) : Chip :=
  let d := m.c.setPkts (mapIf (fun k => m.uids.contains k.uid) r.fills m.c.sw.pkts)
  let d := ((d.markPartial r m.uids).putRx r m.uids m.back).ackNow r m.uids
  let d := match d.pkt (m.uids.headD 0) with
    | some k => d.sndChoose (portStation r.port) k.uid r.port r.t0 k
    | none => d
  if m.what = 2 then d.dpcOn r.port .acsViolation else d

/-- R183, R250: a memory request of a VSI leaves its looked-up packets behind. -/
theorem Chip.receive_mem (c : Chip) {r : Rx} {v : Nat} (hm : r.tlp.isMalformed = false) (hk : r.tlp.isMem = true)
    (hv : c.whose r.port r.tlp.rid = some v) (ha : (!(c.port r.port).up && c.acsBreaks r.port v r.tlp) = false)
    (hu : (c.lookedUp r v).uids ≠ []) (hw : (c.lookedUp r v).what ≠ 5) : c.receive r = (c.lookedUp r v).enter r := by
  have hne : (c.lookedUp r v).uids.isEmpty = false := by simpa using hu
  obtain ⟨hk1, hk2⟩ := Tlp.kind_of_isMem hk
  have hsub : c.submit { st := portStation r.port, src := portLocal r.port, port := r.port, v, path := b2n (!(c.port r.port).up) }
    (!(c.port r.port).up) r.tlp r.t0 = c.lookedUp r v := rfl
  simp only [Chip.receive, hm, hk, hv, ha, hsub, hne, hw, Bool.and_false, Bool.false_and, Bool.false_eq_true, if_false, if_true]
  rfl

/-! ## The expansion ROM BAR (R406) -/

/-- A whole access to the expansion ROM BAR, charged to its policer, is served. -/
theorem exec_pcieTlpReceived_of_rom (s : State) {p v off : Nat} {r : Rx} {l : List Rx} (h : s.chip.barTlp p = some (r, l, v, .rom off))
    (hw : r.whole = true) : exec (.pcieTlpReceived p) s = .next
      ((s.withChip (({ s.chip with sw := { s.chip.sw with rx := l } } : Chip).policeIn r)).barServe r v (.rom off)) := by
  rw [exec_pcieTlpReceived, State.tlpArrived, h]
  simp [hw, Chip.barHeld, State.withChip]

theorem State.barServe_rom_read (s : State) (r : Rx) (v off : Nat) (h : r.tlp.kind = .mrd) :
    s.barServe r v (.rom off) = s.withChip (s.chip.barRead r v (s.chip.romBytes v off r.tlp.readLen)) := by
  simp [State.barServe, Tlp.isAtomic, h, State.withChip]

theorem State.barServe_rom_write (s : State) (r : Rx) (v off : Nat) (h : r.tlp.kind = .mwr) :
    s.barServe r v (.rom off) = s.withChip (s.chip.barDone r) := by
  simp [State.barServe, Tlp.isAtomic, h, State.withChip]

section Rom
variable (c : Chip) {v i len : Nat} (off : Nat) (hi : i < len)
include hi

/-- All ones while the Keeper is in reset or boot. -/
theorem Chip.romBytes_of_busy (hb : c.keeperBusy (.vsi v) = true) : (c.romBytes v off len)[i]? = some 0xFF := by
  simp [Chip.romBytes, hb, hi]

/-- The image of the list in force, and 0 from its length on. -/
theorem Chip.romBytes_of_list {l : LightList} (hb : c.keeperBusy (.vsi v) = false) (hl : c.ll = some l) :
    (c.romBytes v off len)[i]? = some (if off + i < l.len then l.image.getD (off + i) 0 else 0) := by
  simp [Chip.romBytes, hb, hl, hi]

end Rom

/-- Settles O15 by the case of each arrival; what a flow-control return beyond the outstanding credits does is the model's choice
(log 188). -/
theorem pciePacketsArrive : Obligations.PciePacketsArrive := by
  refine ⟨fun s p segs fc hu hs hd => ?_, fun s p segs fc hu hs hd hn => ?_, fun s p t hu hs hd hh hdat => ?_,
    fun s p r c v h hb hm hk hv ha hsub => ?_, fun s p r c h hm => ?_, fun s p r c h hm hk => ?_,
    fun s p r l v off h hw => ⟨fun hk => ?_, fun hk => ?_⟩,
    fun c v off len i hi => ⟨c.romBytes_of_busy off hi, fun l => c.romBytes_of_list off hi⟩⟩
  · rw [exec_pcieFlitReceived, s.chip.flitIn_good hu hs hd]
  · rw [exec_pcieFlitReceived, s.chip.flitIn_bad hu hs hd, s.chip.badFlit_of_none p hn]
  · refine ⟨_, exec_pcieFlitReceived _ _ _ _ s, ?_⟩
    rw [s.chip.flitIn_one hu hs hd, s.chip.flitSeg_whole p t hh hdat]
    refine ⟨rfl, ?_, ?_, rfl, rfl, rfl⟩
    · exact (Chip.ctr_ctrAdd_other _ _ _ _ _ _ (by decide) (by decide) (by decide)).trans (Chip.ctr_ctrAdd_same _ _ _ _ _)
    · exact (Chip.ctr_ctrAdd_same _ _ _ _ _).trans
        (congrArg (fun n => (n + t.bytes) % 2 ^ 48) (Chip.ctr_ctrAdd_other s.chip _ _ _ _ _ (by decide) (by decide) (by decide)))
  · obtain ⟨hu, hw⟩ := hsub
    rw [exec_pcieTlpReceived_of_lookup s h hb, c.receive_mem hm hk hv ha hu hw]
    rfl
  · rw [exec_pcieTlpReceived_of_lookup s h (Chip.barTlp_of_takeRx h (by simp [hm])), c.receive_malformed r hm]
  · have hmem : r.tlp.isMem = false := by
      obtain hk | hk := hk <;> simp [Tlp.isMem, hk]
    rw [exec_pcieTlpReceived_of_lookup s h (Chip.barTlp_of_takeRx h (by simp [hmem])), c.receive_refused r hm hk]
  · rw [exec_pcieTlpReceived_of_rom s h hw, State.barServe_rom_read _ r v off hk]
    rfl
  · rw [exec_pcieTlpReceived_of_rom s h hw, State.barServe_rom_write _ r v off hk]
    rfl

end Sys2Proof.Machine
end

section
/-!
PROOFS. What a port sends (chapters 02, 03 and 10, R69, R86, R87, R224, R311 to R317): its choice, the transmission of a whole
packet, an underrun, and the requests that wait for an entry.
-/
namespace Sys2Proof.Machine

/-! ## The scheduler's choice (R311 to R317) -/

theorem exec_schedulerChoice (p : Nat) (s : State) : exec (.schedulerChoice p) s = .next (s.withChip (s.chip.choose p)) := rfl

/-- The module whose port `p` has been charged for packet `x` of class `v`. -/
def Chip.chargedFor (c : Chip) (p v : Nat) (x : ObEnt × Pkt) : Chip := ((c.syncPort p).chargeChoice p v x).sndPoint x.1.uid 6

section Choice
variable (c : Chip) {p v : Nat} {x : ObEnt × Pkt} (hu : c.portUp p = true) (hb : c.busyPort p = false)
  (hv : (c.syncPort p).classChoice p = some v) (hx : (c.syncPort p).classCand p v = some x)
include hu hb hv hx

/-- A chosen packet that needs no entry begins its transmission at a PCIe port. -/
theorem Chip.choose_begins (hn : (c.chargedFor p v x).needsEntry p x.2 = false) (hs : (c.chargedFor p v x).isSpan p = false) :
    c.choose p =
      let d := c.chargedFor p v x
      (({ d with sw := { d.sw with
        obq := mapIf (fun e => e.uid == x.1.uid && e.port == p) (fun e => { e with begun := true }) d.sw.obq } } : Chip).tagsAfter
          p v x.1.vsi).syncPort p := by
  simp only [Chip.chargedFor] at hn hs ⊢
  simp only [Chip.choose, hu, hb, hv, hx, hn, hs, Bool.not_true, Bool.or_self, Bool.false_eq_true, if_false]

/-- A chosen request that needs an entry joins the NP wait list (R86). -/
theorem Chip.choose_waits (hn : (c.chargedFor p v x).needsEntry p x.2 = true) : c.choose p =
    let d := c.chargedFor p v x
    ((({ d with sw := { d.sw with npWait := d.sw.npWait ++ [(p, x.1.uid)] } } : Chip).updNpStop p).tagsAfter p v x.1.vsi).syncPort
      p := by
  simp only [Chip.chargedFor] at hn ⊢
  simp only [Chip.choose, hu, hb, hv, hx, hn, Bool.not_true, Bool.or_self, Bool.false_eq_true, if_false, if_true]

end Choice

/-! ## The packet in transmission (R69, R313) -/

theorem exec_packetTransmitted (p : Nat) (s : State) :
    exec (.packetTransmitted p) s = .next (s.withChip (s.chip.transmitted p)) := rfl

theorem exec_egressUnderrun (p : Nat) (s : State) : exec (.egressUnderrun p) s = .next (s.withChip (s.chip.underrun p)) := rfl

section InTransmission
variable (c : Chip) {p : Nat} {e : ObEnt} {k : Pkt} (he : c.sw.obq.find? (fun e => e.port == p && e.begun) = some e)
  (hk : c.pkt e.uid = some k)
include he hk

/-- R313: a packet that is there in full is transmitted whole. -/
theorem Chip.transmitted_of_full (hf : e.full = true) (hn : e.null = false) : c.transmitted p = c.transmit p e k := by
  simp [Chip.transmitted, he, hk, hf, hn]

/-- R69: a packet whose cells run dry at a PCIe port is nullified on the wire and begins again, whole, later. -/
theorem Chip.underrun_pcie (hf : e.full = false) (hs : c.isSpan p = false) : c.underrun p =
    (((({ c with sw := { c.sw with
      obq := mapIf (fun x => x.uid == e.uid && x.port == p) (fun x => { x with begun := false, underrun := true }) c.sw.obq } } :
      Chip).stCtr p 37).emit (.tlp p k.tlp true)).ctrInc kPort p 12) := by
  simp only [Chip.underrun, he, hk, hf, Bool.false_eq_true, if_false]
  exact if_neg (Bool.eq_false_iff.mp hs)

end InTransmission

/-! ## Requests that wait for an entry (R86, R87, R224) -/

theorem exec_ortEntryAllocate (p tag : Nat) (s : State) :
    exec (.ortEntryAllocate p tag) s = .next (s.withChip (s.chip.allocEntry p tag)) := rfl

/-- A PCIe port may send the packet of an output entry now. -/
structure Chip.PcieMaySend (c : Chip) (p : Nat) (e : ObEnt) (k : Pkt) : Prop where
  up : c.portUp p = true
  idle : c.busyPort p = false
  noFog : c.inPortFog p = false
  opened : c.closedPort p = false
  pcie : c.isSpan p = false
  credit : c.noCredit p k = false
  full : e.full = true
  sound : e.null = false

section Waiting
variable (c : Chip) {p uid : Nat} (tag : Nat) {e : ObEnt} {k : Pkt} (hw : c.sw.npWait.find? (fun w => w.1 == p) = some (p, uid))
  (he : c.sw.obq.find? (fun e => e.uid == uid && e.port == p) = some e) (hk : c.pkt uid = some k) (hm : c.PcieMaySend p e k)
include hw he hk hm

/-- What happens to the request that waits longest depends on its entry alone. -/
theorem Chip.allocEntry_of_maySend : c.allocEntry p tag =
    if !c.needsEntry p k then c.transmit p e k
    else if !c.entryOk p tag k then c
    else (c.makeEntry p tag k).1.transmit p e (c.makeEntry p tag k).2 := by
  obtain ⟨hup, hidle, hfog, hopen, hpcie, hcredit, hfull, hnull⟩ := hm
  simp only [Chip.allocEntry, hw, he, hk, hup, hidle, hfog, hopen, hpcie, hcredit, hfull, hnull, Bool.not_true, Bool.or_self,
    Bool.false_eq_true, if_false]

/-- R86, R87: a request that takes the free tag goes out remapped. -/
theorem Chip.allocEntry_maps (hn : c.needsEntry p k = true) (hok : c.entryOk p tag k = true) :
    c.allocEntry p tag = (c.makeEntry p tag k).1.transmit p e (c.makeEntry p tag k).2 := by
  simp only [c.allocEntry_of_maySend tag hw he hk hm, hn, hok, Bool.not_true, Bool.false_eq_true, if_false]

/-- R224: a request that another packet of its copy has mapped takes no entry. -/
theorem Chip.allocEntry_mapped (hn : c.needsEntry p k = false) : c.allocEntry p tag = c.transmit p e k := by
  simp only [c.allocEntry_of_maySend tag hw he hk hm, hn, Bool.not_false, if_true]

end Waiting

/-- Settles O19: the choice by what the chosen packet needs, the packet in transmission by whether it is there in full, and the
waiting request by whether it still needs its entry. -/
theorem portsSendTheirPackets : Obligations.PortsSendTheirPackets := by
  refine ⟨fun s p v x hu hb hv hx hn hs => ?_, fun s p v x hu hb hv hx hn => ?_, fun s p e k he hk hf hn => ?_,
    fun s p e k he hk hf hs => ⟨_, exec_egressUnderrun p s, ?_⟩,
    fun s p tag uid e k hw he hk hu hb hfog hcl hs hcr hf hnull => ?_⟩
  · rw [exec_schedulerChoice, s.chip.choose_begins hu hb hv hx hn hs]
    rfl
  · rw [exec_schedulerChoice, s.chip.choose_waits hu hb hv hx hn]
    rfl
  · rw [exec_packetTransmitted, s.chip.transmitted_of_full he hk hf hn]
  · rw [s.chip.underrun_pcie he hk hf hs]
    refine ⟨rfl, rfl, rfl, rfl, rfl, (Chip.ctr_ctrAdd_same _ _ _ _ _).trans ?_⟩
    exact congrArg (fun n => (n + 1) % 2 ^ 48) (Chip.ctr_ctrAdd_other s.chip _ _ _ _ _ (by decide) (by decide) (by decide))
  · have hm : s.chip.PcieMaySend p e k := ⟨hu, hb, hfog, hcl, hs, hcr, hf, hnull⟩
    refine ⟨fun hn hok => ?_, fun hn => ?_⟩
    · rw [exec_ortEntryAllocate, s.chip.allocEntry_maps tag hw he hk hm hn hok]
    · rw [exec_ortEntryAllocate, s.chip.allocEntry_mapped tag hw he hk hm hn]

end Sys2Proof.Machine
end

section
/-!
PROOFS. Completions and timers of a PCIe port (chapter 03, R89, R90, R93, R102, R216): the match of a whole completion, the
acknowledgement of a posted packet, the replay and completion timers, and the quarantine of a tag.
-/
namespace Sys2Proof.Machine

/-! ## The match of a completion (R89 to R91) -/

/-- With no bit error and no injected fault an access to an entry changes nothing and may use it. -/
theorem Chip.ortAccess_of_sound (c : Chip) (p : Nat) {e : OrtEnt} (he : e.ecc = 0) (hi : c.saf.inject = none) :
    c.ortAccess p (some e) = (c, true) := by
  simp [Chip.ortAccess, Chip.injected, he, hi]

/-- R89: a completion that an entry expects counts against it. -/
theorem Chip.matchCpl_of_entry (c : Chip) {p : Nat} {t : Tlp} {e : OrtEnt} (fill : Pkt → Pkt) (back : Chip → Chip)
    (ho : c.ortFor p t = some e) (he : e.ecc = 0) (hi : c.saf.inject = none) :
    c.matchCpl p t fill back = some (c.cplCounts e t fill back) := by
  simp [Chip.matchCpl, ho, c.ortAccess_of_sound p he hi]

/-- R90: neither an entry nor a quarantined tag matches the completion. -/
theorem Chip.matchCpl_of_none (c : Chip) {p : Nat} {t : Tlp} (fill : Pkt → Pkt) (back : Chip → Chip)
    (ho : c.ortFor p t = none) (hq : c.quarFor p t = none) : c.matchCpl p t fill back = none := by
  simp [Chip.matchCpl, ho, hq]

theorem exec_completionReceived (p : Nat) (s : State) :
    exec (.completionReceived p) s = .next (s.withChip (s.chip.cplIn p)) := rfl

section Whole
variable (c : Chip) {p : Nat} {r : Rx} {d : Chip} (h : c.takeRx p (fun r => r.tlp.kind == .cpl && r.whole) = some (r, d))
  (hm : r.tlp.isMalformed = false)
include h hm

theorem Chip.cplIn_of_entry {e : OrtEnt} (ho : d.ortFor p r.tlp = some e) (hb : e.badCpl r.tlp = false) (he : e.ecc = 0)
    (hi : d.saf.inject = none) : c.cplIn p =
      let x := d.cplCounts e r.tlp (fun k => r.fills (cplFill p d.sw.nextUid r.tlp k)) (fun x => x.rxBack r)
      (if e.relay.isSome then x.policeIn r else x).ackCpl p d.sw.nextUid := by
  simp only [Chip.cplIn, h, hm, d.matchCpl_of_entry _ _ ho he hi, ho, Option.any_some, hb, Bool.or_self, Bool.false_eq_true, if_false]

theorem Chip.cplIn_of_none (ho : d.ortFor p r.tlp = none) (hq : d.quarFor p r.tlp = none) :
    c.cplIn p = ((d.unexpCpl p r.tlp).rxBack r).emit (.dllAck p) := by
  simp only [Chip.cplIn, h, hm, d.matchCpl_of_none _ _ ho hq, ho, Option.any_none, Bool.or_self, Bool.false_eq_true, if_false]

end Whole

/-! ## Acknowledgements and replay (R102, R216) -/

theorem exec_pcieTlpAcked (p : Nat) (s : State) : exec (.pcieTlpAcked p) s = .next (s.withChip (s.chip.tlpAcked p)) := rfl

theorem Chip.tlpAcked_of_first (c : Chip) {p : Nat} {u : Unacked} {l : List Unacked}
    (h : takeFirst (fun u => u.port == p) c.pci.unacked = some (u, l)) :
    c.tlpAcked p = ({ c with pci := { c.pci with unacked := l } } : Chip).dischargeOpt u.rel := by
  simp only [Chip.tlpAcked, h]

theorem exec_pcieReplayTimeout (p : Nat) (rollover : Bool) (s : State) :
    exec (.pcieReplayTimeout p rollover) s = .next (s.withChip (s.chip.pcieReplayTimeout p rollover)) := rfl

/-- R102: a replay timeout is counted and reported, and so is a rollover with it. -/
theorem Chip.pcieReplayTimeout_of_dlUp (c : Chip) {p : Nat} (rollover : Bool) (hd : c.dlUp p = true) (hs : c.isSpan p = false) :
    c.pcieReplayTimeout p rollover =
      let d := (c.ctrInc kPort p 7).aerPort p .replayTimer
      if rollover then (d.ctrInc kPort p 8).aerPort p .replayRollover else d :=
  if_pos (by simp [hd, hs])

/-! ## The completion timer and quarantine (R93) -/

/-- What a port answers depends on its PRT_CTRL alone. -/
theorem Chip.synth_congr {a b : Chip} {p : Nat} (h : b.rd (Reg.PRT_CTRL p) = a.rd (Reg.PRT_CTRL p)) : b.synth p = a.synth p := by
  have hf : b.flag (Reg.PRT_CTRL p) Bit.PRT_CTRL_SYNTH_UR = a.flag (Reg.PRT_CTRL p) Bit.PRT_CTRL_SYNTH_UR :=
    congrArg (fun w => getF w Bit.PRT_CTRL_SYNTH_UR != 0) h
  rw [Chip.synth, hf, Chip.synth]

theorem exec_ctoExpiry (p tag : Nat) (s : State) : exec (.ctoExpiry p tag) s = .next (s.withChip (s.chip.ctoExpiry p tag)) := rfl

/-- R93: an entry whose timer has run out, and for which no completion waits, is answered, counted and reported. -/
theorem Chip.ctoExpiry_of_due (c : Chip) {p tag : Nat} {e : OrtEnt}
    (ho : c.pci.ort.find? (fun e => e.port == p && e.mapTag == tag) = some e) (hd : c.due (.cto p tag) = true)
    (hp : c.cplPending e = false) (he : e.ecc = 0) (hi : c.saf.inject = none) : c.ctoExpiry p tag =
      ((((c.setBit (Reg.PRT_EVENT p) Bit.PRT_EVENT_CTO_ANSWER).stCtr p 46).aerPort p .completionTimeout).answerEntry e
        (c.synth p)).dpcOn p .completionTimeout := by
  have hsynth : ((c.setBit (Reg.PRT_EVENT p) Bit.PRT_EVENT_CTO_ANSWER).stCtr p 46).synth p = c.synth p :=
    Chip.synth_congr (c.rd_setBit_other Bit.PRT_EVENT_CTO_ANSWER (by simp only [Reg.PRT_CTRL, Reg.PRT_EVENT]; omega))
  simp only [Chip.ctoExpiry, ho, hd, hp, c.ortAccess_of_sound p he hi, hsynth, Bool.not_true, Bool.or_self, Bool.false_eq_true,
    if_false, if_true]

theorem Chip.due_disarm_same (c : Chip) (t : TimerId) : (c.disarm t).due t = false :=
  Bool.eq_false_iff.mpr fun h => by simpa using Chip.armed_of_due _ t h

theorem Chip.due_disarm_other (c : Chip) {t u : TimerId} (h : u ≠ t) : (c.disarm t).due u = c.due u := by
  rw [Bool.eq_iff_iff]
  simp only [Chip.due, Chip.disarm, List.any_eq_true, List.mem_filter, Bool.and_eq_true, decide_eq_true_eq]
  exact ⟨fun ⟨e, ⟨he, _⟩, hu, hle⟩ => ⟨e, he, hu, of_decide_eq_true hle⟩,
    fun ⟨e, he, hu, hle⟩ => ⟨e, ⟨he, hu ▸ h⟩, hu, decide_eq_true hle⟩⟩

theorem exec_quarantineEnd (p tag : Nat) (s : State) :
    exec (.quarantineEnd p tag) s = .next (s.withChip (s.chip.quarantineEnd p tag)) := rfl

/-- R93: a quarantined tag whose time is up returns to the pool. -/
theorem Chip.quarantineEnd_of_due (c : Chip) {p tag : Nat} (hd : c.due (.quarantine p tag) = true) : c.quarantineEnd p tag =
    ({ c with pci := { c.pci with quar := c.pci.quar.filter (fun q => !(q.port == p && q.tag == tag)) } } : Chip).disarm
      (.quarantine p tag) := if_pos hd

/-- Settles O16: a whole completion by what it matches, the others by the entry, packet or timer that each of them finds. -/
theorem pcieCompletionsAndTimers : Obligations.PcieCompletionsAndTimers := by
  refine ⟨fun s p r c e h hm ho hb he hi => ?_, fun s p r c h hm ho hq => ?_, fun s p u l h => ?_,
    fun s p hd hs => ⟨?_, ?_⟩, fun s p tag e ho hd hp he hi => ?_,
    fun s p tag hd => ⟨_, exec_quarantineEnd p tag s, ?_⟩⟩
  · rw [exec_completionReceived, s.chip.cplIn_of_entry h hm ho hb he hi]
  · rw [exec_completionReceived, s.chip.cplIn_of_none h hm ho hq]
  · rw [exec_pcieTlpAcked, s.chip.tlpAcked_of_first h]
  · rw [exec_pcieReplayTimeout, s.chip.pcieReplayTimeout_of_dlUp false hd hs]
    rfl
  · rw [exec_pcieReplayTimeout, s.chip.pcieReplayTimeout_of_dlUp true hd hs]
    rfl
  · rw [exec_ctoExpiry, s.chip.ctoExpiry_of_due ho hd hp he hi]
  · rw [State.withChip_chip, s.chip.quarantineEnd_of_due hd]
    exact ⟨rfl, Chip.due_disarm_same _ _, fun x hx => Chip.due_disarm_other _ hx, rfl, rfl, rfl, rfl, rfl⟩

end Sys2Proof.Machine
end

section
/-!
PROOFS. Cable presence and port control (chapters 03, 05 and 18, R92, R101, R166, R167, R471, R472): PRSNT_N of a site, PERST_N,
LINK_DISABLE and RETRAIN.
-/
namespace Sys2Proof.Machine

/-! ## What a log entry leaves -/

@[simp] theorem Chip.log_map (c : Chip) (code : LogCode) (key det : List Nat) : (c.log code key det).map = c.map :=
  (congrArg Chip.map (Chip.SameButLog.log c code key det).rest :)

@[simp] theorem Chip.log_pci (c : Chip) (code : LogCode) (key det : List Nat) : (c.log code key det).pci = c.pci :=
  (congrArg Chip.pci (Chip.SameButLog.log c code key det).rest :)

/-! ## Presence (R471, R472) -/

theorem exec_prsntChange (site : Nat) (low : Bool) (ident : Option (List Nat)) (s : State) :
    exec (.prsntChange site low ident) s = .next (s.withChip (s.chip.prsntChange site low ident)) := rfl

theorem Chip.prsntChange_same (c : Chip) {site : Nat} {low : Bool} (ident : Option (List Nat))
    (h : c.pci.prsnt.contains site = low) : c.prsntChange site low ident = c :=
  if_pos (by rw [h, beq_self_eq_true])

/-- The module once PRSNT_N of a site reads `low`, with the identity that its cable gave. -/
def Chip.sitePresent (c : Chip) (site : Nat) (low : Bool) (ident : Option (List Nat)) : Chip :=
  { c with pci := { c.pci with
    prsnt := if low then site :: c.pci.prsnt else c.pci.prsnt.erase site
    cableId := SMap.set c.pci.cableId site (if low then ident else none) none } }

/-- What a change at a site does for its lead port: the mismatch is forgotten, the change logged, an arriving cable read, and
the presence shown. -/
def Chip.leadPresence (c : Chip) (site p : Nat) (low : Bool) (ident : Option (List Nat)) : Chip :=
  let c : Chip := { c with pci := { c.pci with cableBad := c.pci.cableBad.erase p } }
  let c := c.log .presence [site] [b2n low]
  let c := if low && c.keeperRuns then c.readCable site ident else c
  if (c.port p).up then c else c.syncPresence p

section Change
variable (c : Chip) {site : Nat} {low : Bool} (ident : Option (List Nat)) (h : c.pci.prsnt.contains site = !low)
include h

/-- The lead port of a site follows from the port map alone, so that the change does not move it. -/
theorem Chip.prsntChange_noLead (hl : c.leadOf site = none) : c.prsntChange site low ident = c.sitePresent site low ident := by
  have hl' : (c.sitePresent site low ident).leadOf site = none := hl
  simp only [Chip.sitePresent] at hl' ⊢
  simp only [Chip.prsntChange, h, hl', Bool.not_beq_self, Bool.false_eq_true, if_false]

theorem Chip.prsntChange_lead {p : Nat} (hl : c.leadOf site = some p) :
    c.prsntChange site low ident = (c.sitePresent site low ident).leadPresence site p low ident := by
  have hl' : (c.sitePresent site low ident).leadOf site = some p := hl
  simp only [Chip.sitePresent] at hl' ⊢
  simp only [Chip.prsntChange, h, hl', Bool.not_beq_self, Bool.false_eq_true, if_false]
  rfl

end Change

theorem exec_cableMismatch (p : Nat) (s : State) :
    exec (.cableMismatch p) s = .next (s.withChip (s.chip.cableMismatch p)) := rfl

/-- A port whose two PRSNT_N have differed for 100 ms, logged. -/
def Chip.mismatched (c : Chip) (p : Nat) : Chip :=
  ({ c with pci := { c.pci with cableBad := p :: c.pci.cableBad.erase p } } : Chip).log .cableMismatch [p]

/-- R471: such a port is absent. -/
theorem Chip.present_mismatched (c : Chip) (p : Nat) : (c.mismatched p).present p = false := by
  simp [Chip.present, Chip.mismatched]

theorem Chip.cableMismatch_of_differ (c : Chip) {p : Nat} (hp : (c.port p).present = true) (hw : (c.port p).width = 4)
    (hu : (c.port p).up = false) (hlow : ∃ i ∈ c.sitesOf p, c.pci.prsnt.contains i = true)
    (hhigh : ∃ i ∈ c.sitesOf p, c.pci.prsnt.contains i = false) : c.cableMismatch p = (c.mismatched p).syncPresence p := by
  have hls : ((c.sitesOf p).map (fun i => c.pci.prsnt.contains i)).any id = true := by
    simpa using hlow
  have hhs : ((c.sitesOf p).map (fun i => c.pci.prsnt.contains i)).any not = true := by
    simpa using hhigh
  have hup : ((c.mismatched p).port p).up = false := by
    rw [Chip.port, Chip.mismatched, Chip.log_map]
    exact hu
  have hgo : ((c.port p).present && (c.port p).width == 4 &&
      ((c.sitesOf p).map (fun i => c.pci.prsnt.contains i)).any id &&
      ((c.sitesOf p).map (fun i => c.pci.prsnt.contains i)).any not) = true := by
    rw [hp, hw, hls, hhs]
    rfl
  exact (if_pos hgo).trans (if_neg (Bool.eq_false_iff.mp hup))

/-! ## PERST_N (R101) -/

theorem exec_perstAssert (ag : Agent) (p : Nat) (s : State) : exec (.perstAssert ag p) s =
    .next (s.withChip (s.chip.busAccess ag (Reg.PRT_CTRL p) (some (s.chip.wordWith (Reg.PRT_CTRL p) Bit.PRT_CTRL_PERST_ASSERT 1))
      (fun c => c.setPerst p true))) := rfl

/-- R101: PERST_N of a downstream port's sites falls, and the links behind them go down. -/
theorem Chip.setPerst_downstream (c : Chip) {p : Nat} (hp : (c.port p).present = true) (hu : (c.port p).up = false) :
    c.setPerst p true =
      let d := c.setFld (Reg.PRT_CTRL p) Bit.PRT_CTRL_PERST_ASSERT 1
      let d := d.emit (.perst p ((d.sitesOf p).any d.sitePerst))
      (d.siteMates p).foldl (fun (d : Chip) q => if d.isSpan q then d else (d.dropJoint q).linkDown q true) d :=
  if_neg (by show ¬(!(c.port p).present || (c.port p).up) = true; simp [hp, hu])

/-- The port map stands where a gate opens. -/
@[simp] theorem Chip.openGate_map (c : Chip) (off : Nat) : (c.openGate off).map = c.map := by
  unfold Chip.openGate
  dsimp only
  repeat' split
  all_goals rfl

/-! ## LINK_DISABLE (R92, R167) -/

theorem exec_linkDisableSet (ag : Agent) (p : Nat) (s : State) : exec (.linkDisableSet ag p) s =
    .next (s.withChip (s.chip.busAccess ag (Reg.PRT_CTRL p) (some (s.chip.wordWith (Reg.PRT_CTRL p) Bit.PRT_CTRL_LINK_DISABLE 1))
      (fun c => c.linkDisable p))) := rfl

/-- The module with LINK_DISABLE of a port set, out of joint training. -/
def Chip.disabled (c : Chip) (p : Nat) : Chip := (c.setBit (Reg.PRT_CTRL p) Bit.PRT_CTRL_LINK_DISABLE).dropJoint p

section Disable
variable (c : Chip) {p : Nat} (hw : c.flag (Reg.PRT_CTRL p) Bit.PRT_CTRL_LINK_DISABLE = false)
  (hp : ((c.disabled p).port p).present = true)
include hw hp

/-- R92: the link of a PCIe port is idled and lost, and what waits is answered. -/
theorem Chip.linkDisable_pcie (hs : (c.disabled p).isSpan p = false) (hh : (c.disabled p).spanState p ≠ spHeld) :
    c.linkDisable p =
      let d := (c.disabled p).emit (.linkIdle p)
      if d.dlUp p then d.linkDown p true else d.answerPort p := by
  simp only [Chip.disabled] at hp hs hh ⊢
  simp only [Chip.linkDisable, hw, hp, hs, hh, Bool.not_true, Bool.or_self, Bool.false_eq_true, decide_false, if_false]
  rfl

section Span
variable (hs : (c.disabled p).isSpan p = true)
include hs

/-- A port that a span link runs on goes to HELD, through a reset where its link layer has started. -/
theorem Chip.linkDisable_span : c.linkDisable p =
    let d := c.disabled p
    if d.spanState p = spKinit ∨ d.spanState p = spUp ∨ d.spanState p = spRecovery then
      ((d.fullLinkReset p).answerPort p).holdSpan p holdLinkDisable
    else if d.spanState p = spHeld then d
    else (d.answerPort p).holdSpan p holdLinkDisable := by
  simp only [Chip.disabled] at hp hs ⊢
  simp only [Chip.linkDisable, hw, hp, hs, Bool.not_true, Bool.or_self, Bool.true_or, Bool.false_eq_true, if_false, if_true]
  rfl

theorem Chip.linkDisable_started
    (hst : (c.disabled p).spanState p = spKinit ∨ (c.disabled p).spanState p = spUp ∨ (c.disabled p).spanState p = spRecovery) :
    c.linkDisable p = (((c.disabled p).fullLinkReset p).answerPort p).holdSpan p holdLinkDisable :=
  (c.linkDisable_span hw hp hs).trans (if_pos hst)

/-- A port in HELD keeps the cause it is held for (log 191). -/
theorem Chip.linkDisable_held (hst : (c.disabled p).spanState p = spHeld) : c.linkDisable p = c.disabled p := by
  rw [c.linkDisable_span hw hp hs]
  simp [hst, spHeld, spKinit, spUp, spRecovery]

theorem Chip.linkDisable_down (hst : (c.disabled p).spanState p = spDown ∨ (c.disabled p).spanState p = spReset) :
    c.linkDisable p = ((c.disabled p).answerPort p).holdSpan p holdLinkDisable := by
  rw [c.linkDisable_span hw hp hs]
  obtain hst | hst := hst <;> simp [hst, spDown, spReset, spHeld, spKinit, spUp, spRecovery]

end Span
end Disable

theorem exec_linkDisableClear (ag : Agent) (p : Nat) (s : State) : exec (.linkDisableClear ag p) s =
    .next (s.withChip (s.chip.busAccess ag (Reg.PRT_CTRL p) (some (s.chip.wordWith (Reg.PRT_CTRL p) Bit.PRT_CTRL_LINK_DISABLE 0))
      (fun c => c.linkEnable p))) := rfl

/-- R167: a port held for LINK_DISABLE leaves HELD with the bit, through a full link reset. -/
theorem Chip.linkEnable_eq (c : Chip) (p : Nat) : c.linkEnable p =
    let d := c.clrFld (Reg.PRT_CTRL p) Bit.PRT_CTRL_LINK_DISABLE
    if d.spanState p = spHeld ∧ d.holdCause p = holdLinkDisable then d.resetLink p else d := by
  have hclear := c.flag_clrFld_same (Reg.PRT_CTRL p) Bit.PRT_CTRL_LINK_DISABLE (by decide)
  simp only [Chip.linkEnable, Chip.leaveHeld, hclear, Bool.false_eq_true, if_false]

theorem exec_retrain (ag : Agent) (p : Nat) (s : State) : exec (.retrain ag p) s =
    .next (s.withChip (s.chip.busAccess ag (Reg.SPAN_CTRL p) (some (s.chip.wordWith (Reg.SPAN_CTRL p) Bit.SPAN_CTRL_RETRAIN 1))
      (fun c => c.retrain p))) := rfl

/-- R166, R167: RETRAIN resets the link of a span port that is not held. -/
theorem Chip.retrain_of_span (c : Chip) {p : Nat} (hs : c.isSpan p = true) (hh : c.spanState p ≠ spHeld) :
    c.retrain p = c.fullLinkReset p := by
  simp [Chip.retrain, hs, hh]

/-- Settles O29: each field of port control is one write access, and its action goes by the kind and the state of the port. That a
port in HELD keeps the cause it is held for while LINK_DISABLE is set is the model's choice (log 191). -/
theorem cablesAndPortControl : Obligations.CablesAndPortControl := by
  refine ⟨fun s site low ident h => ?_, fun s site low ident c h hc hl => ?_, fun s site p low ident h hl => ?_,
    fun s p hp hw hu hlow hhigh => ⟨s.chip.mismatched p, ?_, s.chip.present_mismatched p, rfl⟩, fun s ag p hr hp hu => ?_,
    fun s ag p c hr hc hw hp hs hh => ?_,
    fun s ag p c hr hc hw hp hs => ⟨fun hst => ?_, fun hst => ?_, fun hst => ?_⟩,
    fun s ag p c hr hc => ⟨?_, ?_⟩, fun s ag p hr hs hh => ?_⟩
  · rw [exec_prsntChange, s.chip.prsntChange_same ident h]
    rfl
  · subst hc
    rw [exec_prsntChange, s.chip.prsntChange_noLead ident h hl]
    rfl
  · rw [exec_prsntChange, s.chip.prsntChange_lead ident h hl]
    rfl
  · rw [exec_cableMismatch, s.chip.cableMismatch_of_differ hp hw hu hlow hhigh]
  · have hmap : ((s.chip.openGate (Reg.PRT_CTRL p)).port p) = s.chip.port p := by
      rw [Chip.port, Chip.openGate_map, Chip.port]
    exact exec_access_of_reaches (exec_perstAssert ag p s) hr (Chip.setPerst_downstream _ (hmap ▸ hp) (hmap ▸ hu))
  · subst hc
    exact exec_access_of_reaches (exec_linkDisableSet ag p s) hr (Chip.linkDisable_pcie _ hw hp hs hh)
  · subst hc
    exact exec_access_of_reaches (exec_linkDisableSet ag p s) hr (Chip.linkDisable_started _ hw hp hs hst)
  · subst hc
    exact exec_access_of_reaches (exec_linkDisableSet ag p s) hr (Chip.linkDisable_held _ hw hp hs hst)
  · subst hc
    exact exec_access_of_reaches (exec_linkDisableSet ag p s) hr (Chip.linkDisable_down _ hw hp hs hst)
  · subst hc
    exact exec_access_of_reaches (exec_linkDisableClear ag p s) hr (Chip.linkEnable_eq _ p)
  · subst hc
    exact Chip.flag_clrFld_same _ _ _ (by decide)
  · exact exec_access_of_reaches (exec_retrain ag p s) hr (Chip.retrain_of_span _ hs hh)

end Sys2Proof.Machine
end

section
/-!
PROOFS. Links and lane quads (chapters 03, 04 and 16, R82, R87, R99, R105, R109, R113, R443, R537): what a PCIe link
does as it falls and rises, the PLL of a quad, training alone in a quad, and the standby of DIM.
-/
namespace Sys2Proof.Machine

/-! ## The loss of a PCIe link (R537) -/

theorem exec_pcieLinkDown (p : Nat) (why : LinkLoss) (s : State) :
    exec (.pcieLinkDown p why) s = .next (s.withChip (s.chip.pcieLinkDown p why)) := rfl

theorem Chip.pcieLinkDown_of_pcie (c : Chip) {p : Nat} (why : LinkLoss) (hs : c.isSpan p = false) :
    c.pcieLinkDown p why = c.linkDown p why.requested := if_neg (Bool.eq_false_iff.mp hs)

/-! ## DPC and DL_Up (R82, R87, R99) -/

theorem exec_dpcRelease (p : Nat) (s : State) : exec (.dpcRelease p) s = .next (s.withChip (s.chip.dpcRelease p)) := rfl

theorem exec_pcieLinkUp (p : Nat) (credits : List Nat) (s : State) :
    exec (.pcieLinkUp p credits) s = .next (s.withChip (s.chip.pcieLinkUp p credits)) := rfl

/-! ## Lane quads (R105) -/

theorem exec_pllLockLost (q : Nat) (s : State) : exec (.pllLockLost q) s = .next (s.withChip (s.chip.pllLost q)) := rfl

/-- What the loss of its quad's PLL does to a port: a span link that has started is reset, a PCIe link is lost, and a port in
training leaves L0. -/
def Chip.losesPll (c : Chip) (p : Nat) : Chip :=
  let c := c.dropJoint p
  if c.isSpan p then
    (if c.spanState p = spKinit ∨ c.spanState p = spUp ∨ c.spanState p = spRecovery then c.fullLinkReset p else c)
  else if c.dlUp p then c.linkDown p false
  else { c with pci := { c.pci with phyUp := c.pci.phyUp.erase p } }

/-- A quad whose PLL has lost lock says so. -/
def Chip.quadUnlocked (c : Chip) (q : Nat) : Chip :=
  ((c.clrFld (Reg.LQ_STATUS q) Bit.LQ_STATUS_PLL_LOCK).setBit (Reg.LQ_EVENT q) Bit.LQ_EVENT_PLL_LOST).log .plLost [q]

theorem Chip.pllLost_of_locked (c : Chip) {q : Nat} (h : c.flag (Reg.LQ_STATUS q) Bit.LQ_STATUS_PLL_LOCK = true) :
    c.pllLost q = ((c.quadUnlocked q).portsOfQuad q).foldl Chip.losesPll (c.quadUnlocked q) := if_neg (by simp [h])

theorem exec_pllRelocked (q : Nat) (s : State) : exec (.pllRelocked q) s = .next (s.withChip (s.chip.pllBack q)) := rfl

theorem Chip.pllBack_of_unlocked (c : Chip) {q p : Nat} (hq : q < 64) (h : c.flag (Reg.LQ_STATUS q) Bit.LQ_STATUS_PLL_LOCK = false)
    (hp : p ∈ c.portsOfQuad q) (hu : c.stUp (portStation p) = true) :
    c.pllBack q = (c.setBit (Reg.LQ_STATUS q) Bit.LQ_STATUS_PLL_LOCK).log .pllBack [q] :=
  if_pos ⟨hq, by simp [h], List.any_eq_true.mpr ⟨p, hp, hu⟩⟩

/-! ## Training alone (R109 to R114) -/

theorem exec_linkTrainingDone (p : Nat) (r : TrainResult) (s : State) :
    exec (.linkTrainingDone p r) s = .next (s.withChip (s.chip.trainingDone p r)) := rfl

theorem exec_jointTrainingTimeout (p : Nat) (s : State) :
    exec (.jointTrainingTimeout p) s = .next (s.withChip (s.chip.jointTimeout p)) := rfl

/-- A port in training has made its offer, out of what it waited for. -/
def Chip.offered (c : Chip) (p : Nat) : Chip := (c.dropJoint p).emit (.offer p ((c.dropJoint p).offerOf p))

section Train
variable (c : Chip) {p : Nat} (hm : c.mayTrain p = true)
include hm

/-- R109: a failure returns the port to Detect and is counted. -/
theorem Chip.trainingDone_fail : c.trainingDone p .fail = (c.offered p).trainFail p := by
  simp only [Chip.trainingDone, hm, Bool.not_true, Bool.false_eq_true, if_false, if_true]
  rfl

/-- A port with no partner in its quad takes its result within what it may run. -/
theorem Chip.trainingDone_alone {r : TrainResult} (hr : r ≠ .fail) (hq : c.quadMate p = none) : c.trainingDone p r =
    (c.offered p).applyTraining p ((c.offered p).limited p r).rate ((c.offered p).limited p r) := by
  have hq' : (c.offered p).quadMate p = none := hq
  have halone : ∀ x, (c.offered p).trained p x = (c.offered p).applyTraining p x.rate x := fun x => by
    simp only [Chip.trained, hq']
  have hgo : c.trainingDone p r = (c.offered p).trained p ((c.offered p).limited p r) := by
    simp only [Chip.trainingDone, hm, hr, Bool.not_true, Bool.false_eq_true, if_false]
    rfl
  rw [hgo, halone]

/-- R113: a port whose partner has no result leaves the joint training after 24 ms. -/
theorem Chip.jointTimeout_noResult {q : Nat} (hq : c.quadMate p = some q) (hj : c.pci.joint.find? (fun j => j.1 == q) = none) :
    c.jointTimeout p = { c with pci := { c.pci with jointLeft := p :: c.pci.jointLeft.erase p } } := by
  simp only [Chip.jointTimeout, hm, hq, hj, Bool.not_true, Bool.false_eq_true, if_false]

end Train

/-! ## DIM (R443) -/

theorem exec_dimReceiverDetect (q : Nat) (partner : Bool) (s : State) :
    exec (.dimReceiverDetect q partner) s = .next (s.withChip (s.chip.dimDetect q partner)) := rfl

theorem Chip.dimDetect_of_idle (c : Chip) {q : Nat} (partner : Bool)
    (hd : c.fld Reg.GLB_PWR_STATUS Bit.GLB_PWR_STATUS_STATE = 1) (hi : c.quadIdle q = true) : c.dimDetect q partner =
      { c with pwr := { c.pwr with
        standbyQuads := if partner then c.pwr.standbyQuads.erase q else q :: c.pwr.standbyQuads.erase q } } :=
  if_neg (by simp [hd, hi])

/-- Settles O30: a PCIe link by whether its loss was asked for, a quad by its lock, and a port by what its training found. That the
time-out of joint training comes from outside the timers (log 57), and that an idle quad goes into standby at the detection that
finds no partner (log 183), are the model's choices. Where a link falls or rises, the model and the statement each match on the VSI
that owns the port: with the lookup held abstract the two are compared as they stand. -/
theorem linksTrainAndFall : Obligations.LinksTrainAndFall := by
  refine ⟨fun s p why hs hd hw => ?_, fun s p why c hs hd hw hc => ?_, fun s p => ⟨_, exec_dpcRelease p s, ?_⟩,
    fun s p cr hp hd => ?_, fun s q h => ?_, fun s q p hq h hp hu => ?_, fun s p hm => ?_, fun s p r hm hr hq => ?_,
    fun s p q hm hq hj => ?_, fun s q partner hd hi => ?_⟩
  · rw [exec_pcieLinkDown, s.chip.pcieLinkDown_of_pcie why hs, hw, Chip.linkDown, if_neg (by simp [hd])]
    generalize Chip.vsiOfPort = owner
    simp only [b2n, Bool.not_true, Bool.false_and, Bool.false_eq_true, if_false, if_true] <;> rfl
  · subst hc
    rw [exec_pcieLinkDown, s.chip.pcieLinkDown_of_pcie why hs, hw, Chip.linkDown, if_neg (by simp [hd])]
    generalize Chip.vsiOfPort = owner
    simp only [b2n, Bool.not_false, Bool.true_and, Bool.false_eq_true, if_false] <;> rfl
  · exact ⟨Chip.flag_clrFld_same _ _ _ (by decide), Chip.flag_setFld_otherField _ _ _ _ (by decide) (by decide),
      fun o ho => Chip.rd_clrFld_other _ _ ho, rfl, rfl, rfl, rfl, rfl⟩
  · have hup : ¬(!s.chip.pci.phyUp.contains p || s.chip.dlUp p) = true := by rw [hp, hd]; decide
    rw [exec_pcieLinkUp, Chip.pcieLinkUp]
    generalize Chip.vsiOfPort = owner
    rw [if_neg hup] <;> rfl
  · rw [exec_pllLockLost, s.chip.pllLost_of_locked h]
    rfl
  · rw [exec_pllRelocked, s.chip.pllBack_of_unlocked hq h hp hu]
  · rw [exec_linkTrainingDone, s.chip.trainingDone_fail hm]
    rfl
  · rw [exec_linkTrainingDone, s.chip.trainingDone_alone hm hr hq]
    rfl
  · rw [exec_jointTrainingTimeout, s.chip.jointTimeout_noResult hm hq hj]
  · rw [exec_dimReceiverDetect, s.chip.dimDetect_of_idle partner hd hi]

end Sys2Proof.Machine
end

section
/-!
PROOFS. The frames of the Beacon Ring (chapter 04, R120, R122, R355): what a frame leaves as it was, and its mark on each ring.
-/
namespace Sys2Proof.Machine

/-! ## The rings -/

/-- The two rings are ring 0 and any other number. -/
theorem Chip.ring_putRing (c : Chip) (r q : Nat) (x : Ring) :
    (c.putRing r x).ring q = if (q = 0 ↔ r = 0) then x else c.ring q := by
  by_cases hr : r = 0 <;> by_cases hq : q = 0 <;> simp [Chip.putRing, Chip.ring, hr, hq]

@[simp] theorem Chip.ring_putRing_same (c : Chip) (r : Nat) (x : Ring) : (c.putRing r x).ring r = x := by
  simp [Chip.ring_putRing]

/-- A queued message is an update of its ring. -/
theorem Chip.beaconQ_eq (c : Chip) (r : Nat) (m : BeaconMsg) :
    c.beaconQ r m = c.putRing r { c.ring r with q := (c.ring r).q ++ [m] } := by
  unfold Chip.beaconQ Chip.putRing Chip.ring
  split <;> rfl

/-! ## What a frame leaves as it was -/

/-- Two chips that differ at most in the rings' state, the number of the next message, BCN_STATUS and BCN_ERR: the module is
master in both or in neither, and the same marks wait to go on. -/
structure Chip.SameButRings (a b : Chip) : Prop where
  regs : ∀ o, o ≠ Reg.BCN_STATUS → o ≠ Reg.BCN_ERR → b.rd o = a.rd o
  master : b.isMaster = a.isMaster
  fwd : ∀ r, (b.ring r).fwd = (a.ring r).fwd
  rest : { b with regs := a.regs, bcn := { b.bcn with
    ring0 := a.bcn.ring0, ring1 := a.bcn.ring1, seq := a.bcn.seq } } = a

namespace Chip.SameButRings

theorem refl (a : Chip) : a.SameButRings a := ⟨fun _ _ _ => rfl, rfl, fun _ => rfl, rfl⟩

theorem trans {a b c : Chip} (h : a.SameButRings b) (h' : b.SameButRings c) : a.SameButRings c where
  regs o h1 h2 := (h'.regs o h1 h2).trans (h.regs o h1 h2)
  master := h'.master.trans h.master
  fwd r := (h'.fwd r).trans (h.fwd r)
  rest := by rw [← h.rest, ← h'.rest]

/-- A part of the chip that lies outside the registers and the rings stands. -/
theorem part {α : Type} {a b : Chip} (h : a.SameButRings b) (p : Chip → α) (hp : p { b with regs := a.regs, bcn := { b.bcn with
    ring0 := a.bcn.ring0, ring1 := a.bcn.ring1, seq := a.bcn.seq } } = p b) : p b = p a :=
  hp.symm.trans (congrArg p h.rest)

/-- The mark of the next frame is the same. -/
theorem nextMark {a b : Chip} (h : a.SameButRings b) (r : Nat) : b.nextMark r = a.nextMark r := by
  have hown : b.ownModule = a.ownModule := congrArg (getF · _) (h.regs Reg.KND_ID (by decide) (by decide))
  simp only [Chip.nextMark, h.master, h.fwd, h.regs Reg.BCN_FSN (by decide) (by decide), hown, h.part Chip.watchTime rfl]

theorem putRing (c : Chip) (r : Nat) {x : Ring} (hx : x.fwd = (c.ring r).fwd) : c.SameButRings (c.putRing r x) where
  regs o _ _ := by unfold Chip.putRing; split <;> rfl
  master := by unfold Chip.putRing; split <;> rfl
  fwd q := by
    rw [Chip.ring_putRing]
    split
    · next h => simp only [hx, Chip.ring, h]
    · rfl
  rest := by unfold Chip.putRing; split <;> rfl

theorem beaconSend (c : Chip) (type dest : Nat) (bcast : Bool) (payload : List Nat) :
    c.SameButRings (c.beaconSend type dest bcast payload) := by
  have hq : ∀ (c : Chip) r m, c.SameButRings (c.beaconQ r m) := fun c r m => c.beaconQ_eq r m ▸ putRing c r rfl
  have hseq : c.SameButRings (c.beaconOwn type dest bcast payload).2 := ⟨fun _ _ _ => rfl, rfl, fun _ => rfl, rfl⟩
  exact (hseq.trans (hq _ 0 _)).trans (hq _ 1 _)

theorem echoTo (c : Chip) (r : Nat) : c.SameButRings (c.echoTo r) := (beaconSend c _ _ _ _).trans (putRing _ r rfl)

theorem loseLock (c : Chip) (r : Nat) : c.SameButRings (c.loseLock r) where
  regs o h1 h2 := (Chip.rd_satInc_other _ _ h2).trans (Chip.rd_clrFld_other _ _ h1)
  master := by
    have hap : Bit.BCN_STATUS_MASTER.hi < (lockFld r).lo ∨ (lockFld r).hi < Bit.BCN_STATUS_MASTER.lo := by
      unfold lockFld; split <;> decide
    have herr : (c.loseLock r).rd Reg.BCN_STATUS = (c.clrFld Reg.BCN_STATUS (lockFld r)).rd Reg.BCN_STATUS :=
      Chip.rd_satInc_other _ _ (by decide)
    rw [Chip.isMaster, Chip.flag, Chip.fld, herr]
    exact Chip.flag_setFld_otherField _ _ _ 0 (by decide) hap
  fwd q := by simp [Chip.loseLock, Chip.ring]
  rest := by unfold Chip.loseLock Chip.satInc; split <;> rfl

theorem badMark (c : Chip) (r : Nat) : c.SameButRings (c.badMark r) := by
  have h := putRing c r (x := { c.ring r with good := 0, bad := (c.ring r).bad + 1 }) rfl
  unfold Chip.badMark
  dsimp only
  split
  · exact h.trans (loseLock _ r)
  · exact h

theorem missing (c : Chip) (r : Nat) : c.SameButRings (c.missing r) := by
  unfold Chip.missing
  dsimp only
  split
  · exact putRing c r rfl
  · exact (badMark c r).trans (putRing _ r rfl)

end Chip.SameButRings

/-! ## The phases of a frame -/

/-- A frame as it begins: counted, and its FSN in place (R122). -/
def Chip.frameBegun (c : Chip) : Chip :=
  let d : Chip := { c with bcn := { c.bcn with frames := c.bcn.frames + 1 } }
  d.wr Reg.BCN_FSN (if c.isMaster then c.rd Reg.BCN_FSN + 1 else BitVec.ofNat 32 (c.nextMark c.alignRing).fsn)

/-- Every 16th frame brings a HEARTBEAT (Table 4.4). -/
def Chip.heartbeatSent (c : Chip) (n : Nat) : Chip := if n % 16 = 0 then c.beaconSend 1 0 true c.heartbeat else c

/-- The Fog alerts go out (R355). -/
def Chip.alertsSent (c : Chip) (alerts : List (Nat × Nat × Nat)) : Chip :=
  alerts.foldl (fun c a => c.beaconSend 5 0 true [a.1, a.2.1, a.2.2, 0]) c

/-- No Fog alert is owed. -/
def Chip.noAlerts (c : Chip) : Chip := { c with bcn := { c.bcn with alerts := [] } }

/-- Every 1,024th frame brings an ECHO request on each ring that is locked (Table 4.4). -/
def Chip.echoesSent (c : Chip) (n : Nat) : Chip :=
  if n % 1024 = 0 then
    let c := if c.ringLocked 0 then c.echoTo 0 else c
    if c.ringLocked 1 then c.echoTo 1 else c
  else c

/-- A frame as its rings send it, with the messages that it brings queued. -/
def Chip.frameReady (c : Chip) : Chip :=
  ((c.frameBegun.heartbeatSent (c.bcn.frames + 1)).noAlerts.alertsSent
    (c.frameBegun.heartbeatSent (c.bcn.frames + 1)).bcn.alerts).echoesSent (c.bcn.frames + 1)

/-- A frame on each ring. -/
def Chip.bothFrames (c : Chip) : Chip := (c.frameOn 0).frameOn 1

@[simp] theorem Chip.rd_bothFrames (c : Chip) (o : Nat) : c.bothFrames.rd o = c.rd o := rfl

/-- Each ring sends the mark that is next for it. -/
theorem Chip.mark_mem_bothFrames (c : Chip) {r : Nat} (hr : r < 2) :
    ∃ l, .beaconFrame r (c.nextMark r) l ∈ c.bothFrames.out := by
  have hout : c.bothFrames.out = .beaconFrame 1 (c.nextMark 1) (takeMsgs 605 (c.ring 1).q).1 ::
    .beaconFrame 0 (c.nextMark 0) (takeMsgs 605 (c.ring 0).q).1 :: c.out := rfl
  rw [hout]
  obtain rfl | rfl : r = 0 ∨ r = 1 := by omega
  · exact ⟨_, .tail _ (.head _)⟩
  · exact ⟨_, .head _⟩

/-- R120: a Beacon that runs queues its messages, sends a frame on each ring and closes it. -/
theorem Chip.beaconFrame_of_runs (c : Chip) (h : c.beaconRuns = true) :
    c.beaconFrame = (c.frameReady.bothFrames.missing 0).missing 1 := by
  rw [Chip.beaconFrame, if_neg (by simp [h])]
  rfl

namespace Chip.SameButRings

theorem ite {a b : Chip} (p : Prop) [Decidable p] (h : a.SameButRings b) : a.SameButRings (if p then b else a) := by
  split
  · exact h
  · exact refl a

theorem alertsSent (l : List (Nat × Nat × Nat)) : ∀ c : Chip, c.SameButRings (c.alertsSent l) := by
  induction l with
  | nil => exact refl
  | cons a l ih =>
    intro c
    rw [Chip.alertsSent, List.foldl_cons]
    exact (beaconSend c _ _ _ _).trans (ih _)

theorem noAlerts {a b : Chip} (h : a.SameButRings b) : a.noAlerts.SameButRings b.noAlerts where
  regs := h.regs
  master := h.master
  fwd := h.fwd
  rest := (congrArg Chip.noAlerts h.rest :)

/-- What a frame queues changes the rings alone; the alerts owed are among it. -/
theorem frameReady (c : Chip) : c.frameBegun.noAlerts.SameButRings c.frameReady :=
  (((beaconSend _ _ _ _ _).ite _).noAlerts.trans (alertsSent _ _)).trans
    (((echoTo _ 0).ite _).trans ((echoTo _ 1).ite _) |>.ite _)

end Chip.SameButRings

/-! ## What a frame does -/

/-- A chip with the registers, the rings and what left the module of another. -/
def Chip.withRingsOf (b a : Chip) : Chip :=
  { b with regs := a.regs, out := a.out, bcn := { b.bcn with
    ring0 := a.bcn.ring0, ring1 := a.bcn.ring1, seq := a.bcn.seq } }

theorem Chip.SameButRings.withRingsOf {a b : Chip} (h : a.SameButRings b) : b.withRingsOf a = a :=
  (congrArg (fun c : Chip => { c with out := a.out }) h.rest :)

theorem Chip.withRingsOf_frameOn (c : Chip) (r : Nat) : (c.frameOn r).withRingsOf c = c := by
  unfold Chip.frameOn Chip.putRing
  dsimp only
  split <;> rfl

/-- After a frame a ring waits for the next mark. -/
theorem Chip.seen_missing_same (c : Chip) (r : Nat) : ((c.missing r).ring r).seen = false := by simp [Chip.missing]

/-- The end of a frame on ring 1 leaves ring 0. -/
theorem Chip.ring_missing_other (c : Chip) : (c.missing 1).ring 0 = c.ring 0 := by
  have hlose : ∀ c : Chip, (c.loseLock 1).ring 0 = c.ring 0 := fun c => by simp [Chip.loseLock, Chip.ring]
  have hbad : (c.badMark 1).ring 0 = c.ring 0 := by
    unfold Chip.badMark
    dsimp only
    split
    · rw [hlose, Chip.ring_putRing, if_neg (by decide)]
    · rw [Chip.ring_putRing, if_neg (by decide)]
  unfold Chip.missing
  dsimp only
  split
  · rw [Chip.ring_putRing, if_neg (by decide)]
  · rw [Chip.ring_putRing, if_neg (by decide), hbad]

theorem exec_beaconFrameTimer (s : State) : exec .beaconFrameTimer s = .next (s.withChip s.chip.beaconFrame) := rfl

section Frame
variable (c : Chip) (h : c.beaconRuns = true)
include h

theorem Chip.beaconFrame_sameButRings : c.frameReady.bothFrames.SameButRings c.beaconFrame :=
  c.beaconFrame_of_runs h ▸ (Chip.SameButRings.missing _ 0).trans (.missing _ 1)

/-- A part of the chip that lies outside the registers, the rings and what leaves the module is that of the frame as it begins. -/
theorem Chip.part_beaconFrame {α : Type} (p : Chip → α) (hp : ∀ a b : Chip, p (b.withRingsOf a) = p b) :
    p c.beaconFrame = p c.frameBegun.noAlerts := by
  have hpart : ∀ {a b : Chip}, b.withRingsOf a = a → p b = p a := fun hab => (hp _ _).symm.trans (congrArg p hab)
  calc
    p c.beaconFrame = p ((c.frameReady.frameOn 0).frameOn 1) := hpart (c.beaconFrame_sameButRings h).withRingsOf
    _ = p (c.frameReady.frameOn 0) := hpart (Chip.withRingsOf_frameOn _ 1)
    _ = p c.frameReady := hpart (Chip.withRingsOf_frameOn _ 0)
    _ = p c.frameBegun.noAlerts := hpart (Chip.SameButRings.frameReady c).withRingsOf

theorem Chip.rd_beaconFrame {o : Nat} (h1 : o ≠ Reg.BCN_STATUS) (h2 : o ≠ Reg.BCN_ERR) :
    c.beaconFrame.rd o = c.frameBegun.rd o := calc
  c.beaconFrame.rd o = c.frameReady.bothFrames.rd o := (c.beaconFrame_sameButRings h).regs o h1 h2
  _ = c.frameReady.rd o := c.frameReady.rd_bothFrames o
  _ = c.frameBegun.rd o := (Chip.SameButRings.frameReady c).regs o h1 h2

/-- Each ring sends the mark that the frame has for it as it begins. -/
theorem Chip.mark_mem_beaconFrame {r : Nat} (hr : r < 2) :
    ∃ l, .beaconFrame r (c.frameBegun.nextMark r) l ∈ c.beaconFrame.out := by
  have hmark : c.frameReady.nextMark r = c.frameBegun.nextMark r := (Chip.SameButRings.frameReady c).nextMark r
  rw [← hmark, (c.beaconFrame_sameButRings h).part Chip.out rfl]
  exact c.frameReady.mark_mem_bothFrames hr

/-- After a frame neither ring has seen the next mark or has one to pass on. -/
theorem Chip.ring_beaconFrame {r : Nat} (hr : r < 2) :
    (c.beaconFrame.ring r).seen = false ∧ (c.beaconFrame.ring r).fwd = none := by
  rw [(c.beaconFrame_sameButRings h).fwd, c.beaconFrame_of_runs h]
  obtain rfl | rfl : r = 0 ∨ r = 1 := by omega
  · exact ⟨by rw [Chip.ring_missing_other, Chip.seen_missing_same], rfl⟩
  · exact ⟨Chip.seen_missing_same _ 1, rfl⟩

end Frame

/-! ## The master's frame and the follower's (R122) -/

theorem Chip.rd_frameBegun_other (c : Chip) {o : Nat} (h : o ≠ Reg.BCN_FSN) : c.frameBegun.rd o = c.rd o := Chip.rd_wr_other _ _ h

theorem Chip.rd_frameBegun_fsn (c : Chip) (hm : c.isMaster = true) : c.frameBegun.rd Reg.BCN_FSN = c.rd Reg.BCN_FSN + 1 :=
  (Chip.rd_wr_same _ _ _).trans (if_pos hm)

theorem Chip.isMaster_frameBegun (c : Chip) : c.frameBegun.isMaster = c.isMaster := by
  simp only [Chip.isMaster, Chip.flag, Chip.fld, c.rd_frameBegun_other (o := Reg.BCN_STATUS) (by decide)]

theorem Chip.ownModule_frameBegun (c : Chip) : c.frameBegun.ownModule = c.ownModule := by
  simp only [Chip.ownModule, Chip.fld, c.rd_frameBegun_other (o := Reg.KND_ID) (by decide)]

/-- The master's mark has the raised FSN and its Watch. -/
theorem Chip.nextMark_frameBegun_master (c : Chip) (r : Nat) (hm : c.isMaster = true) : c.frameBegun.nextMark r =
    BeaconMark.seal { fsn := (c.rd Reg.BCN_FSN + 1).toNat, time := c.watchTime, master := c.ownModule } := by
  rw [Chip.nextMark, if_pos (c.isMaster_frameBegun.trans hm), c.rd_frameBegun_fsn hm, c.ownModule_frameBegun]
  rfl

/-- A follower's mark is the one that its ring received. -/
theorem Chip.nextMark_frameBegun_follower (c : Chip) {r : Nat} {f : BeaconMark} (hm : c.isMaster = false)
    (hf : (c.ring r).fwd = some f) : c.frameBegun.nextMark r = f := by
  have hf' : (c.frameBegun.ring r).fwd = some f := hf
  rw [Chip.nextMark, if_neg (by simp [c.isMaster_frameBegun, hm]), hf', Option.getD_some]

/-- Settles O27: the marks are those that the frame has as it begins; what it queues and how it ends leave them. -/
theorem beaconFrameMarksBothRings : Obligations.BeaconFrameMarksBothRings := by
  intro s hr
  have part {α : Type} := s.chip.part_beaconFrame hr (α := α)
  refine ⟨_, exec_beaconFrameTimer s, part (·.bcn.frames) fun _ _ => rfl, part (·.bcn.alerts) fun _ _ => rfl,
    fun hm => ⟨?_, fun r h => ?_⟩, fun hm r f h hf => ?_, fun r h => s.chip.ring_beaconFrame hr h, fun o ho h1 h2 => ?_,
    part Chip.sw fun _ _ => rfl, part Chip.pci fun _ _ => rfl, part Chip.knd fun _ _ => rfl, part Chip.timers fun _ _ => rfl⟩
  · exact (s.chip.rd_beaconFrame hr (by decide) (by decide)).trans (s.chip.rd_frameBegun_fsn hm)
  · rw [← s.chip.nextMark_frameBegun_master r hm]
    exact s.chip.mark_mem_beaconFrame hr h
  · rw [← s.chip.nextMark_frameBegun_follower hm hf]
    exact s.chip.mark_mem_beaconFrame hr h
  · exact (s.chip.rd_beaconFrame hr h1 h2).trans (s.chip.rd_frameBegun_other ho)

end Sys2Proof.Machine
end

section
/-!
PROOFS. Marks, messages, holdover and takeover on the Beacon Ring (chapter 04, R121 to R126), and the wake pattern (R445).
-/
namespace Sys2Proof.Machine

/-! ## Marks (R122, R123) -/

theorem exec_beaconMarkReceived (r : Nat) (m : BeaconMark) (s : State) :
    exec (.beaconMarkReceived r m) s = .next (s.withChip (s.chip.markIn r m)) := rfl

/-- A mark has the FSN that follows the last one of its ring. -/
def Ring.follows (x : Ring) (m : BeaconMark) : Prop := ∃ f, x.lastFsn = some f ∧ m.fsn = (f + 1) % 2 ^ 32

/-- A ring with a mark that can be read, which goes on whether or not it is good (the model's choice, log 73). -/
def Chip.markRead (c : Chip) (r : Nat) (m : BeaconMark) : Chip :=
  c.putRing r { c.ring r with seen := true, lastFsn := some m.fsn, fwd := some (c.onward r m) }

section Mark
variable (c : Chip) (r : Nat) {m : BeaconMark} (hb : c.beaconRuns = true)
include hb

theorem Chip.markIn_unread (h : m.codeOk = false ∨ m.crcOk = false) : c.markIn r m =
    ((c.satInc Reg.BCN_ERR Bit.BCN_ERR_CODE_ERR).putRing r { c.ring r with seen := true }).badMark r := by
  have hno : (m.codeOk && m.crcOk) = false := Bool.and_eq_false_iff.mpr h
  simp only [Chip.markIn, hb, hno, Bool.not_true, Bool.false_eq_true, if_false]

variable (hc : m.codeOk = true) (hr : m.crcOk = true)
include hc hr

theorem Chip.markIn_good (hs : m.spacingOk = true) (hf : (c.ring r).follows m) : c.markIn r m = (c.markRead r m).goodMark r m := by
  obtain ⟨f, hl, hf⟩ := hf
  simp [Chip.markIn, Chip.markRead, hb, hc, hr, hs, hl, hf]

theorem Chip.markIn_bad (h : m.spacingOk = false ∨ ¬ (c.ring r).follows m) : c.markIn r m = (c.markRead r m).badMark r := by
  obtain hs | hf := h
  · simp [Chip.markIn, Chip.markRead, hb, hc, hr, hs]
  · cases hl : (c.ring r).lastFsn with
    | none => simp [Chip.markIn, Chip.markRead, hb, hc, hr, hl]
    | some f =>
      have hne : ¬ (f + 1) % 4294967296 = m.fsn := fun h => hf ⟨f, hl, h.symm⟩
      simp [Chip.markIn, Chip.markRead, hb, hc, hr, hl, hne]

end Mark

/-! ## Messages (R121, R126) -/

theorem exec_beaconMessageReceived (r : Nat) (m : BeaconMsg) (s : State) :
    exec (.beaconMessageReceived r m) s = .next (s.withChip (s.chip.beaconIn r m)) := rfl

section Message
variable (c : Chip) (r : Nat) {m : BeaconMsg}

/-- A broadcast is dropped at its source. -/
theorem Chip.beaconIn_own (hb : m.bcast = true) (hs : m.src = c.ownModule) (hok : m.ok = true) : c.beaconIn r m = c := by
  cases hr : c.beaconRuns <;> simp [Chip.beaconIn, hr, hb, hs, hok]

variable (hr : c.beaconRuns = true)
include hr

theorem Chip.beaconIn_notOk (h : m.ok = false) : c.beaconIn r m = c.satInc Reg.BCN_ERR Bit.BCN_ERR_CODE_ERR := by
  simp only [Chip.beaconIn, hr, h, Bool.not_true, Bool.not_false, Bool.false_eq_true, if_false, if_true]

variable (hok : m.ok = true)
include hok

theorem Chip.beaconIn_dup (h : c.beaconDup m = true) : c.beaconIn r m = c := by
  simp [Chip.beaconIn, hr, hok, h]

variable (hd : c.beaconDup m = false)
include hd

/-- A message that is neither the module's own for all nor a copy is accepted; the module takes one for it or for all, and one for
all or for another module goes on with a hop more, below 128 hops. -/
theorem Chip.beaconIn_new (hs : m.bcast = true → m.src ≠ c.ownModule) : c.beaconIn r m =
    let d := if m.bcast || m.dest == c.ownModule then (c.beaconAccept m).beaconAct r m else c.beaconAccept m
    if (m.bcast || m.dest != c.ownModule) && decide (m.hops + 1 < 128) then d.beaconQ r { m with hops := m.hops + 1 } else d := by
  have hown : ¬ (m.src = c.ownModule && m.bcast) = true := by
    simpa using fun h hb => hs hb h
  have hgo : (m.bcast || !(m.bcast || m.dest == c.ownModule)) = (m.bcast || m.dest != c.ownModule) := by
    cases m.bcast <;> rfl
  simp only [Chip.beaconIn, hr, hok, hd, hown, hgo, Bool.not_true, Bool.false_eq_true, if_false]

end Message

/-! ## Holdover and takeover (R124) -/

theorem exec_holdover (s : State) : exec .holdover s = .next (s.withChip s.chip.holdover) := rfl

theorem exec_masterTakeover (s : State) : exec .masterTakeover s = .next (s.withChip s.chip.takeover) := rfl

/-- A module in HOLDOVER. -/
def Chip.heldOver (c : Chip) : Chip := c.setBit Reg.BCN_STATUS Bit.BCN_STATUS_HOLDOVER

/-- A candidate waits its number of microseconds plus one. -/
theorem Chip.holdover_of_quiet (c : Chip) (hr : c.beaconRuns = true) (hm : c.isMaster = false)
    (hh : c.flag Reg.BCN_STATUS Bit.BCN_STATUS_HOLDOVER = false) (h0 : 8 ≤ c.bcn.ring0.quiet) (h1 : 8 ≤ c.bcn.ring1.quiet) :
    c.holdover = if c.flag Reg.BCN_CTRL Bit.BCN_CTRL_MASTER_CAND then c.heldOver.arm .masterWait ((c.ownModule + 1) * us)
      else c.heldOver := by
  have hcand : c.heldOver.flag Reg.BCN_CTRL Bit.BCN_CTRL_MASTER_CAND = c.flag Reg.BCN_CTRL Bit.BCN_CTRL_MASTER_CAND :=
    Chip.flag_setFld_other _ _ _ 1 (by decide)
  have hown : c.heldOver.ownModule = c.ownModule := Chip.fld_setFld_other _ _ _ 1 (by decide)
  simp only [Chip.heldOver] at hcand hown ⊢
  simp [Chip.holdover, hr, hm, hh, h0, h1, hcand, hown]

/-- A module that has become master (R124). -/
def Chip.tookOver (c : Chip) : Chip :=
  let d := (c.disarm .masterWait).setBit Reg.BCN_STATUS Bit.BCN_STATUS_MASTER
  (d.setFld Reg.BCN_STATUS Bit.BCN_STATUS_MASTER_MOD c.ownModule).wr Reg.BCN_FSN
    (BitVec.ofNat 32 (c.bcn.goodFsn + min c.bcn.ring0.quiet c.bcn.ring1.quiet))

theorem Chip.takeover_of_due (c : Chip) (hr : c.beaconRuns = true) (hd : c.due .masterWait = true)
    (hh : c.flag Reg.BCN_STATUS Bit.BCN_STATUS_HOLDOVER = true)
    (hp : c.fld Reg.GLB_PWR_STATUS Bit.GLB_PWR_STATUS_STATE = 0) : c.takeover = c.tookOver := by
  have hown : ((c.disarm .masterWait).setBit Reg.BCN_STATUS Bit.BCN_STATUS_MASTER).ownModule = c.ownModule :=
    Chip.fld_setFld_other _ _ _ 1 (by decide)
  simp only [Chip.takeover, hr, hd, hh, hp, beq_self_eq_true, Bool.and_self, if_true, hown]
  rfl

/-- A register other than BCN_FSN is that of the module with its new status. -/
theorem Chip.rd_tookOver (c : Chip) {o : Nat} (h : o ≠ Reg.BCN_FSN) : c.tookOver.rd o =
    ((c.setBit Reg.BCN_STATUS Bit.BCN_STATUS_MASTER).setFld Reg.BCN_STATUS Bit.BCN_STATUS_MASTER_MOD c.ownModule).rd o :=
  Chip.rd_wr_other _ _ h

theorem Chip.isMaster_tookOver (c : Chip) : c.tookOver.isMaster = true := by
  rw [Chip.isMaster, Chip.flag, Chip.fld, c.rd_tookOver (by decide), ← Chip.fld, ← Chip.flag,
    Chip.flag_setFld_otherField _ _ _ _ (by decide) (by decide)]
  exact Chip.flag_setBit_same _ _ _ (by decide) (by decide)

theorem Chip.masterMod_tookOver (c : Chip) : c.tookOver.fld Reg.BCN_STATUS Bit.BCN_STATUS_MASTER_MOD = c.ownModule := by
  rw [Chip.fld, c.rd_tookOver (by decide), ← Chip.fld, Chip.fld_setFld_same _ _ _ _ (by decide)]
  exact Nat.mod_eq_of_lt (getF_lt (c.rd Reg.KND_ID) Bit.KND_ID_MODULE)

/-! ## The wake pattern (R126, R445) -/

theorem exec_beaconWakePattern {r : Nat} (hr : r < 2) (s : State) :
    exec (.beaconWakePattern r) s = .next (s.withChip (s.chip.wakeEvent wakeBeacon)) :=
  congrArg (fun c => Host.Outcome.next (s.withChip c)) (if_pos hr)

section Wake
variable (c : Chip) {src : Nat} (hw : c.wakeEnabled src = true) (hr : c.pwr.restoreStep = 0)
include hw hr

/-- In DARK a wake event is the one cause of the restore that it begins. -/
theorem Chip.wakeEvent_dark (hd : c.pwr.darkStep = 6) : c.wakeEvent src =
    ((c.wr Reg.WAKE_CAUSE 0).wr Reg.WAKE_CAUSE (setF ((c.wr Reg.WAKE_CAUSE 0).rd Reg.WAKE_CAUSE) ⟨src, src⟩ 1)).startRestore := by
  simp [Chip.wakeEvent, hw, hr, hd]

/-- During the entry to DARK a wake event is latched. -/
theorem Chip.wakeEvent_entry (h0 : 0 < c.pwr.darkStep) (h6 : c.pwr.darkStep ≠ 6) : c.wakeEvent src =
    { c with pwr := { c.pwr with latched := src :: c.pwr.latched.erase src } } := by
  simp [Chip.wakeEvent, hw, hr, h0, h6]

end Wake

/-- Settles O28: a mark by whether it can be read and follows, a message by whether it is new and whose it is, and HOLDOVER, the
takeover and the wake pattern by the one branch of each. That a mark that is not good goes on (R123) is the model's choice (log 73),
and so is the count of hops by which a message ends at 128 (log 74). -/
theorem beaconMarksAndHoldover : Obligations.BeaconMarksAndHoldover := by
  refine ⟨fun s r f m hb hc hk hs hl hf => ?_, fun s r m hb h => ?_, fun s r m hb hc hk h => ?_, fun s r m hb h => ?_,
    fun s r m hb hok h => ?_, fun s r m hb hok hd hu hm => ?_, fun s r m hb hok hd hu hm hh => ?_,
    fun s r m hb hok hd hu hm hh => ?_, fun s r m hb hok hd hu hm => ?_, fun s r m hu hm hok => ?_,
    fun s hb hm hh h0 h1 => ⟨_, exec_holdover s, ?_⟩, fun s hb hd hh hp => ⟨_, exec_masterTakeover s, ?_⟩,
    fun s r hr hw hs hd => ?_, fun s r hr hw hs h0 h6 => ?_⟩
  · rw [exec_beaconMarkReceived, s.chip.markIn_good r hb hc hk hs ⟨f, hl, hf⟩]
    rfl
  · rw [exec_beaconMarkReceived, s.chip.markIn_unread r hb h]
  · have hno : m.spacingOk = false ∨ ¬ (s.chip.ring r).follows m := h.imp_right fun hn ⟨f, hl, hf⟩ => hn f hl hf
    rw [exec_beaconMarkReceived, s.chip.markIn_bad r hb hc hk hno]
    rfl
  · rw [exec_beaconMessageReceived, s.chip.beaconIn_notOk r hb h]
  · rw [exec_beaconMessageReceived, s.chip.beaconIn_dup r hb hok h]
    rfl
  · rw [exec_beaconMessageReceived, s.chip.beaconIn_new r hb hok hd (by simp [hu])]
    simp [hu, hm]
  · rw [exec_beaconMessageReceived, s.chip.beaconIn_new r hb hok hd (by simp [hu])]
    simp [hu, hm, hh]
  · rw [exec_beaconMessageReceived, s.chip.beaconIn_new r hb hok hd (by simp [hu])]
    simp [hu, hm, Nat.not_lt.mpr hh]
  · rw [exec_beaconMessageReceived, s.chip.beaconIn_new r hb hok hd fun _ => hm]
    simp [hu]
  · rw [exec_beaconMessageReceived, s.chip.beaconIn_own r hu hm hok]
    rfl
  · have hflag : s.chip.heldOver.flag Reg.BCN_STATUS Bit.BCN_STATUS_HOLDOVER = true :=
      Chip.flag_setBit_same _ _ _ (by decide) (by decide)
    have hmaster : s.chip.heldOver.isMaster = false :=
      (Chip.flag_setFld_otherField _ _ _ 1 (by decide) (by decide)).trans hm
    have hregs : ∀ o, o ≠ Reg.BCN_STATUS → s.chip.heldOver.rd o = s.chip.rd o := fun o ho => Chip.rd_setBit_other _ _ ho
    rw [State.withChip_chip, s.chip.holdover_of_quiet hb hm hh h0 h1]
    split
    · next hc => exact ⟨hflag, hmaster, hregs, fun _ => .head _, fun hn => absurd hc (by simp [hn]), rfl, rfl⟩
    · next hc => exact ⟨hflag, hmaster, hregs, fun hy => absurd hy hc, fun _ => rfl, rfl, rfl⟩
  · rw [State.withChip_chip, s.chip.takeover_of_due hb hd hh hp]
    exact ⟨s.chip.isMaster_tookOver, s.chip.masterMod_tookOver, Chip.rd_wr_same _ _ _, Chip.due_disarm_same _ _,
      fun o h1 h2 => (s.chip.rd_tookOver h2).trans ((Chip.rd_setFld_other _ _ _ h1).trans (Chip.rd_setBit_other _ _ h1)),
      rfl, rfl⟩
  · rw [exec_beaconWakePattern hr, s.chip.wakeEvent_dark hw hs hd]
  · rw [exec_beaconWakePattern hr, s.chip.wakeEvent_entry hw hs h0 h6]

end Sys2Proof.Machine
end

section
/-!
PROOFS. The link layer of a span port (chapter 05, R127, R131, R138, R139, R143, R148, R157, R162 to R164, R167, R175): flits by the
state of the port, its timers, and LTSSM Recovery and Detect.
-/
namespace Sys2Proof.Machine

/-! ## Link layers -/

@[simp] theorem Chip.span_putSpan_same (c : Chip) (x : Span) : (c.putSpan x).span x.port = x := by
  simp [Chip.span, Chip.putSpan]

@[simp] theorem Chip.span_port (c : Chip) (p : Nat) : (c.span p).port = p := by
  unfold Chip.span
  cases hf : c.knd.spans.find? (fun x => x.port == p) with
  | none => rfl
  | some x => simpa using List.find?_some hf

theorem Chip.span_putSpan_other (c : Chip) {x : Span} {q : Nat} (h : q ≠ x.port) : (c.putSpan x).span q = c.span q := by
  have hx : (x.port == q) = false := by simpa using Ne.symm h
  have hfind : (fun y : Span => decide ((y.port != x.port) = true ∧ (y.port == q) = true)) = (fun y => y.port == q) := by
    funext y
    by_cases hy : y.port = q <;> simp [hy, h]
  simp only [Chip.span, Chip.putSpan, List.find?_cons, hx, List.find?_filter, hfind]

theorem Chip.span_updSpan_same (c : Chip) {p : Nat} {f : Span → Span} (hp : (f (c.span p)).port = p) :
    (c.updSpan p f).span p = f (c.span p) := by
  have hput := c.span_putSpan_same (f (c.span p))
  rwa [hp] at hput

@[simp] theorem Chip.log_knd (c : Chip) (code : LogCode) (key det : List Nat) : (c.log code key det).knd = c.knd :=
  (congrArg Chip.knd (Chip.SameButLog.log c code key det).rest :)

/-! ## What sending leaves: every port still knows whether it has seen its peer -/

/-- Every span port has seen its peer in both chips or in neither. -/
def Chip.SamePeers (a b : Chip) : Prop := ∀ q, (b.span q).peerSeen = (a.span q).peerSeen

namespace Chip.SamePeers

theorem refl (c : Chip) : c.SamePeers c := fun _ => rfl

theorem trans {a b c : Chip} (h : a.SamePeers b) (h' : b.SamePeers c) : a.SamePeers c := fun q => (h' q).trans (h q)

theorem of_spans {a b : Chip} (h : b.knd.spans = a.knd.spans) : a.SamePeers b := fun q => by rw [Chip.span, h, Chip.span]

theorem putSpan (c : Chip) {x : Span} (h : x.peerSeen = (c.span x.port).peerSeen) : c.SamePeers (c.putSpan x) := fun q => by
  by_cases hq : q = x.port
  · rw [hq, c.span_putSpan_same, h]
  · rw [c.span_putSpan_other hq]

theorem updSpan (c : Chip) (p : Nat) {f : Span → Span} (hp : (f (c.span p)).port = (c.span p).port)
    (hs : (f (c.span p)).peerSeen = (c.span p).peerSeen) : c.SamePeers (c.updSpan p f) :=
  putSpan c (by rw [hp, Chip.span_port, hs])

theorem sigStatus (c : Chip) (p : Nat) : c.SamePeers (c.sigStatus p) := of_spans rfl

theorem foldl {α : Type} {f : Chip → α → Chip} (h : ∀ (c : Chip) (x : α), c.SamePeers (f c x)) :
    ∀ (l : List α) (c : Chip), c.SamePeers (l.foldl f c)
  | [], c => refl c
  | x :: l, c => (h c x).trans (foldl h l (f c x))

theorem sigDropped (c : Chip) (p stype dest origin : Nat) (far : Option Nat) :
    c.SamePeers (c.sigDropped p stype dest origin far) := of_spans (congrArg Knd.spans (Chip.log_knd _ _ _ _))

theorem queueSig (c : Chip) (p : Nat) (m : SigMsg) (own : Bool) : c.SamePeers (c.queueSig p m own) := by
  have hput : ∀ (d : Chip) (l : List SigEnt), d.SamePeers ((d.updSpan p (fun s => { s with sigq := l })).sigStatus p) :=
    fun d l => (updSpan d p rfl rfl).trans (sigStatus _ p)
  have hdrop : c.SamePeers (c.sigDropped p m.stype m.dest m.origin m.far) := sigDropped c _ _ _ _ _
  unfold Chip.queueSig
  dsimp only
  split
  · exact hput c _
  · split
    · split
      · exact of_spans rfl
      · exact hdrop
    · split
      · exact (foldl (fun d _ => sigDropped d _ _ _ _ _) _ c).trans (hput _ _)
      · split
        · exact of_spans rfl
        · exact hdrop

theorem sendSig (c : Chip) (st : Nat) (m : SigMsg) : c.SamePeers (c.sendSig st m) := by
  unfold Chip.sendSig
  split
  · exact of_spans rfl
  · split
    · exact queueSig c _ m true
    · exact of_spans (congrArg Knd.spans (Chip.log_knd _ _ _ _))
    · exact of_spans (congrArg Knd.spans (Chip.log_knd _ _ _ _))

theorem retrySig (c : Chip) : c.SamePeers c.retrySig := by
  unfold Chip.retrySig
  split
  · exact refl c
  · exact (of_spans rfl).trans (sendSig _ _ _)

theorem farLeft (c : Chip) (x : Slot) (gap : Nat) : c.SamePeers (c.farLeft x gap) := by
  refine of_spans ?_
  unfold Chip.farLeft
  split
  · split <;> rfl
  · rfl

theorem putFlit (c : Chip) (p : Nat) (f : Flit) (n : Nat) : c.SamePeers (c.putFlit p f n) := by
  have hslots : c.SamePeers (c.putSpan ((c.span p).slotsOut c.watchTime n).2.2) :=
    updSpan c p (f := fun x => (x.slotsOut c.watchTime n).2.2) rfl rfl
  have hleft : ∀ (d : Chip) (o : Out) (l : List Slot) (g : Chip → Nat),
      d.SamePeers (l.foldl (fun c x => c.farLeft x (g c)) (d.emit o)) := fun d o l g =>
    (of_spans (b := d.emit o) rfl).trans (foldl (fun c x => farLeft c x _) l _)
  have hend : ∀ d : Chip, d.SamePeers (((d.updSpan p (fun s => { s with fcSel := !s.fcSel })).sigStatus p).retrySig) := fun d =>
    ((updSpan d p rfl rfl).trans (sigStatus _ p)).trans (retrySig _)
  exact (hslots.trans (hleft _ _ _ _)).trans (hend _)

end Chip.SamePeers

/-! ## Flits (R127, R131, R138, R139, R163) -/

theorem exec_spanFlitReceived (p : Nat) (f : Flit) (s : State) :
    exec (.spanFlitReceived p f) s = .next (s.withChip (s.chip.spanFlitIn p f)) := rfl

theorem exec_spanFlitTransmit (p : Nat) (s : State) :
    exec (.spanFlitTransmit p) s = .next (s.withChip (s.chip.spanSend p)) := rfl

/-- R139: a bad flit is counted, asked for again, and loses its part of a message. -/
def Chip.badSpanFlit (c : Chip) (p : Nat) : Chip := ((c.ctrInc kPort p cBadFlit).enterNak p).dropPart p

section Flits
variable (c : Chip) {p : Nat} (hu : c.portUp p = true) (hs : c.isSpan p = true)
include hu hs

theorem Chip.spanFlitIn_up (f : Flit) (hst : c.spanState p = spUp) :
    c.spanFlitIn p f = if f.good then c.upFlit p f else c.badSpanFlit p := by
  simp [Chip.spanFlitIn, Chip.badSpanFlit, hu, hs, hst]

theorem Chip.spanFlitIn_kinit (f : Flit) (hst : c.spanState p = spKinit) :
    c.spanFlitIn p f = if f.good then c.kinitFlit p f else c.badSpanFlit p := by
  simp [Chip.spanFlitIn, Chip.badSpanFlit, hu, hs, hst, spKinit, spUp]

theorem Chip.spanSend_up (hst : c.spanState p = spUp) : c.spanSend p = c.upSend p := by
  simp [Chip.spanSend, hu, hs, hst]

theorem Chip.spanSend_kinit (hst : c.spanState p = spKinit) : c.spanSend p = c.kinitSend p := by
  simp [Chip.spanSend, hu, hs, hst, spKinit, spUp]

end Flits

/-- Table 5.11: an INIT flit counts once the peer has been seen, which sending it does not change. -/
theorem Chip.kinitSend_eq (c : Chip) (p : Nat) : c.kinitSend p =
    let d := c.putFlit p { ftype := .init, init := {
      ownFa := c.ownFa p, facing := (c.port p).facing
      vcEn := (c.span p).ownVcEn, peerSeen := (c.span p).peerSeen } } 1
    (d.updSpan p (fun x => { x with initSent := if (c.span p).peerSeen then x.initSent + 1 else x.initSent })).tryUp p := by
  have hpeer := Chip.SamePeers.putFlit c p { ftype := .init, init := {
    ownFa := c.ownFa p, facing := (c.port p).facing
    vcEn := (c.span p).ownVcEn, peerSeen := (c.span p).peerSeen } } 1 p
  simp only [Chip.kinitSend, Chip.updSpan, hpeer]

/-- Settles O20: a flit in and a flit out, each by the state of its port. -/
theorem spanFlitsByState : Obligations.SpanFlitsByState := by
  refine ⟨fun s p f hu hs hst hg => ?_, fun s p f hu hs hst hg => ?_, fun s p f hu hs hst => ?_, fun s p hu hs hst => ?_,
    fun s p hu hs hst => ?_⟩
  · rw [exec_spanFlitReceived, s.chip.spanFlitIn_up hu hs f hst, if_pos hg]
  · rw [exec_spanFlitReceived, s.chip.spanFlitIn_up hu hs f hst, if_neg (Bool.eq_false_iff.mp hg)]
    rfl
  · rw [exec_spanFlitReceived, s.chip.spanFlitIn_kinit hu hs f hst]
    rfl
  · rw [exec_spanFlitTransmit, s.chip.spanSend_up hu hs hst]
  · rw [exec_spanFlitTransmit, s.chip.spanSend_kinit hu hs hst, s.chip.kinitSend_eq]

/-! ## The timers (R143, R148, R157, R163, R164, R167, R175) -/

theorem exec_replayTimerExpiry (p : Nat) (s : State) :
    exec (.replayTimerExpiry p) s = .next (s.withChip (s.chip.replayExpiry p)) := rfl

theorem exec_fcStaleness (p : Nat) (s : State) : exec (.fcStaleness p) s = .next (s.withChip (s.chip.fcStale p)) := rfl

theorem exec_kinitTimeout (p : Nat) (s : State) : exec (.kinitTimeout p) s = .next (s.withChip (s.chip.kinitExpiry p)) := rfl

theorem exec_recoveryTimeout (p : Nat) (s : State) :
    exec (.recoveryTimeout p) s = .next (s.withChip (s.chip.recoveryExpiry p)) := rfl

theorem exec_echoRequestTimer (p : Nat) (s : State) :
    exec (.echoRequestTimer p) s = .next (s.withChip (s.chip.echoTimer p)) := rfl

theorem exec_holdRetryExpiry (p : Nat) (s : State) :
    exec (.holdRetryExpiry p) s = .next (s.withChip (s.chip.holdRetry p)) := rfl

/-- R175: REVERT_HOLD ends with its timer. -/
def Chip.revertExpiry (c : Chip) (p : Nat) : Chip := if c.due (.revert p) then c.disarm (.revert p) else c

theorem exec_revertHoldExpiry (p : Nat) (s : State) :
    exec (.revertHoldExpiry p) s = .next (s.withChip (s.chip.revertExpiry p)) := rfl

@[simp] theorem State.withChip_self (s : State) : s.withChip s.chip = s := rfl

section Timers
variable (c : Chip) {p : Nat}

/-- R143, R144: below the limit a replay that goes on from the same flit keeps the count of its tries. -/
theorem Chip.callReplay_again (ctrIdx : Nat) (hr : (c.span p).replay ≠ [])
    (hf : (c.span p).replayFrom = ((c.span p).lastAck + 1) % 65536)
    (hl : (c.span p).replayCount < c.fld (Reg.REPLAY_CFG p) Bit.REPLAY_CFG_NUM_LIMIT) : c.callReplay p ctrIdx none =
      let d := c.updSpan p (fun x => { x with
        resend := x.replay.map (·.seq), replayFrom := (x.lastAck + 1) % 65536, replayNew := true })
      (d.ctrInc kPort p ctrIdx).arm (.replay p) (d.replayTmo p) := by
  have hne : (c.span p).replay.isEmpty = false := by simpa using hr
  simp only [Chip.callReplay, hne, hf, Nat.not_le.mpr hl, Bool.false_eq_true, if_false, if_true]
  rfl

theorem Chip.replayExpiry_of_due (hst : c.spanState p = spUp) (hd : c.due (.replay p) = true) :
    c.replayExpiry p = c.callReplay p cReplayTmo none := if_pos (by simp [Chip.linkRuns, hst, hd])

theorem Chip.fcStale_of_due (hst : c.spanState p = spUp) (hd : c.due (.stale p) = true) : c.fcStale p =
    ((((c.updSpan p (fun x => { x with stale := true })).setBit (Reg.SPAN_EVENT p) Bit.SPAN_EVENT_FC_STALE).ctrInc
      kPort p cFcStale).disarm (.stale p)).log .fcStale [p] := if_pos (by simp [Chip.linkRuns, hst, hd])

theorem Chip.kinitExpiry_of_due (hst : c.spanState p = spKinit) (hd : c.due (.kinit p) = true) :
    c.kinitExpiry p = c.spanError p Bit.SPAN_EVENT_KINIT_TMO := if_pos (by simp [hst, hd])

theorem Chip.recoveryExpiry_of_due (hst : c.spanState p = spRecovery) (hd : c.due (.recovery p) = true) :
    c.recoveryExpiry p = c.spanError p Bit.SPAN_EVENT_RECOVERY_FAIL := if_pos (by simp [hst, hd])

/-- R157: in UP an ECHO request each millisecond. -/
theorem Chip.echoTimer_of_due (hst : c.spanState p = spUp) (hd : c.due (.echoReq p) = true) : c.echoTimer p =
    (c.updSpan p (fun x => { x with echoReq := true })).arm (.echoReq p) ms := by
  simp [Chip.echoTimer, hst, hd]

theorem Chip.holdRetry_of_due (hst : c.spanState p = spHeld) (hc : c.holdCause p = holdKaundRate)
    (hd : c.due (.holdRetry p) = true) : c.holdRetry p = c.leaveHeld p := if_pos (by simp [hst, hc, hd])

theorem Chip.revertExpiry_of_due (hd : c.due (.revert p) = true) : c.revertExpiry p = c.disarm (.revert p) := if_pos hd

theorem Chip.replayExpiry_early (hd : c.due (.replay p) = false) : c.replayExpiry p = c := if_neg (by simp [hd])

theorem Chip.fcStale_early (hd : c.due (.stale p) = false) : c.fcStale p = c := if_neg (by simp [hd])

theorem Chip.kinitExpiry_early (hd : c.due (.kinit p) = false) : c.kinitExpiry p = c := if_neg (by simp [hd])

theorem Chip.recoveryExpiry_early (hd : c.due (.recovery p) = false) : c.recoveryExpiry p = c := if_neg (by simp [hd])

theorem Chip.echoTimer_early (hd : c.due (.echoReq p) = false) : c.echoTimer p = c := if_pos (by simp [hd])

theorem Chip.holdRetry_early (hd : c.due (.holdRetry p) = false) : c.holdRetry p = c := if_neg (by simp [hd])

theorem Chip.revertExpiry_early (hd : c.due (.revert p) = false) : c.revertExpiry p = c := if_neg (by simp [hd])

end Timers

/-! ## Recovery and Detect (R162, R164, Table 5.9) -/

theorem exec_recoveryEntry (p : Nat) (s : State) : exec (.recoveryEntry p) s = .next (s.withChip (s.chip.recoveryEntry p)) := rfl

theorem exec_recoveryExit (p : Nat) (l0 : Option (Nat × Nat)) (s : State) :
    exec (.recoveryExit p l0) s = .next (s.withChip (s.chip.recoveryExit p l0)) := rfl

theorem exec_phyDetectEntered (p : Nat) (s : State) :
    exec (.phyDetectEntered p) s = .next (s.withChip (s.chip.phyDetect p)) := rfl

/-- The width and the rate that a span port has trained to. -/
def Chip.spanSpeed (c : Chip) (p : Nat) : Nat × Nat :=
  (c.fld (Reg.SPAN_STATUS p) Bit.SPAN_STATUS_WIDTH, c.fld (Reg.SPAN_STATUS p) Bit.SPAN_STATUS_RATE)

section Recovery
variable (c : Chip) {p : Nat}

theorem Chip.recoveryEntry_up (hst : c.spanState p = spUp) : c.recoveryEntry p =
    ((((c.setSpanState p spRecovery).ctrInc kPort p cRecoveries).disarm (.echoReq p)).arm
      (.recovery p) (100 * us)).linkLossReplay p := if_pos hst

theorem Chip.phyDetect_reset (hst : c.spanState p = spReset) : c.phyDetect p = c.setSpanState p spDown := if_pos hst

section Exit
variable (hst : c.spanState p = spRecovery)
include hst

/-- R164: within 100 µs, and at the same width and rate, the port returns to UP. -/
theorem Chip.recoveryExit_same (hd : c.due (.recovery p) = false) : c.recoveryExit p (some (c.spanSpeed p)) =
    let d := ((c.setSpanState p spUp).disarm (.recovery p)).updSpan p (fun x => { x with upSince := c.now })
    (d.arm (.echoReq p) ms).arm (.revert p) d.revertNs := by
  simp [Chip.recoveryExit, Chip.spanSpeed, hst, hd]

/-- R164: any other end of Recovery starts a full link reset. -/
theorem Chip.recoveryExit_changed {l0 : Option (Nat × Nat)} (h : l0 ≠ some (c.spanSpeed p)) :
    c.recoveryExit p l0 = c.spanError p Bit.SPAN_EVENT_RECOVERY_FAIL := by
  cases l0 with
  | none => simp [Chip.recoveryExit, hst]
  | some x =>
    obtain ⟨w, r⟩ := x
    have hsame : (w == c.fld (Reg.SPAN_STATUS p) Bit.SPAN_STATUS_WIDTH &&
        r == c.fld (Reg.SPAN_STATUS p) Bit.SPAN_STATUS_RATE) = false := by
      simpa [Chip.spanSpeed] using h
    simp [Chip.recoveryExit, hst, hsame]

end Exit
end Recovery

/-- Settles O22: each timer by whether it is due, and Recovery by how it ends. That a held port whose LINK_DISABLE is set stays in
HELD, for that cause, when its retry is due is the model's choice (log 191). -/
theorem spanTimersAndRecovery : Obligations.SpanTimersAndRecovery := by
  refine ⟨fun s p hst hd hr hf hl => ?_, fun s p hst hd => ?_, fun s p hst hd => ?_, fun s p hst hd => ?_,
    fun s p hd hst => ⟨_, exec_echoRequestTimer p s, ?_⟩, fun s p hst hc hd => ?_,
    fun s p hd => ⟨_, exec_revertHoldExpiry p s, ?_⟩,
    fun s p hreplay hstale hkinit hrecov hecho hhold hrevert => ⟨?_, ?_, ?_, ?_, ?_, ?_, ?_⟩, fun s p hst => ?_,
    fun s p hst hd => ?_, fun s p hst => ?_, fun s p w r hst hne => ?_, fun s p hst => ?_⟩
  · rw [exec_replayTimerExpiry, s.chip.replayExpiry_of_due hst hd, s.chip.callReplay_again _ hr hf hl]
  · rw [exec_fcStaleness, s.chip.fcStale_of_due hst hd]
  · rw [exec_kinitTimeout, s.chip.kinitExpiry_of_due hst hd]
  · rw [exec_recoveryTimeout, s.chip.recoveryExpiry_of_due hst hd]
  · rw [State.withChip_chip, s.chip.echoTimer_of_due hst hd]
    refine ⟨?_, List.mem_cons_self, rfl, rfl, rfl, rfl⟩
    exact congrArg Span.echoReq (s.chip.span_updSpan_same (f := fun x => { x with echoReq := true }) (s.chip.span_port p))
  · rw [exec_holdRetryExpiry, s.chip.holdRetry_of_due hst hc hd]
    rfl
  · rw [State.withChip_chip, s.chip.revertExpiry_of_due hd]
    exact ⟨Chip.due_disarm_same _ _, rfl⟩
  · rw [exec_replayTimerExpiry, s.chip.replayExpiry_early hreplay, State.withChip_self]
  · rw [exec_fcStaleness, s.chip.fcStale_early hstale, State.withChip_self]
  · rw [exec_kinitTimeout, s.chip.kinitExpiry_early hkinit, State.withChip_self]
  · rw [exec_recoveryTimeout, s.chip.recoveryExpiry_early hrecov, State.withChip_self]
  · rw [exec_echoRequestTimer, s.chip.echoTimer_early hecho, State.withChip_self]
  · rw [exec_holdRetryExpiry, s.chip.holdRetry_early hhold, State.withChip_self]
  · rw [exec_revertHoldExpiry, s.chip.revertExpiry_early hrevert, State.withChip_self]
  · rw [exec_recoveryEntry, s.chip.recoveryEntry_up hst]
  · exact congrArg (fun c => Host.Outcome.next (s.withChip c)) (s.chip.recoveryExit_same hst hd)
  · rw [exec_recoveryExit, s.chip.recoveryExit_changed hst (by simp)]
  · have hchanged : some (w, r) ≠ some (s.chip.spanSpeed p) := by
      simpa [Chip.spanSpeed, or_iff_not_imp_left] using hne
    rw [exec_recoveryExit, s.chip.recoveryExit_changed hst hchanged]
  · rw [exec_phyDetectEntered, s.chip.phyDetect_reset hst]

end Sys2Proof.Machine
end

section
/-!
PROOFS. Frames and signal messages that go on through the module (chapters 05 to 07, R158, R161, R172 to R179, R200, R230): transit,
GUARD_RESIDENCE, the routing of messages, and the copies and filters of FAR_ERR.
-/
namespace Sys2Proof.Machine

/-! ## Frames (R172 to R179) -/

theorem exec_spanFrameReceived (p : Nat) (s : State) :
    exec (.spanFrameReceived p) s = .next (s.withChip (s.chip.frameIn p)) := rfl

/-- The module with other frames and TLPs in its receive buffers. -/
def Chip.withRx (c : Chip) (l : List Rx) : Chip := { c with sw := { c.sw with rx := l } }

section Frame
variable (c : Chip) {p : Nat} {r : Rx} {l : List Rx} {f : Frame} (hu : c.portUp p = true) (hp : c.inPortFog p = false)
  (hm : c.inModFog = false)
  (ht : takeFirst (fun r => r.port == p && r.frame.isSome && !r.looked) c.sw.rx = some (r, l)) (hf : r.frame = some f)
  (hgot : min r.len 32 ≤ r.got)
include hu hp hm ht hf hgot

/-- R174: a sound frame for another module goes on as soon as its header has arrived. -/
theorem Chip.frameIn_transit (hi : c.saf.inject = none) (hcrc : f.crcOk = true) (hmc : f.kh.mc = false)
    (hh : c.faHere f.kh.destFa = false) : c.frameIn p = (c.withRx l).transitFrame r f := by
  simp [Chip.frameIn, Chip.withRx, hu, hp, hm, ht, hf, hcrc, hmc, hh, c.injected_of_none _ _ hi, Nat.not_lt.mpr hgot]

/-- R172: a whole frame whose KH_CRC fails goes no further, and contains the port. -/
theorem Chip.frameIn_crcFail (hr : c.morRuns = true) (hcrc : f.crcOk = false) (hw : r.whole = true) :
    c.frameIn p = ((c.withRx l).goneRx r).khCrcFail p := by
  simp [Chip.frameIn, Chip.withRx, hu, hp, hm, ht, hf, hr, hcrc, hw, Nat.not_lt.mpr hgot]

end Frame

/-- R175 to R179: a frame that has a route, and may leave by it, joins the packets of its station. -/
theorem Chip.transitFrame_to (c : Chip) {r : Rx} {f : Frame} {d : Chip} {q : Nat}
    (hr : c.route r.port f.kh.destFa f.kh.srcFa f.kh.tc f.kh.alt = .to d q) (hl : d.leaveCheck r.port q f.kh = (d, none)) :
    c.transitFrame r f =
      let k : Pkt := { transitPkt r f with egPort := q, egVc := d.egVc false f.kh.tc }
      ((d.addPktAt k r.t0).keepRx r [d.sw.nextUid]).sndChoose (portStation r.port) d.sw.nextUid r.port r.t0 k := by
  simp only [Chip.transitFrame, hr, hl]

/-! ## GUARD_RESIDENCE (R230) -/

theorem exec_guardResidenceDrop (uid : Nat) (s : State) :
    exec (.guardResidenceDrop uid) s = .next (s.withChip (s.chip.residenceDrop uid)) := rfl

/-- A packet leaves the core and the queues that it waits in, counted. -/
def Chip.residenceEnd (c : Chip) (uid : Nat) (k : Pkt) : Chip :=
  let d := c.purgePkt uid
  ((d.sw.obq.filter (fun e => e.uid == uid)).foldl (fun d e => d.unqueue uid e.port) d).stCtr k.inPort 50

/-- R230: a guarded packet from another module, or one with a copy in custody, ends when its millisecond is up, unless its
transmission has begun. -/
theorem Chip.residenceDrop_pkt (c : Chip) {uid : Nat} {k : Pkt} {h : KHdr} (hk : c.pkt uid = some k) (hg : k.guarded = true)
    (hr : k.rel = none) (hw : k.whole = true) (ht : k.t0 + ms ≤ c.now) (hh : k.kh = some h)
    (he : (c.faHere h.srcFa && k.copy.isNone) = false) : c.residenceDrop uid =
      if c.sw.obq.any (fun e => e.uid == uid && e.begun) then c else c.residenceEnd uid k := by
  cases hb : c.sw.obq.any (fun e => e.uid == uid && e.begun) <;>
    simp only [Chip.residenceDrop, Chip.residenceEnd, hk, hg, hr, hw, ht, hh, he, hb, Option.isNone_none, decide_true,
      Bool.not_true, Bool.not_false, Bool.and_self, Bool.and_false, Bool.false_eq_true, if_false, if_true]

/-- A number that no packet has names the oldest frame that waits in a receive buffer (log 149). -/
theorem Chip.residenceDrop_rx (c : Chip) {uid : Nat} {r : Rx} {l : List Rx} (hk : c.pkt uid = none)
    (ht : takeFirst c.agedRx c.sw.rx = some (r, l)) : c.residenceDrop uid = ((c.withRx l).dropRx r).stCtr r.port 50 := by
  simp only [Chip.residenceDrop, hk, ht]
  rfl

/-! ## Signal messages (R158) -/

theorem exec_signalMessageRouted (p : Nat) (s : State) :
    exec (.signalMessageRouted p) s = .next (s.withChip (s.chip.sigRoute p)) := rfl

/-- The module with other signal messages that wait to be routed. -/
def Chip.withSigRx (c : Chip) (l : List (Nat × SigMsg)) : Chip := { c with knd := { c.knd with sigRx := l } }

section Message
variable (c : Chip) {p q : Nat} {m : SigMsg} {l : List (Nat × SigMsg)} (hu : c.portUp p = true) (hp : c.inPortFog p = false)
  (ht : takeFirst (fun x => x.1 == p) c.knd.sigRx = some ((q, m), l))
include hu hp ht

theorem Chip.sigRoute_here (hh : c.faHere m.dest = true) : c.sigRoute p =
    { c with knd := { c.knd with sigRx := l, delivered := c.knd.delivered ++ [m] } } := by
  have hh' : (c.withSigRx l).faHere m.dest = true := hh
  simp only [Chip.withSigRx] at hh'
  simp only [Chip.sigRoute, hu, hp, ht, hh', Bool.not_true, Bool.or_self, Bool.false_eq_true, if_false, if_true]

/-- A message for another module goes on by its route unless that is a turn (R179). -/
theorem Chip.sigRoute_to (hh : c.faHere m.dest = false) {d : Chip} {e : Nat}
    (hr : (c.withSigRx l).route p m.dest m.origin m.tc 0 = .to d e) (hturn : ((d.port p).facing && (d.port e).facing) = false) :
    c.sigRoute p = d.queueSig e m false := by
  have hh' : (c.withSigRx l).faHere m.dest = false := hh
  simp only [Chip.withSigRx] at hh' hr
  simp only [Chip.sigRoute, hu, hp, ht, hh', hr, hturn, Bool.not_true, Bool.or_self, Bool.false_eq_true, if_false]

end Message

/-! ## FAR_ERR (R161, R200) -/

theorem exec_farErrSecondCopy (id : Nat) (s : State) :
    exec (.farErrSecondCopy id) s = .next (s.withChip (s.chip.farAgain id)) := rfl

theorem Chip.farAgain_of_due (c : Chip) {id : Nat} {m : SigMsg}
    (hf : c.knd.farSecond.find? (fun x => x.1 == id) = some (id, m)) (hd : c.due (.farSecond id) = true) : c.farAgain id =
      (({ c with knd := { c.knd with farSecond := c.knd.farSecond.filter (fun x => x.1 != id) } } : Chip).disarm
        (.farSecond id)).sendSig (portStation (faPort m.origin)) m := by
  simp only [Chip.farAgain, hf, hd, if_true]

theorem exec_farErrReceived (s : State) : exec .farErrReceived s = .next (s.withChip s.chip.farErrIn) := rfl

section FarErr
variable (b : Chip) {c : Chip} {d tc status addr v ser origin : Nat}
  (ht : b.takeMsg (fun m => m.stype == 4) = some (.farErr d tc status addr v ser origin, c))
include ht

/-- A FAR_ERR that meets an empty filter is filtered for a millisecond, and accepted. -/
theorem Chip.farErrIn_new (hf : c.filterOf v = []) : b.farErrIn =
    (({ c with knd := { c.knd with farFilter := c.knd.farFilter ++ [(v, origin, ser, addr, c.now + ms)] } } : Chip).arm
      (.farFilter v origin ser addr) ms).felAccept v status addr origin ser := by
  simp only [Chip.farErrIn, ht, hf, List.any_nil, Bool.false_eq_true, if_false]

/-- A FAR_ERR that an entry of the filter holds goes no further. -/
theorem Chip.farErrIn_dup {u : Nat} (hm : (v, origin, ser, addr, u) ∈ c.knd.farFilter) (hu : c.now < u) : b.farErrIn = c := by
  have hdup : (c.filterOf v).any (fun x =>
      x.2.1 == origin && x.2.2.1 == ser && x.2.2.2.1 == addr && decide (c.now < x.2.2.2.2)) = true :=
    List.any_eq_true.mpr ⟨_, List.mem_filter.mpr ⟨hm, beq_self_eq_true v⟩, by simp [hu]⟩
  simp only [Chip.farErrIn, ht, hdup, if_true]

end FarErr

theorem exec_farErrFilterExpiry (v origin ser addr : Nat) (s : State) :
    exec (.farErrFilterExpiry v origin ser addr) s = .next (s.withChip (s.chip.farFilterEnd v origin ser addr)) := rfl

/-- R200: the entry whose time is up leaves the filter. -/
theorem Chip.farFilterEnd_of_due (c : Chip) {v origin ser addr : Nat} (hd : c.due (.farFilter v origin ser addr) = true) :
    c.farFilterEnd v origin ser addr = ({ c with knd := { c.knd with farFilter := c.knd.farFilter.filter (fun x =>
      !(x.1 == v && x.2.1 == origin && x.2.2.1 == ser && x.2.2.2.1 == addr)) } } : Chip).disarm (.farFilter v origin ser addr) :=
  if_pos hd

/-- What the end of an entry leaves in the filter: every entry of another name. -/
theorem Chip.mem_farFilterEnd (c : Chip) {v origin ser addr : Nat} (hd : c.due (.farFilter v origin ser addr) = true)
    (x : Nat × Nat × Nat × Nat × Nat) : x ∈ (c.farFilterEnd v origin ser addr).knd.farFilter ↔
      x ∈ c.knd.farFilter ∧ (x.1, x.2.1, x.2.2.1, x.2.2.2.1) ≠ (v, origin, ser, addr) := by
  rw [c.farFilterEnd_of_due hd]
  refine List.mem_filter.trans (and_congr_right fun _ => ?_)
  simp [imp_iff_not_or, or_assoc]

/-- Settles O23: a frame by what its checks and its route say, a packet or a frame in a buffer by its age, a message by whose it
is, and a FAR_ERR by what its filter holds. That a number which no packet has names the oldest aged frame of the receive buffers is
the model's choice (log 149). -/
theorem framesAndMessagesGoOn : Obligations.FramesAndMessagesGoOn := by
  refine ⟨fun s p q r l f c hu hp hm hi ht hf hcrc hmc hh hgot hr hl => ?_, fun s p r l f hu hp hm hmor ht hf hcrc hw hgot => ?_,
    fun s uid k hk hg hrel hw ht hedge => ?_, fun s p q m l hu hp ht hh => ?_, fun s p q e m l c hu hp ht hh hr hturn => ?_,
    fun s id m hf hd => ?_, fun s c d tc status addr v ser origin ht hf => ?_,
    fun s c d tc status addr v ser origin u ht hm hu => ?_, fun s v origin ser addr hd => ⟨_, exec_farErrFilterExpiry .., ?_⟩,
    fun s uid r l hk ht => ?_⟩
  · rw [exec_spanFrameReceived, s.chip.frameIn_transit hu hp hm ht hf hgot hi hcrc hmc hh, (s.chip.withRx l).transitFrame_to hr hl]
  · rw [exec_spanFrameReceived, s.chip.frameIn_crcFail hu hp hm ht hf hgot hmor hcrc hw]
    rfl
  · obtain ⟨h, hkh, hedge⟩ := Option.map_eq_some_iff.mp hedge
    rw [exec_guardResidenceDrop, s.chip.residenceDrop_pkt hk hg hrel hw ht hkh hedge]
    rfl
  · rw [exec_signalMessageRouted, s.chip.sigRoute_here hu hp ht hh]
  · rw [exec_signalMessageRouted, s.chip.sigRoute_to hu hp ht hh hr hturn]
  · rw [exec_farErrSecondCopy, s.chip.farAgain_of_due hf hd]
  · rw [exec_farErrReceived, s.chip.farErrIn_new ht hf]
  · rw [exec_farErrReceived, s.chip.farErrIn_dup ht hm hu]
  · have hmem := s.chip.mem_farFilterEnd hd
    refine ⟨fun u hu => ((hmem _).mp hu).2 rfl, fun x hx => (hmem x).trans (and_iff_left hx), ?_⟩
    rw [State.withChip_chip, s.chip.farFilterEnd_of_due hd]
    exact ⟨Chip.due_disarm_same _ _, rfl, rfl⟩
  · rw [exec_guardResidenceDrop, s.chip.residenceDrop_rx hk ht]
    rfl

end Sys2Proof.Machine
end

section
/-!
PROOFS. Fences, drains and the fabric registers that act at the write (R188, R197, R200, R342).
-/
namespace Sys2Proof.Machine

/-! ## The drain fence (R197) -/

section Fence
variable (c : Chip)

/-- A new fence replaces the one in progress and shows BUSY without DONE; FENCE_STATUS alone among the registers changes. -/
theorem Chip.fenceReq_effect (gen v : Nat) (all : Bool) :
    (c.fenceReq gen v all).flag Reg.FENCE_STATUS Bit.FENCE_STATUS_BUSY = true ∧
      (c.fenceReq gen v all).flag Reg.FENCE_STATUS Bit.FENCE_STATUS_DONE = false ∧
      ∀ o, o ≠ Reg.FENCE_STATUS → (c.fenceReq gen v all).rd o = c.rd o := by
  refine ⟨?_, Chip.flag_clrFld_same _ _ _ (by decide), fun o ho =>
    (Chip.rd_clrFld_other _ _ ho).trans (Chip.rd_setBit_other _ _ ho)⟩
  exact (Chip.flag_setFld_otherField _ _ _ 0 (by decide) (by decide)).trans
    (Chip.flag_setBit_same _ _ _ (by decide) (by decide))

/-- A fence that nothing holds ends. -/
theorem Chip.fenceDone_of_empty (hf : c.knd.fence.isSome = true) (h0 : c.fenceCount = 0) : c.fenceDone =
    ((({ c with knd := { c.knd with fence := none } } : Chip).clrFld Reg.FENCE_STATUS Bit.FENCE_STATUS_BUSY).setBit
      Reg.FENCE_STATUS Bit.FENCE_STATUS_DONE).setBit Reg.KND_EVENT Bit.KND_EVENT_FENCE_DONE :=
  if_pos (by simp [hf, h0])

/-- At its end a fence shows DONE without BUSY and sets its event; FENCE_STATUS and KND_EVENT alone among the registers change. -/
theorem Chip.fenceDone_effect (hf : c.knd.fence.isSome = true) (h0 : c.fenceCount = 0) :
    c.fenceDone.flag Reg.FENCE_STATUS Bit.FENCE_STATUS_BUSY = false ∧
      c.fenceDone.flag Reg.FENCE_STATUS Bit.FENCE_STATUS_DONE = true ∧
      c.fenceDone.flag Reg.KND_EVENT Bit.KND_EVENT_FENCE_DONE = true ∧
      ∀ o, o ≠ Reg.FENCE_STATUS → o ≠ Reg.KND_EVENT → c.fenceDone.rd o = c.rd o := by
  have hne : Reg.FENCE_STATUS ≠ Reg.KND_EVENT := by decide
  rw [c.fenceDone_of_empty hf h0]
  refine ⟨?_, ?_, Chip.flag_setBit_same _ _ _ (by decide) (by decide), fun o hs he => ?_⟩
  · exact (Chip.flag_setFld_other _ _ _ 1 hne).trans ((Chip.flag_setFld_otherField _ _ _ 1 (by decide) (by decide)).trans
      (Chip.flag_clrFld_same _ _ _ (by decide)))
  · exact (Chip.flag_setFld_other _ _ _ 1 hne).trans (Chip.flag_setBit_same _ _ _ (by decide) (by decide))
  · exact (Chip.rd_setBit_other _ _ he).trans ((Chip.rd_setBit_other _ _ hs).trans (Chip.rd_clrFld_other _ _ hs))

end Fence

theorem exec_fenceDone (s : State) : exec .fenceDone s = .next (s.withChip s.chip.fenceDone) := rfl

/-! ## The drain of the sectors (R342) -/

theorem exec_secDrained (s : State) : exec .secDrained s = .next (s.withChip s.chip.secDrained) := rfl

theorem Chip.secDrained_of_empty (c : Chip) (h : c.secOld = 0) :
    c.secDrained = c.setBit Reg.SEC_DRAIN Bit.SEC_DRAIN_DRAINED := if_pos h

/-! ## The read pointer of the Far Error Log (R200) -/

/-- The pointers of the 64 Far Error Logs lie in no island with a gate. -/
theorem islandAt_felPtr {v : Nat} (h : v < 64) : islandAt (Reg.FEL_PTR v) = none := by
  simp only [islandAt, Reg.FEL_PTR]
  rw [if_neg (by omega), if_neg (by omega), if_neg (by omega)]

section FelRd
variable (c : Chip) {v rd : Nat}

theorem Chip.felRd_taken (h : modSub 128 (c.fld (Reg.FEL_PTR v) Bit.FEL_PTR_WR) rd ≤ 64) :
    c.felRd v rd = c.setFld (Reg.FEL_PTR v) Bit.FEL_PTR_RD rd := if_pos h

theorem Chip.felRd_logged (h : 64 < modSub 128 (c.fld (Reg.FEL_PTR v) Bit.FEL_PTR_WR) rd) :
    c.felRd v rd = c.log .felRdBad [v, rd] := if_neg (by omega)

end FelRd

/-! ## The base of the fabric requester ids (R188) -/

section FabRid
variable (c : Chip) (base : Nat)

/-- Without an entry or a quarantined tag of a span port the base is taken. -/
theorem Chip.fabRidWrite_taken (ho : ∀ e ∈ c.pci.ort, c.isSpan e.port = false) (hq : ∀ q ∈ c.pci.quar, c.isSpan q.port = false) :
    c.fabRidWrite base = c.setFld Reg.KND_FAB_RID Bit.KND_FAB_RID_BASE base := by
  have hort : c.pci.ort.any (fun e => c.isSpan e.port) = false := List.any_eq_false.mpr fun e he => by simp [ho e he]
  have hquar : c.pci.quar.any (fun q => c.isSpan q.port) = false := List.any_eq_false.mpr fun q h => by simp [hq q h]
  exact if_neg (by simp [hort, hquar])

/-- With one entry of a span port the base stands. -/
theorem Chip.fabRidWrite_busy {e : OrtEnt} (he : e ∈ c.pci.ort) (hp : c.isSpan e.port = true) :
    c.fabRidWrite base = c.setBit Reg.KND_EVENT Bit.KND_EVENT_RID_BUSY :=
  if_pos (Bool.or_eq_true_iff.mpr (.inl (List.any_eq_true.mpr ⟨e, he, hp⟩)))

end FabRid

/-- Settles O33: each register is one write access in no island with a gate; FENCE_DONE and SEC_DRAINED find their counts at 0. -/
theorem fencesAndFabricRegisters : Obligations.FencesAndFabricRegisters := by
  refine ⟨fun s ag gen v all hr => ?_, fun s hf h0 => ?_, fun s h0 => ?_, fun s ag v rd hr hrd hv h => ?_,
    fun s ag v rd hr hv h => ?_, fun s ag base hr ho hq => ?_, fun s ag base e hr he hp => ?_⟩
  · obtain ⟨hbusy, hdone, hregs⟩ := s.chip.fenceReq_effect gen v all
    exact ⟨_, exec_ungated_access_of_reaches rfl hr (by decide) rfl, rfl, hbusy, hdone, hregs, rfl, rfl, rfl⟩
  · obtain ⟨hbusy, hdone, hevent, hregs⟩ := s.chip.fenceDone_effect hf h0
    refine ⟨_, exec_fenceDone s, ?_, hbusy, hdone, hevent, hregs, ?_, ?_⟩ <;>
      rw [State.withChip_chip, s.chip.fenceDone_of_empty hf h0] <;> rfl
  · refine ⟨_, exec_secDrained s, ?_⟩
    rw [State.withChip_chip, s.chip.secDrained_of_empty h0]
    exact ⟨Chip.flag_setBit_same _ _ _ (by decide) (by decide), fun o ho => Chip.rd_setBit_other _ _ ho, rfl, rfl⟩
  · refine ⟨_, exec_ungated_access_of_reaches rfl hr (islandAt_felPtr hv) (s.chip.felRd_taken h), ?_,
      Chip.fld_setFld_otherField _ _ _ _ _ (by decide) (by decide), fun o ho => Chip.rd_setFld_other _ _ _ ho⟩
    exact (Chip.fld_setFld_same _ _ _ _ (by decide)).trans (Nat.mod_eq_of_lt hrd)
  · exact exec_ungated_access_of_reaches rfl hr (islandAt_felPtr hv) (s.chip.felRd_logged h)
  · exact exec_ungated_access_of_reaches rfl hr (by decide) (s.chip.fabRidWrite_taken base ho hq)
  · exact exec_ungated_access_of_reaches rfl hr (by decide) (s.chip.fabRidWrite_busy base he hp)

end Sys2Proof.Machine
end

section
/-!
PROOFS. The streams of the Mooring store (chapter 07, R220, R222): the stream of a name after a write, and what a REFUSE or a
CAST_OFF does to the stream that it names.
-/
namespace Sys2Proof.Machine

/-! ## Streams by name -/

theorem IStream.is_iff (x : IStream) (s t d : Nat) : x.is s t d = true ↔ (x.srcFa, x.tc, x.destFa) = (s, t, d) := by
  simp [IStream.is, and_assoc]

theorem Chip.is_of_stream {c : Chip} {s t d : Nat} {x : IStream} (h : c.stream s t d = some x) : x.is s t d = true :=
  List.find?_some (p := fun y : IStream => y.is s t d) h

theorem Chip.stream_putStream_same (c : Chip) {x : IStream} {s t d : Nat} (h : x.is s t d = true) :
    (c.putStream x).stream s t d = some x := List.find?_cons_of_pos h

theorem Chip.stream_putStream_other (c : Chip) {x : IStream} {s t d : Nat} (h : ¬ x.is s t d = true) :
    (c.putStream x).stream s t d = c.stream s t d := by
  have hname : ∀ y : IStream, (!y.is x.srcFa x.tc x.destFa && y.is s t d) = y.is s t d := fun y => by
    cases hy : y.is s t d with
    | false => exact Bool.and_false _
    | true =>
      have hne : y.is x.srcFa x.tc x.destFa = false := Bool.eq_false_iff.mpr fun hk =>
        h ((x.is_iff s t d).mpr (((y.is_iff _ _ _).mp hk).symm.trans ((y.is_iff s t d).mp hy)))
      simp [hne]
  calc (c.putStream x).stream s t d
      = (c.mor.streams.filter (fun y => !y.is x.srcFa x.tc x.destFa)).find? (·.is s t d) := List.find?_cons_of_neg h
    _ = c.stream s t d := by simp only [List.find?_filter, Bool.decide_and, Bool.decide_eq_true, hname, Chip.stream]

/-! ## A REFUSE or a CAST_OFF for a stream that has not failed -/

section OfStream
variable {c : Chip} {src tc dest epoch : Nat} {x : IStream}

/-- R222: a REFUSE for the current epoch. -/
theorem Chip.applyRefuse_of_current (hx : c.stream src tc dest = some x) (hf : x.failed = false) (he : x.epoch = epoch) :
    c.applyRefuse src tc dest epoch = ((c.setBit Reg.MOR_EVENT Bit.MOR_EVENT_REFUSE_RCVD).drew.putStream
      { x with refused := true, refuseExp := x.refuseExp + 1 }).arm (.refuse src tc dest) (c.refuseNs x) := by
  simp [Chip.applyRefuse, hx, hf, he]

/-- R220: positions beyond those held, within half the range. -/
theorem Chip.applyCastOff_ahead {n : Nat} (hx : c.stream src tc dest = some x) (hf : x.failed = false) (he : x.epoch = epoch)
    (hn : x.held < modSub 65536 (n + 1) x.low) (hr : modSub 65536 (n + 1) x.low ≤ 32767) :
    c.applyCastOff src tc dest epoch n = c.failStream x causeCastoffErr := by
  simp [Chip.applyCastOff, hx, hf, he, Nat.not_le.mpr hn, hr]

/-- R220: a position below LOW. -/
theorem Chip.applyCastOff_behind {n : Nat} (hx : c.stream src tc dest = some x) (hf : x.failed = false) (he : x.epoch = epoch)
    (hn : x.held < modSub 65536 (n + 1) x.low) (hr : 32767 < modSub 65536 (n + 1) x.low) :
    c.applyCastOff src tc dest epoch n = c := by
  simp [Chip.applyCastOff, hx, hf, he, Nat.not_le.mpr hn, Nat.not_le.mpr hr]

/-- R220: another epoch. -/
theorem Chip.applyCastOff_otherEpoch (n : Nat) (hx : c.stream src tc dest = some x) (he : x.epoch ≠ epoch) :
    c.applyCastOff src tc dest epoch n = c.satInc Reg.MOR_IGNORED Bit.MOR_IGNORED_CAST_IGNORED := by
  simp [Chip.applyCastOff, hx, he]

end OfStream

/-- Settles O25: a REFUSE writes the stream of its name, one timer and one event bit; a CAST_OFF by how far it lies from LOW. -/
theorem streamMessagesChangeTheirStream : Obligations.StreamMessagesChangeTheirStream := by
  refine ⟨fun c src tc dest epoch x hx hf he => ?_, fun c src tc dest epoch n x hx hf => ⟨Chip.applyCastOff_ahead hx hf,
    Chip.applyCastOff_behind hx hf, Chip.applyCastOff_otherEpoch n hx⟩⟩
  have hname : x.is src tc dest = true := Chip.is_of_stream hx
  rw [Chip.applyRefuse_of_current hx hf he]
  refine ⟨Chip.stream_putStream_same _ hname, List.mem_cons_self, Chip.flag_setBit_same _ _ _ (by decide) (by decide), rfl,
    fun a b d hne => Chip.stream_putStream_other _ fun h => hne ?_, fun o ho => c.rd_setBit_other _ ho⟩
  exact ((x.is_iff a b d).mp h).symm.trans ((x.is_iff src tc dest).mp hname)

end Sys2Proof.Machine
end

section
/-!
PROOFS. The allocation of a custody copy (chapter 07, R205, R209, R359) where the metadata of its stream carries a single-bit error:
the allocation starts from the chip as it was before the access, so the correction that the access made is lost.
-/
namespace Sys2Proof.Machine

theorem exec_guardedCopyAllocated (st src : Nat) (s : State) :
    exec (.guardedCopyAllocated st src) s = .next (s.withChip (s.chip.allocNext st src)) := rfl

/-- A guarded write of port 24 toward module 5 that waits for its custody copy. -/
def struckPkt : Pkt :=
  { uid := 1, st := 3, inPort := 24, tlp := { kind := .mwr, len := 64 }, egPort := 2, guarded := true
    kh := some { destFa := 648, guarded := true, srcFa := 280 } }

/-- Module 2, outside Fog and with its Keeper running: it holds that packet, one HELD copy of the packet's stream, and a single-bit
error in the metadata of the stream. -/
def struckChip : Chip :=
  ((({ sw := { pkts := [struckPkt], nextUid := 2, nextOrder := 1 }
       mor := { bootHold := false, nextCopy := 1
                copies := [{ id := 0, srcFa := 280, tc := 0, destFa := 648, epoch := 1, n := 0, state := .held }]
                streams := [{ srcFa := 280, tc := 0, destFa := 648, epoch := 1, next := 1, ecc := 1 }] } } : Chip).setFld
    Reg.KND_ID Bit.KND_ID_MODULE 2).setFld Reg.KPR_STATUS Bit.KPR_STATUS_STAGE 1).clrFld Reg.SAF_STATUS
      Bit.SAF_STATUS_MODULE_FOG

/-- The SECDED code of the metadata of that stream. -/
def Chip.struckEcc (c : Chip) : Option Nat := (c.stream 280 0 648).map (·.ecc)

/-- The allocation leaves the error in the metadata. -/
theorem struckEcc_allocNext : (struckChip.allocNext 3 0).struckEcc = some 1 := by decide +kernel

/-- An allocation on the chip that the access to the metadata leaves has no error there. -/
theorem struckEcc_allocOn_metaAccess : ((struckChip.metaAccess (struckPkt.kh.getD {}).srcFa (struckPkt.kh.getD {}).tc
    (struckPkt.kh.getD {}).destFa).1.allocOn struckPkt (struckPkt.kh.getD {})).struckEcc = some 0 := by decide +kernel

theorem State.withChip_injective (s : State) : Function.Injective s.withChip := fun _ _ h => congrArg State.chip h

/-- Refutes O18: its first clause allocates on the chip that the access to the stream's metadata leaves, and the model on the chip
before that access, so in `struckChip` the corrected error stays in the metadata. -/
theorem not_custodyCopiesMoveThroughTheStore : ¬ Obligations.CustodyCopiesMoveThroughTheStore := by
  rintro ⟨halloc, -⟩
  have hexec := halloc { chip := struckChip } 3 0 struckPkt (by decide +kernel) (by decide +kernel) (by decide +kernel)
    (by decide +kernel) (by decide +kernel)
  rw [exec_guardedCopyAllocated] at hexec
  have hecc := congrArg Chip.struckEcc (State.withChip_injective _ (Host.Outcome.next.inj hexec))
  rw [struckEcc_allocNext, struckEcc_allocOn_metaAccess] at hecc
  exact absurd hecc (by decide)

end Sys2Proof.Machine
end

section
/-!
PROOFS. The messages that end at this module (chapter 07, R220 to R222, R324, and R359, R395, R423): a stream's metadata, the
messages of streams, notices, and MGMT with its repeats.
-/
namespace Sys2Proof.Machine

/-! ## The metadata of a stream (R359) -/

section Metadata
variable {c : Chip} {s t d : Nat} {x : IStream}

/-- With no injected error the access goes by the SECDED code alone. -/
theorem Chip.metaAccess_of_stream (hi : c.saf.inject = none) (hx : c.stream s t d = some x) : c.metaAccess s t d =
    if x.ecc = 2 then (c.metaFail x, false)
    else if x.ecc = 1 then ((c.putStream { x with ecc := 0 }).corrected, true)
    else (c, true) := by
  simp only [Chip.metaAccess, hx, c.injected_of_none 8 _ hi, Bool.and_false, Bool.false_eq_true, if_false]

theorem Chip.metaAccess_sound (hi : c.saf.inject = none) (hx : c.stream s t d = some x) (he : x.ecc = 0) :
    c.metaAccess s t d = (c, true) := by
  simp [Chip.metaAccess_of_stream hi hx, he]

theorem Chip.metaAccess_corrected (hi : c.saf.inject = none) (hx : c.stream s t d = some x) (he : x.ecc = 1) :
    c.metaAccess s t d = ((c.putStream { x with ecc := 0 }).corrected, true) := by
  simp [Chip.metaAccess_of_stream hi hx, he]

theorem Chip.metaAccess_lost (hi : c.saf.inject = none) (hx : c.stream s t d = some x) (he : x.ecc = 2) :
    c.metaAccess s t d = (c.metaFail x, false) := by
  simp [Chip.metaAccess_of_stream hi hx, he]

end Metadata

/-! ## Messages of streams (R220 to R222, R324) -/

theorem exec_castOffReceived (s : State) :
    exec .castOffReceived s = .next (s.withChip s.chip.castOffIn.relaySettle) := rfl

theorem exec_resendReceived (s : State) : exec .resendReceived s = .next (s.withChip s.chip.resendIn.relaySettle) := rfl

theorem exec_refuseReceived (s : State) : exec .refuseReceived s = .next (s.withChip s.chip.refuseIn) := rfl

theorem exec_noticeReceived (s : State) : exec .noticeReceived s = .next (s.withChip s.chip.noticeIn) := rfl

/-- A CAST_OFF slot that casts off, and one that asks for a resend (R221). -/
def SigMsg.isCastOff : SigMsg → Bool
  | .castOff _ _ _ _ _ r => !r
  | _ => false

def SigMsg.isResend : SigMsg → Bool
  | .castOff _ _ _ _ _ r => r
  | _ => false

section Messages
variable {b c : Chip} {d t o e n : Nat}

theorem Chip.castOffIn_of_taken {r : Bool} (hr : b.morRuns = true)
    (h : b.takeMsg SigMsg.isCastOff = some (.castOff d t o e n r, c)) : b.castOffIn =
      let m := (c.ctrInc kMooring 0 9).metaAccess d t o
      if m.2 = true then m.1.applyCastOff d t o e n else m.1 := by
  refine (if_neg (by simp [hr])).trans ?_
  generalize hq : b.takeMsg _ = q
  obtain rfl : q = some _ := hq.symm.trans h
  rfl

theorem Chip.resendIn_of_taken {r : Bool} (hr : b.morRuns = true)
    (h : b.takeMsg SigMsg.isResend = some (.castOff d t o e n r, c)) : b.resendIn =
      let m := c.metaAccess d t o
      if m.2 = true then m.1.applyResend d t o e n else m.1 := by
  refine (if_neg (by simp [hr])).trans ?_
  generalize hq : b.takeMsg _ = q
  obtain rfl : q = some _ := hq.symm.trans h
  rfl

theorem Chip.refuseIn_of_taken {k : Nat} (hr : b.morRuns = true)
    (h : b.takeMsg (fun m => m.stype == 3) = some (.refuse d t o e n k, c)) : b.refuseIn =
      let m := (c.ctrInc kMooring 0 15).metaAccess d t o
      if m.2 = true then m.1.applyRefuse d t o e else m.1 := by
  simp only [Chip.refuseIn, hr, h, Bool.not_true, Bool.false_eq_true, if_false]

theorem Chip.noticeIn_of_taken {q : Nat} (h : b.takeMsg (fun m => m.stype == 2) = some (.notice d t o q, c)) :
    b.noticeIn = c.applyNotice (faPort d) t o := by
  simp only [Chip.noticeIn, h]

end Messages

/-- The crossing into a Mooring in reset holds the messages of streams (R21; that they wait whole is the model's choice,
log 172). -/
theorem Chip.streamMessages_wait {c : Chip} (h : c.morRuns = false) : c.castOffIn = c ∧ c.resendIn = c ∧ c.refuseIn = c :=
  ⟨if_pos (by simp [h]), if_pos (by simp [h]), if_pos (by simp [h])⟩

/-! ## MGMT (R395, R423) -/

theorem exec_mgmtReceived (s : State) : exec .mgmtReceived s = .next (s.withChip s.chip.mgmtIn) := rfl

theorem exec_mgmtRepeatTimer (id : Nat) (s : State) :
    exec (.mgmtRepeatTimer id) s = .next (s.withChip (s.chip.mgmtRepeat id)) := rfl

section Mgmt
variable {b c : Chip} {d o i : Nat} {bytes : List Nat} (ht : b.takeMsg (fun m => m.stype == 5) = some (.mgmt d o i bytes, c))
include ht

theorem Chip.mgmtIn_of_stopped (hk : c.keeperRuns = false) : b.mgmtIn = c := by
  simp only [Chip.mgmtIn, ht, hk, Bool.not_false, if_true]

theorem Chip.mgmtIn_ack (hk : c.keeperRuns = true) (h1 : nth bytes 0 = 1) : b.mgmtIn =
    ({ c with kpr := { c.kpr with
      mgmtPend := c.kpr.mgmtPend.filter (fun x => x.1 != nth bytes 2 + 256 * nth bytes 3) } } : Chip).disarm
        (.mgmt (nth bytes 2 + 256 * nth bytes 3)) := by
  simp only [Chip.mgmtIn, ht, hk, h1, Bool.not_true, Bool.false_eq_true, if_false, if_true]

/-- Any other message acts, after its acknowledgement where it asks for one. -/
theorem Chip.mgmtIn_acts (hk : c.keeperRuns = true) (h1 : nth bytes 0 ≠ 1) : b.mgmtIn =
    (if bitOf (nth bytes 1) 0 = true then c.sendMgmtMsg (.mgmt o (c.ownFa 0) (nth bytes 2 + 256 * nth bytes 3)
      ([1, 0] ++ leBytes 2 (nth bytes 2 + 256 * nth bytes 3))) else c).mgmtAct o (nth bytes 2 + 256 * nth bytes 3)
        (nth bytes 0) (bytes.drop 4) := by
  simp only [Chip.mgmtIn, ht, hk, h1, Bool.not_true, Bool.false_eq_true, if_false]

end Mgmt

section Repeat
variable {c : Chip} {id n : Nat} {m : SigMsg} (hd : c.due (.mgmt id) = true)
  (hm : c.kpr.mgmtPend.find? (fun x => x.1 == id) = some (id, m, n))
include hd hm

theorem Chip.mgmtRepeat_again (hn : n < 8) : c.mgmtRepeat id =
    (({ c with kpr := { c.kpr with
      mgmtPend := mapIf (fun x => x.1 == id) (fun x => (x.1, x.2.1, x.2.2 + 1)) c.kpr.mgmtPend } } : Chip).arm
        (.mgmt id) ms).sendMgmtMsg m := by
  simp only [Chip.mgmtRepeat, hd, hm, hn, if_true]

theorem Chip.mgmtRepeat_lost (hn : 8 ≤ n) : c.mgmtRepeat id =
    ((({ c with kpr := { c.kpr with
      mgmtPend := c.kpr.mgmtPend.filter (fun x => x.1 != id) } } : Chip).disarm (.mgmt id)).setBit Reg.KPR_EVENT
        Bit.KPR_EVENT_MGMT_LOST).log .mgmtLost [m.dest, id] := by
  simp only [Chip.mgmtRepeat, hd, hm, Nat.not_lt.mpr hn, if_true, if_false]

end Repeat

/-- Settles O24: a message by the stream's metadata or by the Keeper that it meets, and a repeat by its count of sends. -/
theorem messagesActWhereTheyEnd : Obligations.MessagesActWhereTheyEnd := by
  refine ⟨fun s c d t o e n h hr => ?_, fun s c d t o e n h hr => ?_, fun s c d t o e n k h hr => ?_, fun s hr => ?_,
    fun c d t o x hi hx => ⟨Chip.metaAccess_sound hi hx, Chip.metaAccess_corrected hi hx, Chip.metaAccess_lost hi hx⟩,
    fun s c d t o q h => ?_, fun s c d o i bytes h hk h1 => ?_, fun s c d o i bytes h hk h1 ha => ?_,
    fun s c d o i bytes h hk h1 ha => ?_, fun s c d o i bytes h hk => ?_, fun s id n m hd hm hn => ?_,
    fun s id n m hd hm hn => ?_⟩
  · rw [exec_castOffReceived, Chip.castOffIn_of_taken hr h]
  · rw [exec_resendReceived, Chip.resendIn_of_taken hr h]
  · rw [exec_refuseReceived, Chip.refuseIn_of_taken hr h]
  · obtain ⟨hc, hs, hf⟩ := Chip.streamMessages_wait hr
    rw [exec_castOffReceived, exec_resendReceived, exec_refuseReceived, hc, hs, hf]
    exact ⟨rfl, rfl, rfl⟩
  · rw [exec_noticeReceived, Chip.noticeIn_of_taken h]
  · rw [exec_mgmtReceived, Chip.mgmtIn_ack h hk h1]
  · rw [exec_mgmtReceived, Chip.mgmtIn_acts h hk h1, if_pos ha]
  · rw [exec_mgmtReceived, Chip.mgmtIn_acts h hk h1, if_neg (by simp [ha])]
  · rw [exec_mgmtReceived, Chip.mgmtIn_of_stopped h hk]
  · rw [exec_mgmtRepeatTimer, Chip.mgmtRepeat_again hd hm hn]
  · rw [exec_mgmtRepeatTimer, Chip.mgmtRepeat_lost hd hm hn]

end Sys2Proof.Machine
end

section
/-!
PROOFS. The timers of Mooring (chapter 07, R217, R219, R222, R223, R226, R228, R231): what each does once it is due.
-/
namespace Sys2Proof.Machine

/-! ## The ingress edge -/

theorem exec_custodyTimerExpiry (a b d : Nat) (s : State) :
    exec (.custodyTimerExpiry a b d) s = .next (s.withChip (s.chip.custodyExpiry a b d)) := rfl

theorem exec_refuseBackoffExpiry (a b d : Nat) (s : State) :
    exec (.refuseBackoffExpiry a b d) s = .next (s.withChip (s.chip.refuseExpiry a b d)) := rfl

theorem exec_custodyLimitExpiry (a b d : Nat) (s : State) :
    exec (.custodyLimitExpiry a b d) s = .next (s.withChip (s.chip.limitExpiry a b d).relaySettle) := rfl

theorem exec_epochGapExpiry_of_due {a b d : Nat} {s : State} (hd : s.chip.due (.epochGap a b d) = true) :
    exec (.epochGapExpiry a b d) s = .next (s.withChip (s.chip.disarm (.epochGap a b d))) :=
  congrArg (fun c => Host.Outcome.next (s.withChip c)) (if_pos hd)

theorem exec_dormantRecordExpiry (a b d : Nat) (s : State) :
    exec (.dormantRecordExpiry a b d) s = .next (s.withChip (s.chip.dormantEnd a b d)) := rfl

theorem exec_bootHoldEnd (s : State) : exec .bootHoldEnd s = .next (s.withChip s.chip.bootHoldEnd) := rfl

section Ingress
variable {c : Chip} {a b d : Nat} {x : IStream}

/-- R223: the custody timer of a stream that still holds copies. -/
theorem Chip.custodyExpiry_of_due (hd : c.due (.custody a b d) = true) (hi : c.saf.inject = none)
    (hx : c.stream a b d = some x) (he : x.ecc = 0) (hc : c.copiesOf x ≠ []) (hf : x.failed = false) : c.custodyExpiry a b d =
      let y := { x with alt := (x.alt + 1) % 4, expo := x.expo + 1 }
      (((c.putStream y).armCustody y).reAlt y).startReplay y y.low (some cReplayTmr) true := by
  have hne : (c.copiesOf x).isEmpty = false := by simpa using hc
  simp only [Chip.custodyExpiry, hd, Chip.metaAccess_sound hi hx he, hx, hne, hf, Bool.not_true, Bool.or_self,
    Bool.false_eq_true, if_false, if_true]

/-- R222: the back-off of a refusal. -/
theorem Chip.refuseExpiry_of_due (hd : c.due (.refuse a b d) = true) (hx : (c.disarm (.refuse a b d)).stream a b d = some x) :
    c.refuseExpiry a b d = (c.disarm (.refuse a b d)).startReplay x x.low none true := by
  simp only [Chip.refuseExpiry, hd, hx, if_true]

/-- R226: the custody limit of a stream that still holds copies. -/
theorem Chip.limitExpiry_of_due (hd : c.due (.limit a b d) = true) (hx : c.stream a b d = some x) (hc : c.copiesOf x ≠ [])
    (hf : x.failed = false) : c.limitExpiry a b d = c.failStream x causeLimit := by
  have hne : (c.copiesOf x).isEmpty = false := by simpa using hc
  simp only [Chip.limitExpiry, hd, hx, hne, hf, Bool.or_self, Bool.false_eq_true, if_false, if_true]

/-- R228: a dormant record ends, and a stream that waits for a record takes its place. -/
theorem Chip.dormantEnd_of_due (hd : c.due (.dormant a b d) = true) : c.dormantEnd a b d =
    (({ c with mor := { c.mor with
      dormant := c.mor.dormant.filter (fun r => !(r.srcFa == a && r.tc == b && r.destFa == d)) } } : Chip).disarm
        (.dormant a b d)).restWaiting := if_pos hd

/-- Where every stream holds a copy none waits for a record. -/
theorem Chip.restWaiting_of_none (h : c.mor.streams.find? (fun x => (c.copiesOf x).isEmpty) = none) : c.restWaiting = c := by
  simp only [Chip.restWaiting, h]

theorem Chip.dormantEnd_of_none_waiting (hd : c.due (.dormant a b d) = true)
    (hn : c.mor.streams.find? (fun x => (c.copiesOf x).isEmpty) = none) : c.dormantEnd a b d =
      ({ c with mor := { c.mor with
        dormant := c.mor.dormant.filter (fun r => !(r.srcFa == a && r.tc == b && r.destFa == d)) } } : Chip).disarm
          (.dormant a b d) := (Chip.dormantEnd_of_due hd).trans (Chip.restWaiting_of_none hn)

/-- R231: the hold after a boot. -/
theorem Chip.bootHoldEnd_of_due (hd : c.due .bootHold = true) : c.bootHoldEnd =
    (({ c with mor := { c.mor with bootHold := false } } : Chip).clrFld Reg.MOR_STATUS Bit.MOR_STATUS_BOOT_HOLD).disarm
      .bootHold := if_pos hd

end Ingress

/-! ## The egress edge -/

theorem exec_castGapExpiry (a b p : Nat) (s : State) :
    exec (.castGapExpiry a b p) s = .next (s.withChip (s.chip.castGapEnd a b p)) := rfl

/-- R217: a cast-off that waited for the gap. -/
theorem Chip.castGapEnd_of_waiting {c : Chip} {a b p : Nat} {x : ECtx} (hd : c.due (.castGap a b p) = true)
    (hx : (c.disarm (.castGap a b p)).ectx a b p = some x) (hc : x.castDue = true) :
    c.castGapEnd a b p = (c.disarm (.castGap a b p)).castNow x := by
  simp only [Chip.castGapEnd, hd, hx, hc, if_true]

theorem exec_egressCtxAgeClose_of_due {a b p : Nat} {s : State} (hd : s.chip.due (.ctxAge a b p) = true) :
    exec (.egressCtxAgeClose a b p) s = .next (s.withChip (s.chip.dropEctx a b p)) :=
  congrArg (fun c => Host.Outcome.next (s.withChip c)) (if_pos hd)

/-- Settles O26: each timer that is due, on the stream, the record or the context that it names. -/
theorem mooringTimersAct : Obligations.MooringTimersAct := by
  refine ⟨fun s a b d x hd hi hx he hc hf => ?_, fun s a b d x hd hx => ?_, fun s a b d x hd hx hc hf => ?_,
    fun s a b d hd => ⟨_, exec_epochGapExpiry_of_due hd, Chip.due_disarm_same _ _, rfl⟩,
    fun s a b d hd hn => ⟨_, exec_dormantRecordExpiry a b d s, ?_⟩, fun s hd => ⟨_, exec_bootHoldEnd s, ?_⟩,
    fun s a b p x hd hx hc => ?_, fun s a b p hd => exec_egressCtxAgeClose_of_due hd, fun s a b d hd => ?_⟩
  · rw [exec_custodyTimerExpiry, Chip.custodyExpiry_of_due hd hi hx he hc hf]
  · rw [exec_refuseBackoffExpiry, Chip.refuseExpiry_of_due hd hx]
  · rw [exec_custodyLimitExpiry, Chip.limitExpiry_of_due hd hx hc hf]
  · rw [State.withChip_chip, Chip.dormantEnd_of_none_waiting hd hn]
    exact ⟨rfl, Chip.due_disarm_same _ _, rfl, rfl, rfl, rfl⟩
  · rw [State.withChip_chip, Chip.bootHoldEnd_of_due hd]
    exact ⟨rfl, Chip.fld_setFld_same _ _ _ 0 (by decide), Chip.due_disarm_same _ _,
      fun o ho => Chip.rd_clrFld_other _ _ ho, rfl, rfl, rfl⟩
  · rw [exec_castGapExpiry, Chip.castGapEnd_of_waiting hd hx hc]
  · rw [exec_dormantRecordExpiry, Chip.dormantEnd_of_due hd]

end Sys2Proof.Machine
end

section
/-!
PROOFS. GUARD_MAP (chapter 07, R202): what a lookup makes of the map, and what a write to it changes.
-/
namespace Sys2Proof.Machine

/-- R201, R203: a packet looked up through a window is guarded by the map as it stands; one that stays in the module forms no
frame and is not. -/
theorem Chip.packetOf_guarded (c : Chip) (e : Entry) (w : Win) (l : Look) (x : Tlp) :
    (c.packetOf e (some w) l x).guarded = c.guards e.v w x.tc := by
  cases hleaves : w.mc || !c.faHere w.dest with
  | true => simp [Chip.packetOf, hleaves, Chip.headerOf]
  | false =>
    obtain ⟨hmc, hhere⟩ := Bool.or_eq_false_iff.mp hleaves
    simp [Chip.packetOf, Chip.guards, hmc, hhere]

/-- The maps of the 64 VSIs lie in no island with a gate. -/
theorem islandAt_guardMap {v : Nat} (h : v < 64) : islandAt (Reg.GUARD_MAP v) = none := by
  simp only [islandAt, Reg.GUARD_MAP]
  rw [if_neg (by omega), if_neg (by omega), if_neg (by omega)]

theorem Reg.guardMap_ne {u v : Nat} (h : u ≠ v) : Reg.GUARD_MAP u ≠ Reg.GUARD_MAP v := by
  simp only [Reg.GUARD_MAP]
  omega

theorem Reg.kndId_ne_guardMap (v : Nat) : Reg.KND_ID ≠ Reg.GUARD_MAP v := by
  simp only [Reg.KND_ID, Reg.GUARD_MAP]
  omega

/-- A bit within the width that a number is cut to. -/
theorem bitOf_mod_two_pow (n : Nat) {i k : Nat} (h : i < k) : bitOf (n % 2 ^ k) i = bitOf n i := by
  have htest : ∀ m, bitOf m i = m.testBit i := fun _ => Nat.testBit_eq_decide_div_mod_eq.symm
  simp [htest, Nat.testBit_mod_two_pow, h]

section Write
variable (c : Chip) (v mask : Nat)

/-- The chip whose map of a VSI has been written. -/
def Chip.withGuardMap : Chip := c.setFld (Reg.GUARD_MAP v) Bit.GUARD_MAP_TC_MASK mask

theorem exec_guardMapWrite_of_reaches {s : State} {ag : Agent} {v : Nat} (mask : Nat)
    (hr : s.chip.reaches ag (Reg.GUARD_MAP v) = true) (hv : v < 64) : exec (.guardMapWrite ag v mask) s =
      .next (s.withChip ((s.chip.withGuardMap v mask).emit (.regDone ag (Reg.GUARD_MAP v)))) :=
  exec_ungated_access_of_reaches rfl hr (islandAt_guardMap hv) rfl

theorem Chip.rd_withGuardMap_other {o : Nat} (h : o ≠ Reg.GUARD_MAP v) : (c.withGuardMap v mask).rd o = c.rd o :=
  c.rd_setFld_other _ _ h

theorem Chip.fld_withGuardMap_same : (c.withGuardMap v mask).fld (Reg.GUARD_MAP v) Bit.GUARD_MAP_TC_MASK = mask % 2 ^ 8 :=
  c.fld_setFld_same _ _ _ (by decide)

theorem Chip.faHere_withGuardMap (fa : Nat) : (c.withGuardMap v mask).faHere fa = c.faHere fa := by
  simp only [Chip.faHere, Chip.fld, c.rd_withGuardMap_other v mask (Reg.kndId_ne_guardMap v)]

theorem Chip.guards_withGuardMap_same (w : Win) {tc : Nat} (h : tc < 8) :
    (c.withGuardMap v mask).guards v w tc = (!w.mc && !c.faHere w.dest && bitOf mask tc) := by
  simp only [Chip.guards, Chip.fldBit, c.faHere_withGuardMap, c.fld_withGuardMap_same, bitOf_mod_two_pow mask h]

theorem Chip.guards_withGuardMap_other {u : Nat} (w : Win) (tc : Nat) (h : u ≠ v) :
    (c.withGuardMap v mask).guards u w tc = c.guards u w tc := by
  simp only [Chip.guards, Chip.fldBit, Chip.fld, c.faHere_withGuardMap, c.rd_withGuardMap_other v mask (Reg.guardMap_ne h)]

end Write

/-- Settles O34: a lookup reads the map as it stands, and a write changes the map of its VSI alone. -/
theorem guardMapActsOnLaterLookups : Obligations.GuardMapActsOnLaterLookups := by
  refine ⟨Chip.packetOf_guarded, fun s ag v mask hr hv => ⟨_, exec_guardMapWrite_of_reaches mask hr hv, ?_⟩⟩
  exact ⟨s.chip.fld_withGuardMap_same v mask, fun w _ h => s.chip.guards_withGuardMap_same v mask w h,
    fun _ w tc h _ => s.chip.guards_withGuardMap_other v mask w tc h, fun _ h => s.chip.rd_withGuardMap_other v mask h,
    rfl, rfl, rfl, rfl⟩

end Sys2Proof.Machine
end

section
/-!
PROOFS. The Keeper's commands as they begin and end (R380, R382), and the checks of BIND (R254, Table 8.6).
-/
namespace Sys2Proof.Machine

/-! ## A command that the Keeper admits while none is in progress -/

section Command
variable {s : State} {h : KHead} {k : KCmd} {i : Instr} {r : Chip × Option KAns} {c : Chip} {a : KAns}

theorem State.command_of_idle (ha : s.chip.admitsK h k = true) (hb : s.chip.kpr.busy = none) :
    s.command h k = s.startK h k := by
  simp [State.command, State.submitK, ha, hb]

/-- A command in progress: its entry has been fetched, and its action is not complete. -/
def Chip.waitsOn (c : Chip) (h : KHead) (k : KCmd) : Chip :=
  { c.fetchedK h with kpr := { (c.fetchedK h).kpr with busy := some (h, k) } }

theorem State.startK_answered (hk : s.runK h k = (s.withChip c, some a)) : s.startK h k = (s.withChip c).finishK h k a := by
  simp only [State.startK, hk]

theorem State.startK_unanswered (hk : s.runK h k = (s.withChip c, none)) : s.startK h k = s.withChip (c.waitsOn h k) := by
  simp only [State.startK, hk]
  rfl

/-- A command whose action answers is complete as it begins. -/
theorem exec_command_answered (ha : s.chip.admitsK h k = true) (hb : s.chip.kpr.busy = none) (hr : r = (c, some a))
    (hk : s.runK h k = (s.withChip r.1, r.2)) (hi : exec i s = .next (s.command h k)) :
    exec i s = .next ((s.withChip c).finishK h k a) := by
  rw [hi, State.command_of_idle ha hb, State.startK_answered (hr ▸ hk)]

/-- A command whose action does not answer is in progress. -/
theorem exec_command_unanswered (ha : s.chip.admitsK h k = true) (hb : s.chip.kpr.busy = none) (hr : r = (c, none))
    (hk : s.runK h k = (s.withChip r.1, r.2)) (hi : exec i s = .next (s.command h k)) :
    exec i s = .next (s.withChip (c.waitsOn h k)) := by
  rw [hi, State.command_of_idle ha hb, State.startK_unanswered (hr ▸ hk)]

end Command

/-! ## What the end of a command leaves (R382, R383) -/

/-- All but the registers, the Keeper's own state and the outputs stands. -/
structure Chip.RecordFrame (a b : Chip) : Prop where
  regs : ∀ o, o ≠ Reg.LAST_CMD → o ≠ Reg.CR_CTRL → o ≠ Reg.KPR_EVENT → b.rd o = a.rd o
  rest : { b with regs := a.regs, kpr := a.kpr, out := a.out } = a

/-- A write of LAST_CMD, whatever the word and the Keeper's state are. -/
theorem Chip.RecordFrame.lastCmd (c : Chip) (k : Kpr) (w : Word) :
    c.RecordFrame (({ c with kpr := k } : Chip).wr Reg.LAST_CMD w) :=
  ⟨fun _ ho _ _ => Chip.rd_wr_other _ w ho, rfl⟩

/-- The record of a command: an answer on I3C, LAST_CMD, a fault of the ring, or a write into the completion ring. -/
theorem Chip.recordFrame_recordK (c : Chip) (h : KHead) (k : KCmd) (a : KAns) : c.RecordFrame (c.recordK h k a) := by
  unfold Chip.recordK
  split
  · exact ⟨fun _ _ _ _ => rfl, rfl⟩
  split
  · exact .lastCmd c _ _
  split
  · exact ⟨fun o _ hc he => (Chip.rd_setBit_other _ _ he).trans (Chip.rd_clrFld_other _ _ hc), rfl⟩
  dsimp only
  split
  · exact ⟨fun _ _ _ _ => rfl, rfl⟩
  · exact ⟨fun _ _ _ _ => rfl, rfl⟩

/-- The fetch of an entry changes the Keeper's count of fetched entries alone. -/
theorem Chip.fetchedK_rest (c : Chip) (h : KHead) : { c.fetchedK h with kpr := c.kpr } = c := by
  unfold Chip.fetchedK
  split <;> rfl

theorem State.finishK_chip {s : State} {h : KHead} {k : KCmd} (a : KAns) (hk : k ≠ .imageActivate) : (s.finishK h k a).chip =
    ({ s.chip.fetchedK h with kpr := { (s.chip.fetchedK h).kpr with busy := none } } : Chip).recordK h k a := if_neg hk

/-- A command that ends without a reset of the Keeper leaves what its record leaves. -/
theorem State.recordFrame_finishK {s : State} {h : KHead} {k : KCmd} (a : KAns) (hk : k ≠ .imageActivate) :
    s.chip.RecordFrame (s.finishK h k a).chip := by
  rw [State.finishK_chip a hk]
  obtain ⟨hregs, hrest⟩ := Chip.recordFrame_recordK
    ({ s.chip.fetchedK h with kpr := { (s.chip.fetchedK h).kpr with busy := none } } : Chip) h k a
  refine ⟨fun o hl hc he => (hregs o hl hc he).trans ?_, ?_⟩
  · exact congrArg (fun m => SMap.get m o (resetWordAt o)) (s.chip.fetchedK_regs h)
  · exact (congrArg (fun c : Chip => { c with regs := s.chip.regs, kpr := s.chip.kpr, out := s.chip.out }) hrest).trans
      ((congrArg (fun c : Chip => { c with regs := s.chip.regs, out := s.chip.out }) (s.chip.fetchedK_rest h)))

theorem Reg.vbrState_ne (v i : Nat) :
    Reg.VBR_STATE v i ≠ Reg.LAST_CMD ∧ Reg.VBR_STATE v i ≠ Reg.CR_CTRL ∧ Reg.VBR_STATE v i ≠ Reg.KPR_EVENT := by
  simp only [Reg.VBR_STATE, Reg.LAST_CMD, Reg.CR_CTRL, Reg.KPR_EVENT]
  omega

/-! ## BIND of a function (R254) -/

theorem exec_bind (h : KHead) (v vbr kind target prid devfn peer : Nat) (wins : List (Nat × Nat))
    (bars : List (Nat × Nat × Nat)) (fn : FnInfo) (s : State) : exec (.bind h v vbr kind target prid devfn peer wins bars fn) s =
      .next (s.command h (.bind v vbr kind target prid devfn peer wins bars fn)) := rfl

/-- Table 8.2: a BIND of kind FUNCTION takes device 0, function 0, and is otherwise as it was given. -/
theorem kBindFn_placed (v vbr kind target prid devfn peer : Nat) (wins : List (Nat × Nat)) (bars : List (Nat × Nat × Nat))
    (fn : FnInfo) : ∃ d, (kBindFn v vbr kind target prid devfn peer wins bars fn).placed =
      kBindFn v vbr kind target prid d peer wins bars fn := by
  unfold BindFn.placed
  split
  · exact ⟨0, rfl⟩
  · exact ⟨devfn, rfl⟩

section Bind
variable (c : Chip) {b : BindFn}

/-- Only kind PORT is no function. -/
theorem Chip.bindAny_function (hk : b.kind = 2 ∨ b.kind = 3) : c.bindAny b = c.bindFn b := by
  have h1 : b.kind ≠ 1 := by omega
  simp only [Chip.bindAny, h1, hk, if_true, if_false]

/-- A target on this module is its local port. -/
theorem Chip.localTarget_any (p : Nat → Bool) (h : c.faHere b.target = true → p (faPort b.target) = false) :
    (c.localTarget b).any p = false := by
  unfold Chip.localTarget
  split
  · next hh => exact h hh
  · rfl

/-- A check that fails answers and changes nothing; OWNED waits only for an FLR of its function (R256). -/
theorem Chip.bindFn_fault {a : KAns} (hf : c.bindFault b.placed = some a)
    (hflr : a.status = stOwned → (c.localTarget b.placed).any (fun p => c.fnInFlr p b.placed.prid) = false) :
    c.bindFn b = (c, some a) := by
  have hgo : (a.status == stOwned && (c.localTarget b.placed).any (fun p => c.fnInFlr p b.placed.prid)) = false := by
    cases hs : a.status == stOwned
    · rfl
    · exact hflr (by simpa using hs)
  simp only [Chip.bindFn, hf, hgo, Bool.false_eq_true, if_false]

end Bind

/-- Settles O36: a failing check is the whole of the command's action, and its record touches no binding. -/
theorem failedBindChangesNothing : Obligations.FailedBindChangesNothing := by
  intro s h v vbr kind target prid devfn peer wins bars fn a ha hb hk hf hflr
  obtain ⟨d, hd⟩ := kBindFn_placed v vbr kind target prid devfn peer wins bars fn
  have hrun : s.chip.bindAny (kBindFn v vbr kind target prid devfn peer wins bars fn) = (s.chip, some a) := by
    rw [s.chip.bindAny_function hk, s.chip.bindFn_fault hf]
    exact fun hs => s.chip.localTarget_any _ (hd ▸ hflr hs)
  have hexec := exec_command_answered ha hb hrun rfl (exec_bind h v vbr kind target prid devfn peer wins bars fn s)
  obtain ⟨hregs, hrest⟩ := State.recordFrame_finishK (s := s) (h := h)
    (k := .bind v vbr kind target prid devfn peer wins bars fn) a (by simp)
  refine ⟨hexec, _, hexec, (congrArg Chip.vsi hrest :), (congrArg Chip.tabA hrest :), (congrArg Chip.tabB hrest :), rfl,
    fun w i => ?_⟩
  obtain ⟨hl, hc, he⟩ := Reg.vbrState_ne w i
  exact hregs _ hl hc he

end Sys2Proof.Machine
end

section
/-!
PROOFS. The binding commands that pass their checks (R240, R242, R253 to R256, Table 8.6).
-/
namespace Sys2Proof.Machine

/-! ## BIND (R254) -/

section Bind
variable (c : Chip) {v vbr p : Nat} {b : BindFn}

theorem Chip.localTarget_here (h : c.faHere b.target = true) : c.localTarget b = some (faPort b.target) := if_pos h

/-- BIND of kind PORT on a local port. -/
theorem Chip.bindAny_port (hk : b.kind = 1) (hl : c.localTarget b = some p) : c.bindAny b =
    kDone (c.bindPort b.v b.vbr p) := by
  simp only [Chip.bindAny, hk, hl, if_true, kDone]

/-- A port that no VSI holds, and no function of which another VSI than the manager's owns. -/
theorem Chip.bindPort_of_free (ho : c.ownedVsi v = true) (hn : vbr < c.fld (Reg.VSI_ID v) Bit.VSI_ID_VBR_COUNT)
    (he : c.vbrKind v vbr = 0) (hd : c.downPort p = true) (hp : ∀ b ∈ c.vsi.ports, b.2.2 ≠ p)
    (hf : c.isManager v = false → (∀ x ∈ c.vsi.hosts, x.local_ ≠ some p) ∧ ∀ x ∈ c.vsi.peers, x.port ≠ p) :
    c.bindPort v vbr p = ((({ c with vsi := { c.vsi with ports := (v, vbr, p) :: c.vsi.ports } } : Chip).putVbr v vbr 1
      (some p)).showVbr v vbr (some p), kOk) := by
  have hports : c.vsi.ports.any (fun b => b.2.2 == p) = false := by simpa using hp
  obtain ⟨hhosts, hpeers⟩ : (!c.isManager v && c.vsi.hosts.any (fun h => h.local_ == some p)) = false ∧
      (!c.isManager v && c.vsi.peers.any (fun b => b.port == p)) = false := by
    cases hm : c.isManager v
    · simpa using hf hm
    · exact ⟨rfl, rfl⟩
  simp only [Chip.bindPort, ho, he, hd, hports, hhosts, hpeers, Nat.not_le.mpr hn, Bool.not_true, Bool.or_self,
    Bool.false_eq_true, ne_eq, not_true_eq_false, if_false]

/-- The bound windows of a new binding. -/
def BindFn.boundBars (b : BindFn) : List BarSt :=
  b.bars.filterMap (fun y => (b.winOf y.1).map (fun w => ({ idx := y.1, win := w, phys := y.2.1, size := y.2.2 } : BarSt)))

/-- The HOST binding that BIND makes: one of a remote function begins with its probe. -/
def Chip.newBinding (c : Chip) (b : BindFn) : HostBind :=
  { v := b.v, vbr := b.vbr, devfn := b.devfn, local_ := c.localTarget b, targetFa := b.target, prid := b.prid, peerVsi := b.peer,
    bars := b.boundBars, fn := b.fn,
    probe := if (c.localTarget b).isNone then some (c.now + c.probeNs b.v) else none }

/-- The chip with the new binding, its windows and the state of its vBridge. -/
def Chip.withBinding (c : Chip) (b : BindFn) (target : Option Nat) : Chip :=
  ((b.boundBars.foldl (fun c x => c.takeWin b.v x) c).putHost (c.newBinding b)).putVbr b.v b.vbr b.kind target

/-- A function of this module is bound at once. -/
theorem Chip.bindFn_local (hf : c.bindFault b.placed = none) (hl : c.localTarget b.placed = some p) : c.bindFn b =
    ((c.withBinding b.placed (some p)).showVbr b.placed.v b.placed.vbr (some p), some kOk) := by
  simp only [Chip.bindFn, hf, hl, Chip.withBinding, Chip.newBinding, BindFn.boundBars]

/-- A function of another module waits for its probe. -/
theorem Chip.bindFn_remote (hf : c.bindFault b.placed = none) (hl : c.localTarget b.placed = none) : c.bindFn b =
    (((c.withBinding b.placed none).arm (.probeLimit b.placed.v b.placed.vbr b.placed.devfn)
      ((c.withBinding b.placed none).probeNs b.placed.v)).sendProbe (c.newBinding b.placed), none) := by
  simp only [Chip.bindFn, hf, hl, Chip.withBinding, Chip.newBinding, BindFn.boundBars]

/-- A function without an owner is in no FLR. -/
theorem Chip.fnInFlr_of_not_owned {prid : Nat} (h : c.fnOwned p prid = false) : c.fnInFlr p prid = false := by
  simp only [Chip.fnOwned, Bool.or_eq_false_iff, List.any_eq_false] at h
  obtain ⟨hhosts, hpeers⟩ := h
  simp only [Chip.fnInFlr, Bool.or_eq_false_iff, List.any_eq_false]
  exact ⟨fun x hx hin => hhosts x hx (Bool.and_eq_true_iff.mp hin).1, fun x hx hin => hpeers x hx (Bool.and_eq_true_iff.mp hin).1⟩

/-- BIND_PEER of a function of a shared port for a VSI of another module. -/
theorem Chip.bindPeer_of_free {b : PeerBind} (hd : c.downPort b.port = true) (hv : b.proxy < 64)
    (hp : c.flag (Reg.VSI_ID b.proxy) Bit.VSI_ID_PROXY = true) (hs : c.shared b.port = true)
    (ho : c.fnOwned b.port b.prid = false) (hn : c.bindCount < 16384) (hf : c.faHere b.ownerFa = false) :
    c.bindPeer b = ({ c with vsi := { c.vsi with peers := b :: c.vsi.peers } }, some kOk) := by
  simp only [Chip.bindPeer, hd, hp, hs, ho, hf, c.fnInFlr_of_not_owned ho, Nat.not_le.mpr hv, Nat.not_le.mpr hn, Bool.not_true,
    Bool.or_self, decide_false, Bool.false_eq_true, if_false]

end Bind

/-! ## UNBIND (R255) -/

section Unbind
variable (c : Chip) {v i devfn p prid : Nat} (ho : c.ownedVsi v = true)

section Owned
include ho

theorem Chip.unbindVbr_port (hb : c.vsi.ports.find? (fun b => b.1 == v && b.2.1 == i) = some (v, i, p)) :
    c.unbindVbr v i = (c.unbindPort v i p, some kOk) := by
  simp only [Chip.unbindVbr, ho, hb, Bool.not_true, Bool.false_eq_true, if_false]

theorem Chip.unbindVbr_functions {x : HostBind} {hs : List HostBind}
    (hb : c.vsi.ports.find? (fun b => b.1 == v && b.2.1 == i) = none)
    (hf : c.vsi.hosts.filter (fun y => y.v == v && y.vbr == i) = x :: hs) :
    c.unbindVbr v i = (c.startUnbind v i (x :: hs), none) := by
  simp only [Chip.unbindVbr, ho, hb, hf, List.isEmpty_cons, Bool.not_true, Bool.false_eq_true, if_false]

theorem Chip.unbindFn_of_remote {x : HostBind} (hx : c.hostAt v i devfn = some x) (hk : c.vbrKind v i = 2) :
    c.unbindFn v i devfn = (c.startUnbind v i [x], none) := by
  simp only [Chip.unbindFn, ho, hx, hk, Bool.not_true, Bool.false_eq_true, ne_eq, not_true_eq_false, if_false]

end Owned

/-- R256: a PEER binding whose function is in no FLR goes at once. -/
theorem Chip.unbindPeer_of_idle {b : PeerBind} (hb : c.vsi.peers.find? (fun b => b.port == p && b.prid == prid) = some b)
    (hf : b.flrEnd ≤ c.now) : c.unbindPeer p prid =
      (let d := (c.pci.ort.filter (fun e => e.origRid == prid && e.from p)).foldl
        (fun (c : Chip) e => c.answerAfter e (c.synth e.port)) c
       { d with vsi := { d.vsi with peers := d.vsi.peers.filter (fun b => !(b.port == p && b.prid == prid)) } }, some kOk) := by
  simp only [Chip.unbindPeer, hb, Nat.not_lt.mpr hf, if_false]

end Unbind

/-! ## SET_PROXY and SET_VBR_COUNT (R240, R242) -/

theorem Chip.setProxy_of_unowned (c : Chip) {v : Nat} {on : Bool} (hv : v < 64) (hp : c.portOfVsi v = none)
    (ho : on = true ∨ c.flag (Reg.VSI_ID v) Bit.VSI_ID_PROXY = true) :
    c.setProxy v on = (c.setFld (Reg.VSI_ID v) Bit.VSI_ID_PROXY (b2n on), kOk) := by
  have hon : (!on && !c.flag (Reg.VSI_ID v) Bit.VSI_ID_PROXY) = false := by
    obtain ho | ho := ho <;> simp [ho]
  simp only [Chip.setProxy, hp, hon, Nat.not_le.mpr hv, Option.isSome_none, decide_false, Bool.or_self, Bool.false_eq_true,
    if_false]

theorem Chip.setVbrCount_of_reset (c : Chip) {v n : Nat} (ho : c.ownedVsi v = true) (h1 : 1 ≤ n) (hn : n ≤ 256)
    (hr : c.vsiInReset v = true) : c.setVbrCount v n = (c.setFld (Reg.VSI_ID v) Bit.VSI_ID_VBR_COUNT n, kOk) := by
  simp only [Chip.setVbrCount, ho, hr, h1, hn, and_self, decide_true, Bool.not_true, Bool.false_eq_true, if_false]

/-- Settles O35: each command's action, where its checks pass, and its end or its wait. -/
theorem bindingCommandsComplete : Obligations.BindingCommandsComplete := by
  refine ⟨fun s h v vbr target prid devfn peer wins bars fn ha hb hh ho hn hk hd hp hf => ?_,
    fun s h port prid fa ov proxy bars pf ha hb hd hv hp hs ho hn hf => ?_,
    fun s h v vbr kind target prid devfn peer wins bars fn b ws x ha hb hk hplaced hfault hws hx => ?_,
    fun s h v vbr devfn port prid p ha hb ho hp => exec_command_answered ha hb (s.chip.unbindVbr_port ho hp) rfl rfl,
    fun s h v vbr devfn port prid x hb ho hx => ⟨fun ha hp hf => ?_, fun ha hk => ?_⟩,
    fun s h v vbr devfn port prid b ha hb hp hf => exec_command_answered ha hb (s.chip.unbindPeer_of_idle hp hf) rfl rfl,
    fun s h v on ha hb hv hp ho =>
      exec_command_answered (r := kDone _) ha hb (congrArg kDone (s.chip.setProxy_of_unowned hv hp ho)) rfl rfl,
    fun s h v n ha hb ho h1 hn hr =>
      exec_command_answered (r := kDone _) ha hb (congrArg kDone (s.chip.setVbrCount_of_reset ho h1 hn hr)) rfl rfl,
    fun s h v vbr devfn port prid ha hb => exec_command_answered ha hb rfl rfl rfl,
    fun s h v vbr devfn port prid ha hb => exec_command_answered ha hb rfl rfl rfl⟩
  · have hrun := s.chip.bindAny_port (b := kBindFn v vbr 1 target prid devfn peer wins bars fn) rfl (s.chip.localTarget_here hh)
    exact exec_command_answered ha hb (hrun.trans (congrArg kDone (s.chip.bindPort_of_free ho hn hk hd hp hf))) rfl rfl
  · exact exec_command_answered ha hb (s.chip.bindPeer_of_free (b := { port, prid, ownerFa := fa, ownerVsi := ov, proxy, bars, pf })
      hd hv hp hs ho hn hf) rfl rfl
  · obtain ⟨d, hd⟩ := kBindFn_placed v vbr kind target prid devfn peer wins bars fn
    have hrun := s.chip.bindAny_function (b := kBindFn v vbr kind target prid devfn peer wins bars fn) hk
    subst hplaced hws hx
    refine ⟨fun p hl => ?_, fun hl => ?_⟩
    · have hfn := hrun.trans (s.chip.bindFn_local hfault hl)
      rw [hd] at hfn ⊢
      exact exec_command_answered ha hb hfn rfl rfl
    · have hfn := hrun.trans (s.chip.bindFn_remote hfault hl)
      rw [hd] at hfn ⊢
      exact exec_command_unanswered ha hb hfn rfl rfl
  · exact exec_command_unanswered ha hb (s.chip.unbindVbr_functions ho hp hf) rfl rfl
  · exact exec_command_unanswered ha hb (s.chip.unbindFn_of_remote ho hx hk) rfl rfl

end Sys2Proof.Machine
end

section
/-!
PROOFS. Slice grants and revokes (R267, R268, R491), and what ends a wait of the Keeper (R254, R255, R262).
-/
namespace Sys2Proof.Machine

/-! ## Slices (R267, R268, R491) -/

section Slices
variable (c : Chip) {v first count : Nat} (hr : badRange first count = false)

/-- A slice becomes a STOPPED slice of a VSI. -/
def Chip.grantSlice (v : Nat) (c : Chip) (x : Nat) : Chip :=
  ((((c.putRslice { slice := x }).ctrClear kSlice x).setFld (Reg.SLC_BIND x) Bit.SLC_BIND_VSI v).setFld (Reg.SLC_STATE x)
    Bit.SLC_STATE_STATE sStopped)

/-- A slice that is granted goes back, one that drained or halted after a reset. -/
def Chip.revokeSlice (c : Chip) (x : Nat) : Chip :=
  if c.slState x = sUngranted then c
  else
    let c := if c.slState x = sStopped then c else c.sliceReset x
    let c : Chip := { c with rly := { c.rly with slices := c.rly.slices.filter (fun y => y.slice != x) } }
    (c.ctrClear kSlice x).setFld (Reg.SLC_STATE x) Bit.SLC_STATE_STATE sUngranted

include hr

theorem Chip.sliceGrant_of_free (hv : v < 64) (hp : (c.portOfVsi v).isSome = true)
    (hx : c.flag (Reg.VSI_ID v) Bit.VSI_ID_PROXY = false) (hs : ∀ x ∈ sliceRange first count, c.slState x = sUngranted) :
    c.sliceGrant v first count = ((sliceRange first count).foldl (Chip.grantSlice v) c, stOk) := by
  have hfree : (sliceRange first count).any (fun x => c.slState x != sUngranted) = false := by simpa using hs
  have hport : (c.portOfVsi v).isNone = false := by simpa using hp
  simp only [Chip.sliceGrant, hr, hport, hx, hfree, Nat.not_le.mpr hv, decide_false, Bool.or_self, Bool.false_eq_true, if_false]
  rfl

theorem Chip.sliceRevoke_of_drained (hs : ∀ x ∈ sliceRange first count, c.slState x ≠ sActive ∧
      (c.slState x = sDraining ∨ c.slState x = sHalted → c.inflight x = 0)) :
    c.sliceRevoke first count = ((sliceRange first count).foldl Chip.revokeSlice c, stOk) := by
  have hdrained : (sliceRange first count).any (fun x => c.slState x == sActive ||
      ((c.slState x == sDraining || c.slState x == sHalted) && c.inflight x != 0)) = false := by
    rw [List.any_eq_false]
    intro x hx hstop
    obtain ⟨hactive, hempty⟩ := hs x hx
    simp only [Bool.or_eq_true, Bool.and_eq_true, beq_iff_eq, bne_iff_ne] at hstop
    obtain hstop | ⟨hstate, hwork⟩ := hstop
    · exact hactive hstop
    · exact hwork (hempty hstate)
  simp only [Chip.sliceRevoke, hr, hdrained, Bool.false_eq_true, if_false]
  rfl

end Slices

/-- The Relay's gate has no part in the VSIs. -/
theorem Chip.rd_relayGateOpen_vsiId (c : Chip) (v : Nat) : c.relayGateOpen.rd (Reg.VSI_ID v) = c.rd (Reg.VSI_ID v) :=
  c.rd_openGate _ (by simp only [Reg.VSI_ID, Reg.GATE_STATUS]; omega)

theorem Chip.flag_relayGateOpen_vsiId (c : Chip) (v : Nat) (f : Fld) :
    c.relayGateOpen.flag (Reg.VSI_ID v) f = c.flag (Reg.VSI_ID v) f := by
  rw [Chip.flag, Chip.fld, c.rd_relayGateOpen_vsiId, Chip.flag, Chip.fld]

theorem Chip.portOfVsi_relayGateOpen (c : Chip) (v : Nat) : c.relayGateOpen.portOfVsi v = c.portOfVsi v := by
  rw [Chip.portOfVsi, c.flag_relayGateOpen_vsiId, Chip.fld, c.rd_relayGateOpen_vsiId, Chip.portOfVsi, Chip.fld]

/-- A slice command that succeeds answers 0 alone. -/
theorem Chip.sliceAns_ok (c d : Chip) (grant : Bool) (first count : Nat) :
    c.sliceAns grant first count (d, stOk) = (d, some { status := 0 }) := rfl

/-! ## A quiesce that ends (R255, R262) -/

section Quiesce
variable (c : Chip) {v vbr devfn : Nat} {h : HostBind}

theorem exec_flrQuiesceDone (v vbr devfn : Nat) (s : State) : exec (.flrQuiesceDone v vbr devfn) s =
    .next (s.withChip (s.chip.flrQuiesceDone v vbr devfn)).pumpK := rfl

theorem exec_quiesceTimeout (v vbr devfn : Nat) (s : State) : exec (.quiesceTimeout v vbr devfn) s =
    .next (s.withChip (s.chip.quiesceExpiry v vbr devfn)).pumpK := rfl

theorem Chip.flrQuiesceDone_of_quiet (hx : c.hostAt v vbr devfn = some h) (hf : h.flr = 1 ∨ h.flr = 7)
    (hq : c.quiet h = true) : c.flrQuiesceDone v vbr devfn = c.quiesced h := by
  simp only [Chip.flrQuiesceDone, hx, hf, hq, and_self, if_true]

/-- R262: what is in flight to the function when its time is out is answered, and its quiesce goes on. -/
theorem Chip.quiesceExpiry_of_due (hd : c.due (.quiesce v vbr devfn) = true) (hx : c.hostAt v vbr devfn = some h)
    (hf : h.flr = 1 ∨ h.flr = 7) : c.quiesceExpiry v vbr devfn =
      let d := (c.fnEntries h).foldl (fun (c : Chip) e => c.answerAfter e (c.synth e.port)) c
      let d := (c.fnPackets h).foldl (fun (c : Chip) k => (c.withdraw k).answerPkt k.inPort k (c.synth k.egPort)) d
      let d := (d.setBit (Reg.VSI_EVENT v) Bit.VSI_EVENT_QUIESCE_TMO).log .quiesceTmo [v, vbr, devfn]
      if h.flr = 7 ∧ d.fnCopies h = true then d.disarm (.quiesce v vbr devfn) else d.quiesced h := by
  simp only [Chip.quiesceExpiry, hd, hx, hf, decide_true, Bool.not_true, Bool.false_eq_true, if_false]

/-- R255: an UNBIND of a vBridge ends with its last function. -/
theorem State.pumpK_unbindDone {s : State} {k : KHead} {i : Nat} (hb : s.chip.kpr.busy = some (k, .unbindVbr v i))
    (hd : s.chip.unbindDone v i none = true) : s.pumpK = s.completeK kOk := by
  simp only [State.pumpK, hb, hd, if_true]

end Quiesce

/-! ## The probe of a remote function (R254) -/

section Probe
variable (c : Chip) {v vbr devfn : Nat} {h : HostBind} (hx : c.hostAt v vbr devfn = some h) (hp : h.probe.isSome = true)

theorem exec_bindProbeRetry (v vbr devfn : Nat) (s : State) : exec (.bindProbeRetry v vbr devfn) s =
    .next (s.probeRetry v vbr devfn) := rfl

theorem Chip.hotplug_kpr (i : Nat) (present active : Bool) : (c.hotplug v i present active).kpr = c.kpr := rfl

theorem Chip.showVbr_kpr (v i : Nat) (target : Option Nat) : (c.showVbr v i target).kpr = c.kpr :=
  (Chip.hotplug_kpr _ i _ _).trans (c.setFld_kpr _ _ _)

/-- A probe that succeeded is over, and its vBridge reports the function. -/
def Chip.probeEnded (c : Chip) (v vbr devfn : Nat) (h : HostBind) : Chip :=
  (((c.disarm (.probe v vbr devfn)).disarm (.probeLimit v vbr devfn)).putHost { h with probe := none, answer := none }).showVbr
    v vbr none

/-- The end of a probe leaves the command in progress. -/
theorem Chip.probeEnded_busy : (c.probeEnded v vbr devfn h).kpr.busy = c.kpr.busy :=
  congrArg Kpr.busy (Chip.showVbr_kpr _ v vbr none)

include hx hp

theorem Chip.probeStep_success (ha : h.answer = some stSC) :
    c.probeStep v vbr devfn = (c.probeEnded v vbr devfn h, some kOk) := by
  have hnone : h.probe.isNone = false := by simpa using hp
  simp only [Chip.probeStep, hx, hnone, ha, Bool.false_eq_true, if_false, if_true, Chip.probeEnded]

theorem Chip.probeStep_failure {st : Nat} (ha : h.answer = some st) (hs : st ≠ stSC) (hr : st ≠ stRRS) :
    c.probeStep v vbr devfn = (c.removeHost h, some (kErr stProbeFail 8)) := by
  have hnone : h.probe.isNone = false := by simpa using hp
  simp only [Chip.probeStep, hx, hnone, ha, hs, hr, Bool.false_eq_true, ne_eq, not_false_eq_true, if_false, if_true]

theorem Chip.probeStep_again (ha : h.answer = none) (hl : c.due (.probeLimit v vbr devfn) = false)
    (hd : c.due (.probe v vbr devfn) = true) : c.probeStep v vbr devfn = (c.sendProbe h, none) := by
  have hnone : h.probe.isNone = false := by simpa using hp
  simp only [Chip.probeStep, hx, hnone, ha, hl, hd, Bool.false_eq_true, if_false, if_true]

end Probe

section ProbeRetry
variable {s : State} {v vbr devfn : Nat} {d : Chip} {r : Option KAns} (hr : s.chip.probeStep v vbr devfn = (d, r))
include hr

/-- A probe whose BIND is no more in progress acts on the binding alone. -/
theorem State.probeRetry_of_idle (hb : d.kpr.busy = none) : s.probeRetry v vbr devfn = s.withChip d := by
  simp only [State.probeRetry, hr, hb]
  rfl

/-- A probe that ends its BIND. -/
theorem State.probeRetry_answered {k : KHead} {kind target prid peer : Nat} {wins : List (Nat × Nat)}
    {bars : List (Nat × Nat × Nat)} {fn : FnInfo} {a : KAns} (ha : r = some a)
    (hb : d.kpr.busy = some (k, .bind v vbr kind target prid devfn peer wins bars fn)) :
    s.probeRetry v vbr devfn = (s.withChip d).completeK a := by
  simp only [State.probeRetry, hr, hb, ha, and_self, if_true]
  rfl

end ProbeRetry

/-- Settles O37: the slice commands as folds over their range, and the cases in which a wait ends. -/
theorem sliceCommandsAndWaits : Obligations.SliceCommandsAndWaits := by
  refine ⟨fun s h v first count ha hb hr hv hp hx hs => ?_, fun s h first count ha hb hr hs => ?_,
    fun s h ha hb => exec_command_answered ha hb rfl rfl rfl, fun s v vbr devfn h hx hf hq => ?_,
    fun s h v i hb hd => State.pumpK_unbindDone hb hd, fun s v vbr devfn h hd hx hf => ?_,
    fun s v vbr devfn h hx hp => ⟨fun ha hb => ?_, fun ha k kind target prid peer wins bars fn hb => ?_,
      fun st ha hs hr => s.chip.probeStep_failure hx hp ha hs hr, fun ha hl hd => s.chip.probeStep_again hx hp ha hl hd⟩⟩
  · have hgrant := s.chip.relayGateOpen.sliceGrant_of_free hr hv (s.chip.portOfVsi_relayGateOpen v ▸ hp)
      ((s.chip.flag_relayGateOpen_vsiId v _).trans hx) hs
    exact exec_command_answered ha hb ((congrArg (s.chip.sliceAns true first count) hgrant).trans (Chip.sliceAns_ok ..)) rfl rfl
  · have hrevoke := s.chip.sliceRevoke_of_drained hr hs
    exact exec_command_answered ha hb ((congrArg (s.chip.sliceAns false first count) hrevoke).trans (Chip.sliceAns_ok ..)) rfl rfl
  · rw [exec_flrQuiesceDone, s.chip.flrQuiesceDone_of_quiet hx hf hq]
  · rw [exec_quiesceTimeout, s.chip.quiesceExpiry_of_due hd hx hf]
  · rw [exec_bindProbeRetry, State.probeRetry_of_idle (s.chip.probeStep_success hx hp ha) (s.chip.probeEnded_busy.trans hb)]
    rfl
  · rw [exec_bindProbeRetry, State.probeRetry_answered (s.chip.probeStep_success hx hp ha) rfl (s.chip.probeEnded_busy.trans hb)]
    rfl

end Sys2Proof.Machine
end

section
/-!
PROOFS. The host's view of a VSI (R241, R246, R247, R251, R262, R263), and the resets and readiness of VSIs (R257, R260, R261,
R264).
-/
namespace Sys2Proof.Machine

/-! ## Configuration requests (R241, R251) -/

section Config
variable {c d : Chip} {p : Nat} {r : Rx} (type0 : Bool) (reg : CfgReg) (hu : (c.port p).up = true)
  (ht : c.takeRx p (fun x => x.whole && (x.tlp.kind == .cfgRd || x.tlp.kind == .cfgWr)) = some (r, d))

theorem exec_configRequestReceived (p : Nat) (type0 : Bool) (reg : CfgReg) (s : State) :
    exec (.configRequestReceived p type0 reg) s = .next (s.withChip (s.chip.configIn p type0 reg)) := rfl

include hu ht

theorem Chip.configIn_of_owned {v : Nat} (hv : d.vsiOfPort p = some v) : c.configIn p type0 reg = d.cfgView r v type0 reg := by
  simp only [Chip.configIn, hu, ht, hv, Bool.not_true, Bool.false_eq_true, if_false]

theorem Chip.configIn_of_unowned (hv : d.vsiOfPort p = none) : c.configIn p type0 reg = d.cfgAnswer r stUR 0 := by
  simp only [Chip.configIn, hu, ht, hv, Bool.not_true, Bool.false_eq_true, if_false]

end Config

/-! ## Bound functions (R246, R247, R262, R263) -/

section Function
variable (c : Chip) {v vbr devfn : Nat} {h : HostBind} (hx : c.hostAt v vbr devfn = some h)

theorem exec_emulatedBarWrite (v vbr devfn bar : Nat) (hi : Bool) (value : Nat) (s : State) :
    exec (.emulatedBarWrite v vbr devfn bar hi value) s =
      .next (s.withChip (s.chip.onFunction v vbr devfn (fun c h => c.barWrite h bar hi value))) := rfl

theorem exec_emulatedMseWrite (v vbr devfn : Nat) (on : Bool) (s : State) : exec (.emulatedMseWrite v vbr devfn on) s =
    .next (s.withChip (s.chip.onFunction v vbr devfn (fun c h => c.mseWrite h on))) := rfl

theorem exec_emulatedFlr (v vbr devfn : Nat) (s : State) : exec (.emulatedFlr v vbr devfn) s =
    .next (s.withChip (s.chip.onFunction v vbr devfn Chip.emulatedFlr)) := rfl

theorem exec_flrFrsReceived (v vbr devfn : Nat) (s : State) : exec (.flrFrsReceived v vbr devfn) s =
    .next (s.withChip (s.chip.flrFrs v vbr devfn)) := rfl

theorem exec_flrFrsTimeout_of_due {v vbr devfn : Nat} {s : State} (hd : s.chip.due (.frs v vbr devfn) = true) :
    exec (.flrFrsTimeout v vbr devfn) s = .next (s.withChip (s.chip.flrFrs v vbr devfn)) :=
  congrArg (fun c => Host.Outcome.next (s.withChip c)) (if_pos hd)

/-- R263: an FLR that no other precedes. -/
theorem Chip.emulatedFlr_of_idle (hf : h.flr = 0) : c.emulatedFlr h = (c.polReset h.v).startQuiesce h false false :=
  if_neg (by omega)

include hx

/-- R258: a host write acts on a function that is in no translated FLR. -/
theorem Chip.onFunction_of_idle (act : Chip → HostBind → Chip) (hf : h.flr = 0) : c.onFunction v vbr devfn act = act c h := by
  simp only [Chip.onFunction, hx, hf, Nat.lt_irrefl, if_false]

theorem Chip.flrFrs_of_waiting (hf : h.flr = 5 ∨ h.flr = 6) : c.flrFrs v vbr devfn = c.endFlr h true := by
  simp only [Chip.flrFrs, hx, hf, if_true]

end Function

/-! ## Resets that a host starts (R260, R328) -/

section Reset
variable (c : Chip) {v : Nat}

theorem exec_hotResetReceived (p : Nat) (s : State) : exec (.hotResetReceived p) s = .next (s.withChip (s.chip.hotReset p)) := rfl

theorem exec_upstreamPerst (site : Nat) (low : Bool) (s : State) :
    exec (.upstreamPerst site low) s = .next (s.withChip (s.chip.upstreamPerst site low)) := rfl

theorem exec_sbrUpstreamBridge (v : Nat) (s : State) : exec (.sbrUpstreamBridge v) s =
    .next (s.withChip (if v < 64 then s.chip.sbrUpstream v else s.chip)) := rfl

theorem exec_sbrVbridge (v i : Nat) (s : State) : exec (.sbrVbridge v i) s = .next (s.withChip (s.chip.sbrVbridge v i)) := rfl

theorem Chip.hotReset_of_owned {p : Nat} (hu : (c.port p).up = true) (hv : c.vsiOfPort p = some v) :
    c.hotReset p = c.vsiReset v := by
  simp only [Chip.hotReset, hu, hv, Bool.not_true, Bool.false_eq_true, if_false]

/-- A reset of some effective rates of policers changes their registers alone. -/
theorem Chip.resetPolEff_frame (v : Nat) : ∀ (l : List Nat) (c : Chip),
    { l.foldl (fun c k => c.resetReg (Reg.POL_EFF v k)) c with regs := c.regs } = c ∧
      ∀ o, (∀ k ∈ l, o ≠ Reg.POL_EFF v k) → (l.foldl (fun c k => c.resetReg (Reg.POL_EFF v k)) c).rd o = c.rd o
  | [], _ => ⟨rfl, fun _ _ => rfl⟩
  | k :: l, c => by
    obtain ⟨hrest, hrd⟩ := Chip.resetPolEff_frame v l (c.resetReg (Reg.POL_EFF v k))
    refine ⟨congrArg (fun d : Chip => { d with regs := c.regs }) hrest, fun o ho => ?_⟩
    exact (hrd o (fun j hj => ho j (List.mem_cons_of_mem _ hj))).trans (c.rd_resetReg_other (ho k List.mem_cons_self))

theorem Chip.polReset_vsi (v : Nat) : (c.polReset v).vsi = c.vsi :=
  (congrArg Chip.vsi (Chip.resetPolEff_frame v (List.range 8) c).1 :)

theorem Chip.isManager_polReset (v : Nat) : (c.polReset v).isManager v = c.isManager v := by
  have hrd : (c.polReset v).rd (Reg.VSI_ID v) = c.rd (Reg.VSI_ID v) := by
    refine (Chip.resetPolEff_frame v (List.range 8) c).2 _ (fun k hk => ?_)
    have hlt : k < 8 := List.mem_range.mp hk
    simp only [Reg.VSI_ID, Reg.POL_EFF]
    omega
  rw [Chip.isManager, Chip.flag, Chip.fld, hrd, Chip.isManager, Chip.flag, Chip.fld]

theorem Chip.sbrUpstream_of_runs (h : c.vsiInReset v = false) : c.sbrUpstream v = (c.resetBelow v false).polReset v :=
  if_neg (by simp [h])

/-- R417: on a VSI in reset a secondary bus reset has no further effect. -/
theorem Chip.sbr_of_reset (i : Nat) (h : c.vsiInReset v = true) : c.sbrUpstream v = c ∧ c.sbrVbridge v i = c :=
  ⟨if_pos h, if_pos h⟩

section Vbridge
variable {i : Nat} (h : c.vsiInReset v = false)
include h

/-- Below a vBridge with a port that its VSI holds alone. -/
theorem Chip.sbrVbridge_port {b : Nat × Nat × Nat} (hm : c.isManager v = false)
    (hb : c.vsi.ports.find? (fun b => b.1 == v && b.2.1 == i) = some b) :
    c.sbrVbridge v i = ((c.polReset v).emit (.hotReset b.2.2)).answerPort b.2.2 := by
  simp only [Chip.sbrVbridge, h, c.polReset_vsi, c.isManager_polReset, hm, hb, Bool.false_eq_true, if_false]

/-- Below a vBridge of functions. -/
theorem Chip.sbrVbridge_functions (hb : c.vsi.ports.find? (fun b => b.1 == v && b.2.1 == i) = none) :
    c.sbrVbridge v i = (c.vsi.hosts.filter (fun h => h.v == v && h.vbr == i)).foldl
      (fun (c : Chip) h => if 0 < h.flr then c else c.startQuiesce h false false) (c.polReset v) := by
  simp only [Chip.sbrVbridge, h, c.polReset_vsi, hb, Bool.false_eq_true, if_false]

end Vbridge

end Reset

/-! ## Readiness (R257, R261) -/

section Ready
variable (c : Chip) {v : Nat}

theorem exec_vsiReady (v : Nat) (s : State) : exec (.vsiReady v) s = .next (s.withChip (s.chip.vsiReady v)) := rfl

theorem exec_vsiLeaveReset (v : Nat) (s : State) :
    exec (.vsiLeaveReset v) s = .next (s.withChip (s.chip.vsiLeaveReset v)) := rfl

theorem Chip.vsiReady_of_canRun (hc : c.vsiCanRun v = true) (hr : c.flag (Reg.VSI_STATUS v) Bit.VSI_STATUS_READY = false) :
    c.vsiReady v = ((((c.vsi.ports.filter (fun b => b.1 == v)).map (fun b => (b.2.1, some b.2.2))) ++
      ((c.vsi.hosts.filter (fun h => h.v == v && h.probe.isNone)).map (fun h => (h.vbr, h.local_)))).foldl
        (fun c i => c.showVbr v i.1 i.2) (c.setBit (Reg.VSI_STATUS v) Bit.VSI_STATUS_READY)).sendDrs v := by
  have hvsi : (c.setBit (Reg.VSI_STATUS v) Bit.VSI_STATUS_READY).vsi = c.vsi := c.setBit_vsi _ _
  simp only [Chip.vsiReady, hc, hr, hvsi, Bool.not_false, Bool.and_self, if_true]

/-- The reset of a VSI ends on the settled chip, with its link up, its FLRs past the quiesce and its slices STOPPED. -/
theorem Chip.vsiLeaveReset_of_over {d : Chip} {p : Nat} (hd : c.relaySettle = d) (hp : d.portOfVsi v = some p)
    (hl : d.perstLow p = false) (hu : d.dlUp p = true) (hr : d.vsiInReset v = true)
    (hh : ∀ h ∈ d.vsi.hosts, h.v = v → h.byReset = true → h.flr ≠ 1) (hs : ∀ n ∈ d.slicesOf v, d.slState n = sStopped) :
    c.vsiLeaveReset v = d.clrFld (Reg.VSI_STATUS v) Bit.VSI_STATUS_IN_RESET := by
  have hflr : d.vsi.hosts.any (fun h => h.v == v && h.byReset && h.flr == 1) = false := by simpa [and_assoc] using hh
  have hstop : (d.slicesOf v).all (fun n => d.slState n == sStopped) = true := by simpa using hs
  simp only [Chip.vsiLeaveReset, hd, hp, hl, hu, hr, hflr, hstop, Bool.not_false, Bool.and_self, if_true]

end Ready

/-- Settles O43: each command by the case that its conditions select. -/
theorem hostViewAndVsiResets : Obligations.HostViewAndVsiResets := by
  refine ⟨fun s p v type0 reg r c hu ht hv => ?_, fun s p type0 reg r c hu ht hv => ?_,
    fun s v vbr devfn bar value hi h hx hf => ?_, fun s v vbr devfn on h hx hf => ?_, fun s v vbr devfn h hx hf => ?_,
    fun s v vbr devfn h hx hf => ⟨?_, fun hd => ?_⟩, fun s p v hu hv => ?_,
    fun s site => ⟨exec_upstreamPerst site false s, exec_upstreamPerst site true s⟩, fun s v hlt hr => ?_,
    fun s v i hr => ?_, fun s v i b hr hm hb => ?_, fun s v i hr hb => ?_, fun s v hc hr => ?_,
    fun s v p hp hl hu hr hh hs => ?_⟩
  · rw [exec_configRequestReceived, Chip.configIn_of_owned type0 reg hu ht hv]
  · rw [exec_configRequestReceived, Chip.configIn_of_unowned type0 reg hu ht hv]
  · rw [exec_emulatedBarWrite, s.chip.onFunction_of_idle hx _ hf]
  · rw [exec_emulatedMseWrite, s.chip.onFunction_of_idle hx _ hf]
    rfl
  · rw [exec_emulatedFlr, s.chip.onFunction_of_idle hx _ hf, s.chip.emulatedFlr_of_idle hf]
  · rw [exec_flrFrsReceived, s.chip.flrFrs_of_waiting hx hf]
  · rw [exec_flrFrsTimeout_of_due hd, s.chip.flrFrs_of_waiting hx hf]
  · rw [exec_hotResetReceived, s.chip.hotReset_of_owned hu hv]
  · rw [exec_sbrUpstreamBridge, if_pos hlt, s.chip.sbrUpstream_of_runs hr]
  · obtain ⟨hup, hvbr⟩ := s.chip.sbr_of_reset i hr
    rw [exec_sbrUpstreamBridge, exec_sbrVbridge, hup, hvbr, ite_self]
    exact ⟨rfl, rfl⟩
  · rw [exec_sbrVbridge, s.chip.sbrVbridge_port hr hm hb]
  · rw [exec_sbrVbridge, s.chip.sbrVbridge_functions hr hb]
  · rw [exec_vsiReady, s.chip.vsiReady_of_canRun hc hr]
  · rw [exec_vsiLeaveReset, s.chip.vsiLeaveReset_of_over rfl hp hl hu hr hh hs]

end Sys2Proof.Machine
end

section
/-!
PROOFS. The state of the Relay engine: what the Keeper's Log, the scheduler's tags, an opened gate and a message of the fabric leave
of it, and the writes of its slices that wait for the scheduler (R303, R325, R327).
-/
namespace Sys2Proof.Machine

/-! ## What leaves the Relay engine as it was -/

@[simp] theorem Chip.log_rly (c : Chip) (code : LogCode) (key det : List Nat) : (c.log code key det).rly = c.rly :=
  (congrArg Chip.rly (Chip.SameButLog.log c code key det).rest :)

@[simp] theorem Chip.openGate_rly (c : Chip) (off : Nat) : (c.openGate off).rly = c.rly := by
  unfold Chip.openGate
  split
  · exact (apply_ite Chip.rly _ _ _).trans (ite_self _)
  · rfl

@[simp] theorem Chip.rslice_openGate (c : Chip) (off n : Nat) : (c.openGate off).rslice n = c.rslice n := by
  rw [Chip.rslice, Chip.openGate_rly, Chip.rslice]

@[simp] theorem Chip.setWtag_rly (c : Chip) (key : Nat) (t : WTag) : (c.setWtag key t).rly = c.rly := rfl

theorem Chip.tagAppears_rly (c : Chip) (key vkey inc : Nat) : (c.tagAppears key vkey inc).rly = c.rly := Chip.setWtag_rly _ _ _

theorem Chip.tagReleased_rly (c : Chip) (key vkey inc : Nat) : (c.tagReleased key vkey inc).rly = c.rly := Chip.setWtag_rly _ _ _

@[simp] theorem Chip.tagSync_rly (c : Chip) (key vkey : Nat) (queued : Bool) (cand : Option Nat) :
    (c.tagSync key vkey queued cand).rly = c.rly := by
  cases cand with
  | none => simp only [Chip.tagSync, apply_ite Chip.rly, Chip.setWtag_rly, ite_self]
  | some inc => simp only [Chip.tagSync, apply_ite Chip.rly, Chip.tagAppears_rly, Chip.tagReleased_rly, ite_self]

@[simp] theorem Chip.syncSlices_rly (c : Chip) : c.syncSlices.rly = c.rly :=
  List.foldlRecOn (motive := fun d : Chip => d.rly = c.rly) _ _ rfl fun _ h _ _ => (Chip.tagSync_rly _ _ _ _ _).trans h

@[simp] theorem Chip.sigDropped_rly (c : Chip) (p stype dest origin : Nat) (far : Option Nat) :
    (c.sigDropped p stype dest origin far).rly = c.rly := Chip.log_rly _ _ _ _

@[simp] theorem Chip.queueSig_rly (c : Chip) (p : Nat) (m : SigMsg) (own : Bool) : (c.queueSig p m own).rly = c.rly := by
  have hevicted : ∀ l : List SigEnt, (l.foldl (fun c x => c.sigDropped p 2 x.destFa x.originFa none) c).rly = c.rly := fun l =>
    List.foldlRecOn (motive := fun d : Chip => d.rly = c.rly) l _ rfl fun _ h _ _ => (Chip.sigDropped_rly _ _ _ _ _ _).trans h
  unfold Chip.queueSig
  dsimp only
  split
  · rfl
  · split
    · split
      · rfl
      · exact c.sigDropped_rly ..
    · split
      · exact hevicted _
      · split
        · rfl
        · exact c.sigDropped_rly ..

@[simp] theorem Chip.misLook_rly (c : Chip) (p : Nat) : (c.misLook p).rly = c.rly := Chip.log_rly _ _ _ _

@[simp] theorem Chip.sendSig_rly (c : Chip) (st : Nat) (m : SigMsg) : (c.sendSig st m).rly = c.rly := by
  unfold Chip.sendSig
  split
  · rfl
  · split
    · exact c.queueSig_rly ..
    · exact Chip.log_rly _ _ _ _
    · exact c.misLook_rly _

@[simp] theorem Chip.genFarErr_rly (c : Chip) (srcFa tc status addr vsi port : Nat) :
    (c.genFarErr srcFa tc status addr vsi port).rly = c.rly := by
  refine (Chip.log_rly _ _ _ _).trans ?_
  dsimp only
  split
  · exact Chip.sendSig_rly _ _ _
  · exact Chip.sendSig_rly _ _ _

/-! ## Writes that wait (R303, R325, R327) -/

/-- An answer to a SEND goes out as a message or a packet: no write of a slice comes or goes. -/
@[simp] theorem Chip.sendReply_posts (c : Chip) (f : SendFrom) (status : Nat) : (c.sendReply f status).rly.posts = c.rly.posts := by
  unfold Chip.sendReply Chip.sendRelayMsg
  dsimp only
  split
  · rfl
  · split
    · rfl
    · simp
    · simp

theorem Chip.postsOf_eq_nil (c : Chip) {n : Nat} (h : c.postsOf n = []) : c.rly.posts.filter (fun p => p.slice != n) = c.rly.posts := by
  simpa [Chip.postsOf, List.filter_eq_self] using h

theorem Chip.dropPosts_posts (c : Chip) (n : Nat) : (c.dropPosts n).rly.posts = c.rly.posts.filter (fun p => p.slice != n) :=
  List.foldlRecOn (motive := fun d : Chip => d.rly.posts = c.rly.posts.filter (fun p => p.slice != n)) _ _ rfl
    fun _ h _ _ => (Chip.sendReply_posts _ _ _).trans h

/-- A slice with no write that waits has none to drop. -/
theorem Chip.dropPosts_of_none (c : Chip) {n : Nat} (h : c.postsOf n = []) : c.dropPosts n = c := by
  simp only [Chip.dropPosts, h, c.postsOf_eq_nil h, List.filterMap_nil, List.foldl_nil]

end Sys2Proof.Machine
end

section
/-!
PROOFS. Interrupts of slices (R299, R300), Bus Master Enable (R305, R306), and the FLR and the island reset of the Relay (R307, R308).
-/
namespace Sys2Proof.Machine

/-! ## Interrupts (R299, R300) -/

/-- A field that is set twice to one value is set. -/
theorem setF_setF_same (w : Word) (f : Fld) (v : Nat) : setF (setF w f v) f v = setF w f v := by
  refine BitVec.eq_of_getLsbD_eq fun j hj => ?_
  simp only [setF_getLsbD _ _ _ _ hj]
  split <;> rfl

section Interrupt
variable (c : Chip) {n : Nat}

theorem Chip.sliceIntr_of_masked (tc : Nat) (hm : c.flag (Reg.INT_CTRL n) Bit.INT_CTRL_MASK = true) :
    c.sliceIntr n tc = (c.putRslice { c.rslice n with pendTc := tc }).setBit (Reg.INT_CTRL n) Bit.INT_CTRL_PENDING := if_pos hm

/-- R300: any number of masked interrupts waits as one. -/
theorem Chip.rd_sliceIntr_twice (tc : Nat) (hm : c.flag (Reg.INT_CTRL n) Bit.INT_CTRL_MASK = true) (o : Nat) :
    ((c.sliceIntr n tc).sliceIntr n tc).rd o = (c.sliceIntr n tc).rd o := by
  have hmask : (c.sliceIntr n tc).flag (Reg.INT_CTRL n) Bit.INT_CTRL_MASK = true := by
    rw [c.sliceIntr_of_masked tc hm]
    exact (Chip.flag_setFld_otherField _ _ _ 1 (by decide) (by decide)).trans hm
  rw [Chip.sliceIntr_of_masked _ tc hmask]
  by_cases ho : o = Reg.INT_CTRL n
  · subst ho
    rw [c.sliceIntr_of_masked tc hm]
    exact (Chip.rd_setFld_same _ _ _ _).trans
      ((congrArg (fun w => setF w Bit.INT_CTRL_PENDING 1) (Chip.rd_setFld_same _ _ _ _)).trans
        ((setF_setF_same _ _ _).trans (Chip.rd_setFld_same _ _ _ _).symm))
  · exact Chip.rd_setBit_other _ _ ho

theorem Chip.slVsi_lt (n : Nat) : c.slVsi n < 64 := getF_lt (c.rd (Reg.SLC_BIND n)) Bit.SLC_BIND_VSI

/-- A slice's interrupt register says nothing of its VSI's Bus Master Enable. -/
theorem Chip.bme_setFld_intCtrl (f : Fld) (x : Nat) :
    (c.setFld (Reg.INT_CTRL n) f x).bme ((c.setFld (Reg.INT_CTRL n) f x).slVsi n) = c.bme (c.slVsi n) := by
  have hvsi : (c.setFld (Reg.INT_CTRL n) f x).slVsi n = c.slVsi n :=
    c.fld_setFld_other f _ x (by simp only [Reg.SLC_BIND, Reg.INT_CTRL]; omega)
  have hlt : c.slVsi n < 64 := c.slVsi_lt n
  rw [hvsi]
  exact c.flag_setFld_other f _ x (by simp only [Reg.RF_STATUS, Reg.INT_CTRL]; omega)

/-- Clearing MASK leaves PENDING. -/
theorem Chip.pending_clearMask : (c.setFld (Reg.INT_CTRL n) Bit.INT_CTRL_MASK 0).flag (Reg.INT_CTRL n) Bit.INT_CTRL_PENDING =
    c.flag (Reg.INT_CTRL n) Bit.INT_CTRL_PENDING := c.flag_setFld_otherField _ _ 0 (by decide) (by decide)

theorem Chip.clearMask_of_pending (hp : c.flag (Reg.INT_CTRL n) Bit.INT_CTRL_PENDING = true) (hb : c.bme (c.slVsi n) = true) :
    c.setMask n false = ((c.setFld (Reg.INT_CTRL n) Bit.INT_CTRL_MASK 0).clrFld (Reg.INT_CTRL n) Bit.INT_CTRL_PENDING).addPost n
      (.intr (c.rslice n).pendTc) :=
  if_pos (by simp [b2n, c.pending_clearMask, c.bme_setFld_intCtrl, hp, hb])

theorem Chip.clearMask_of_idle (hp : c.flag (Reg.INT_CTRL n) Bit.INT_CTRL_PENDING = false) :
    c.setMask n false = c.setFld (Reg.INT_CTRL n) Bit.INT_CTRL_MASK 0 :=
  if_neg (by simp [b2n, c.pending_clearMask, hp])

/-- A raised interrupt is at most one write that waits. -/
theorem Chip.sliceIntr_posts (n tc : Nat) : ∃ posts, (c.sliceIntr n tc).rly.posts = c.rly.posts ++ posts ∧ posts.length ≤ 1 ∧
    (c.sliceIntr n tc).rly.held = c.rly.held := by
  unfold Chip.sliceIntr
  split
  · exact ⟨[], (List.append_nil _).symm, by simp, rfl⟩
  · exact ⟨[⟨n, .intr tc⟩], rfl, le_rfl, rfl⟩

theorem exec_intUnmask_of_reaches {ag : Agent} (s : State) (hr : s.chip.reaches ag (Reg.INT_CTRL n) = true) :
    exec (.intUnmask ag n) s = .next (s.withChip ((((s.chip.openGate (Reg.INT_CTRL n)).setMask n false).relayPump).emit
      (.regDone ag (Reg.INT_CTRL n)))) :=
  congrArg (fun c => Host.Outcome.next (s.withChip c)) (s.chip.busWriteW_of_reaches ag _ 0 _ hr)

end Interrupt

/-! ## Bus Master Enable is cleared (R305, R306) -/

section Clear
variable (c : Chip)

theorem exec_relayBmeClear (v : Nat) (s : State) : exec (.relayBmeClear v) s = .next (s.withChip (s.chip.bmeClear v)) := rfl

/-- One slice of the VSI at the clear: its fetches in flight fail, what waits is held, and the descriptors that the clear stops end
with ABORTED_BME. -/
def Chip.bmeStop (c : Chip) (n : Nat) : Chip :=
  let c := (c.updOps (fun o => o.slice == n && o.kind == .fetch) (fun o => { o with failed := true })).holdPosts n
  let gone := (c.slDescs n).filter (fun d => !d.keepsStatus && !d.noRecord)
  let c := gone.foldl (fun c d => (c.failDesc d 9 d.wr (d.d.dst + d.wr)).rlyCtr 14 1) c
  if gone.isEmpty then c else c.setBit (Reg.SLC_EVENT n) Bit.SLC_EVENT_BME_ABORT

theorem Chip.bmeClear_of_set {v : Nat} (h : c.bme v = true) : c.bmeClear v =
    ((c.clrFld (Reg.RF_STATUS v) Bit.RF_STATUS_BME).slicesOf v).foldl Chip.bmeStop (c.clrFld (Reg.RF_STATUS v) Bit.RF_STATUS_BME) :=
  if_neg (by simp [h])

theorem Chip.holdPosts_posts (n : Nat) : (c.holdPosts n).rly.posts = c.rly.posts.filter (fun p => p.slice != n) := by
  refine List.foldlRecOn (motive := fun d : Chip => d.rly.posts = c.rly.posts.filter (fun p => p.slice != n)) _ _ rfl
    fun d h p _ => ?_
  dsimp only
  split
  · exact h
  · exact h
  · exact (Chip.sendReply_posts _ _ _).trans h

theorem Chip.postsOf_holdPosts (n : Nat) : (c.holdPosts n).postsOf n = [] := by
  rw [Chip.postsOf, c.holdPosts_posts n]
  simp

theorem Chip.holdPosts_of_none {n : Nat} (h : c.postsOf n = []) : c.holdPosts n = c := by
  simp only [Chip.holdPosts, h, c.postsOf_eq_nil h, List.foldl_nil]

theorem Chip.holdPosts_record {n : Nat} {r : RRec} (h : c.postsOf n = [⟨n, .record r⟩]) :
    (c.holdPosts n).rly.held = c.rly.held ++ [r] := by
  simp only [Chip.holdPosts, h, List.foldl_cons, List.foldl_nil]

theorem Chip.holdPosts_intr {n tc : Nat} (h : c.postsOf n = [⟨n, .intr tc⟩]) :
    (c.holdPosts n).flag (Reg.INT_CTRL n) Bit.INT_CTRL_PENDING = true := by
  simp only [Chip.holdPosts, h, List.foldl_cons, List.foldl_nil]
  exact Chip.flag_setBit_same _ _ _ (by decide) (by decide)

theorem Chip.holdPosts_inbox {n : Nat} {x : Inbox} (h : c.postsOf n = [⟨n, .inbox x⟩]) : c.holdPosts n =
    ({ c with rly := { c.rly with posts := c.rly.posts.filter (fun p => p.slice != n) } } : Chip).sendReply x.from_ 0x0A := by
  simp only [Chip.holdPosts, h, List.foldl_cons, List.foldl_nil]

/-- The clear finds nothing at a slice of an engine that is at rest. -/
theorem Chip.bmeStop_of_rest (n : Nat) (hd : c.rly.descs = []) (ho : c.rly.ops = []) (hp : c.rly.posts = []) : c.bmeStop n = c := by
  have hops : c.updOps (fun o => o.slice == n && o.kind == .fetch) (fun o => { o with failed := true }) = c := by
    simp only [Chip.updOps, mapIf, ho, List.map_nil]
    rw [← ho]
  have hposts : c.holdPosts n = c := c.holdPosts_of_none (by simp [Chip.postsOf, hp])
  simp [Chip.bmeStop, hops, hposts, Chip.slDescs, hd]

end Clear

/-! ## Bus Master Enable is set (R306) -/

section Set
variable (c : Chip)

theorem exec_relayBmeSet (v : Nat) (s : State) : exec (.relayBmeSet v) s = .next (s.withChip (s.chip.bmeSet v).relayPump) := rfl

/-- The granted slices of a VSI do not depend on its Bus Master Enable. -/
theorem Chip.slicesOf_setBme (v : Nat) : (c.setBit (Reg.RF_STATUS v) Bit.RF_STATUS_BME).slicesOf v = c.slicesOf v := by
  refine List.filter_congr fun n _ => ?_
  by_cases hv : v < 64
  · have hstate : (c.setBit (Reg.RF_STATUS v) Bit.RF_STATUS_BME).slState n = c.slState n :=
      c.fld_setFld_other _ _ 1 (by simp only [Reg.SLC_STATE, Reg.RF_STATUS]; omega)
    have hvsi : (c.setBit (Reg.RF_STATUS v) Bit.RF_STATUS_BME).slVsi n = c.slVsi n :=
      c.fld_setFld_other _ _ 1 (by simp only [Reg.SLC_BIND, Reg.RF_STATUS]; omega)
    rw [hstate, hvsi]
  · have hnone : ∀ d : Chip, (d.slVsi n == v) = false := fun d => beq_false_of_ne fun h => hv (h ▸ d.slVsi_lt n)
    rw [hnone, hnone, Bool.and_false, Bool.and_false]

theorem Chip.bmeSet_of_clear {v : Nat} (h : c.bme v = false) : c.bmeSet v =
    (c.slicesOf v).foldl (fun c n => c.flushHeld n) (c.setBit (Reg.RF_STATUS v) Bit.RF_STATUS_BME) := by
  rw [← c.slicesOf_setBme v]
  exact if_neg (by simp [h])

/-- Records put before the scheduler wait in their order, behind what waited. -/
theorem Chip.foldl_addPost (n : Nat) (k : RRec → RPostKind) : ∀ (l : List RRec) (c : Chip),
    l.foldl (fun c r => c.addPost n (k r)) c = { c with rly := { c.rly with posts := c.rly.posts ++ l.map (fun r => ⟨n, k r⟩) } }
  | [], c => by simp
  | r :: l, c => by
    rw [List.foldl_cons, Chip.foldl_addPost n k l (c.addPost n (k r))]
    simp [Chip.addPost]

/-- The interrupt that goes out behind the held records of a slice. -/
def Chip.flushIntr (c : Chip) (n : Nat) (rs : List RRec) : Chip :=
  let due := !c.flag (Reg.INT_CTRL n) Bit.INT_CTRL_MASK && c.flag (Reg.INT_CTRL n) Bit.INT_CTRL_PENDING
  let c := if due then c.clrFld (Reg.INT_CTRL n) Bit.INT_CTRL_PENDING else c
  match rs.find? (·.intr) with
  | some r => c.sliceIntr n r.tc
  | none => if due then c.addPost n (.intr (c.rslice n).pendTc) else c

theorem Chip.flushIntr_posts (n : Nat) (rs : List RRec) : ∃ posts, (c.flushIntr n rs).rly.posts = c.rly.posts ++ posts ∧
    posts.length ≤ 1 ∧ (c.flushIntr n rs).rly.held = c.rly.held := by
  have hclr : ∀ b : Bool, (if b = true then c.clrFld (Reg.INT_CTRL n) Bit.INT_CTRL_PENDING else c).rly = c.rly := fun b => by
    cases b <;> rfl
  unfold Chip.flushIntr
  dsimp only
  split
  · exact hclr _ ▸ Chip.sliceIntr_posts _ n _
  · split
    · exact ⟨[_], rfl, le_rfl, rfl⟩
    · exact ⟨[], (List.append_nil _).symm, by simp, rfl⟩

theorem Chip.flushHeld_eq (n : Nat) : c.flushHeld n =
    ({ c with rly := { c.rly with
      held := c.rly.held.filter (fun r => r.slice != n)
      posts := c.rly.posts ++ (c.rly.held.filter (fun r => r.slice == n)).map (fun r => ⟨n, .record { r with intr := false }⟩) } } :
        Chip).flushIntr n (c.rly.held.filter (fun r => r.slice == n)) := by
  rw [Chip.flushHeld, Chip.foldl_addPost n (fun r => .record { r with intr := false })]
  rfl

end Set

/-! ## Resets (R307, R308) -/

section Reset
variable (c : Chip)

theorem exec_relayFunctionFlr (v : Nat) (s : State) : exec (.relayFunctionFlr v) s = .next (s.withChip
    (((s.chip.dropCfg v 1 2).clrFld (Reg.RF_STATUS v) Bit.RF_STATUS_BME).relayVsiReset v)) := rfl

theorem exec_relayIslandReset (s : State) : exec .relayIslandReset s = .next (s.withChip s.chip.relayIslandReset) := rfl

/-- The Relay engine holds no work: no descriptor, operation, record, write that waits, completion or message. -/
structure Chip.RelayEmpty (c : Chip) : Prop where
  descs : c.rly.descs = []
  ops : c.rly.ops = []
  held : c.rly.held = []
  posts : c.rly.posts = []
  cpls : c.rly.cpls = []
  msgs : c.rly.msgs = []

/-- What leaves the engine's records leaves an empty engine empty. -/
theorem Chip.RelayEmpty.of_rly {c d : Chip} (h : c.RelayEmpty) (hd : d.rly = c.rly) : d.RelayEmpty :=
  ⟨hd ▸ h.descs, hd ▸ h.ops, hd ▸ h.held, hd ▸ h.posts, hd ▸ h.cpls, hd ▸ h.msgs⟩

theorem Chip.resetRegs_rly (l : List Nat) : (l.foldl Chip.resetReg c).rly = c.rly :=
  List.foldlRecOn (motive := fun d : Chip => d.rly = c.rly) l _ rfl fun _ h _ _ => h

theorem Chip.sliceVsiFields_rly (n : Nat) : (c.sliceVsiFields n).rly = c.rly := by
  simp only [Chip.sliceVsiFields, Chip.clrFld_rly, Chip.setFld_rly, Chip.resetRegs_rly]

/-- The reset of a slice finds no write to drop in an empty engine (R275). -/
theorem Chip.RelayEmpty.sliceReset {c : Chip} (h : c.RelayEmpty) (n : Nat) : (c.sliceReset n).RelayEmpty := by
  obtain ⟨hdescs, hops, hheld, hposts, hcpls, hmsgs⟩ := h
  have hnone : ∀ d : Chip, d.rly.posts = [] → d.dropPosts n = d := fun d hd => d.dropPosts_of_none (by simp [Chip.postsOf, hd])
  unfold Chip.sliceReset
  dsimp only
  rw [hnone _ (by exact hposts)]
  constructor <;> simp [Chip.putRslice, hdescs, hops, hheld, hposts, hcpls, hmsgs]

theorem Chip.RelayEmpty.sliceSettle {c : Chip} (h : c.RelayEmpty) (n : Nat) : (c.sliceSettle n).RelayEmpty := by
  unfold Chip.sliceSettle
  split
  · exact (h.sliceReset n).of_rly (Chip.sliceVsiFields_rly _ n)
  · exact h

theorem Chip.RelayEmpty.relaySettle {c : Chip} (h : c.RelayEmpty) : c.relaySettle.RelayEmpty :=
  List.foldlRecOn (motive := Chip.RelayEmpty) _ _ h fun _ hd x _ => hd.sliceSettle x.slice

/-- A slice that halts puts no write before the scheduler (R277). -/
theorem Chip.haltSlice_noPosts (h : c.rly.posts = []) (n cause : Nat) : (c.haltSlice n cause).rly.posts = [] := by
  unfold Chip.haltSlice
  split
  · simp [Chip.dropPosts_posts, h]
  · exact h

theorem Chip.relaySchedReset_rly : c.relaySchedReset.rly = c.rly :=
  List.foldlRecOn (motive := fun d : Chip => d.rly = c.rly) _ _ rfl fun _ h _ _ => h

/-- R308: the slices halt with no write that waits, so no SEND is answered, and then the engine is emptied. -/
theorem Chip.relayIslandReset_empty : c.relayIslandReset.RelayEmpty := by
  have hhalted : ∀ (l : List Nat) (d : Chip), d.rly.posts = [] →
      (l.foldl (fun c n => c.haltSlice n haltIslandReset) d).rly.posts = [] := fun l _ hd =>
    List.foldlRecOn (motive := fun d : Chip => d.rly.posts = []) l _ hd fun d h n _ => d.haltSlice_noPosts h n _
  have hdisarmed : ∀ (l : List Nat) (d : Chip), (l.foldl (fun c i => c.disarm (.send i)) d).rly = d.rly := fun l d =>
    List.foldlRecOn (motive := fun e : Chip => e.rly = d.rly) l _ rfl fun _ h _ _ => h
  have hanswered : ∀ d : Chip, (if d.kpr.dbgResult = 2 then d.dbgAnswer 3 [] else d).rly = d.rly := fun d => by split <;> rfl
  refine Chip.RelayEmpty.relaySettle ⟨rfl, rfl, rfl, ?_, rfl, rfl⟩
  dsimp only
  rw [Chip.relaySchedReset_rly, hanswered, hdisarmed]
  exact hhalted _ _ rfl

end Reset

/-- Settles O46: an interrupt by its mask, the clear and the set slice by slice, and the resets by what they leave in the engine. That
a descriptor whose fetch is in flight ends with ABORTED_BME is the model's choice (log 85). -/
theorem interruptsAndBusMasterEnable : Obligations.InterruptsAndBusMasterEnable := by
  refine ⟨fun c n tc hm => ?_, fun s ag n hr hp hb => ?_, fun s ag n hr hp => ?_, fun s v hb => ?_,
    fun c n => ⟨c.postsOf_holdPosts n, c.holdPosts_of_none, fun _ => c.holdPosts_record, fun _ => c.holdPosts_intr,
      fun _ => c.holdPosts_inbox⟩, fun s v hb hd ho hp => ?_, fun s v hb => ?_, fun c n => ?_,
    fun s v => exec_relayFunctionFlr v s, fun s => ?_⟩
  · refine ⟨?_, ?_, ?_, c.rd_sliceIntr_twice tc hm⟩ <;> rw [c.sliceIntr_of_masked tc hm]
    · exact Chip.flag_setBit_same _ _ _ (by decide) (by decide)
    · rfl
    · rfl
  · rw [exec_intUnmask_of_reaches s hr, Chip.clearMask_of_pending _ hp hb, Chip.rslice_openGate]
  · rw [exec_intUnmask_of_reaches s hr, Chip.clearMask_of_idle _ hp]
  · rw [exec_relayBmeClear, s.chip.bmeClear_of_set hb]
    rfl
  · have hrest := List.foldl_fixed' (f := Chip.bmeStop) (a := s.chip.clrFld (Reg.RF_STATUS v) Bit.RF_STATUS_BME)
      (fun n => Chip.bmeStop_of_rest _ n hd ho hp)
    rw [exec_relayBmeClear, s.chip.bmeClear_of_set hb, hrest]
  · rw [exec_relayBmeSet, s.chip.bmeSet_of_clear hb]
  · rw [c.flushHeld_eq n]
    exact Chip.flushIntr_posts _ n _
  · obtain ⟨hdescs, hops, hheld, -, hcpls, hmsgs⟩ := s.chip.relayIslandReset_empty
    exact ⟨_, exec_relayIslandReset s, rfl, hdescs, hops, hheld, hcpls, hmsgs⟩

end Sys2Proof.Machine
end

section
/-!
PROOFS. The Relay engine at work: the scheduler's service (R325, R327), the fetch, start and pieces of descriptors (R282 to R294), their
completions and records (R284, R289, R295 to R297), and SENDs (R302 to R304).
-/
namespace Sys2Proof.Machine

/-! ## The scheduler's service (R325, R327) -/

section Service
variable (c : Chip)

/-- The access of a slice takes place where the scheduler, once what waits has gone, serves the slice. -/
theorem Chip.whenServed_of_choice {d : Chip} {n : Nat} (act : Chip → Chip) (hc : c.relayPump.syncSlices = d)
    (hs : d.sliceChoice = some n) (hp : (d.nextPost n).isNone = true) : c.whenServed n act = (act d).relayPump := by
  simp only [Chip.whenServed, hc, hs, hp, beq_self_eq_true, Bool.and_self, if_true]

theorem Chip.relayPump_of_none (h : c.rly.posts = []) : c.relayPump = c := if_pos (by simp [h])

/-- A write that waits is made while its slice is the scheduler's choice. -/
theorem Chip.pumpPosts_of_served {p : RPost} (fuel : Nat) (hs : c.syncSlices.sliceChoice = some p.slice)
    (hp : c.syncSlices.nextPost p.slice = some p) (hm : c.syncSlices.mayPost p.slice = true) :
    c.pumpPosts (fuel + 1) = (c.syncSlices.issuePost p).pumpPosts fuel := by
  simp only [Chip.pumpPosts, hs, hp, hm, if_true]

theorem Chip.relayPump_of_single {p : RPost} (h : c.rly.posts = [p]) (hs : c.syncSlices.sliceChoice = some p.slice)
    (hm : c.syncSlices.mayPost p.slice = true) : c.relayPump = (c.syncSlices.issuePost p).pumpPosts 33 := by
  have hpump : c.relayPump = c.pumpPosts 34 := by simp [Chip.relayPump, h]
  have hnext : c.syncSlices.nextPost p.slice = some p := by simp [Chip.nextPost, h]
  rw [hpump, c.pumpPosts_of_served 33 hs hnext hm]

end Service

/-! ## Fetch, start and pieces (R282 to R294) -/

theorem exec_descriptorFetch (n : Nat) (s : State) : exec (.descriptorFetch n) s = .next (s.withChip (s.chip.descFetch n)) := rfl

theorem exec_descriptorStart (n : Nat) (s : State) : exec (.descriptorStart n) s = .next (s.withChip (s.chip.descStart n)) := rfl

theorem exec_pieceIssue (n idx : Nat) (write : Bool) (s : State) :
    exec (.pieceIssue n idx write) s = .next (s.withChip (s.chip.pieceIssue n idx write)) := rfl

/-! ## Completions and records (R284, R289, R295 to R297) -/

section Completion
variable (c : Chip)

theorem exec_relayReadCompletion (s : State) : exec .relayReadCompletion s = .next (s.withChip s.chip.relayCpl) := rfl

theorem exec_descriptorComplete (n idx : Nat) (s : State) :
    exec (.descriptorComplete n idx) s = .next (s.withChip (s.chip.descComplete n idx)) := rfl

/-- The oldest completion at a Relay that runs goes to the operation of a slice that waits for it. -/
theorem Chip.relayCpl_of_waiting {id : Nat} {t : Tlp} {ends : Bool} {rest : List (Nat × Tlp × Bool)} {o : ROp}
    (hc : c.clocked 82 = true) (hl : c.rly.cpls = (id, t, ends) :: rest)
    (ho : c.rly.ops.find? (fun o => o.id == id && (o.kind == .fetch || o.kind == .read)) = some o) (hd : o.slice ≠ dbgSlice) :
    c.relayCpl = (({ c with rly := { c.rly with cpls := rest } } : Chip).opCompletion o t ends).relaySettle := by
  simp only [Chip.relayCpl, hc, hl, ho, hd, if_true, if_false]

theorem Chip.rdesc_slice {n idx : Nat} {d : RDesc} (h : c.rdesc n idx = some d) : d.slice = n := by
  have hd := List.find?_some h
  simp only [Bool.and_eq_true, beq_iff_eq] at hd
  exact hd.1

/-- A descriptor leaves the store with its operations, and its end is counted by its status. -/
def Chip.endDesc (c : Chip) (n idx status : Nat) : Chip :=
  let c := c.dropOps (fun o => o.slice == n && o.idx == idx)
  let c := { c with rly := { c.rly with descs := c.rly.descs.filter (fun x => !(x.slice == n && x.idx == idx)) } }
  if status = 0 then (c.rlyCtr 5 1).slCtr n 0 1 else (c.rlyCtr 6 1).slCtr n 1 1

theorem Chip.descComplete_of_finished {n idx : Nat} {d : RDesc} (hd : c.rdesc n idx = some d) (hf : c.descFinished d = true)
    (hm : c.inModFog = false) (hs : c.slState n = sActive ∨ c.slState n = sDraining) : c.descComplete n idx =
      ((c.endDesc n idx (c.recordOf d).status).finishRecord (c.recordOf d)).relayPump := by
  have hrun : (c.slState n == sActive || c.slState n == sDraining) = true := by simpa using hs
  simp only [Chip.descComplete, hd, hf, hm, hrun, Bool.not_true, Bool.or_self, Bool.false_eq_true, if_false]
  rfl

/-- What the end of a descriptor changes: the store, the operations and two counters. -/
theorem Chip.endDesc_frame (n idx status : Nat) : (c.endDesc n idx status).regs = c.regs ∧
    (c.endDesc n idx status).out = c.out ∧ (c.endDesc n idx status).sw = c.sw ∧
    (c.endDesc n idx status).rly = { c.rly with
      ops := c.rly.ops.filter (fun o => !(o.slice == n && o.idx == idx))
      descs := c.rly.descs.filter (fun x => !(x.slice == n && x.idx == idx)) } := by
  unfold Chip.endDesc
  dsimp only
  split <;> exact ⟨rfl, rfl, rfl, rfl⟩

theorem Chip.bme_slVsi_of_regs {c d : Chip} (h : d.regs = c.regs) (n : Nat) : d.bme (d.slVsi n) = c.bme (c.slVsi n) := by
  simp only [Chip.bme, Chip.slVsi, Chip.flag, Chip.fld, Chip.rd, h]

/-- The slice's Bus Master Enable says where the record of an ended descriptor waits, and nothing but that changes. -/
theorem Chip.finishRecord_frame (r : RRec) : (c.finishRecord r).out = c.out ∧ (c.finishRecord r).sw = c.sw ∧
    (c.finishRecord r).rly.descs = c.rly.descs ∧ (c.finishRecord r).rly.ops = c.rly.ops ∧
    (c.bme (c.slVsi r.slice) = false → (c.finishRecord r).rly.held = c.rly.held ++ [r] ∧
      (c.finishRecord r).rly.posts = c.rly.posts) ∧
    (c.bme (c.slVsi r.slice) = true → (c.finishRecord r).rly.held = c.rly.held ∧
      (c.finishRecord r).rly.posts = c.rly.posts ++ [⟨r.slice, .record r⟩]) := by
  obtain ⟨hb, h⟩ | ⟨hb, h⟩ := c.finishRecord_cases r
  · rw [h]
    exact ⟨rfl, rfl, rfl, rfl, fun _ => ⟨rfl, rfl⟩, fun ht => absurd (hb.symm.trans ht) (by decide)⟩
  · rw [h]
    exact ⟨rfl, rfl, rfl, rfl, fun hf => absurd (hb.symm.trans hf) (by decide), fun _ => ⟨rfl, rfl⟩⟩

/-- The ended descriptor is in the store no more, nor is any of its operations among the engine's. -/
theorem Chip.gone_endDesc (n idx status : Nat) : (c.endDesc n idx status).rdesc n idx = none ∧
    ∀ o ∈ (c.endDesc n idx status).rly.ops, ¬(o.slice = n ∧ o.idx = idx) := by
  obtain ⟨-, -, -, hrly⟩ := c.endDesc_frame n idx status
  have hgone : ∀ b : Bool, (!b) = true → ¬b = true := by decide
  rw [Chip.rdesc, hrly]
  refine ⟨List.find?_eq_none.mpr fun x hx => hgone _ (List.mem_filter.mp hx).2,
    fun o ho ⟨hs, hi⟩ => hgone _ (List.mem_filter.mp ho).2 ?_⟩
  simp [hs, hi]

end Completion

/-! ## SENDs (R302 to R304) -/

section Send
variable (c : Chip)

theorem exec_sendReceived (s : State) : exec .sendReceived s = .next (s.withChip s.chip.sendIn) := rfl

section Received
variable {srcFa port tc : Nat} {x : Tlp} {m : RelayMsg} {d e : Chip} (ht : c.takeRmsg false = some ((srcFa, port, tc, x), m, d))
include ht

/-- R303: a message that passes the checks waits to be written to the inbox. -/
theorem Chip.sendIn_of_taken (hi : d.inboxTake { srcFa, port, tc, msg := m } x.data x.poison = (e, none)) : c.sendIn = e.relayPump := by
  simp only [Chip.sendIn, ht, hi]

/-- R303: a message that fails a check is answered with its status. -/
theorem Chip.sendIn_of_refused {status : Nat} (hi : d.inboxTake { srcFa, port, tc, msg := m } x.data x.poison = (e, some status)) :
    c.sendIn = e.sendReply { srcFa, port, tc, msg := m } status := by
  simp only [Chip.sendIn, ht, hi]

end Received

theorem exec_sendReplyReceived (s : State) : exec .sendReplyReceived s = .next (s.withChip s.chip.replyIn) := rfl

theorem exec_sendTimeout (id : Nat) (s : State) : exec (.sendTimeout id) s = .next (s.withChip (s.chip.sendExpiry id)) := rfl

theorem Chip.sendExpiry_of_due {id : Nat} {o : ROp} (hd : c.due (.send id) = true)
    (ho : c.rly.ops.find? (fun o => o.id == id && o.kind == .send) = some o) :
    c.sendExpiry id = ((c.endSend o 0x0E).rlyCtr 17 1).relaySettle := by
  simp only [Chip.sendExpiry, hd, ho, if_true]

end Send

/-- Settles O47: an access of a slice once the scheduler serves it, a completion and a record by what they find, and a SEND by the
message that arrives or the timer that is due. -/
theorem descriptorsRun : Obligations.DescriptorsRun := by
  refine ⟨fun s n c hr hc hs hp => ?_, fun s n d c hd hc hs hp => ⟨fun h => ?_, fun h => ?_⟩,
    fun s n idx d c hd hi hc hs hp => ⟨fun hr => ?_, fun hw => ?_⟩, fun c p => c.relayPump_of_single, fun c => c.relayPump_of_none,
    fun s id t ends rest o hc hl ho hd => ?_, fun s n idx d hd hf hm hs => ?_, fun s srcFa port tc x m c ht => ?_,
    fun s x m c ht => ⟨fun o ho => ?_, fun ho => ?_⟩, fun s id o hd ho => ?_⟩
  · have hfetch : s.chip.descFetch n = s.chip.whenServed n _ := if_neg (by simp [hr])
    exact congrArg (fun c => Host.Outcome.next (s.withChip c)) (hfetch.trans (s.chip.whenServed_of_choice _ hc hs hp))
  · simp only [exec_descriptorStart, Chip.descStart, hd, s.chip.whenServed_of_choice _ hc hs hp, h, if_true]
  · simp only [exec_descriptorStart, Chip.descStart, hd, s.chip.whenServed_of_choice _ hc hs hp, h, if_false]
  · simp only [exec_pieceIssue, Chip.pieceIssue, hd, hi, hr, s.chip.whenServed_of_choice _ hc hs hp, Bool.not_true, Bool.false_eq_true,
      if_false]
  · simp only [exec_pieceIssue, Chip.pieceIssue, hd, hi, hw, s.chip.whenServed_of_choice _ hc hs hp, Bool.not_true, Bool.false_eq_true,
      if_false, if_true, Bool.not_eq_true']
  · rw [exec_relayReadCompletion, s.chip.relayCpl_of_waiting hc hl ho hd]
  · have hslice : (s.chip.recordOf d).slice = n := s.chip.rdesc_slice hd
    obtain ⟨hregs, hout, hsw, hrly⟩ := s.chip.endDesc_frame n idx (s.chip.recordOf d).status
    obtain ⟨hnone, hops⟩ := s.chip.gone_endDesc n idx (s.chip.recordOf d).status
    obtain ⟨hout', hsw', hdescs', hops', hheld, hwait⟩ :=
      (s.chip.endDesc n idx (s.chip.recordOf d).status).finishRecord_frame (s.chip.recordOf d)
    rw [hslice, Chip.bme_slVsi_of_regs hregs, hrly] at hheld hwait
    refine ⟨_, ?_, ?_, hops' ▸ hops, hout'.trans hout, hsw'.trans hsw, hheld, hwait⟩
    · rw [exec_descriptorComplete, s.chip.descComplete_of_finished hd hf hm hs]
    · rw [Chip.rdesc, hdescs']
      exact hnone
  · rcases hi : c.inboxTake { srcFa, port, tc, msg := m } x.data x.poison with ⟨d, _ | status⟩
    · rw [exec_sendReceived, s.chip.sendIn_of_taken ht hi]
    · rw [exec_sendReceived, s.chip.sendIn_of_refused ht hi]
  · simp only [exec_sendReplyReceived, Chip.replyIn, ht, ho]
  · simp only [exec_sendReplyReceived, Chip.replyIn, ht, ho]
  · rw [exec_sendTimeout, s.chip.sendExpiry_of_due hd ho]

end Sys2Proof.Machine
end

section
/-!
PROOFS. What Fog leaves of the power entry (R352, R362): no operation by which the ports and the module enter Fog writes the
power-entry controller's state or the measured currents of the feeds.
-/
namespace Sys2Proof.Machine

/-- What a chip holds of its power entry and of the currents measured there: the state of power and clocks, FEED_A and FEED_B. -/
def Chip.feeds (c : Chip) : Pwr × Word × Word := (c.pwr, c.rd Reg.FEED_A, c.rd Reg.FEED_B)

theorem Chip.railMa_of_feeds {a b : Chip} (h : b.feeds = a.feeds) : b.railMa = a.railMa := by
  simp only [Chip.feeds, Prod.mk.injEq] at h
  obtain ⟨-, hA, hB⟩ := h
  simp only [Chip.railMa, Chip.fld, hA, hB]

theorem Chip.pwr_of_feeds {a b : Chip} (h : b.feeds = a.feeds) : b.pwr = a.pwr := congrArg Prod.fst h

/-! ## Registers, counters, timers and the log -/

section Registers
variable (c : Chip) {o : Nat} (f : Fld)

/-- The registers of many instances lie where their first lies, or beyond. -/
@[simp] theorem feedB_lt_at {b : Nat} (h : Reg.FEED_B < b) (i : Nat) : Reg.FEED_B < b + i := Nat.lt_add_right _ h

@[simp] theorem feedB_lt_at_at {b : Nat} (h : Reg.FEED_B < b) (i j : Nat) : Reg.FEED_B < b + i + j :=
  feedB_lt_at (feedB_lt_at h i) j

@[simp] theorem Chip.wr_feeds (w : Word) (h : Reg.FEED_B < o) : (c.wr o w).feeds = c.feeds := by
  have hA : Reg.FEED_A ≠ o := Nat.ne_of_lt (Nat.lt_trans (by decide : Reg.FEED_A < Reg.FEED_B) h)
  simp only [Chip.feeds, Chip.wr_pwr, c.rd_wr_other w hA, c.rd_wr_other w (Nat.ne_of_lt h)]

@[simp] theorem Chip.resetReg_feeds (h : Reg.FEED_B < o) : (c.resetReg o).feeds = c.feeds := by
  have hA : Reg.FEED_A ≠ o := Nat.ne_of_lt (Nat.lt_trans (by decide : Reg.FEED_A < Reg.FEED_B) h)
  simp only [Chip.feeds, Chip.resetReg_pwr, c.rd_resetReg_other hA, c.rd_resetReg_other (Nat.ne_of_lt h)]

@[simp] theorem Chip.setFld_feeds (v : Nat) (h : Reg.FEED_B < o) : (c.setFld o f v).feeds = c.feeds := c.wr_feeds _ h

@[simp] theorem Chip.setBit_feeds (h : Reg.FEED_B < o) : (c.setBit o f).feeds = c.feeds := c.setFld_feeds f _ h

@[simp] theorem Chip.clrFld_feeds (h : Reg.FEED_B < o) : (c.clrFld o f).feeds = c.feeds := c.setFld_feeds f _ h

@[simp] theorem Chip.putBit_feeds (i : Nat) (b : Bool) (h : Reg.FEED_B < o) : (c.putBit o f i b).feeds = c.feeds :=
  c.setFld_feeds f _ h

end Registers

section Plain
variable (c : Chip)

theorem Chip.withSw_feeds (x : Sw) : ({ c with sw := x } : Chip).feeds = c.feeds := rfl
theorem Chip.withPci_feeds (x : Pci) : ({ c with pci := x } : Chip).feeds = c.feeds := rfl
theorem Chip.withRly_feeds (x : Rly) : ({ c with rly := x } : Chip).feeds = c.feeds := rfl

@[simp] theorem Chip.putTab_feeds (o : Nat) (w : Word) : (c.putTab o w).feeds = c.feeds := rfl
@[simp] theorem Chip.ctrAdd_feeds (kind i idx n : Nat) : (c.ctrAdd kind i idx n).feeds = c.feeds := rfl
@[simp] theorem Chip.ctrInc_feeds (kind i idx : Nat) : (c.ctrInc kind i idx).feeds = c.feeds := rfl
@[simp] theorem Chip.stCtr_feeds (p idx : Nat) : (c.stCtr p idx).feeds = c.feeds := rfl
@[simp] theorem Chip.emit_feeds (o : Out) : (c.emit o).feeds = c.feeds := rfl
@[simp] theorem Chip.arm_feeds (t : TimerId) (ns : Nat) : (c.arm t ns).feeds = c.feeds := rfl
@[simp] theorem Chip.disarm_feeds (t : TimerId) : (c.disarm t).feeds = c.feeds := rfl

@[simp] theorem Chip.raiseIbi_feeds (ep : Nat) (payload : List Nat) : (c.raiseIbi ep payload).feeds = c.feeds := by
  unfold Chip.raiseIbi
  split
  · rfl
  · rfl

@[simp] theorem Chip.log_feeds (code : LogCode) (key det : List Nat) : (c.log code key det).feeds = c.feeds := by
  have h := Chip.SameButLog.log c code key det
  have hpwr : (c.log code key det).pwr = c.pwr := (congrArg Chip.pwr h.rest :)
  simp only [Chip.feeds, hpwr, h.regs Reg.FEED_A (by simp +decide [isLogReg]), h.regs Reg.FEED_B (by simp +decide [isLogReg])]

end Plain

/-- A sequence of steps leaves what each of them leaves. -/
theorem Chip.foldl_feeds {α : Type} {f : Chip → α → Chip} (h : ∀ c x, (f c x).feeds = c.feeds) (l : List α) (c : Chip) :
    (l.foldl f c).feeds = c.feeds :=
  List.foldlRecOn (motive := fun d : Chip => d.feeds = c.feeds) l f rfl fun d hd x _ => (h d x).trans hd

/-! ## Configuration space and error reports (R102) -/

section Aer
variable (c : Chip)

@[simp] theorem Chip.setCfgBit_feeds (v fn key : Nat) (bit : Option Nat) : (c.setCfgBit v fn key bit).feeds = c.feeds := by
  cases bit <;> rfl

@[simp] theorem Chip.aer_feeds (v : Nat) (vbr : Option Nat) (e : AerErr) : (c.aer v vbr e).feeds = c.feeds := by
  simp [Chip.aer]

@[simp] theorem Chip.hotplug_feeds (v i : Nat) (present active : Bool) : (c.hotplug v i present active).feeds = c.feeds := rfl

@[simp] theorem Chip.aerPort_feeds (p : Nat) (e : AerErr) : (c.aerPort p e).feeds = c.feeds := by
  unfold Chip.aerPort
  split
  · split
    · exact c.aer_feeds _ none e
    · rfl
  · exact Chip.foldl_feeds (fun _ _ => Chip.aer_feeds _ _ _ _) _ _

end Aer

/-! ## Signals between modules -/

section Signal
variable (c : Chip)

@[simp] theorem Chip.updSpan_feeds (p : Nat) (f : Span → Span) : (c.updSpan p f).feeds = c.feeds := rfl

@[simp] theorem Chip.sigStatus_feeds (p : Nat) : (c.sigStatus p).feeds = c.feeds := by
  simp +decide [Chip.sigStatus]

@[simp] theorem Chip.sigDropped_feeds (p stype dest origin : Nat) (far : Option Nat) :
    (c.sigDropped p stype dest origin far).feeds = c.feeds := by
  simp +decide [Chip.sigDropped]

@[simp] theorem Chip.queueSig_feeds (p : Nat) (m : SigMsg) (own : Bool) : (c.queueSig p m own).feeds = c.feeds := by
  have hevicted : ∀ l : List SigEnt, (l.foldl (fun c x => c.sigDropped p 2 x.destFa x.originFa none) c).feeds = c.feeds :=
    fun l => Chip.foldl_feeds (fun _ _ => Chip.sigDropped_feeds _ _ _ _ _ _) l c
  unfold Chip.queueSig
  dsimp only
  split
  · exact Chip.sigStatus_feeds _ p
  · split
    · split
      · rfl
      · exact c.sigDropped_feeds ..
    · split
      · exact (Chip.sigStatus_feeds _ p).trans (hevicted _)
      · split
        · rfl
        · exact c.sigDropped_feeds ..

@[simp] theorem Chip.sigNoRoute_feeds (st : Nat) (m : SigMsg) : (c.sigNoRoute st m).feeds = c.feeds := by
  simp +decide [Chip.sigNoRoute]

@[simp] theorem Chip.misLook_feeds (p : Nat) : (c.misLook p).feeds = c.feeds := by
  refine (Chip.log_feeds _ _ _ _).trans (Eq.trans (b := (c.setBit _ _).feeds) rfl ?_)
  exact c.setBit_feeds _ (feedB_lt_at (by decide) _)

@[simp] theorem Chip.sendSig_feeds (st : Nat) (m : SigMsg) : (c.sendSig st m).feeds = c.feeds := by
  unfold Chip.sendSig
  split
  · rfl
  · split
    · exact c.queueSig_feeds ..
    · exact c.sigNoRoute_feeds st m
    · exact c.misLook_feeds _

@[simp] theorem Chip.genFarErr_feeds (srcFa tc status addr vsi port : Nat) :
    (c.genFarErr srcFa tc status addr vsi port).feeds = c.feeds := by
  refine (Chip.log_feeds _ _ _ _).trans ?_
  dsimp only
  split
  · exact Chip.sendSig_feeds _ _ _
  · exact Chip.sendSig_feeds _ _ _

@[simp] theorem Chip.farLeft_feeds (s : Slot) (gap : Nat) : (c.farLeft s gap).feeds = c.feeds := by
  unfold Chip.farLeft
  split
  · split
    · rfl
    · rfl
  · rfl

end Signal

/-! ## Discharges (R216) -/

section Discharge
variable (c : Chip)

@[simp] theorem Chip.putEctx_feeds (x : ECtx) : (c.putEctx x).feeds = c.feeds := rfl

@[simp] theorem Chip.castNow_feeds (x : ECtx) : (c.castNow x).feeds = c.feeds := by
  simp [Chip.castNow]

@[simp] theorem Chip.castDue_feeds (x : ECtx) : (c.castDue x).feeds = c.feeds := by
  unfold Chip.castDue
  split
  · split
    · exact c.castNow_feeds x
    · rfl
  · exact c.castNow_feeds x

@[simp] theorem Chip.discharge_feeds (r : Rel) : (c.discharge r).feeds = c.feeds := by
  unfold Chip.discharge
  split
  · split
    · dsimp only
      split
      · rfl
      · exact c.castDue_feeds _
    · rfl
  · rfl

@[simp] theorem Chip.dischargeOpt_feeds (r : Option Rel) : (c.dischargeOpt r).feeds = c.feeds := by
  cases r with
  | none => rfl
  | some r => exact c.discharge_feeds r

end Discharge

/-! ## Packets, their cells and their credits -/

section Packets
variable (c : Chip)

@[simp] theorem Chip.setPkts_feeds (l : List Pkt) : (c.setPkts l).feeds = c.feeds := rfl
@[simp] theorem Chip.updPkt_feeds (uid : Nat) (f : Pkt → Pkt) : (c.updPkt uid f).feeds = c.feeds := rfl
@[simp] theorem Chip.addPkt_feeds (k : Pkt) : (c.addPkt k).feeds = c.feeds := rfl
@[simp] theorem Chip.setSink_feeds (p n : Nat) : (c.setSink p n).feeds = c.feeds := rfl

@[simp] theorem Chip.rxBack_feeds (r : Rx) : (c.rxBack r).feeds = c.feeds := by
  unfold Chip.rxBack Chip.rxReturn
  split
  · rfl
  · rfl

@[simp] theorem Chip.rxFree_feeds (r : Rx) : (c.rxFree r).feeds = c.feeds := by
  unfold Chip.rxFree
  split
  · rfl
  · split
    · rfl
    · exact c.rxBack_feeds r

@[simp] theorem Chip.freePool_feeds (k : Pkt) : (c.freePool k).feeds = c.feeds := by
  unfold Chip.freePool
  rw [Chip.updPkt_feeds]
  split
  · rfl
  · split
    · rfl
    · rfl

@[simp] theorem Chip.updStop_feeds (p : Nat) : (c.updStop p).feeds = c.feeds := by
  unfold Chip.updStop
  refine (Chip.putBit_feeds _ _ _ _ (by decide)).trans ?_
  split
  · simp +decide
  · split
    · simp +decide
    · rfl

@[simp] theorem Chip.freeSink_feeds (k : Pkt) : (c.freeSink k).feeds = c.feeds := by
  unfold Chip.freeSink
  split
  · split
    · rfl
    · simp
  · rfl

@[simp] theorem Chip.dropPkt_feeds (uid : Nat) : (c.dropPkt uid).feeds = c.feeds := by
  unfold Chip.dropPkt
  split
  · simp
  · rfl

@[simp] theorem Chip.updNpStop_feeds (p : Nat) : (c.updNpStop p).feeds = c.feeds := by
  unfold Chip.updNpStop
  dsimp only
  split
  · simp +decide
  · split
    · simp +decide
    · rfl

@[simp] theorem Chip.releaseCells_feeds (uid p : Nat) : (c.releaseCells uid p).feeds = c.feeds :=
  (Chip.updNpStop_feeds _ p).trans (Chip.updStop_feeds _ p)

@[simp] theorem Chip.sweepPkt_feeds (uid : Nat) : (c.sweepPkt uid).feeds = c.feeds := by
  unfold Chip.sweepPkt
  split
  · rfl
  · rfl

@[simp] theorem Chip.unqueue_feeds (uid p : Nat) : (c.unqueue uid p).feeds = c.feeds := by
  simp [Chip.unqueue]

@[simp] theorem Chip.nullOut_feeds (p uid : Nat) : (c.nullOut p uid).feeds = c.feeds := by
  unfold Chip.nullOut
  split
  · dsimp only
    split
    · rfl
    · rfl
  · rfl

@[simp] theorem Chip.purgePkt_feeds (uid : Nat) : (c.purgePkt uid).feeds = c.feeds := by
  have hcut : ∀ (d : Chip) (e : ObEnt), ((if (e.begun && d.isSpan e.port) = true then d.nullOut e.port uid
      else if e.begun = true then match d.pkt uid with
        | some k => d.emit (.tlp e.port k.tlp true)
        | none => d
      else d).releaseCells uid e.port).feeds = d.feeds := fun d e => by
    rw [Chip.releaseCells_feeds]
    split
    · exact d.nullOut_feeds e.port uid
    · split
      · split
        · rfl
        · rfl
      · rfl
  unfold Chip.purgePkt
  dsimp only
  split
  · exact Chip.foldl_feeds hcut _ _
  · exact (Chip.dropPkt_feeds _ uid).trans (Chip.foldl_feeds hcut _ _)

@[simp] theorem Chip.withdraw_feeds (k : Pkt) : (c.withdraw k).feeds = c.feeds := by
  unfold Chip.withdraw
  split
  · exact c.dropPkt_feeds _
  · simp

@[simp] theorem Chip.ackHeld_feeds (k : Pkt) : (c.ackHeld k).feeds = c.feeds := by
  unfold Chip.ackHeld
  split
  · dsimp only
    split
    · rfl
    · rfl
  · rfl

end Packets

/-! ## Completions and answers (R93, R94) -/

section Completions
variable (c : Chip)

@[simp] theorem Chip.ownCpl_feeds (v vbr devfn status : Nat) : (c.ownCpl v vbr devfn status).feeds = c.feeds := by
  unfold Chip.ownCpl
  dsimp only
  split
  · rfl
  · rfl

@[simp] theorem Chip.reqDiscard_feeds (p : Nat) (t : Tlp) : (c.reqDiscard p t).feeds = c.feeds := by
  simp +decide [Chip.reqDiscard]

@[simp] theorem Chip.sendCpl_feeds (p : Nat) (ret : Ret) (t : Tlp) (ends : Bool) (rel : Option Rel) (piece : Option (Nat × Nat))
    (relay : Option Nat) (vsi : Nat) : (c.sendCpl p ret t ends rel piece relay vsi).feeds = c.feeds := by
  obtain ⟨_, _, inPort⟩ | _ | ⟨v, vbr, devfn⟩ := ret
  · unfold Chip.sendCpl
    dsimp only
    split
    · rfl
    · split
      · exact (Chip.dischargeOpt_feeds _ rel).trans (c.reqDiscard_feeds inPort t)
      · split
        · exact c.misLook_feeds p
        · rfl
  · unfold Chip.sendCpl
    dsimp only
    split
    · exact c.misLook_feeds p
    · rfl
    · split
      · simp +decide
      · simp +decide
  · exact (Chip.dischargeOpt_feeds _ rel).trans (c.ownCpl_feeds v vbr devfn t.status)

@[simp] theorem Chip.dropSink_feeds (e : OrtEnt) : (c.dropSink e).feeds = c.feeds := by
  unfold Chip.dropSink
  split
  · simp
  · rfl

@[simp] theorem Chip.endEntry_feeds (e : OrtEnt) : (c.endEntry e).feeds = c.feeds := c.dropSink_feeds e

@[simp] theorem Chip.quarantine_feeds (e : OrtEnt) : (c.quarantine e).feeds = c.feeds := rfl
@[simp] theorem Chip.putEnt_feeds (e : OrtEnt) : (c.putEnt e).feeds = c.feeds := rfl

@[simp] theorem Chip.lateCpl_feeds (p : Nat) (q : Quar) : (c.lateCpl p q).feeds = c.feeds := by
  simp +decide [Chip.lateCpl]

@[simp] theorem Chip.endPiece_feeds (k : Pkt) : (c.endPiece k).feeds = c.feeds := by
  unfold Chip.endPiece
  dsimp only
  split
  · simp
  · simp

@[simp] theorem Chip.endPieces_feeds (id n : Nat) : (c.endPieces id n).feeds = c.feeds := by
  have hent : ∀ (d : Chip) (e : OrtEnt), ((d.endEntry e).quarantine e).feeds = d.feeds := fun d e => d.endEntry_feeds e
  unfold Chip.endPieces
  dsimp only
  split
  · exact (Chip.foldl_feeds Chip.endPiece_feeds _ _).trans (Chip.foldl_feeds hent _ _)
  · exact (Chip.foldl_feeds Chip.endPiece_feeds _ _).trans (Chip.foldl_feeds hent _ _)

@[simp] theorem Chip.pieceDone_feeds (id n : Nat) : (c.pieceDone id n).feeds = c.feeds := by
  unfold Chip.pieceDone
  split
  · rfl
  · rfl

@[simp] theorem Chip.answerEntry_feeds (e : OrtEnt) (status : Nat) : (c.answerEntry e status).feeds = c.feeds := by
  unfold Chip.answerEntry
  dsimp only
  split
  · split
    · simp
    · simp
  · simp

@[simp] theorem Chip.answerPkt_feeds (p : Nat) (k : Pkt) (status : Nat) : (c.answerPkt p k status).feeds = c.feeds := by
  unfold Chip.answerPkt
  split
  · split
    · simp
    · rfl
  · simp

@[simp] theorem Chip.stopPiece_feeds (e : OrtEnt) (id addr : Nat) : (c.stopPiece e id addr).feeds = c.feeds := by
  unfold Chip.stopPiece
  split
  · split
    · split
      · simp
      · rfl
    · rfl
  · rfl

@[simp] theorem Chip.cplEntry_feeds (e e' : OrtEnt) (t : Tlp) : (c.cplEntry e e' t).feeds = c.feeds := by
  have hentry : (if e.endsBy t = true then c.endEntry e' else c.putEnt e').feeds = c.feeds := by
    split
    · exact c.endEntry_feeds e'
    · rfl
  unfold Chip.cplEntry
  dsimp only
  split
  · split
    · exact hentry
    · exact (Chip.endPieces_feeds _ _ _).trans hentry
  · exact hentry

@[simp] theorem Chip.cplTail_feeds (e e' : OrtEnt) (t : Tlp) : (c.cplTail e e' t).feeds = c.feeds := by
  unfold Chip.cplTail
  split
  · split
    · simp
    · rfl
  · rfl

section Back
variable {back : Chip → Chip} (hb : ∀ d, (back d).feeds = d.feeds)
include hb

theorem Chip.giveCpl_feeds (e : OrtEnt) (ret : Ret) (t : Tlp) (ends : Bool) (fill : Pkt → Pkt) :
    (c.giveCpl e ret t ends fill back).feeds = c.feeds := by
  unfold Chip.giveCpl
  dsimp only
  split
  · simp [hb]
  · simp

theorem Chip.cplCounts_feeds (e : OrtEnt) (t : Tlp) (fill : Pkt → Pkt) : (c.cplCounts e t fill back).feeds = c.feeds := by
  unfold Chip.cplCounts
  dsimp only
  rw [Chip.cplTail_feeds]
  refine (Chip.giveCpl_feeds _ (fun d => (hb _).trans ?_) _ _ _ _ _).trans (c.cplEntry_feeds _ _ t)
  split
  · simp
  · rfl

end Back

@[simp] theorem Chip.ackCpl_feeds (p grp : Nat) : (c.ackCpl p grp).feeds = c.feeds := by
  unfold Chip.ackCpl
  split
  · split
    · rfl
    · rfl
  · rfl

@[simp] theorem Chip.countRx_feeds (e : OrtEnt) (r : Rx) : (c.countRx e r).feeds = c.feeds := by
  unfold Chip.countRx
  dsimp only
  split
  · exact (Chip.ackCpl_feeds _ _ _).trans (Chip.cplCounts_feeds _ (fun d => d.rxBack_feeds r) _ _ _)
  · refine (Chip.cplCounts_feeds _ (fun _ => rfl) _ _ _).trans ?_
    split
    · rfl
    · rfl

@[simp] theorem Chip.countChecked_feeds (e : OrtEnt) : (c.countChecked e).1.feeds = c.feeds := by
  refine List.foldlRecOn (motive := fun a : Chip × Option OrtEnt => a.1.feeds = c.feeds) _ _ rfl fun a ha r _ => ?_
  dsimp only
  split
  · exact (a.1.countRx_feeds _ r).trans ha
  · exact ha

@[simp] theorem Chip.answerAfter_feeds (e : OrtEnt) (status : Nat) : (c.answerAfter e status).feeds = c.feeds := by
  unfold Chip.answerAfter
  dsimp only
  split
  · split
    · simp
    · simp
  · simp

@[simp] theorem Chip.countPort_feeds (p : Nat) : (c.countPort p).feeds = c.feeds :=
  Chip.foldl_feeds (fun d e => d.countChecked_feeds e) _ _

@[simp] theorem Chip.answerVsiAt_feeds (p v : Nat) : (c.answerVsiAt p v).feeds = c.feeds := by
  unfold Chip.answerVsiAt
  refine (Chip.setBit_feeds _ _ (feedB_lt_at (by decide) _)).trans ((Chip.foldl_feeds (fun d k => ?_) _ _).trans
    (Chip.foldl_feeds (fun d e => d.answerAfter_feeds e _) _ _))
  simp

@[simp] theorem Chip.answerPort_feeds (p : Nat) : (c.answerPort p).feeds = c.feeds := by
  unfold Chip.answerPort
  refine (Chip.updNpStop_feeds _ p).trans ((Chip.setBit_feeds _ _ (feedB_lt_at (by decide) _)).trans
    ((Chip.foldl_feeds (fun d k => ?_) _ _).trans (Chip.foldl_feeds (fun d e => d.answerAfter_feeds e _) _ _)))
  simp

@[simp] theorem Chip.undone_feeds (p otype addr srcVsi : Nat) (rel : Option Rel) :
    (c.undone p otype addr srcVsi rel).feeds = c.feeds := by
  unfold Chip.undone
  split
  · split
    · simp
    · simp
  · rfl

@[simp] theorem Chip.discardQueued_feeds (p : Nat) (k : Pkt) : (c.discardQueued p k).feeds = c.feeds := by
  simp [Chip.discardQueued]

@[simp] theorem Chip.flushPort_feeds (p : Nat) : (c.flushPort p).feeds = c.feeds :=
  (Chip.foldl_feeds (fun d _ => d.undone_feeds p _ _ _ _) _ _).trans (Chip.foldl_feeds (fun d k => d.discardQueued_feeds p k) _ _)

@[simp] theorem Chip.poolClear_feeds (p : Nat) : (c.poolClear p).feeds = c.feeds := rfl

end Completions

/-! ## Custody copies (R220, R234) -/

section Custody
variable (c : Chip)

@[simp] theorem Chip.putStream_feeds (x : IStream) : (c.putStream x).feeds = c.feeds := rfl

@[simp] theorem Chip.dropCopy_feeds (id : Nat) : (c.dropCopy id).feeds = c.feeds := by
  unfold Chip.dropCopy Chip.updSpill
  split
  · exact Chip.clrFld_feeds _ _ (by decide)
  · split
    · exact Chip.setBit_feeds _ _ (by decide)
    · split
      · exact Chip.clrFld_feeds _ _ (by decide)
      · rfl

@[simp] theorem Chip.restStream_feeds (x : IStream) : (c.restStream x).feeds = c.feeds := by
  unfold Chip.restStream
  split
  · rfl
  · dsimp only
    split
    · rfl
    · rfl

@[simp] theorem Chip.voidCopy_feeds (k : Copy) : (c.voidCopy k).feeds = c.feeds := by
  unfold Chip.voidCopy
  dsimp only
  split
  · simp
  · simp

@[simp] theorem Chip.endReplay_feeds (x : IStream) : (c.endReplay x).feeds = c.feeds :=
  (Chip.setPkts_feeds _ _).trans (Chip.foldl_feeds (fun d (k : Pkt) => d.dropPkt_feeds k.uid) _ _)

@[simp] theorem Chip.startReplay_feeds (x : IStream) (n : Nat) (cause : Option Nat) (restart : Bool) :
    (c.startReplay x n cause restart).feeds = c.feeds := by
  have hcount : ∀ d : Chip, (match cause with
      | some k => d.ctrInc kMooring 0 k
      | none => d).feeds = d.feeds := fun d => by cases cause <;> rfl
  unfold Chip.startReplay
  split
  · rfl
  · extract_lets pos y d e
    have he : e.feeds = c.feeds := (hcount d).trans (c.endReplay_feeds y)
    split
    · exact he
    · exact he

@[simp] theorem Chip.linkLossReplay_feeds (p : Nat) : (c.linkLossReplay p).feeds = c.feeds :=
  Chip.foldl_feeds (fun d x => d.startReplay_feeds x _ _ _) _ _

end Custody

/-! ## Slices of the Relay engine -/

section Relay
variable (c : Chip)

@[simp] theorem Chip.putRslice_feeds (x : RSlice) : (c.putRslice x).feeds = c.feeds := rfl

@[simp] theorem Chip.sendReply_feeds (f : SendFrom) (status : Nat) : (c.sendReply f status).feeds = c.feeds := by
  unfold Chip.sendReply Chip.sendRelayMsg
  dsimp only
  split
  · rfl
  · split
    · rfl
    · simp +decide
    · simp

@[simp] theorem Chip.dropPosts_feeds (n : Nat) : (c.dropPosts n).feeds = c.feeds :=
  Chip.foldl_feeds (fun d f => d.sendReply_feeds f _) _ _

@[simp] theorem Chip.sliceReset_feeds (n : Nat) : (c.sliceReset n).feeds = c.feeds := by
  unfold Chip.sliceReset
  extract_lets c₁ sw c₂ c₃ c₄ c₅ rly c₆ c₇
  have h₁ : c₁.feeds = c.feeds := by simp +decide [c₁]
  have h₂ : c₂.feeds = c₁.feeds := c₁.withSw_feeds _
  have h₅ : c₅.feeds = c₂.feeds := by simp +decide [c₅, c₄, c₃]
  have h₆ : c₆.feeds = c₅.feeds := c₅.withRly_feeds _
  have h₇ : c₇.feeds = c₆.feeds := (Chip.dropPosts_feeds _ n).trans (c₆.putRslice_feeds _)
  simp +decide [h₇, h₆, h₅, h₂, h₁]

@[simp] theorem Chip.sliceVsiFields_feeds (n : Nat) : (c.sliceVsiFields n).feeds = c.feeds := by
  simp +decide [Chip.sliceVsiFields]

@[simp] theorem Chip.sliceSettle_feeds (n : Nat) : (c.sliceSettle n).feeds = c.feeds := by
  unfold Chip.sliceSettle
  split
  · simp
  · rfl

@[simp] theorem Chip.haltSlice_feeds (n cause : Nat) : (c.haltSlice n cause).feeds = c.feeds := by
  unfold Chip.haltSlice
  split
  · extract_lets d ds os
    have hd : d.feeds = c.feeds := by simp +decide [d]
    exact (Chip.log_feeds _ _ _ _).trans ((Chip.dropPosts_feeds _ n).trans hd)
  · rfl

@[simp] theorem Chip.relayVsiReset_feeds (v : Nat) : (c.relayVsiReset v).feeds = c.feeds :=
  Chip.foldl_feeds (fun d n => (Chip.sliceSettle_feeds _ n).trans ((Chip.putRslice_feeds _ _).trans (d.haltSlice_feeds n _))) _ _

end Relay

/-! ## Reset of a VSI -/

section Vsi
variable (c : Chip)

@[simp] theorem Chip.polReset_feeds (v : Nat) : (c.polReset v).feeds = c.feeds :=
  Chip.foldl_feeds (fun d k => d.resetReg_feeds (feedB_lt_at_at (by decide) _ _)) _ _

@[simp] theorem Chip.putHost_feeds (h : HostBind) : (c.putHost h).feeds = c.feeds := rfl

@[simp] theorem Chip.invalidateWin_feeds (w : Nat) : (c.invalidateWin w).feeds = c.feeds := by
  have hwin : ∀ x : Word, (c.writeWin (Reg.WIN_BASE_LO w) x).feeds = c.feeds := fun x =>
    (Chip.wr_feeds _ x (feedB_lt_at (by decide) _)).trans (c.putTab_feeds _ x)
  have hgen : ∀ d : Chip, d.bumpWinGen.feeds = d.feeds := fun d => d.setFld_feeds _ _ (by decide)
  unfold Chip.invalidateWin
  dsimp only
  split
  · split
    · exact (hgen _).trans (hwin _)
    · exact hgen c
  · split
    · exact hwin _
    · rfl

@[simp] theorem Chip.resetFn_feeds (h : HostBind) : (c.resetFn h).feeds = c.feeds :=
  Chip.foldl_feeds (fun d _ => d.invalidateWin_feeds _) _ _

@[simp] theorem Chip.showVbr_feeds (v i : Nat) (target : Option Nat) : (c.showVbr v i target).feeds = c.feeds := by
  unfold Chip.showVbr
  rw [Chip.hotplug_feeds]
  exact c.setFld_feeds _ _ (feedB_lt_at_at (by decide) _ _)

@[simp] theorem Chip.syncPresence_feeds (p : Nat) : (c.syncPresence p).feeds = c.feeds :=
  Chip.foldl_feeds (fun d _ => d.showVbr_feeds _ _ _) _ _

@[simp] theorem Chip.updFlrBusy_feeds (v vbr : Nat) : (c.updFlrBusy v vbr).feeds = c.feeds :=
  Chip.setFld_feeds _ _ _ (feedB_lt_at_at (by decide) _ _)

@[simp] theorem Chip.startQuiesce_feeds (h : HostBind) (unbinding byReset : Bool) :
    (c.startQuiesce h unbinding byReset).feeds = c.feeds := by
  unfold Chip.startQuiesce
  split
  · rfl
  · dsimp only
    split
    · simp
    · simp

@[simp] theorem Chip.resetBelow_feeds (v : Nat) (byReset : Bool) : (c.resetBelow v byReset).feeds = c.feeds := by
  unfold Chip.resetBelow
  rw [Chip.foldl_feeds (fun d h => d.startQuiesce_feeds h _ _), Chip.foldl_feeds (fun d p => d.emit_feeds _)]
  refine (Chip.foldl_feeds (fun d i => ?_) _ _).trans rfl
  simp +decide

@[simp] theorem Chip.crStop_feeds : c.crStop.feeds = c.feeds := Chip.clrFld_feeds _ _ (by decide)

@[simp] theorem Chip.hideAll_feeds (v : Nat) : (c.hideAll v).feeds = c.feeds :=
  Chip.foldl_feeds (fun d i => d.clrFld_feeds _ (feedB_lt_at_at (by decide) _ _)) _ _

@[simp] theorem Chip.vsiReset_feeds (v : Nat) : (c.vsiReset v).feeds = c.feeds := by
  have hdrop : ∀ d : Chip, (d.dropCfg v 0 2).feeds = d.feeds := fun _ => rfl
  unfold Chip.vsiReset
  split
  · rfl
  · dsimp only
    split
    · rw [Chip.crStop_feeds, Chip.foldl_feeds (fun d p => d.answerVsiAt_feeds p v)]
      simp +decide [hdrop]
    · simp +decide [hdrop]

end Vsi

/-! ## Messages of the Keeper and the Beacon Ring (R121, R355) -/

section Messages
variable (c : Chip)

@[simp] theorem Chip.sendMgmtMsg_feeds (m : SigMsg) : (c.sendMgmtMsg m).feeds = c.feeds := by
  unfold Chip.sendMgmtMsg
  split
  · split
    · rfl
    · split
      · rfl
      · exact c.sendSig_feeds 0 _
  · exact c.sendSig_feeds 0 _
  · exact c.sendSig_feeds 0 _
  · exact c.sendSig_feeds 0 _
  · exact c.sendSig_feeds 0 _

@[simp] theorem Chip.sendMgmt_feeds (destFa msg : Nat) (ackReq : Bool) (payload : List Nat) :
    (c.sendMgmt destFa msg ackReq payload).feeds = c.feeds := by
  refine (Chip.sendMgmtMsg_feeds _ _).trans ?_
  split
  · rfl
  · rfl

@[simp] theorem Chip.fogReport_feeds (scope port cause : Nat) : (c.fogReport scope port cause).feeds = c.feeds := by
  unfold Chip.fogReport
  split
  · exact c.sendMgmt_feeds ..
  · rfl

@[simp] theorem Chip.fogAlert_feeds (scope port cause : Nat) : (c.fogAlert scope port cause).feeds = c.feeds := rfl

@[simp] theorem Chip.reportPort_feeds (p : Nat) (active : Bool) : (c.reportPort p active).feeds = c.feeds :=
  Chip.foldl_feeds (fun d _ => d.sendMgmt_feeds _ _ _ _) _ _

end Messages

/-! ## A link that goes down (R350) -/

section Links
variable (c : Chip)

@[simp] theorem Chip.nullifyIn_feeds (uid : Nat) : (c.nullifyIn uid).feeds = c.feeds := by
  unfold Chip.nullifyIn
  split
  · rfl
  · next k _ =>
    have hvoid : (match c.copyOf k with
        | some x => if x.state == CopySt.filling then c.voidCopy x else c
        | none => c).feeds = c.feeds := by
      split
      · split
        · exact c.voidCopy_feeds _
        · rfl
      · rfl
    have hack : ∀ d : Chip, (match k.ack with
        | some a => { d with pci := { d.pci with ackWait := d.pci.ackWait.erase a } }
        | none => d).feeds = d.feeds := fun d => by
      split
      · rfl
      · rfl
    dsimp only
    split
    · exact (hack _).trans hvoid
    · exact (hack _).trans hvoid

@[simp] theorem Chip.cutShort_feeds (p : Nat) : (c.cutShort p).feeds = c.feeds := by
  unfold Chip.cutShort
  split
  · rfl
  · refine (Chip.foldl_feeds Chip.nullifyIn_feeds _ _).trans ?_
    split
    · rfl
    · split
      · rfl
      · rfl

/-- A link that software or Fog takes down (R350). -/
@[simp] theorem Chip.linkDown_requested_feeds (p : Nat) : (c.linkDown p true).feeds = c.feeds := by
  have hdrop : ∀ d : Chip, (d.dropTags p).feeds = d.feeds := fun _ => rfl
  unfold Chip.linkDown
  split
  · rfl
  · extract_lets pci c₁ c₂ c₃ c₄ c₅ c₆ c₇
    have h₁ : c₁.feeds = c.feeds := c.withPci_feeds _
    have h₅ : c₅.feeds = c.feeds := by simp +decide [c₅, c₄, c₃, c₂, hdrop, h₁]
    split
    · split
      · simp +decide [h₅]
      · exact h₅
    · simp [c₇, c₆, h₅]

@[simp] theorem Chip.dpcTrigger_feeds (p : Nat) : (c.dpcTrigger p).feeds = c.feeds := by
  have hdpc : (c.setBit (Reg.PRT_STATUS p) Bit.PRT_STATUS_DPC_ACTIVE).feeds = c.feeds :=
    c.setBit_feeds _ (feedB_lt_at (by decide) _)
  unfold Chip.dpcTrigger
  split
  · rfl
  · dsimp only
    split
    · exact (Chip.linkDown_requested_feeds _ p).trans hdpc
    · exact (Chip.answerPort_feeds _ p).trans hdpc

@[simp] theorem Chip.spanDropNp_feeds (p : Nat) (k : Pkt) : (c.spanDropNp p k).feeds = c.feeds := by
  unfold Chip.spanDropNp
  dsimp only
  split
  · split
    · simp
    · simp
  · simp

@[simp] theorem Chip.spanFlush_feeds (p : Nat) : (c.spanFlush p).feeds = c.feeds := by
  refine Chip.foldl_feeds (fun d k => ?_) _ _
  split
  · exact d.spanDropNp_feeds p k
  · exact d.discardQueued_feeds p k

@[simp] theorem Chip.dropPart_feeds (p : Nat) : (c.dropPart p).feeds = c.feeds := by
  unfold Chip.dropPart
  split
  · rfl
  · simp +decide

@[simp] theorem Chip.spanTeardown_feeds (p : Nat) : (c.spanTeardown p).feeds = c.feeds := by
  have hdrop : ∀ d : Chip, (d.dropTags p).feeds = d.feeds := fun _ => rfl
  have hput : ∀ (d : Chip) (x : Span), (d.putSpan x).feeds = d.feeds := fun _ _ => rfl
  unfold Chip.spanTeardown
  extract_lets c₁ x c₂ c₃ c₄ c₅ c₆ c₇ c₈ c₉ c₁₀
  have h₁ : c₁.feeds = c.feeds := by simp [c₁]
  have h₂ : c₂.feeds = c₁.feeds := by
    unfold c₂
    split
    · exact c₁.linkLossReplay_feeds p
    · rfl
  have h₄ : c₄.feeds = c₂.feeds := by
    unfold c₄
    split
    · rfl
    · simp +decide [c₃]
  have h₇ : c₇.feeds = c₄.feeds := by simp [c₇, c₆, c₅, hdrop, hput]
  have h₈ : c₈.feeds = c₇.feeds := Chip.foldl_feeds (fun d s => d.farLeft_feeds s 0) _ _
  have h₉ : c₉.feeds = c₈.feeds := by simp +decide [c₉]
  have h₁₀ : c₁₀.feeds = c₉.feeds := Chip.foldl_feeds (fun d t => d.disarm_feeds t) _ _
  simp +decide [h₁₀, h₉, h₈, h₇, h₄, h₂, h₁]

@[simp] theorem Chip.fullLinkReset_feeds (p : Nat) : (c.fullLinkReset p).feeds = c.feeds := by
  unfold Chip.fullLinkReset
  split
  · rfl
  · simp +decide [Chip.resetLink, Chip.setSpanState]

end Links

/-! ## Port Fog and module Fog (R350, R351, R352) -/

section Fog
variable (c : Chip)

@[simp] theorem Chip.updFogN_feeds : c.updFogN.feeds = c.feeds := by
  unfold Chip.updFogN
  dsimp only
  split
  · simp +decide
  · simp +decide

@[simp] theorem Chip.syncFogN_feeds : c.syncFogN.feeds = c.feeds := Chip.updFogN_feeds _

@[simp] theorem Chip.dropMine_feeds (p : Nat) (k : Pkt) : (c.dropMine p k).feeds = c.feeds := by
  unfold Chip.dropMine
  extract_lets d e
  have hd : d.feeds = c.feeds := c.purgePkt_feeds k.uid
  have he : e.feeds = d.feeds := by
    unfold e
    split
    · split
      · exact d.voidCopy_feeds _
      · rfl
    · rfl
  split
  · exact he.trans hd
  · split
    · exact (e.answerPkt_feeds p k _).trans (he.trans hd)
    · exact (e.undone_feeds p _ _ _ _).trans (he.trans hd)

@[simp] theorem Chip.fogIntake_feeds (p : Nat) : (c.fogIntake p).feeds = c.feeds := by
  unfold Chip.fogIntake
  rw [Chip.foldl_feeds (fun d k => d.dropMine_feeds p k), Chip.foldl_feeds Chip.rxFree_feeds]
  exact (Chip.countPort_feeds _ p).trans (c.cutShort_feeds p)

@[simp] theorem Chip.portFogKind_feeds (p : Nat) (own : Bool) : (c.portFogKind p own).feeds = c.feeds := by
  unfold Chip.portFogKind
  extract_lets report d reported up below
  have hreport : ∀ (d : Chip) (v : Nat) (b : Option Nat), (report d v b).feeds = d.feeds := fun d v b => by
    unfold report
    split
    · exact d.aer_feeds v b _
    · rfl
  have hd : d.feeds = c.feeds := c.fogIntake_feeds p
  have hreported : reported.feeds = c.feeds := (hreport d _ none).trans hd
  split
  · simp [hreported]
  · split
    · split
      · simp [up, hreported]
      · simp [up, hreported]
    · have hbelow : below.feeds = d.feeds := Chip.foldl_feeds (fun d (b : Nat × Nat) => hreport d b.1 (some b.2)) _ _
      simp [hbelow, hd]

@[simp] theorem Chip.markPortFog_feeds (p cause : Nat) : (c.markPortFog p cause).feeds = c.feeds := by
  simp +decide [Chip.markPortFog]

@[simp] theorem Chip.portFogIn_feeds (p cause : Nat) (own : Bool) : (c.portFogIn p cause own).feeds = c.feeds := by
  unfold Chip.portFogIn
  split
  · exact c.log_feeds _ _ _
  · simp

/-- R352: the module enters Fog, and its power entry stands as it was. -/
@[simp] theorem Chip.moduleFog_feeds (cause index : Nat) : (c.moduleFog cause index).feeds = c.feeds := by
  have hhold : (c.holdBoot cause).feeds = c.feeds := by
    unfold Chip.holdBoot
    split
    · rfl
    · rfl
  unfold Chip.moduleFog
  split
  · exact (Chip.log_feeds _ _ _ _).trans hhold
  · dsimp only
    rw [Chip.fogReport_feeds, Chip.raiseIbi_feeds, Chip.fogAlert_feeds, Chip.syncFogN_feeds,
      Chip.foldl_feeds (fun d p => d.portFogIn_feeds p cause false),
      Chip.foldl_feeds (fun d (x : IStream) => (Chip.disarm_feeds _ _).trans (d.putStream_feeds _))]
    simp +decide

end Fog

end Sys2Proof.Machine
end

section
/-!
PROOFS. Checks and monitors (R338, R343, R344, R354, R359 to R364, R531): debug accesses, the comparisons and scrubs of the Keeper,
the clock monitors, and the monitors of the Lamp Room.
-/
namespace Sys2Proof.Machine

/-! ## Debug accesses (R343, R344) -/

theorem exec_dbgAccess (kind target addr len : Nat) (write : Bool) (data : List Byte) (s : State) :
    exec (.dbgAccess kind target addr len write data) s = .next (s.withChip (s.chip.dbgAccess kind target addr len write data)) := rfl

/-- R343: where both copies of the sectors give the same matches, no more than one, these decide. -/
theorem Chip.dbgAccess_of_agree (c : Chip) {kind target addr len : Nat} {write : Bool} (data : List Byte) {a : Access}
    (ha : a = { kind, target, addr, read := !write, write, vsi := 0 }) (hr : c.busRuns .keeper = true) (hb : c.kpr.dbgResult ≠ 2)
    (hl : 1 ≤ len ∧ addr % 8 + len ≤ 8) (hone : (c.dbgHits false a).length ≤ 1)
    (hagree : c.dbgHits true a = c.dbgHits false a) :
    c.dbgAccess kind target addr len write data =
      if dbgAllowed c.dbgUnlocked write (c.dbgHits false a) then c.dbgIssue a len data
      else c.dbgDeny a ((c.dbgHits false a).map (·.idx)) true := by
  subst ha
  simp [Chip.dbgAccess, hr, hb, hl, hagree, Nat.not_lt.mpr hone]

/-! ## Lockstep and the comparisons of the Keeper (R338, R360, R363) -/

theorem Chip.lockstep_of_running (c : Chip) (hp : c.pwr.pgood = true) (hr : c.pwr.resetLow = false) (hc : c.clocked 88 = true)
    (hk : c.kpr.halted = false) :
    c.lockstep = ((c.keeperReset 2).setBit Reg.SAF_EVENT Bit.SAF_EVENT_LOCKSTEP).moduleFog fogLockstep 88 := by
  simp [Chip.lockstep, hp, hr, hc, hk]

theorem exec_sectorBackgroundCompare (found : List Upset) (s : State) (hr : s.chip.busRuns .keeper = true) :
    exec (.sectorBackgroundCompare found) s = .next (s.withChip (s.chip.sectorCompare found)) :=
  congrArg (fun c => Host.Outcome.next (s.withChip c)) (if_pos hr)

theorem Chip.sectorCompare_of_same (c : Chip) (h : c.secDiff = []) : c.sectorCompare [] = c := by
  simp [Chip.sectorCompare, h]

/-- R338: a difference is recorded, and the module enters Fog with the sector that it lies in. -/
theorem Chip.sectorCompare_of_differ (c : Chip) {o : Nat} {rest : List Nat} (h : c.secDiff = o :: rest) : c.sectorCompare [] =
    ((c.setBit Reg.SEC_EVENT Bit.SEC_EVENT_COPY_MISMATCH).log .sectorMismatch [o]).moduleFog fogSectorCopy (sectorNo o) := by
  simp [Chip.sectorCompare, Chip.secDoubt, h]

theorem exec_scrubPass (found : List Upset) (t : Nat) (s : State) (hr : s.chip.busRuns .keeper = true)
    (hk : s.chip.keeperRuns = true) : exec (.scrubPass found t) s = .next (s.withChip (s.chip.scrub found t).relaySettle) :=
  congrArg (fun c => Host.Outcome.next (s.withChip c)) (if_pos (by simp [hr, hk]))

/-- R363: a pass over which nothing strikes treats the errors that stand and repairs the entries that differ. -/
theorem Chip.scrub_of_none_found (c : Chip) (t : Nat) : c.scrub [] t =
    let d := c.latent.foldl Chip.scrubOne c
    let d := if d.keeperRuns = true then (d.tabDiff (fun o => !isSectorOff o)).foldl Chip.repair d else d
    (d.satInc Reg.SCRUB_STATUS Bit.SCRUB_STATUS_PASSES).setFld Reg.SCRUB_STATUS Bit.SCRUB_STATUS_LAST_MS (min t 10) := by
  simp only [Chip.scrub, List.append_nil, List.foldl_nil]

/-- Where no entry in use carries an error, none stands. -/
theorem Chip.latent_of_clean (c : Chip) (hort : ∀ e ∈ c.pci.ort, e.ecc = 0) (hstreams : ∀ x ∈ c.mor.streams, x.ecc = 0)
    (hctxs : ∀ x ∈ c.mor.ctxs, x.ecc = 0) : c.latent = [] := by
  simpa [Chip.latent, List.filter_eq_nil_iff] using ⟨hort, hstreams, hctxs⟩

/-! ## Clock monitors (R361, R434) -/

theorem exec_clockLost (i : Nat) (s : State) : exec (.clockLost i) s = .next (s.withChip (s.chip.clockLost i).relaySettle) := rfl

theorem Chip.clockLost_quad (c : Chip) {i : Nat} (hr : c.busRuns .keeper = true) (hi : i < 64) : c.clockLost i = c.pllLost i := by
  have hlamp : i ≠ islLamp := by unfold islLamp; omega
  have hislands : ¬ 89 < i := by omega
  simp [Chip.clockLost, hlamp, hr, hislands, hi]

/-- R361: the loss is recorded, the forced switch ends what waits for the island, and the island's own action follows; an island
without a source stays on the IRO (R434). -/
theorem Chip.clockLost_island (c : Chip) {i : Nat} (hr : c.busRuns .keeper = true) (hlo : 64 ≤ i) (hhi : i ≤ 88)
    (hk : c.keeperRuns = true ∨ i = 88) : c.clockLost i =
    ((((((((c.setBit Reg.SAF_EVENT Bit.SAF_EVENT_CLOCK_LOSS).monBit i).setBit Reg.CLK_EVENT
      Bit.CLK_EVENT_FORCED_SWITCH).gateLog i true).abortHeld (fun off => clockIsland off == some i)).abortBars i).log .clockLost
        [i]).clockAct i).leftOnIro i := by
  have hlamp : i ≠ islLamp := by unfold islLamp; omega
  have hislands : ¬ 89 < i := by omega
  have hquad : ¬ i < 64 := by omega
  have hseen : (!c.keeperRuns && i != 88) = false := by
    obtain h | h := hk <;> simp [h]
  simp only [Chip.clockLost, hlamp, hr, hislands, hquad, hseen, Bool.not_true, decide_false, Bool.or_self, Bool.false_eq_true, if_false]

/-! ## Power doubt and loss of the feeds (R362, R364) -/

theorem State.keepErased_feeds (s : State) : s.keepErased.chip.feeds = s.chip.feeds := by
  unfold State.keepErased
  dsimp only
  split
  · rfl
  · rfl

/-- A Keep write changes the log and its timers alone. -/
theorem State.keepWrite_feeds (s : State) (trigger : Nat) : (s.keepWrite trigger).chip.feeds = s.chip.feeds := by
  have htel : ∀ x : Tel, ({ s.chip with tel := x } : Chip).feeds = s.chip.feeds := fun _ => rfl
  unfold State.keepWrite
  extract_lets c seq pend rest recs bytes k t t' c₁ c₂ u
  split
  · rfl
  · calc (u.chip.setFld Reg.LOG_STATUS Bit.LOG_STATUS_FW_FREE (480 - u.chip.tel.fwUsed)).feeds
      _ = u.chip.feeds := Chip.setFld_feeds _ _ _ (by decide)
      _ = c₂.feeds := State.keepErased_feeds _
      _ = c₁.feeds := Chip.foldl_feeds (fun d n => d.arm_feeds (.keep n) 0) _ _
      _ = s.chip.feeds := htel t'

section Standby
variable (c : Chip)

@[simp] theorem Chip.log_pwr (code : LogCode) (key det : List Nat) : (c.log code key det).pwr = c.pwr :=
  Chip.pwr_of_feeds (c.log_feeds code key det)

@[simp] theorem Chip.raiseIbi_pwr (ep : Nat) (payload : List Nat) : (c.raiseIbi ep payload).pwr = c.pwr :=
  Chip.pwr_of_feeds (c.raiseIbi_feeds ep payload)

/-- An access that ends at its crossing changes the clock block and what leaves the module. -/
theorem Chip.abortHeld_pwr (sel : Nat → Bool) : (c.abortHeld sel).pwr = c.pwr := by
  unfold Chip.abortHeld
  dsimp only
  split
  · rfl
  · refine List.foldlRecOn (motive := fun d : Chip => d.pwr = c.pwr) _ _ rfl fun d hd h _ => ?_
    split
    all_goals exact hd

/-- The Lamp Room runs from the standby converter: it stands while the islands behind the regulators lose their state. -/
theorem Chip.islandsOff_standby : c.islandsOff.pwr.standby = c.pwr.standby := by
  unfold Chip.islandsOff
  extract_lets d down drove w tel n n'
  have hn : n.pwr.standby = c.pwr.standby := (congrArg Pwr.standby (c.abortHeld_pwr fun _ => true) :)
  have hn' : n'.pwr.standby = n.pwr.standby := by
    unfold n'
    split
    · rfl
    · rfl
  exact List.foldlRecOn (motive := fun e : Chip => e.pwr.standby = c.pwr.standby) _ _ (hn'.trans hn) fun _ he _ _ => he

theorem Chip.fetOpen_standby : c.fetOpen.pwr.standby = c.pwr.standby := by
  unfold Chip.fetOpen
  dsimp only
  split
  · exact Chip.islandsOff_standby _
  · rfl

theorem Chip.tripLoad_standby (cause point ma : Nat) : (c.tripLoad cause point ma).pwr.standby = c.pwr.standby := by
  unfold Chip.tripLoad
  rw [Chip.log_pwr, Chip.fetOpen_standby]
  rfl

theorem Chip.latchOff_pwr (cause : Nat) : (c.latchOff cause).pwr = c.pwr := by
  simp [Chip.latchOff]

end Standby

/-- What a chip in power doubt holds as the module has entered Fog. -/
def Chip.doubtFog (c : Chip) : Chip :=
  (((c.setBit Reg.SAF_EVENT Bit.SAF_EVENT_POWER_DOUBT).setBit Reg.SAF_STATUS Bit.SAF_STATUS_POWER_DOUBT).log .powerDoubt
    []).moduleFog fogPowerDoubt 0

/-- Neither the Fog of power doubt nor its record touches the measured currents, so the trip records those of before. -/
theorem Chip.doubtFog_feeds (c : Chip) : c.doubtFog.feeds = c.feeds := by
  simp +decide [Chip.doubtFog]

section PowerDoubt
variable (s : State)

theorem exec_powerDoubt : exec .powerDoubt s = .next s.powerDoubt := rfl

theorem State.powerDoubt_of_lit (hs : s.chip.pwr.standby = true) (hl : s.chip.pwrState ≠ 2) : s.powerDoubt =
    let t := (s.withChip s.chip.doubtFog).keepWrite keepDoubt
    t.withChip ((t.chip.tripLoad tripDoubt 0 s.chip.railMa).latchOff tripDoubt) := by
  have hma : ((s.withChip s.chip.doubtFog).keepWrite keepDoubt).chip.railMa = s.chip.railMa :=
    Chip.railMa_of_feeds ((State.keepWrite_feeds _ keepDoubt).trans s.chip.doubtFog_feeds)
  rw [← hma]
  simp [State.powerDoubt, hs, hl, Chip.doubtFog, State.withChip]

theorem State.powerDoubt_of_dark (hs : s.chip.pwr.standby = true) (hd : s.chip.pwrState = 2) : s.powerDoubt =
    s.withChip ((s.chip.doubtFog.tripLoad tripDoubt 0 s.chip.railMa).latchOff tripDoubt) := by
  rw [← Chip.railMa_of_feeds s.chip.doubtFog_feeds]
  simp [State.powerDoubt, hs, hd, Chip.doubtFog, State.withChip]

/-- R362: power doubt opens the FET; the standby converter runs on. -/
theorem State.powerDoubt_standby (hs : s.chip.pwr.standby = true) : s.powerDoubt.chip.pwr.standby = true := by
  have hfog : s.chip.doubtFog.pwr.standby = true := (congrArg Pwr.standby (Chip.pwr_of_feeds s.chip.doubtFog_feeds)).trans hs
  have hkeep : ((s.withChip s.chip.doubtFog).keepWrite keepDoubt).chip.pwr.standby = true :=
    (congrArg Pwr.standby (Chip.pwr_of_feeds (State.keepWrite_feeds _ keepDoubt))).trans hfog
  by_cases hd : s.chip.pwrState = 2
  · rw [s.powerDoubt_of_dark hs hd]
    simp [Chip.latchOff_pwr, Chip.tripLoad_standby, hfog]
  · rw [s.powerDoubt_of_lit hs hd]
    simp [Chip.latchOff_pwr, Chip.tripLoad_standby, hkeep]

end PowerDoubt

theorem exec_feedLoss (s : State) : exec .feedLoss s = .next s.feedLoss := rfl

theorem State.feedLoss_of_lit (s : State) (hs : s.chip.pwr.standby = true) (hl : s.chip.feedsLow = true) (hp : s.chip.pwrState ≠ 2) :
    s.feedLoss = (s.withChip ((s.chip.log .feedLoss []).moduleFog fogFeedLoss 0)).keepWrite keepFeedLoss := by
  simp [State.feedLoss, hs, hl, hp, State.withChip]

/-! ## The comparators' self-test (R364) -/

section Selftest
variable (s : State) (hs : s.chip.pwr.standby = true)

theorem exec_comparatorSelftest (failed : List Nat) : exec (.comparatorSelftest failed) s = .next (s.selftest failed) := rfl

/-- The cause SELFTEST no longer stands. -/
def State.selftestPassed (s : State) : State :=
  s.withChip { s.chip with saf := { s.chip.saf with standing := s.chip.saf.standing.erase fogSelftest } }

/-- The inlet comparator did not change: it is recorded, and the module enters Fog. -/
def State.inletFailed (s : State) : State :=
  s.withChip (((s.chip.setBit Reg.SAF_EVENT Bit.SAF_EVENT_SELFTEST_FAIL).log .selftestFail [3]).moduleFog fogSelftest 3)

include hs

theorem State.selftest_nil : s.selftest [] = s.selftestPassed := by
  simp [State.selftest, State.selftestPassed, State.withChip, hs]

theorem State.selftest_inlet : s.selftest [3] = s.inletFailed := by
  simp [State.selftest, State.inletFailed, State.withChip, hs]

/-- A failed comparator of a feed or of the FET is power doubt. -/
theorem State.selftest_doubt {k : Nat} (hk : k < 3) : s.selftest [k] = s.powerDoubt.selftestPassed := by
  have hdoubt : (0 = k ∨ 1 = k) ∨ 2 = k := by omega
  have hinlet : 3 ≠ k := by omega
  simp [State.selftest, State.selftestPassed, State.withChip, hs, hdoubt, hinlet]

theorem State.selftest_doubt_inlet {k : Nat} (hk : k < 3) : s.selftest [k, 3] = s.powerDoubt.inletFailed := by
  have hdoubt : (0 = k ∨ 1 = k) ∨ 2 = k := by omega
  simp [State.selftest, State.inletFailed, State.withChip, hs, hdoubt]

end Selftest

/-! ## FOG_N and the temperature (R354, R531) -/

theorem Chip.stuckFogN_of_pulled (c : Chip) (hs : c.pwr.standby = true) (hp : c.saf.keeperPull = true ∨ c.saf.lampPull = true) :
    c.stuckFogN = (((({ c with saf := { c.saf with pinHigh := true, pinOutside := false } } : Chip).setBit Reg.SAF_STATUS
      Bit.SAF_STATUS_FOG_N_SENSE).setBit Reg.SAF_EVENT Bit.SAF_EVENT_FOG_N_STUCK).log .fogNStuck []).moduleFog
        Sys2Proof.Machine.fogNStuck 0 := by
  simp [Chip.stuckFogN, hs, hp]

section Thermal
variable (c : Chip) {j : Int} (hk : c.keeperRuns = true) (hp : c.pwrState ≠ 2) (hlo : 10500 < j)

theorem exec_thermalSample (inlet a b : Int) (w : Nat) (s : State) (hj : j ≤ 12500) :
    exec (.thermalSample j inlet a b w) s = .next (s.withChip (s.chip.thermalSample j inlet a b w)) := if_neg (Int.not_lt.mpr hj)

theorem exec_thermalFog (s : State) (hj : j ≤ 12500) : exec (.thermalFog j) s = .next (s.withChip (s.chip.thermalFog j)) :=
  if_neg (Int.not_lt.mpr hj)

include hk hp hlo

/-- R531: a junction above the limit is sampled and warned of, and its Fog stands. -/
theorem Chip.thermalSample_of_hot (inlet a b : Int) (w : Nat) : c.thermalSample j inlet a b w =
    let d := (((c.sample 0 j).sample 1 inlet).sample 2 a).sample 3 b
    (((d.sample 4 w).sample 6 (d.dieGran * 10000 / 1048576 : Nat)).sample 7 d.ortPct).log .thermWarn [0] [j.toNat] := by
  have hwarn : 10000 < j := by omega
  simp [Chip.thermalSample, hk, hp, hwarn, Int.not_le.mpr hlo]

theorem Chip.thermalFog_of_hot : c.thermalFog j = (List.range 16).foldl (fun c n => c.oppStart n 2)
    (((({ c with saf := { c.saf with standing := fogThermal :: c.saf.standing.erase fogThermal } } : Chip).setBit Reg.SAF_EVENT
      Bit.SAF_EVENT_THERMAL).log .thermal [j.toNat]).moduleFog fogThermal 0) := by
  simp [Chip.thermalFog, hk, hp, Int.not_le.mpr hlo]

end Thermal

/-- Settles O50: each check and monitor by the case that its conditions select; the trip of power doubt records the currents of
before, for the Fog and the Keep write leave them, and the standby converter runs on for the next failure of the same test. That
a lockstep mismatch resets the Keeper before the module enters Fog is the model's choice (log 94). -/
theorem monitorsAct : Obligations.MonitorsAct := by
  refine ⟨fun s kind target addr len write data a ha hr hb h1 h8 hone hagree => ?_, fun s hp hr hc hk => ?_,
    fun s hr => ⟨fun h => ?_, fun o rest h => ?_⟩, fun s t hr hk => ⟨?_, fun h₁ h₂ h₃ => s.chip.latent_of_clean h₁ h₂ h₃⟩,
    fun s i hr => ⟨fun hi => ?_, fun hlo hhi hk => ?_⟩, fun s u hs hu => ⟨fun hl => ?_, fun hd => ?_⟩, fun s hs hl hp => ?_,
    fun s hs => ⟨?_, ?_, fun k t hk ht => ?_, fun k t u hk ht hu => ?_⟩, fun s hs hp => ?_, fun s j inlet a b w hk hp hlo hhi => ?_,
    fun s j hk hp hlo hhi => ?_⟩
  · rw [exec_dbgAccess, s.chip.dbgAccess_of_agree data ha hr hb ⟨h1, h8⟩ hone hagree]
  · exact congrArg (fun c => Host.Outcome.next (s.withChip c)) (s.chip.lockstep_of_running hp hr hc hk)
  · rw [exec_sectorBackgroundCompare [] s hr, s.chip.sectorCompare_of_same h, State.withChip_self]
  · rw [exec_sectorBackgroundCompare [] s hr, s.chip.sectorCompare_of_differ h]
  · rw [exec_scrubPass [] t s hr hk, s.chip.scrub_of_none_found t]
  · rw [exec_clockLost, s.chip.clockLost_quad hr hi]
  · rw [exec_clockLost, s.chip.clockLost_island hr hlo hhi hk]
    rfl
  · subst hu
    rw [exec_powerDoubt, s.powerDoubt_of_lit hs hl]
    rfl
  · subst hu
    rw [exec_powerDoubt, s.powerDoubt_of_dark hs hd]
    rfl
  · rw [exec_feedLoss, s.feedLoss_of_lit hs hl hp]
  · rw [exec_comparatorSelftest, s.selftest_nil hs, State.selftestPassed]
  · rw [exec_comparatorSelftest, s.selftest_inlet hs, State.inletFailed]
  · cases ht
    rw [exec_comparatorSelftest, s.selftest_doubt hs hk, State.selftestPassed]
  · cases ht
    rw [exec_comparatorSelftest, State.selftest_inlet _ (s.powerDoubt_standby hs)] at hu
    rw [exec_comparatorSelftest, s.selftest_doubt_inlet hs hk, hu]
  · exact congrArg (fun c => Host.Outcome.next (s.withChip c)) (s.chip.stuckFogN_of_pulled hs hp)
  · rw [exec_thermalSample inlet a b w s hhi, s.chip.thermalSample_of_hot hk hp hlo inlet a b w]
  · rw [exec_thermalFog s hhi, s.chip.thermalFog_of_hot hk hp hlo]

end Sys2Proof.Machine
end

section
/-!
PROOFS. What the commands leave in the flash and in the queue (chapter 13, R373, R374, R509, R510): the commands that touch the
chip alone, and those that program or erase flash by a rule.
-/
namespace Sys2Proof.Machine

/-! ## Two relations between the states before and after -/

/-- The chip alone may differ. -/
structure State.SameMemory (s t : State) : Prop where
  pending : t.pending = s.pending
  flash : t.flash = s.flash

/-- The queue stands, and flash in its canonical form stays in it. -/
structure State.Programs (s t : State) : Prop where
  pending : t.pending = s.pending
  canonical : Memory.wf s.flash = true → Memory.wf t.flash = true

section Relations
variable {s t u : State}

theorem State.SameMemory.refl (s : State) : s.SameMemory s := ⟨rfl, rfl⟩

theorem State.SameMemory.trans (h : s.SameMemory t) (h' : t.SameMemory u) : s.SameMemory u :=
  ⟨h'.pending.trans h.pending, h'.flash.trans h.flash⟩

/-- A step that starts on another chip. -/
theorem State.SameMemory.ofChip {c : Chip} (h : State.SameMemory { s with chip := c } t) : s.SameMemory t := ⟨h.pending, h.flash⟩

/-- A step that leaves another chip. -/
theorem State.sameMemory_chip (s : State) (c : Chip) : s.SameMemory { s with chip := c } := ⟨rfl, rfl⟩

theorem State.SameMemory.programs (h : s.SameMemory t) : s.Programs t := ⟨h.pending, fun hw => h.flash ▸ hw⟩

theorem State.Programs.refl (s : State) : s.Programs s := (State.SameMemory.refl s).programs

theorem State.programs_chip (s : State) (c : Chip) : s.Programs { s with chip := c } := (s.sameMemory_chip c).programs

theorem State.Programs.trans (h : s.Programs t) (h' : t.Programs u) : s.Programs u :=
  ⟨h'.pending.trans h.pending, fun hw => h'.canonical (h.canonical hw)⟩

/-- The chip may change besides. -/
theorem State.Programs.chip (h : s.Programs t) (c : Chip) : s.Programs { t with chip := c } := h.trans (t.programs_chip c)

/-- Bytes are programmed; the chip may change besides. -/
theorem State.Programs.program (s : State) (c : Chip) (a : Nat) (bs : List Byte) :
    s.Programs { s with chip := c, flash := Flash.program s.flash a bs } := ⟨rfl, Flash.program_wf bs _ a⟩

/-- A range is erased; the chip may change besides. -/
theorem State.Programs.erase (s : State) (c : Chip) (a n : Nat) :
    s.Programs { s with chip := c, flash := Flash.erase s.flash a n } := ⟨rfl, Flash.erase_wf _ a n⟩

/-- A range is erased and then programmed; the chip may change besides. -/
theorem State.Programs.rewrite (s : State) (c : Chip) (a n b : Nat) (bs : List Byte) :
    s.Programs { s with chip := c, flash := Flash.program (Flash.erase s.flash a n) b bs } :=
  (State.Programs.erase s c a n).trans (.program { s with chip := c, flash := Flash.erase s.flash a n } c b bs)

theorem State.Programs.ofChip {c : Chip} (h : State.Programs { s with chip := c } t) : s.Programs t := ⟨h.pending, h.canonical⟩

/-- A sequence of steps keeps what each of them keeps. -/
theorem State.SameMemory.foldl {α : Type} {f : State → α → State} (h : ∀ (s : State) (x : α), s.SameMemory (f s x)) (l : List α) (s : State) :
    s.SameMemory (l.foldl f s) :=
  List.foldlRecOn (motive := s.SameMemory) l f (.refl s) fun t ht x _ => ht.trans (h t x)

theorem State.Programs.foldl {α : Type} {f : State → α → State} (h : ∀ (s : State) (x : α), s.Programs (f s x)) (l : List α) (s : State) :
    s.Programs (l.foldl f s) :=
  List.foldlRecOn (motive := s.Programs) l f (.refl s) fun t ht x _ => ht.trans (h t x)

end Relations

/-! ## Commands that reach the register bus, the Lamp Room's endpoint or a BAR -/

section Chip
variable (s : State)

theorem State.sameMemory_writeReg (ag : Agent) (off : Nat) (w : Word) : s.SameMemory (s.writeReg ag off w) := s.sameMemory_chip _

theorem State.sameMemory_regWrites (k : Nat) (data : List Nat) : ∀ (s : State) (off : Nat),
    s.SameMemory (s.regWrites k off data) := by
  induction data with
  | nil => exact fun s _ => .refl s
  | cons d ds ih => exact fun s off => (s.sameMemory_writeReg ..).trans (ih _ (off + 4))

theorem State.sameMemory_regReadMsg (k off count : Nat) : s.SameMemory (s.regReadMsg k off count) := by
  unfold State.regReadMsg
  split
  · exact .refl s
  · split
    · exact s.sameMemory_chip _
    · exact s.sameMemory_chip _

theorem State.sameMemory_regWriteMsg (k off : Nat) (data : List Nat) : s.SameMemory (s.regWriteMsg k off data) := by
  unfold State.regWriteMsg
  split
  · exact .refl s
  · split
    · exact s.sameMemory_chip _
    · exact (State.sameMemory_regWrites k data s off).trans (State.sameMemory_chip ..)

/-- A held access that ends acts as it would have at once. -/
theorem State.sameMemory_serveOne (h : HeldAccess) : s.SameMemory (s.serveOne h) := by
  unfold State.serveOne
  split
  · exact s.sameMemory_chip _
  · split
    · exact s.sameMemory_chip _
    · exact s.sameMemory_writeReg ..
    · exact s.sameMemory_regReadMsg ..
    · exact s.sameMemory_regWriteMsg ..
    · exact s.sameMemory_chip _

/-- The accesses that waited for an island are served, whatever the chip that they meet. -/
theorem State.sameMemory_serveHeld (c : Chip) : s.SameMemory ({ s with chip := c } : State).serveHeld :=
  State.SameMemory.ofChip (.foldl State.sameMemory_serveOne _ _)

theorem State.sameMemory_lampCommand (count : Nat) (ps : List Nat) (pec : Bool) {act : State → State}
    (h : s.SameMemory (act s)) : s.SameMemory (s.lampCommand count ps pec act) := by
  unfold State.lampCommand
  split
  · exact .refl s
  · split
    · exact s.sameMemory_chip _
    · split
      · exact s.sameMemory_chip _
      · exact h

theorem State.sameMemory_regsAccess (r : Rx) (v off : Nat) : s.SameMemory (s.regsAccess r v off) := by
  unfold State.regsAccess
  dsimp only
  split
  · split
    · exact s.sameMemory_chip _
    · exact s.sameMemory_chip _
  · split
    · exact s.sameMemory_chip _
    · exact s.sameMemory_chip _

theorem State.sameMemory_barServe (r : Rx) (v : Nat) (h : BarHit) : s.SameMemory (s.barServe r v h) := by
  unfold State.barServe
  split
  · exact s.sameMemory_chip _
  · split
    · exact s.sameMemory_regsAccess ..
    · exact s.sameMemory_chip _
    · exact s.sameMemory_chip _

theorem State.sameMemory_tlpArrived (p : Nat) : s.SameMemory (s.tlpArrived p) := by
  unfold State.tlpArrived
  split
  · split
    · exact .refl s
    · exact State.SameMemory.ofChip (State.sameMemory_barServe _ ..)
  · exact s.sameMemory_chip _

end Chip

/-! ## SPDM (R389) -/

section Spdm
variable (s : State)

theorem State.programs_putCert (chain : List Byte) : s.Programs (s.putCert chain).1 := by
  unfold State.putCert
  split
  · exact .refl s
  · split
    · exact .rewrite s s.chip ..
    · exact .refl s

/-- SET_CERTIFICATE alone touches the flash. -/
theorem State.spdmAnswer_memory (via who : Nat) (r : SpdmReq) :
    s.SameMemory (s.spdmAnswer via who r).1 ∨ ∃ slot chain, r = .setCertificate slot chain ∧ s.Programs (s.spdmAnswer via who r).1 := by
  cases r with
  | setCertificate slot chain =>
    refine .inr ⟨slot, chain, rfl, ?_⟩
    unfold State.spdmAnswer
    dsimp only
    split
    · exact .refl s
    · split
      · exact .refl s
      · split
        · exact .refl s
        · split
          · exact s.programs_putCert chain
          · exact s.programs_putCert chain
  | getVersion => exact .inl (s.sameMemory_chip _)
  | getMeasurements i sign =>
    refine .inl ?_
    unfold State.spdmAnswer
    dsimp only
    repeat' split
    all_goals exact s.sameMemory_chip _
  | _ =>
    refine .inl ?_
    simp only [State.spdmAnswer]
    repeat' split
    all_goals exact s.sameMemory_chip _

theorem State.spdmRequest_memory (via who : Nat) (r : SpdmReq) :
    s.SameMemory (s.spdmRequest via who r) ∨ ∃ slot chain, r = .setCertificate slot chain ∧ s.Programs (s.spdmRequest via who r) := by
  unfold State.spdmRequest
  extract_lets c reach
  split
  · exact .inl (.refl s)
  · split
    · exact .inl (s.sameMemory_chip _)
    · obtain h | ⟨slot, chain, hr, h⟩ := s.spdmAnswer_memory via who r
      · exact .inl (h.trans (State.sameMemory_chip ..))
      · exact .inr ⟨slot, chain, hr, h.chip _⟩

end Spdm

/-! ## The Keeper's Log in flash (R388, R509, R510), and the monitors that write it -/

section Log
variable (s : State)

theorem State.programs_keepPut (k : Nat) (r : LogRec) : s.Programs (s.keepPut k r) := .program s ..

theorem State.programs_keepProgram : s.Programs s.keepProgram := by
  unfold State.keepProgram
  split
  · exact .refl s
  · split
    · split
      · exact s.programs_keepPut ..
      · exact .refl s
    · exact .refl s

theorem State.programs_keepErased : s.Programs s.keepErased := by
  unfold State.keepErased
  dsimp only
  split
  · exact .erase s ..
  · exact .refl s

theorem State.programs_keepWrite (trigger : Nat) : s.Programs (s.keepWrite trigger) := by
  unfold State.keepWrite
  dsimp only
  split
  · exact .refl s
  · exact ((State.Programs.program s ..).trans (State.programs_keepErased _)).chip _

theorem State.programs_keepRecover : s.Programs s.keepRecover := by
  unfold State.keepRecover
  refine (State.Programs.foldl (fun t e => ?_) _ s).chip _
  split
  · exact (t.programs_keepPut e.1 e.2).chip _
  · exact .refl t

theorem State.programs_warnUpdate (trigger : Nat) : s.Programs (s.warnUpdate trigger) := by
  unfold State.warnUpdate
  dsimp only
  split
  · exact .refl s
  · exact State.Programs.ofChip (State.programs_keepWrite _ trigger)

theorem State.programs_warnFalls (c : Chip) (was : Bool) : s.Programs (({ s with chip := c } : State).warnFalls was) := by
  unfold State.warnFalls
  split
  · exact s.programs_chip _
  · exact State.Programs.ofChip (State.programs_warnUpdate _ _)

theorem State.programs_powerDoubt : s.Programs s.powerDoubt := by
  unfold State.powerDoubt
  dsimp only
  split
  · exact .refl s
  · split
    · exact s.programs_chip _
    · exact State.Programs.chip (State.Programs.ofChip (State.programs_keepWrite _ _)) _

theorem State.programs_feedLoss : s.Programs s.feedLoss := by
  unfold State.feedLoss
  dsimp only
  split
  · exact .refl s
  · exact State.Programs.ofChip (State.programs_keepWrite _ _)

theorem State.programs_selftest (failed : List Nat) : s.Programs (s.selftest failed) := by
  unfold State.selftest
  split
  · exact .refl s
  · extract_lets t
    have ht : s.Programs t := by
      unfold t
      split
      · exact s.programs_powerDoubt
      · exact .refl s
    split
    · exact ht.chip _
    · exact ht.chip _

theorem State.programs_mateLost : s.Programs s.mateLost := by
  unfold State.mateLost
  split
  · exact State.Programs.ofChip (State.programs_keepWrite _ _)
  · exact .refl s

end Log

/-! ## Image commands and certificates (R385, R389) -/

section Images
variable (s : State)

theorem State.programs_imageBegin (kind len : Nat) : s.Programs (s.imageBegin kind len).1 := by
  unfold State.imageBegin
  split
  · exact .refl s
  · split
    · exact .refl s
    · exact .erase s ..

theorem State.programs_imageWrite (mctp : Bool) (kind off len addr : Nat) (data : List Byte) :
    s.Programs (s.imageWrite mctp kind off len addr data).1 := by
  unfold State.imageWrite
  split
  · exact .refl s
  · split
    · exact .refl s
    · dsimp only
      split
      · exact .program s ..
      · exact s.programs_chip _

theorem State.programs_imageVerify (kind : Nat) : s.Programs (s.imageVerify kind).1 := by
  unfold State.imageVerify
  dsimp only
  repeat' split
  all_goals exact s.programs_chip _

theorem State.programs_imageCommit (mask : Nat) : s.Programs (s.imageCommit mask).1 := by
  unfold State.imageCommit
  dsimp only
  split
  · exact .refl s
  · exact .rewrite s ..

theorem State.programs_setCert (addr len : Nat) (cert : List Byte) : s.Programs (s.setCert addr len cert).1 := by
  unfold State.setCert
  split
  · exact .refl s
  · dsimp only
    split
    · exact s.programs_chip _
    · split
      · exact State.Programs.ofChip (State.programs_putCert _ _)
      · exact State.Programs.ofChip (State.programs_putCert _ _)

end Images

/-! ## The Keeper's commands (R380 to R387) and its boot -/

section Commands
variable (s : State)

/-- The action of a command. -/
theorem State.programs_runK (h : KHead) (k : KCmd) : s.Programs (s.runK h k).1 := by
  cases k with
  | imageBegin kind len => exact s.programs_imageBegin kind len
  | imageWrite kind off len addr data => exact s.programs_imageWrite h.mctp kind off len addr data
  | imageVerify kind => exact s.programs_imageVerify kind
  | imageCommit mask => exact s.programs_imageCommit mask
  | setCert addr len cert => exact s.programs_setCert addr len cert
  | _ => exact s.programs_chip _

theorem State.programs_endK (h : KHead) (k : KCmd) (a : KAns) : s.Programs (s.endK h k a) := s.programs_chip _

theorem State.programs_startK (h : KHead) (k : KCmd) : s.Programs (s.startK h k) := by
  unfold State.startK
  dsimp only
  split
  · exact (s.programs_runK h k).trans (State.programs_chip ..)
  · exact (s.programs_runK h k).chip _

theorem State.programs_drainK (n : Nat) : ∀ s : State, s.Programs (s.drainK n) := by
  induction n with
  | zero => exact .refl
  | succ n ih =>
    intro s
    unfold State.drainK
    split
    · exact .refl s
    · split
      · exact .refl s
      · exact State.Programs.ofChip ((State.programs_startK _ _ _).trans (ih _))

theorem State.programs_submitK (h : KHead) (k : KCmd) : s.Programs (s.submitK h k) := by
  unfold State.submitK
  split
  · exact s.programs_chip _
  · exact s.programs_startK h k

theorem State.programs_completeK (a : KAns) : s.Programs (s.completeK a) := by
  unfold State.completeK
  split
  · next h k _ => exact (s.programs_endK h k a).trans (State.programs_drainK _ _)
  · exact .refl s

theorem State.programs_command (h : KHead) (k : KCmd) : s.Programs (s.command h k) := by
  unfold State.command
  split
  · exact s.programs_submitK h k
  · exact .refl s

theorem State.programs_retryK (r : Chip × Option KAns) : s.Programs (s.retryK r) := by
  unfold State.retryK
  split
  · exact State.Programs.ofChip (State.programs_completeK _ _)
  · exact .refl s

theorem State.programs_pumpK : s.Programs s.pumpK := by
  unfold State.pumpK
  split
  · split
    · exact s.programs_retryK _
    · exact .refl s
  · exact s.programs_retryK _
  · split
    · exact s.programs_completeK _
    · exact .refl s
  · split
    · exact s.programs_completeK _
    · exact .refl s
  · exact s.programs_retryK _
  · exact .refl s

theorem State.programs_fetchK (entry : Option (List Byte)) (bars : List (Nat × Nat × Nat)) (fn : FnInfo) (data : List Byte) :
    s.Programs (s.fetchK entry bars fn data) := by
  unfold State.fetchK
  dsimp only
  split
  · exact .refl s
  · split
    · exact s.programs_chip _
    · exact State.Programs.ofChip (State.programs_submitK _ _ _)

theorem State.programs_mctpCommand (entry data : List Byte) : s.Programs (s.mctpCommand entry data) := by
  unfold State.mctpCommand
  dsimp only
  split
  · exact .refl s
  · exact s.programs_submitK _ _

theorem State.programs_probeRetry (v vbr devfn : Nat) : s.Programs (s.probeRetry v vbr devfn) := by
  unfold State.probeRetry
  extract_lets gone r t
  have ht : s.Programs t := s.programs_chip _
  split
  · split
    · split
      · exact ht.trans (t.programs_completeK _)
      · split
        · exact ht.trans (t.programs_completeK _)
        · exact ht
    · exact ht
  · exact ht

theorem State.programs_keeperBoot (o : BootOutcome) : s.Programs (s.keeperBoot o) := by
  have hrun : ∀ c : Chip, s.Programs ({ s with chip := c } : State).keepRecover := fun _ => .ofChip (State.programs_keepRecover _)
  unfold State.keeperBoot
  generalize s.bootSlot = fw
  generalize s.bootLl = ll
  split
  · exact .refl s
  · split
    · exact s.programs_chip _
    · obtain _ | ⟨slot, fell⟩ := fw
      · exact s.programs_chip _
      · obtain _ | ⟨slot', fell'⟩ := ll
        · exact s.programs_chip _
        · dsimp only
          split
          · exact (hrun _).trans (State.programs_selftest _ _)
          · exact hrun _

end Commands

/-! ## Every command -/

section Exec
variable {s t u : State}

theorem State.SameMemory.of_next (h : Host.Outcome.next (φ := Fault) (ρ := Refusal) u = .next t) (hu : s.SameMemory u) :
    s.SameMemory t := Host.Outcome.next.inj h ▸ hu

theorem State.Programs.of_next (h : Host.Outcome.next (φ := Fault) (ρ := Refusal) u = .next t) (hu : s.Programs u) :
    s.Programs t := Host.Outcome.next.inj h ▸ hu

/-- A command with a measurement beyond the absolute maximum ratings does not complete. -/
theorem State.SameMemory.of_rated {p : Prop} [Decidable p] {f : Fault}
    (h : (if p then Host.Outcome.fault f else Host.Outcome.next (ρ := Refusal) u) = .next t) (hu : s.SameMemory u) :
    s.SameMemory t := by
  split at h
  · exact nomatch h
  · exact .of_next h hu

/-- Everything that a command can do to the flash and the queue: nothing, or to program or erase flash, where it is one of the
commands that do so by a rule. -/
theorem exec_memory (i : Instr) (h : exec i s = .next t) : s.SameMemory t ∨ (i.mayProgram = true ∧ s.Programs t) := by
  cases i with
  | nop | bind | bindPeer | unbind | setProxy | setVbrCount | queryBind | sliceGrant | sliceRevoke | imageBegin | imageWrite
  | imageVerify | imageCommit | imageActivate | imageAccept | imageAbort | opKeyEnroll | keyRevoke | setCert =>
    exact .inr ⟨rfl, .of_next h (s.programs_command ..)⟩
  | keeperCommandFetch => exact .inr ⟨rfl, .of_next h (s.programs_pumpK.trans (State.programs_fetchK _ ..))⟩
  | mctpCommandReceived => exact .inr ⟨rfl, .of_next h (s.programs_mctpCommand ..)⟩
  | flrQuiesceDone | quiesceTimeout =>
    exact .inr ⟨rfl, .of_next h (State.Programs.ofChip (State.programs_pumpK _))⟩
  | bindProbeRetry => exact .inr ⟨rfl, .of_next h (s.programs_probeRetry ..)⟩
  | keeperBoot => exact .inr ⟨rfl, .of_next h (s.programs_keeperBoot _)⟩
  | keepAreaProgram => exact .inr ⟨rfl, .of_next h s.programs_keepProgram⟩
  | mateLost => exact .inr ⟨rfl, .of_next h s.programs_mateLost⟩
  | reverseCurrent f =>
    refine .inr ⟨rfl, .of_next h ?_⟩
    split
    · exact s.programs_warnFalls ..
    · exact .refl s
  | feedBelowWarning f =>
    refine .inr ⟨rfl, .of_next h ?_⟩
    split
    · split
      · exact s.programs_warnFalls ..
      · exact s.programs_chip _
    · exact .refl s
  | powerDoubt => exact .inr ⟨rfl, .of_next h s.programs_powerDoubt⟩
  | feedLoss => exact .inr ⟨rfl, .of_next h s.programs_feedLoss⟩
  | comparatorSelftest => exact .inr ⟨rfl, .of_next h (s.programs_selftest _)⟩
  | spdmRequest via who r =>
    obtain hs | ⟨slot, chain, rfl, hs⟩ := s.spdmRequest_memory via who r
    · exact .inl (.of_next h hs)
    · exact .inr ⟨rfl, .of_next h hs⟩
  | pcieTlpReceived => exact .inl (.of_next h (s.sameMemory_tlpArrived _))
  | regRead => exact .inl (.of_next h (s.sameMemory_regReadMsg ..))
  | regWrite => exact .inl (.of_next h (s.sameMemory_regWriteMsg ..))
  | stationStarted | stationResetResume | crystalQualified | crystalQualifyTimeout | refclkQualified =>
    exact .inl (.of_next h (s.sameMemory_serveHeld _))
  | lrStatus | lrPweRead | lrPweWrite | lrPower =>
    exact .inl (.of_next h (s.sameMemory_lampCommand _ _ _ (s.sameMemory_chip _)))
  | ovTrip | thermalSample | thermalFog => exact .inl (.of_rated h (s.sameMemory_chip _))
  | _ => exact .inl (.of_next h (s.sameMemory_chip _))

theorem exec_programs (i : Instr) (h : exec i s = .next t) : s.Programs t :=
  (exec_memory i h).elim State.SameMemory.programs And.right

end Exec

end Sys2Proof.Machine

open Sys2Proof.Machine

/-- Settles O4: time passes, or the command at the front of the queue runs, and neither breaks the canonical form. -/
theorem flashStaysCanonical : Obligations.FlashStaysCanonical := by
  intro s t hs h
  unfold step at h
  split at h
  · cases h
    exact hs
  · exact (exec_programs _ h).canonical hs

/-- Settles O5 by what a command can do to the flash and the queue. -/
theorem commandsKeepTheQueueAndTheFlash : Obligations.CommandsKeepTheQueueAndTheFlash := by
  refine ⟨fun i s t h => (exec_programs i h).pending, fun i s t hi h => ?_⟩
  obtain hsame | ⟨hmay, -⟩ := exec_memory i h
  · exact hsame.flash
  · exact nomatch hi.symm.trans hmay
end

section
/-!
PROOFS. The step as such: the front of the queue, a clock cycle on an empty queue (R430, R505), the state after reset (R416), and
the only commands that stop (R521).
-/
namespace Sys2Proof.Machine

/-- Settles O1: a step takes the front off the queue and runs it. -/
theorem stepRunsFrontCommand : Obligations.StepRunsFrontCommand := by
  intro s i rest h
  simp only [step, h, State.popped]

/-! ## A clock cycle (R430, R431, R505) -/

section Tick
variable (c : Chip)

/-- The Watch after one cycle of the Lamp Room's clock. -/
def Chip.watchOn : Chip :=
  { c with
    watchUp := (c.watchUp + c.watchStep) % 2 ^ 64
    watchTime := ((c.watchTime + c.watchStep : Nat) + slewBy c.slew (passed c.watchUp c.watchStep us)).toNat % 2 ^ 64
    slew := c.slew - slewBy c.slew (passed c.watchUp c.watchStep us) }

theorem Chip.tick_of_standby (h : c.pwr.standby = true) : c.tick = (c.watchOn.hoursPass c.watchStep).settleAll := by
  simp only [Chip.tick, h, Bool.not_true, Bool.false_eq_true, if_false]
  rfl

theorem Chip.tick_of_off (h : c.pwr.standby = false) : c.tick = c := by
  simp [Chip.tick, h]

/-- A Watch that is not slewed advances by the cycle alone. -/
theorem Chip.watchOn_steady (h : c.slew = 0) :
    c.watchOn.watchTime = (c.watchTime + c.watchStep) % 2 ^ 64 ∧ c.watchOn.slew = 0 := by
  simp only [Chip.watchOn, h, slewBy, true_or, if_true, add_zero, Int.toNat_natCast, sub_zero, and_self]

/-- The hours take their time of the Watch, and rise when a tenth of an hour is full; all but OP_HOURS and the time stands. -/
theorem Chip.hoursPass_cases (d : Nat) (n : Chip)
    (hn : n = { c with pwr := { c.pwr with hourNs := (c.pwr.hourNs + d) % (360 * sec) } }) :
    n.pwr.hourNs < d ∧ c.hoursPass d = n.satInc Reg.OP_HOURS Bit.OP_HOURS_HOURS ∨
      ¬ n.pwr.hourNs < d ∧ c.hoursPass d = n := by
  subst hn
  unfold Chip.hoursPass
  dsimp only
  split
  · next h => exact .inl ⟨h, rfl⟩
  · next h => exact .inr ⟨h, rfl⟩

/-- A saturating count adds 1 below its greatest value. -/
theorem Chip.fld_satInc_same (o : Nat) (f : Fld) (hf : f.hi < 32) : (c.satInc o f).fld o f = min (c.fld o f + 1) (fldMax f) := by
  have hle : c.fld o f ≤ fldMax f := getF_le_fldMax _ f
  have hpos : 0 < 2 ^ (f.hi + 1 - f.lo) := by positivity
  unfold Chip.satInc
  split
  · next h =>
    have hlt : c.fld o f + 1 < 2 ^ (f.hi + 1 - f.lo) := by unfold fldMax at h; omega
    rw [c.fld_setFld_same o f _ hf, Nat.mod_eq_of_lt hlt, Nat.min_eq_left (by omega)]
  · omega

theorem Chip.hoursPass_frame (d : Nat) :
    (c.hoursPass d).pwr.hourNs = (c.pwr.hourNs + d) % (360 * sec) ∧
      (c.hoursPass d).fld Reg.OP_HOURS Bit.OP_HOURS_HOURS = (if (c.hoursPass d).pwr.hourNs < d then
        min (c.fld Reg.OP_HOURS Bit.OP_HOURS_HOURS + 1) (fldMax Bit.OP_HOURS_HOURS)
        else c.fld Reg.OP_HOURS Bit.OP_HOURS_HOURS) ∧
      (∀ off, off ≠ Reg.OP_HOURS → (c.hoursPass d).rd off = c.rd off) := by
  obtain ⟨h, he⟩ | ⟨h, he⟩ := c.hoursPass_cases d _ rfl
  · rw [he, Chip.satInc_pwr]
    exact ⟨rfl, (Chip.fld_satInc_same _ _ _ (by decide)).trans (if_pos h).symm, fun _ ho => Chip.rd_satInc_other _ _ ho⟩
  · rw [he]
    exact ⟨rfl, (if_neg h).symm, fun _ _ => rfl⟩

/-- All but the registers and the power block. -/
theorem Chip.hoursPass_part {α : Type} (d : Nat) (part : Chip → α) (hregs : ∀ (a : Chip) o f, part (a.satInc o f) = part a)
    (hpwr : ∀ (a : Chip) x, part { a with pwr := x } = part a) : part (c.hoursPass d) = part c := by
  obtain ⟨-, he⟩ | ⟨-, he⟩ := c.hoursPass_cases d _ rfl
  · rw [he, hregs, hpwr]
  · rw [he, hpwr]

/-- Nothing was left to happen: no port waits for its Fog, no entry for its answer, and no write of the Relay engine. -/
theorem Chip.settleAll_of_settled (hc : c.saf.contain = []) (ho : ∀ e ∈ c.pci.ort, e.ansDue = none) (hp : c.rly.posts = []) :
    c.settleAll = c := by
  have hcontain : ({ c with saf := { c.saf with contain := [] } } : Chip) = c := by rw [← hc]
  have hdue : c.pci.ort.filter (fun e => e.ansDue.isSome && !c.framePending e) = [] :=
    List.filter_eq_nil_iff.mpr fun e he => by simp [ho e he]
  have hsettle : c.settleDue = c := by simp only [Chip.settleDue, hdue, List.foldl_nil]
  simp only [Chip.settleAll, hc, List.foldl_nil]
  rw [hcontain, hsettle, c.relayPump_of_none hp]

end Tick

/-- Settles O2: the Watch and the hours as one cycle leaves them, then what had to happen. -/
theorem emptyQueuePassesTime : Obligations.EmptyQueuePassesTime := by
  intro s hs
  have hstep : step s = .next (s.withChip s.chip.tick) := by simp only [step, hs, State.withChip]
  refine ⟨fun hp => ?_, fun hp => ?_⟩
  · obtain ⟨hns, hhours, hregs⟩ := s.chip.watchOn.hoursPass_frame s.chip.watchStep
    have hpart {α : Type} (part : Chip → α) (h₁ h₂) : part (s.chip.watchOn.hoursPass s.chip.watchStep) = part s.chip.watchOn :=
      s.chip.watchOn.hoursPass_part s.chip.watchStep part h₁ h₂
    refine ⟨s.chip.watchOn.hoursPass s.chip.watchStep, by rw [hstep, s.chip.tick_of_standby hp],
      hpart Chip.watchUp (by simp) (fun _ _ => rfl), fun h => ?_, hns, hhours, hregs,
      hpart Chip.timers (by simp) (fun _ _ => rfl), hpart Chip.out (by simp) (fun _ _ => rfl), fun hc ho hposts => ?_⟩
    · rw [hpart Chip.watchTime (by simp) (fun _ _ => rfl), hpart Chip.slew (by simp) (fun _ _ => rfl)]
      exact s.chip.watchOn_steady h
    · refine Chip.settleAll_of_settled _ ?_ ?_ ?_
      · rw [hpart Chip.saf (by simp) (fun _ _ => rfl)]
        exact hc
      · rw [hpart Chip.pci (by simp) (fun _ _ => rfl)]
        exact ho
      · rw [hpart Chip.rly (by simp) (fun _ _ => rfl)]
        exact hposts
  · rw [hstep, s.chip.tick_of_off hp, State.withChip_self]

/-! ## The state after reset -/

/-- Settles O3: no register has been written, so each reads its reset word. -/
theorem resetLeavesEveryRegisterAtItsWord : Obligations.ResetLeavesEveryRegisterAtItsWord :=
  ⟨fun off => SMap.get_nil off _, Memory.wf_reset, rfl, rfl, by decide, by decide, by decide, by decide, by decide, by decide, by decide⟩

/-! ## The commands that stop (R521) -/

/-- Everything that a command can come to: it completes, or it carries a measurement beyond the absolute maximum ratings and
faults. -/
theorem exec_cases (i : Instr) (s : State) : (i.beyondMaximum = false ∧ Completes i s) ∨
    (i.beyondMaximum = true ∧ exec i s = .fault .beyondAbsoluteMaximum) := by
  have hrated : ∀ {p : Prop} [Decidable p] {t : State}, i.beyondMaximum = decide p →
      exec i s = (if p then .fault .beyondAbsoluteMaximum else .next t) → (i.beyondMaximum = false ∧ Completes i s) ∨
        (i.beyondMaximum = true ∧ exec i s = .fault .beyondAbsoluteMaximum) := by
    intro p _ t hi he
    by_cases hp : p
    · exact .inr ⟨hi.trans (decide_eq_true hp), he.trans (if_pos hp)⟩
    · exact .inl ⟨hi.trans (decide_eq_false hp), t, he.trans (if_neg hp)⟩
  cases i with
  | ovTrip | thermalSample | thermalFog => exact hrated rfl rfl
  | _ => exact .inl ⟨rfl, _, rfl⟩

/-- Settles O6 by what a command can come to. -/
theorem onlyAbsoluteMaximumStops : Obligations.OnlyAbsoluteMaximumStops := by
  intro i s
  obtain ⟨hb, t, ht⟩ | ⟨hb, hf⟩ := exec_cases i s
  · exact ⟨fun r => by simp [ht], fun f => by simp [ht, hb], iff_of_true ⟨t, ht⟩ hb⟩
  · exact ⟨fun r => by simp [hf], fun f => by simp [hf, hb], iff_of_false (by simp [Completes, hf]) (by simp [hb])⟩

end Sys2Proof.Machine
end

section
/-!
PROOFS. The Keeper's Log (chapter 19, R506, R507, R509, R511, R512): absorbed repeats, the Keep area, summaries and the freeze, and
LOG_RD_SEL.
-/
namespace Sys2Proof.Machine

/-! ## New records and repeats (R506) -/

section Records
variable (c : Chip) (r : LogRec)

/-- A new record is the newest of the Recent area; but for its place in the Keep area it is the record given. -/
theorem Chip.addRec_recent : ∃ x : LogRec, (c.addRec r).tel.recent = (x :: c.tel.recent).take 4096 ∧ x.code = r.code ∧
    x.source = r.source ∧ x.key = r.key ∧ x.rep = r.rep ∧ x.det = r.det := by
  unfold Chip.addRec
  dsimp only
  split
  · exact ⟨_, rfl, rfl, rfl, rfl, rfl, rfl⟩
  · exact ⟨_, rfl, rfl, rfl, rfl, rfl, rfl⟩

theorem Chip.rd_addRec_seq : (c.addRec r).rd Reg.LOG_SEQ = c.rd Reg.LOG_SEQ + 1 := by
  have hcount : ∀ (d : Chip) (n : Nat), (d.setFld Reg.LOG_STATUS Bit.LOG_STATUS_RECENT n).rd Reg.LOG_SEQ = d.rd Reg.LOG_SEQ :=
    fun d n => d.rd_setFld_other _ n (by decide)
  unfold Chip.addRec
  dsimp only
  split
  · exact (hcount _ _).trans (c.rd_wr_same _ _)
  · exact (hcount _ _).trans (c.rd_wr_same _ _)

variable {c r} {n : LogRec} {rest : List LogRec} (hn : c.tel.recent = n :: rest)
include hn

theorem Chip.logNow_repeat (hkind : n.kind = 0) (hcode : n.code = r.code) (hsource : n.source = r.source) (hkey : n.key = r.key)
    (hrep : n.rep < 65535) : c.logNow r =
      { c with tel := { c.tel with recent := { n with rep := n.rep + 1, tLast := r.tLast, det := r.det } :: rest } } := by
  simp only [Chip.logNow, hn, hkind, hcode, hsource, hkey, hrep, and_self, if_true]

theorem Chip.logNow_new (h : n.kind ≠ 0 ∨ n.code ≠ r.code ∨ n.source ≠ r.source ∨ n.key ≠ r.key ∨ 65535 ≤ n.rep) :
    c.logNow r = c.addRec r := by
  have hnot : ¬ (n.kind = 0 ∧ n.code = r.code ∧ n.source = r.source ∧ n.key = r.key ∧ n.rep < 65535) := by
    rintro ⟨hkind, hcode, hsource, hkey, hrep⟩
    obtain h | h | h | h | h := h
    · exact h hkind
    · exact h hcode
    · exact h hsource
    · exact h hkey
    · omega
  simp only [Chip.logNow, hn, hnot, if_false]

end Records

/-- Settles O14: a repeat changes the newest record alone; any other event is a new record. -/
theorem newestRecordAbsorbsItsRepeats : Obligations.NewestRecordAbsorbsItsRepeats := by
  refine fun c n r rest hn => ⟨fun hkind hcode hsource hkey hrep => ?_, fun h => ?_⟩
  · rw [Chip.logNow_repeat hn hkind hcode hsource hkey hrep]
    exact ⟨rfl, fun _ => rfl⟩
  · rw [Chip.logNow_new hn h]
    obtain ⟨x, hrecent, hx⟩ := c.addRec_recent r
    obtain ⟨hcode, hsource, hkey, hrep, hdet⟩ := hx
    exact ⟨x, hrecent.trans (by rw [hn]), hcode, hsource, hkey, hrep, hdet, c.rd_addRec_seq r⟩

/-! ## The Keep area (R509) and the summaries (R507) -/

theorem exec_keepAreaProgram (s : State) : exec .keepAreaProgram s = .next s.keepProgram := rfl

theorem State.keepProgram_of_due (s : State) {k : Nat} {rest : List Nat} {r : LogRec} (hp : s.chip.tel.keepPend = k :: rest)
    (hk : s.chip.keeperRuns = true) (hd : s.chip.due (.keep k) = true)
    (hf : s.chip.flag Reg.LOG_CTRL Bit.LOG_CTRL_FREEZE = false) (hr : s.chip.slotRec k = some r) :
    s.keepProgram = s.keepPut k r := by
  simp only [State.keepProgram, hp, hk, hd, hf, hr, Bool.not_false, Bool.and_self, if_true]

theorem State.keepProgram_of_frozen (s : State) (hf : s.chip.flag Reg.LOG_CTRL Bit.LOG_CTRL_FREEZE = true) : s.keepProgram = s := by
  unfold State.keepProgram
  split
  · rfl
  · simp [hf]

theorem exec_logSummary_of_due (s : State) (hk : s.chip.keeperRuns = true) (hd : s.chip.summaryDue = true)
    (hf : s.chip.flag Reg.LOG_CTRL Bit.LOG_CTRL_FREEZE = false) : exec .logSummary s = .next (s.withChip s.chip.summary) :=
  congrArg (fun c => Host.Outcome.next (s.withChip c)) (if_pos (by simp [hk, hd, hf]))

/-! ## The freeze (R511) -/

section Freeze
variable (c : Chip)

theorem exec_logFreeze_of_reaches {s : State} {ag : Agent} (on : Bool) (hr : s.chip.reaches ag Reg.LOG_CTRL = true) :
    exec (.logFreeze ag on) s = .next (s.withChip ((s.chip.setFreeze on).emit (.regDone ag Reg.LOG_CTRL))) :=
  exec_ungated_access_of_reaches rfl hr (by decide) rfl

theorem Chip.setFreeze_starts (hf : c.flag Reg.LOG_CTRL Bit.LOG_CTRL_FREEZE = false) : c.setFreeze true =
    ((c.setBit Reg.LOG_CTRL Bit.LOG_CTRL_FREEZE).setBit Reg.LOG_STATUS Bit.LOG_STATUS_FROZEN).arm .freeze (60 * sec) := by
  simp only [Chip.setFreeze, hf, if_true, Bool.false_eq_true, if_false]
  rfl

/-- A freeze that starts shows in its two registers and changes no other. -/
theorem Chip.setFreeze_starts_regs (hf : c.flag Reg.LOG_CTRL Bit.LOG_CTRL_FREEZE = false) :
    (c.setFreeze true).flag Reg.LOG_CTRL Bit.LOG_CTRL_FREEZE = true ∧
      (c.setFreeze true).flag Reg.LOG_STATUS Bit.LOG_STATUS_FROZEN = true ∧
      ∀ o, o ≠ Reg.LOG_CTRL → o ≠ Reg.LOG_STATUS → (c.setFreeze true).rd o = c.rd o := by
  rw [c.setFreeze_starts hf]
  refine ⟨?_, Chip.flag_setBit_same _ _ _ (by decide) (by decide), fun o hc hs =>
    (Chip.rd_setBit_other _ _ hs).trans (Chip.rd_setBit_other _ _ hc)⟩
  exact (Chip.flag_setFld_other _ _ _ 1 (by decide)).trans (Chip.flag_setBit_same _ _ _ (by decide) (by decide))

/-- The chip as a freeze has ended, before a summary that fell due is written. -/
def Chip.unfrozen : Chip :=
  ((c.clrFld Reg.LOG_CTRL Bit.LOG_CTRL_FREEZE).clrFld Reg.LOG_STATUS Bit.LOG_STATUS_FROZEN).disarm .freeze

theorem Chip.unfrozen_keeperRuns : c.unfrozen.keeperRuns = c.keeperRuns := by
  have hrd : c.unfrozen.rd Reg.KPR_STATUS = c.rd Reg.KPR_STATUS :=
    (Chip.rd_clrFld_other _ _ (by decide)).trans (Chip.rd_clrFld_other _ _ (by decide))
  simp only [Chip.keeperRuns, Chip.fld, hrd]

/-- The end of a freeze moves neither the span of the summaries nor its length. -/
theorem Chip.unfrozen_summaryDue : c.unfrozen.summaryDue = c.summaryDue := by
  have hperiod : c.unfrozen.fld Reg.LOG_CTRL Bit.LOG_CTRL_SUM_PERIOD = c.fld Reg.LOG_CTRL Bit.LOG_CTRL_SUM_PERIOD :=
    (Chip.fld_setFld_other _ _ _ _ (by decide)).trans (Chip.fld_setFld_otherField _ _ _ _ _ (by decide) (by decide))
  simp only [Chip.summaryDue, hperiod]
  rfl

theorem Chip.setFreeze_ends (hf : c.flag Reg.LOG_CTRL Bit.LOG_CTRL_FREEZE = true) : c.setFreeze false =
    if c.keeperRuns = true ∧ c.summaryDue = true then c.unfrozen.summary else c.unfrozen := by
  have h : c.setFreeze false = if (c.unfrozen.keeperRuns && c.unfrozen.summaryDue) = true then c.unfrozen.summary else c.unfrozen := by
    simp only [Chip.setFreeze, hf, if_true, Bool.false_eq_true, if_false]
    rfl
  simp only [h, c.unfrozen_keeperRuns, c.unfrozen_summaryDue, Bool.and_eq_true]

/-- During a freeze an event is counted, and that is all. -/
theorem Chip.log_of_frozen (code : LogCode) (key det : List Nat) (hf : c.flag Reg.LOG_CTRL Bit.LOG_CTRL_FREEZE = true) :
    c.log code key det = c.satInc Reg.LOG_EVENT Bit.LOG_EVENT_FROZEN_MISS := by
  simp only [Chip.log, Chip.logFrom, hf, if_true]

end Freeze

/-- Settles O59: the record owed, the summary due, and the two ends of a freeze, each by its own rule. -/
theorem logKeepsSummarisesAndFreezes : Obligations.LogKeepsSummarisesAndFreezes := by
  refine ⟨fun s k rest r hp hk hd hf hr => ?_, fun s hk hd hf => exec_logSummary_of_due s hk hd hf, fun s ag hr hf => ?_,
    fun s ag hr hf => ?_, fun s hd hf => ?_, fun c code key det hf => ?_, fun s hf => ?_⟩
  · refine ⟨_, exec_keepAreaProgram s, ?_⟩
    rw [s.keepProgram_of_due hp hk hd hf hr]
    exact ⟨by simp [State.keepPut, hp], rfl, fun o ho => Chip.rd_setFld_other _ _ _ ho, rfl⟩
  · obtain ⟨hctrl, hstatus, hregs⟩ := s.chip.setFreeze_starts_regs hf
    refine ⟨_, exec_logFreeze_of_reaches true hr, hctrl, hstatus, ?_, hregs, ?_, ?_, rfl⟩
    all_goals rw [State.withChip_chip, s.chip.setFreeze_starts hf]
    · exact Chip.armed_arm _ _ _
    · rfl
    · rfl
  · rw [exec_logFreeze_of_reaches false hr, s.chip.setFreeze_ends hf]
    rfl
  · exact congrArg (fun c => Host.Outcome.next (s.withChip c)) ((if_pos hd).trans (s.chip.setFreeze_ends hf))
  · rw [c.log_of_frozen code key det hf]
    exact ⟨Chip.satInc_tel .., c.fld_satInc_same _ _ (by decide), fun o ho => Chip.rd_satInc_other _ _ ho⟩
  · rw [exec_keepAreaProgram, s.keepProgram_of_frozen hf]

/-! ## LOG_RD_SEL (R512) -/

section Load
variable (c : Chip)

/-- Words written into LOG_RD_DATA, from its first on. -/
def Chip.loadWords (n : Nat) (w : Nat → Word) : Chip := (List.range n).foldl (fun c i => c.wr (Reg.LOG_RD_DATA i) (w i)) c

theorem Chip.loadWords_succ (n : Nat) (w : Nat → Word) :
    c.loadWords (n + 1) w = (c.loadWords n w).wr (Reg.LOG_RD_DATA n) (w n) := by
  simp only [Chip.loadWords, List.range_succ, List.foldl_append, List.foldl_cons, List.foldl_nil]

theorem Chip.rd_loadWords (n : Nat) (w : Nat → Word) {i : Nat} (hi : i < n) : (c.loadWords n w).rd (Reg.LOG_RD_DATA i) = w i := by
  induction n with
  | zero => omega
  | succ n ih =>
    rw [c.loadWords_succ]
    by_cases h : i = n
    · rw [h, Chip.rd_wr_same]
    · rw [Chip.rd_wr_other _ _ (by simp only [Reg.LOG_RD_DATA]; omega), ih (by omega)]

theorem Chip.loadWords_frame (n : Nat) (w : Nat → Word) : (c.loadWords n w).tel = c.tel ∧ (c.loadWords n w).out = c.out := by
  induction n with
  | zero => exact ⟨rfl, rfl⟩
  | succ n ih => rw [c.loadWords_succ]; exact ih

/-- The word of LOG_RD_DATA that holds the four bytes of a record from byte 4 * i on. -/
def recordWord (r : Option (List Nat)) (i : Nat) : Word := BitVec.ofNat 32 (leNat ((r.getD []).map (BitVec.ofNat 8)) (4 * i) 4)

theorem recordWord_none (i : Nat) : recordWord none i = 0 := by
  simp [recordWord, leNat]

/-- A field of one bit reads as the truth value that was put into it. -/
theorem Chip.flag_setFld_b2n (o : Nat) (f : Fld) (b : Bool) (h1 : f.hi = f.lo) (h2 : f.hi < 32) :
    (c.setFld o f (b2n b)).flag o f = b := by
  have hw : f.hi + 1 - f.lo = 1 := by omega
  rw [Chip.flag_setFld_same _ _ _ h2, hw]
  cases b <;> rfl

/-- The two bits of LOG_RD_STATUS as a read of the log leaves them. -/
def Chip.rdStatus (valid empty : Bool) : Chip :=
  (c.setFld Reg.LOG_RD_STATUS Bit.LOG_RD_STATUS_RD_VALID (b2n valid)).setFld Reg.LOG_RD_STATUS Bit.LOG_RD_STATUS_RD_EMPTY (b2n empty)

theorem Chip.rdStatus_flags (valid empty : Bool) :
    (c.rdStatus valid empty).flag Reg.LOG_RD_STATUS Bit.LOG_RD_STATUS_RD_VALID = valid ∧
      (c.rdStatus valid empty).flag Reg.LOG_RD_STATUS Bit.LOG_RD_STATUS_RD_EMPTY = empty :=
  ⟨(Chip.flag_setFld_otherField _ _ _ _ (by decide) (by decide)).trans (Chip.flag_setFld_b2n _ _ _ _ (by decide) (by decide)),
    Chip.flag_setFld_b2n _ _ _ _ (by decide) (by decide)⟩

theorem Chip.rdStatus_frame (valid empty : Bool) : (∀ o, o ≠ Reg.LOG_RD_STATUS → (c.rdStatus valid empty).rd o = c.rd o) ∧
    (c.rdStatus valid empty).tel = c.tel ∧ (c.rdStatus valid empty).out = c.out :=
  ⟨fun _ ho => (Chip.rd_setFld_other _ _ _ ho).trans (Chip.rd_setFld_other _ _ _ ho), rfl, rfl⟩

/-- The chip with the selection of a read of the log. -/
def Chip.rdSelect (area index : Nat) : Chip :=
  (c.setFld Reg.LOG_RD_SEL Bit.LOG_RD_SEL_INDEX index).setFld Reg.LOG_RD_SEL Bit.LOG_RD_SEL_AREA area

/-- The selection, the data and the status of one read of the log. -/
theorem Chip.logRdSel_eq {area : Nat} (index : Nat) (r : Option (List Nat)) (ha : area < 3) : c.logRdSel area index r =
    ((c.rdSelect area index).loadWords 16 (recordWord r)).rdStatus r.isSome r.isNone := if_neg (by omega)

theorem Chip.logRdSel_effect {area : Nat} (index : Nat) (r : Option (List Nat)) (ha : area < 3) :
    (c.logRdSel area index r).flag Reg.LOG_RD_STATUS Bit.LOG_RD_STATUS_RD_VALID = r.isSome ∧
      (c.logRdSel area index r).flag Reg.LOG_RD_STATUS Bit.LOG_RD_STATUS_RD_EMPTY = r.isNone ∧
      (∀ i, i < 16 → (c.logRdSel area index r).rd (Reg.LOG_RD_DATA i) = recordWord r i) ∧
      (c.logRdSel area index r).tel = c.tel ∧ (c.logRdSel area index r).out = c.out := by
  rw [c.logRdSel_eq index r ha]
  obtain ⟨htel, hout⟩ := (c.rdSelect area index).loadWords_frame 16 (recordWord r)
  have hdata := fun i => (c.rdSelect area index).rd_loadWords 16 (recordWord r) (i := i)
  generalize (c.rdSelect area index).loadWords 16 (recordWord r) = d at htel hout hdata ⊢
  obtain ⟨hvalid, hempty⟩ := d.rdStatus_flags r.isSome r.isNone
  obtain ⟨hregs, htel', hout'⟩ := d.rdStatus_frame r.isSome r.isNone
  refine ⟨hvalid, hempty, fun i hi => ?_, htel'.trans htel, hout'.trans hout⟩
  exact (hregs _ (by simp only [Reg.LOG_RD_DATA, Reg.LOG_RD_STATUS]; omega)).trans (hdata i hi)

end Load

/-- Settles O60: the record that the write names, or none, fills LOG_RD_DATA and its status. -/
theorem logReadLoadsItsRecord : Obligations.LogReadLoadsItsRecord := by
  refine ⟨fun s ag area index hr ha hi => ?_, fun s index => ⟨rfl, fun h => if_pos h, fun h => if_neg (by omega)⟩⟩
  obtain ⟨hvalid, hempty, hdata, htel, hout⟩ := s.chip.logRdSel_effect index (s.logRecord area index) ha
  refine ⟨_, exec_ungated_access_of_reaches rfl hr (by decide) rfl, rfl, htel, congrArg (List.cons _) hout, fun b hb => ?_,
    fun hb => ?_⟩
  · rw [hb] at hvalid hempty hdata ⊢
    exact ⟨hvalid, hempty, hdata⟩
  · rw [hb] at hvalid hempty hdata ⊢
    exact ⟨hempty, fun i hi => (hdata i hi).trans (recordWord_none i)⟩

end Sys2Proof.Machine
end

section
/-!
PROOFS. The Keeper's key commands, its command ring and the records of its commands (R370, R371, R380 to R383, R387, R389).
-/
namespace Sys2Proof.Machine

/-! ## The record of a completed command (Table 13.6, R382, R383) -/

section Record
variable {c : Chip} {h : KHead} (k : KCmd) (a : KAns)

theorem Chip.recordK_mctp (hm : h.mctp = true) : c.recordK h k a = c.emit (.mctp 0 (recordOfK k.code 0 h.tag a)) := if_pos hm

theorem Chip.recordK_stopped (hm : h.mctp = false) (hon : c.crOn = false) : c.recordK h k a =
    ({ c with kpr := { c.kpr with noRecord := false } } : Chip).wr Reg.LAST_CMD
      (BitVec.ofNat 32 (h.tag % 65536 + k.code % 256 * 65536 + a.status % 256 * 2 ^ 24)) := by
  simp only [Chip.recordK, hm, hon, Bool.not_false, Bool.or_true, if_true, Bool.false_eq_true, if_false]

/-- The chip with one more record in the completion ring. -/
def Chip.ringRecord (c : Chip) (b : List Nat) : Chip :=
  { c.emit (.hostWrite c.manager (c.pair Reg.CR_CQ_BASE_LO Reg.CR_CQ_BASE_HI + 32 * (c.kpr.cqWritten % c.crCqSize)) b) with
    kpr := { c.kpr with cqWritten := (c.kpr.cqWritten + 1) % 2 ^ 16 } }

theorem Chip.recordK_ring (hm : h.mctp = false) (hi : h.intr = false) (hon : c.crOn = true) (hr : c.kpr.noRecord = false)
    (hl : c.managerLink = true) : c.recordK h k a =
      c.ringRecord (recordOfK k.code ((c.kpr.cqWritten / c.crCqSize + 1) % 2) h.tag a) := by
  simp only [Chip.recordK, hm, hi, hon, hr, hl, Bool.not_true, Bool.or_self, Bool.false_eq_true, if_false]
  rfl

/-- The chip whose Keeper's own state is another. -/
def Chip.withKpr (c : Chip) (q : Kpr) : Chip := { c with kpr := q }

theorem Chip.withKpr_crOn (q : Kpr) : (c.withKpr q).crOn = c.crOn := rfl
theorem Chip.withKpr_managerLink (q : Kpr) : (c.withKpr q).managerLink = c.managerLink := rfl
theorem Chip.withKpr_crCqSize (q : Kpr) : (c.withKpr q).crCqSize = c.crCqSize := rfl

/-- The record in the ring of a chip whose Keeper has counted `n` records. -/
theorem Chip.ringRecord_out {q : Kpr} {n : Nat} (hq : q.cqWritten = n) (b : List Nat) : ((c.withKpr q).ringRecord b).out =
    .hostWrite c.manager (c.pair Reg.CR_CQ_BASE_LO Reg.CR_CQ_BASE_HI + 32 * (n % c.crCqSize)) b :: c.out := by
  rw [← hq]
  rfl

/-- A command that ends without a reset of the Keeper: the Keeper's own state has no command in progress, then the record is made. -/
theorem State.finishK_eq (s : State) (h : KHead) (hk : k ≠ .imageActivate) : ∃ q : Kpr,
    q.busy = none ∧ q.noRecord = s.chip.kpr.noRecord ∧ q.cqWritten = s.chip.kpr.cqWritten ∧
      s.finishK h k a = s.withChip ((s.chip.withKpr q).recordK h k a) := by
  cases hm : h.mctp with
  | true =>
    refine ⟨{ s.chip.kpr with busy := none }, rfl, rfl, rfl, ?_⟩
    simp only [State.finishK, State.endK, Chip.fetchedK, hm, hk, if_true, if_false]
    rfl
  | false =>
    refine ⟨{ s.chip.kpr with sqFetched := (s.chip.kpr.sqFetched + 1) % 2 ^ 16, busy := none }, rfl, rfl, rfl, ?_⟩
    simp only [State.finishK, State.endK, Chip.fetchedK, hm, hk, Bool.false_eq_true, if_false]
    rfl

end Record

/-- Settles O41: the record goes where the stopped ring, the running ring or I3C takes it. -/
theorem completedCommandsLeaveARecord : Obligations.CompletedCommandsLeaveARecord := by
  refine ⟨fun s h k a hm hon hk => ?_, fun s h k a hm hi hon hr hl hk => ?_, fun s h k a hm hk => ?_⟩
  all_goals obtain ⟨q, hbusy, hnr, hcq, heq⟩ := State.finishK_eq k a s h hk
  · rw [Chip.recordK_stopped (c := s.chip.withKpr q) k a hm hon] at heq
    exact ⟨_, heq.symm, Chip.rd_wr_same .., fun o ho => Chip.rd_wr_other _ _ ho,
      (congrArg Kpr.busy (Chip.wr_kpr ..)).trans hbusy, Chip.wr_out .., State.withChip_flash .., State.withChip_pending ..⟩
  · rw [Chip.recordK_ring (c := s.chip.withKpr q) k a hm hi hon (hnr.trans hr) hl] at heq
    refine ⟨_, heq.symm, ?_, ?_, rfl, hbusy⟩
    · rw [State.withChip_chip, Chip.ringRecord_out hcq, Chip.withKpr_crCqSize, Chip.withKpr, hcq]
    · exact congrArg (fun n => (n + 1) % 2 ^ 16) hcq
  · rw [Chip.recordK_mctp k a hm] at heq
    exact ⟨_, heq.symm, rfl, rfl, rfl⟩

/-! ## Keys and certificates (R370, R371, R389) -/

section Keys
variable {s : State} {h : KHead} {k : KCmd} {c d : Chip}

theorem State.startK_of_runK {t : State} {a : KAns} (hk : s.runK h k = (t, some a)) : s.startK h k = t.finishK h k a := by
  simp only [State.startK, hk]

/-- A granule that is read leaves its read and nothing else. -/
theorem Chip.readGranule_cases (c : Chip) (x : Nat × Nat) : (c.readGranule x).2 = false ∨ (c.readGranule x).1.kpr = c.kpr := by
  unfold Chip.readGranule
  split
  · exact .inl rfl
  · dsimp only
    split
    · exact .inr rfl
    · exact .inl rfl
    · exact .inl rfl

/-- A read of host memory, granule by granule, until one fails. -/
def Chip.readGranules (r : Chip × Bool) (l : List (Nat × Nat)) : Chip × Bool :=
  l.foldl (fun (r : Chip × Bool) x => if r.2 then r.1.readGranule x else r) r

theorem Chip.readGranules_failed (c : Chip) (l : List (Nat × Nat)) : Chip.readGranules (c, false) l = (c, false) := by
  induction l with
  | nil => rfl
  | cons x l ih => exact ih

theorem Chip.readGranules_kpr (l : List (Nat × Nat)) (c : Chip) (hr : (Chip.readGranules (c, true) l).2 = true) :
    (Chip.readGranules (c, true) l).1.kpr = c.kpr := by
  induction l generalizing c with
  | nil => rfl
  | cons x l ih =>
    have hstep : Chip.readGranules (c, true) (x :: l) = Chip.readGranules (c.readGranule x) l := rfl
    rw [hstep] at hr ⊢
    have hread := c.readGranule_cases x
    generalize c.readGranule x = r at hr hread ⊢
    obtain ⟨d, _ | _⟩ := r
    · rw [Chip.readGranules_failed] at hr
      cases hr
    · exact (ih d hr).trans (hread.resolve_left (by simp))

/-- A read of host memory that succeeds changes nothing of the Keeper's own. -/
theorem Chip.managerRead_kpr {addr len : Nat} (hr : c.managerRead addr len = (d, true)) : d.kpr = c.kpr := by
  unfold Chip.managerRead at hr
  split at hr
  · cases hr
  · have hr' : Chip.readGranules (c, true) (granules addr len) = (d, true) := hr
    have hk := Chip.readGranules_kpr (granules addr len) c (by rw [hr'])
    rwa [hr'] at hk

theorem Chip.takeData_of_read {addr len : Nat} {data : List Byte} (hr : c.managerRead addr len = (d, true))
    (hl : len ≤ data.length) : c.takeData addr len data = (d, some (data.take len)) := by
  simp [Chip.takeData, hr, hl]

variable {kind addr : Nat} {key : List Byte} (hkind : kind < 2) (hr : c.managerRead addr 1793 = (d, true))
  (hl : 1793 ≤ key.length)
include hkind hr hl

theorem Chip.opKeyEnroll_free {slot : Nat}
    (hf : (if kind = 0 then freeSlot d.kpr.opLl0 d.kpr.opLl1 else freeSlot d.kpr.opDbg0 d.kpr.opDbg1) = some slot) :
    c.opKeyEnroll kind addr key = (d.enroll kind slot (key.take 1793), { status := 0, result := [slot] }) := by
  rw [Chip.managerRead_kpr hr] at hf
  simp only [Chip.opKeyEnroll, if_neg (Nat.not_le.mpr hkind), Chip.takeData_of_read hr hl, hf]

theorem Chip.opKeyEnroll_full
    (hf : (if kind = 0 then freeSlot d.kpr.opLl0 d.kpr.opLl1 else freeSlot d.kpr.opDbg0 d.kpr.opDbg1) = none) :
    c.opKeyEnroll kind addr key = (d, { status := stAlreadyEnrolled }) := by
  rw [Chip.managerRead_kpr hr] at hf
  simp only [Chip.opKeyEnroll, if_neg (Nat.not_le.mpr hkind), Chip.takeData_of_read hr hl, hf]

end Keys

theorem Chip.keyRevoke_fresh {c : Chip} {k : Nat} (hk : k < 2) (hrun : c.kpr.fwKey ≠ k) (hfresh : bitOf c.kpr.revoke k = false) :
    c.keyRevoke k = (({ c with kpr := { c.kpr with revoke := c.kpr.revoke + 2 ^ k } } : Chip).syncFuses, kOk) := by
  have hok : ¬ (2 ≤ k ∨ c.kpr.fwKey = k) := by omega
  simp only [Chip.keyRevoke, hok, hfresh, if_false, Bool.false_eq_true]

/-- The state whose certificate slot 1 holds a chain. -/
def State.withCert (s : State) (c : Chip) (chain : List Byte) : State :=
  { s with chip := c, flash := Flash.program (Flash.erase s.flash certSlot1 32768) certSlot1 chain }

theorem State.setCert_of_read {s : State} {addr len : Nat} {cert : List Byte} {c : Chip} (h0 : 0 < len) (hmax : len ≤ 32768)
    (hr : s.chip.managerRead addr len = (c, true)) (hl : len ≤ cert.length) : s.setCert addr len cert =
      if Config.leafKey (cert.take len) = Config.identityKey c.kpr.idSeed then (s.withCert c (cert.take len), kOk)
      else (s.withChip c, kBad) := by
  have hlen : (cert.take len).length = len := by simp [hl]
  have hput : (s.withChip c).putCert (cert.take len) =
      if Config.leafKey (cert.take len) = Config.identityKey c.kpr.idSeed then (s.withCert c (cert.take len), true)
      else (s.withChip c, false) := by
    simp only [State.putCert, hlen, if_neg (show ¬ (len = 0 ∨ 32768 < len) by omega)]
    rfl
  have hset : s.setCert addr len cert = if ((s.withChip c).putCert (cert.take len)).2 = true then
      (((s.withChip c).putCert (cert.take len)).1, kOk) else (((s.withChip c).putCert (cert.take len)).1, kBad) := by
    simp only [State.setCert, if_neg (show ¬ (len = 0 ∨ 32768 < len) by omega), Chip.takeData_of_read hr hl]
    rfl
  rw [hset, hput]
  split <;> rfl

/-- Settles O39: each command by what its action answers. -/
theorem keyCommandsComplete : Obligations.KeyCommandsComplete := by
  refine ⟨fun s h kind addr key c free ha hb hkind hr hl hf => ⟨fun slot hs => ?_, fun hn => ?_⟩,
    fun s h k ha hb hk hrun hfresh => ?_, fun s h addr len cert ha hb h0 hmax hr hl => ?_⟩
  · exact exec_command_answered ha hb rfl (congrArg (fun r : Chip × KAns => (s.withChip r.1, some r.2))
      (Chip.opKeyEnroll_free hkind hr hl (hf.symm.trans hs))) rfl
  · exact exec_command_answered ha hb rfl (congrArg (fun r : Chip × KAns => (s.withChip r.1, some r.2))
      (Chip.opKeyEnroll_full hkind hr hl (hf.symm.trans hn))) rfl
  · exact exec_command_answered ha hb rfl (congrArg (fun r : Chip × KAns => (s.withChip r.1, some r.2))
      (Chip.keyRevoke_fresh hk hrun hfresh)) rfl
  · have hset := State.setCert_of_read (s := s) (c := (s.chip.managerRead addr len).1) h0 hmax (Prod.ext rfl hr) hl
    have hrun : s.runK h (.setCert addr len cert) = ((s.setCert addr len cert).1, some (s.setCert addr len cert).2) := rfl
    have hexec : exec (.setCert h addr len cert) s = .next (s.command h (.setCert addr len cert)) := rfl
    rw [hexec, State.command_of_idle ha hb, State.startK_of_runK hrun, hset]
    split <;> rfl

/-! ## The command ring (R380 to R383, R387) -/

section Ring
variable {s : State} {c : Chip}

theorem exec_crEnable_of_reaches {ag : Agent} (hr : s.chip.reaches ag Reg.CR_CTRL = true) :
    exec (.crEnable ag) s = .next (s.withChip (s.chip.crEnable.emit (.regDone ag Reg.CR_CTRL))) :=
  exec_ungated_access_of_reaches rfl hr (by decide) rfl

/-- The chip whose ring starts from its first entry. -/
def Chip.ringStart (c : Chip) : Chip :=
  ({ c with kpr := { c.kpr with sqSeen := 0, sqFetched := 0, cqWritten := 0, cqRead := 0 } } : Chip).setBit Reg.CR_CTRL
    Bit.CR_CTRL_EN

theorem Chip.crEnable_of_off (hon : c.crOn = false) : c.crEnable = c.ringStart := by
  simp only [Chip.crEnable, hon, Bool.false_eq_true, if_false]
  rfl

theorem exec_crDisable_of_reaches {ag : Agent} (hr : s.chip.reaches ag Reg.CR_CTRL = true) (hon : s.chip.crOn = true) :
    exec (.crDisable ag) s = .next (s.withChip (s.chip.crStop.emit (.regDone ag Reg.CR_CTRL))) :=
  exec_ungated_access_of_reaches rfl hr (by decide) (if_pos hon)

theorem exec_crDb_of_reaches {ag : Agent} (sq cq : Nat) (hr : s.chip.reaches ag Reg.CR_DB = true) :
    exec (.crDb ag sq cq) s = .next (s.withChip ((s.chip.crDoorbell sq cq).emit (.regDone ag Reg.CR_DB))) :=
  exec_ungated_access_of_reaches rfl hr (by decide) rfl

theorem Chip.crDoorbell_in_range {sq cq : Nat} (hon : c.crOn = true) (hsq : sq < 65536) (ha : ahead16 sq c.kpr.sqSeen = true)
    (hsize : modSub (2 ^ 16) sq c.kpr.sqFetched ≤ c.crSize)
    (hcq : modSub (2 ^ 16) cq c.kpr.cqRead ≤ modSub (2 ^ 16) c.kpr.cqWritten c.kpr.cqRead) :
    c.crDoorbell sq cq = { c with kpr := { c.kpr with cqRead := cq % 2 ^ 16, sqSeen := sq } } := by
  have hsize' : modSub (2 ^ 16) sq c.kpr.sqFetched ≤ ({ c with kpr := { c.kpr with cqRead := cq % 2 ^ 16 } } : Chip).crSize := hsize
  have hmod : sq % 2 ^ 16 = sq := Nat.mod_eq_of_lt hsq
  simp only [Chip.crDoorbell, hon, Bool.not_true, Bool.false_eq_true, if_false, hcq, if_true, ha, hsize', decide_true, Bool.and_self,
    hmod]

/-- A doorbell that is not ahead sets DB_RANGE; it may still report records that the host has consumed. -/
theorem Chip.crDoorbell_behind {sq : Nat} (cq : Nat) (hon : c.crOn = true) (ha : ahead16 sq c.kpr.sqSeen = false) :
    ∃ q : Kpr, q.sqSeen = c.kpr.sqSeen ∧
      c.crDoorbell sq cq = ({ c with kpr := q } : Chip).setBit Reg.KPR_EVENT Bit.KPR_EVENT_DB_RANGE := by
  by_cases hcq : modSub (2 ^ 16) cq c.kpr.cqRead ≤ modSub (2 ^ 16) c.kpr.cqWritten c.kpr.cqRead
  · refine ⟨{ c.kpr with cqRead := cq % 2 ^ 16 }, rfl, ?_⟩
    simp only [Chip.crDoorbell, hon, Bool.not_true, Bool.false_eq_true, if_false, hcq, if_true, ha, Bool.false_and]
  · refine ⟨c.kpr, rfl, ?_⟩
    simp only [Chip.crDoorbell, hon, Bool.not_true, Bool.false_eq_true, if_false, hcq, ha, Bool.false_and]

theorem State.pumpK_of_idle (hb : s.chip.kpr.busy = none) : s.pumpK = s := by
  simp only [State.pumpK, hb]

theorem Chip.ringReady_of (hb : c.kpr.busy = none) (hs : c.kpr.sqSeen ≠ c.kpr.sqFetched)
    (hf : modSub (2 ^ 16) c.kpr.cqWritten c.kpr.cqRead < c.crCqSize) : c.ringReady = true := by
  simpa [Chip.ringReady, hb, hs] using hf

/-- The chip that has read the next entry of the ring. -/
def Chip.entryRead (c : Chip) : Chip :=
  c.emit (.hostRead c.manager (c.pair Reg.CR_SQ_BASE_LO Reg.CR_SQ_BASE_HI + 64 * (c.kpr.sqFetched % c.crSize)) 64)

theorem State.fetchK_of_ready (b : List Byte) (bars : List (Nat × Nat × Nat)) (fn : FnInfo) (data : List Byte)
    (hk : s.chip.keeperServes = true) (hon : s.chip.crOn = true) (hr : s.chip.ringReady = true) (hl : s.chip.managerLink = true) :
    s.fetchK (some b) bars fn data = (s.withChip s.chip.entryRead).submitK (entryHead b false) (entryCmd b bars fn data) := by
  have hl' : s.chip.entryRead.managerLink = true := hl
  simp only [Chip.entryRead] at hl'
  simp only [State.fetchK, hk, hon, hr, Bool.not_true, Bool.or_self, Bool.false_eq_true, if_false, hl', if_true]
  rfl

theorem State.submitK_of_idle (h : KHead) (k : KCmd) (hb : s.chip.kpr.busy = none) : s.submitK h k = s.startK h k := by
  simp [State.submitK, hb]

theorem State.mctpCommand_of_image {entry data : List Byte} (hk : s.chip.keeperServes = true)
    (ha : s.chip.pwr.addrSel.isSome = true) (hc : isImageCode (entryCmd entry [] {} data).code = true) :
    s.mctpCommand entry data = s.submitK (entryHead entry true) (entryCmd entry [] {} data) := by
  simp [State.mctpCommand, hk, ha, hc]

end Ring

/-- Settles O40: the ring by its two registers, its fetch and the entry on I3C. -/
theorem commandRingRuns : Obligations.CommandRingRuns := by
  refine ⟨fun s ag hr hon => ?_, fun s ag hr hon => exec_crDisable_of_reaches hr hon, fun s ag sq cq hr hon hsq ha hsize hcq => ?_,
    fun s ag sq cq hr hon ha => ?_, fun s b bars fn data hk hon hb hs hf hl => ?_, fun c h => ⟨fun hm => ?_, fun hm => ?_,
      c.fetchedK_regs h, c.fetchedK_out h⟩, fun s entry data hk ha hc => ?_⟩
  · refine ⟨_, exec_crEnable_of_reaches hr, ?_⟩
    rw [Chip.crEnable_of_off hon]
    exact ⟨Chip.flag_setBit_same _ _ _ (by decide) (by decide), rfl, rfl, rfl, rfl, rfl, rfl,
      fun o ho => Chip.rd_setBit_other _ _ ho⟩
  · refine ⟨_, exec_crDb_of_reaches sq cq hr, ?_⟩
    rw [Chip.crDoorbell_in_range hon hsq ha hsize hcq]
    exact ⟨rfl, rfl, rfl, rfl, rfl, rfl⟩
  · obtain ⟨q, hseen, heq⟩ := Chip.crDoorbell_behind cq hon ha
    refine ⟨_, exec_crDb_of_reaches sq cq hr, ?_⟩
    rw [heq]
    exact ⟨hseen, Chip.flag_setBit_same _ _ _ (by decide) (by decide), fun o ho => Chip.rd_setBit_other _ _ ho⟩
  · have hexec : exec (.keeperCommandFetch (some b) bars fn data) s = .next (s.pumpK.fetchK (some b) bars fn data) := rfl
    rw [hexec, State.pumpK_of_idle hb, State.fetchK_of_ready b bars fn data hk hon (Chip.ringReady_of hb hs hf) hl,
      State.submitK_of_idle (s := s.withChip s.chip.entryRead) _ _ hb]
    rfl
  · simp only [Chip.fetchedK, hm, Bool.false_eq_true, if_false]
  · exact if_pos hm
  · exact congrArg Host.Outcome.next (State.mctpCommand_of_image hk ha hc)

end Sys2Proof.Machine
end

section
/-!
PROOFS. Register messages of the management ports (R378, R477) and the commands of the Fog (R350 to R358, R366, R480).
-/
namespace Sys2Proof.Machine

/-! ## Register messages (R477) -/

section Messages
variable {s : State} {k : Nat}

theorem State.regReadMsg_of_runs {addr count : Nat} (hb : s.chip.busRuns (.mgmt k) = true) (hr : s.chip.inRecovery = false)
    (h1 : 1 ≤ count) (h16 : count ≤ 16) (hh : s.chip.msgHeld k addr count = false) : s.regReadMsg k addr count =
      s.withChip ((s.chip.regReads k addr count).1.emit (.mctp k (s.chip.regReads k addr count).2)) := by
  simp only [State.regReadMsg, hb, hr, h1, h16, hh, and_self, decide_true, Bool.not_true, Bool.or_self, Bool.false_eq_true, if_false]
  rfl

theorem State.regWriteMsg_of_runs {addr : Nat} {data : List Nat} (hb : s.chip.busRuns (.mgmt k) = true)
    (hr : s.chip.inRecovery = false) (h1 : 1 ≤ data.length) (h16 : data.length ≤ 16)
    (hh : s.chip.msgHeld k addr data.length = false) : s.regWriteMsg k addr data =
      (s.regWrites k addr data).withChip ((s.regWrites k addr data).chip.emit (.mctp k [])) := by
  simp only [State.regWriteMsg, hb, hr, h1, h16, hh, and_self, decide_true, Bool.not_true, Bool.or_self, Bool.false_eq_true, if_false]
  rfl

/-- In recovery the Keeper takes no register message (R378). -/
theorem State.regMsg_of_recovery (hr : s.chip.inRecovery = true) (addr count : Nat) (data : List Nat) :
    s.regReadMsg k addr count = s ∧ s.regWriteMsg k addr data = s := by
  simp only [State.regReadMsg, State.regWriteMsg, hr, Bool.or_true, Bool.true_or, if_true, and_self]

/-- What an access needs to reach its register, condition by condition. -/
theorem Chip.reaches_iff {c : Chip} {ag : Agent} {off : Nat} : c.reaches ag off = true ↔
    c.busRuns ag = true ∧ c.keeperBusy ag = false ∧ c.islandHeld off = false ∧ c.busUpset off = false ∧ c.sees ag off = .full := by
  simp [Chip.reaches, and_assoc]

theorem Chip.msgHeld_of_reaches {c : Chip} {off : Nat} (h : c.reaches (.mgmt k) off = true) : c.msgHeld k off 1 = false := by
  obtain ⟨-, -, hh, -⟩ := Chip.reaches_iff.mp h
  simp [Chip.msgHeld, hh]

/-- A read that reaches a register that is no half of a pair returns its view. -/
theorem Chip.busRead_of_reaches {c : Chip} {ag : Agent} {off : Nat} (h : c.reaches ag off = true) (hp : pairAt off = 0) :
    c.busRead ag off = (c.openGate off, some ((c.openGate off).regView off)) := by
  obtain ⟨hb, hk, hh, hu, hs⟩ := Chip.reaches_iff.mp h
  have hview : (c.openGate off).regRead ag off = (c.openGate off, (c.openGate off).regView off) := by
    simp [Chip.regRead, hp]
  simp [Chip.busRead, hb, hk, hh, hu, hs, hview]

theorem Chip.regReads_one {c : Chip} {off : Nat} (h : c.reaches (.mgmt k) off = true) (hp : pairAt off = 0) :
    c.regReads k off 1 = (c.openGate off, leBytes 4 ((c.openGate off).regView off).toNat) := by
  simp only [Chip.regReads, Chip.busRead_of_reaches h hp, Option.getD_some, List.append_nil]

/-- A write that reaches a register without a rule of its own is the plain write. -/
theorem State.writeReg_plain {ag : Agent} {off : Nat} {w : Word} {row : RegRow} {ix : List Nat}
    (h : s.chip.reaches ag off = true) (hrow : regAt off = some (row, ix))
    (hn : (s.chip.openGate off).ownRule s.logRecord ag off row w = none) : s.writeReg ag off w =
      s.withChip (((s.chip.openGate off).plainWrite ag off row w).emit (.regDone ag off)) := by
  have hplain : (s.chip.openGate off).regWrite s.logRecord ag off w = (s.chip.openGate off).plainWrite ag off row w := by
    rw [Chip.regWrite_of_some _ _ ag _ hrow, hn, Option.getD_none]
  exact congrArg s.withChip ((s.chip.busWriteW_of_reaches ag off w _ h).trans (congrArg (fun c => c.emit (.regDone ag off)) hplain))

end Messages

/-- Settles O12: a message by its registers, one register by its access, and none in recovery. -/
theorem registerMessagesReachTheBus : Obligations.RegisterMessagesReachTheBus := by
  refine ⟨fun s k addr count hb hr h1 h16 hh => congrArg Host.Outcome.next (State.regReadMsg_of_runs hb hr h1 h16 hh),
    fun s k addr h hr hp => ?_, fun s k addr data hb hr h1 h16 hh => congrArg Host.Outcome.next
      (State.regWriteMsg_of_runs hb hr h1 h16 hh), fun s k addr d row ix h hr hrow hn => ?_, fun s k addr count data hr => ?_⟩
  · have hmsg := State.regReadMsg_of_runs (Chip.reaches_iff.mp h).left hr (Nat.le_refl 1) (by omega) (Chip.msgHeld_of_reaches h)
    rw [Chip.regReads_one h hp] at hmsg
    exact congrArg Host.Outcome.next hmsg
  · have hmsg := State.regWriteMsg_of_runs (data := [d]) (Chip.reaches_iff.mp h).left hr (Nat.le_refl 1) (Nat.one_le_ofNat)
      (Chip.msgHeld_of_reaches h)
    have hwrite : s.regWrites k addr [d] = s.writeReg (.mgmt k) addr (BitVec.ofNat 32 d) := rfl
    rw [hwrite, State.writeReg_plain h hrow hn] at hmsg
    exact congrArg Host.Outcome.next hmsg
  · obtain ⟨hread, hwrite⟩ := State.regMsg_of_recovery (s := s) (k := k) hr addr count data
    exact ⟨congrArg Host.Outcome.next hread, congrArg Host.Outcome.next hwrite⟩

/-! ## FOG_CMD and FOG_RELEASE (R357, R358, R480) -/

section FogCommands
variable {s : State} {ag : Agent}

theorem exec_fogCmd_of_reaches {i : Instr} {act : Chip → Chip} {d : Chip}
    (hi : exec i s = .next (s.withChip (s.chip.busWrite ag Reg.FOG_CMD act))) (h : s.chip.reaches ag Reg.FOG_CMD = true)
    (hd : act s.chip = d) : exec i s = .next (s.withChip (d.emit (.regDone ag Reg.FOG_CMD))) :=
  exec_ungated_access_of_reaches hi h (by decide) hd

theorem Chip.fogClear_ends {c : Chip} (p : Nat) (h : c.inModFog = false) : c.fogClear p false = c.endPortFog p := by
  simp only [Chip.fogClear, h, Bool.or_self, Bool.false_eq_true, if_false]

theorem Chip.fogClear_refused {c : Chip} (p : Nat) {trigger : Bool} (h : c.inModFog = true ∨ trigger = true) :
    c.fogClear p trigger = c.setBit Reg.SAF_EVENT Bit.SAF_EVENT_FOG_CMD_REFUSED :=
  if_pos (Bool.or_eq_true_iff.mpr h)

theorem exec_fogRelease (params : List Nat) (pecOk : Bool) :
    exec (.fogRelease params pecOk) s = .next (s.withChip (s.chip.fogRelease params pecOk)) := rfl

variable {c : Chip} (hl : c.lampAnswers = true)
include hl

theorem Chip.fogRelease_in_fog (hf : c.inModFog = true) (hk : c.keeperRuns = true) (hp : c.pwrState ≠ 2) :
    c.fogRelease [0xC3] true =
      (({ c with kpr := { c.kpr with fogRelease := true } } : Chip).keeperReset 3).lampStatus 0 := by
  have hk' : (({ c with kpr := { c.kpr with fogRelease := true } } : Chip).keeperRuns &&
      ({ c with kpr := { c.kpr with fogRelease := true } } : Chip).pwrState != 2) = true :=
    Bool.and_eq_true_iff.mpr ⟨hk, bne_iff_ne.mpr hp⟩
  simp only [Chip.fogRelease, hl, hf, hk', Bool.not_true, Bool.false_eq_true, if_false, if_true, ne_eq, not_true_eq_false]

theorem Chip.fogRelease_outside (hf : c.inModFog = false) : c.fogRelease [0xC3] true = c.lampStatus 2 := by
  simp only [Chip.fogRelease, hl, hf, Bool.not_true, Bool.not_false, Bool.false_eq_true, if_false, if_true, ne_eq, not_true_eq_false]

theorem Chip.fogRelease_badCount : c.fogRelease [] true = c.lampStatus 1 := by
  simp [Chip.fogRelease, hl]

theorem Chip.fogRelease_badPec (params : List Nat) : c.fogRelease params false = c.lampStatus 4 := by
  simp [Chip.fogRelease, hl]

end FogCommands

/-! ## Fault injection (R366) -/

section Inject
variable {c : Chip} (ag : Agent) {cls p : Nat}

theorem exec_injectGo_of_reaches {s : State} (h : s.chip.reaches ag Reg.INJECT = true) {d : Chip}
    (hd : s.chip.injectGo ag (injectWord cls p) = d) :
    exec (.injectGo ag cls p) s = .next (s.withChip (d.emit (.regDone ag Reg.INJECT))) :=
  exec_ungated_access_of_reaches rfl h (by decide) hd

theorem injectWord_class (hc : cls < 16) : getF (injectWord cls p) Bit.INJECT_CLASS = cls := by
  rw [injectWord, getF_setF_other _ _ _ _ (by decide) (by decide), getF_setF_other _ _ _ _ (by decide) (by decide),
    getF_setF_same _ _ _ (by decide)]
  exact Nat.mod_eq_of_lt hc

theorem injectWord_port (hp : p < 128) : getF (injectWord cls p) Bit.INJECT_PORT = p := by
  rw [injectWord, getF_setF_other _ _ _ _ (by decide) (by decide), getF_setF_same _ _ _ (by decide)]
  exact Nat.mod_eq_of_lt hp

/-- The chip whose INJECT holds a class and a port, with a pending injection or none. -/
def Chip.injecting (c : Chip) (cls p : Nat) (pending : Option (Nat × Nat)) : Chip :=
  { (c.setFld Reg.INJECT Bit.INJECT_CLASS cls).setFld Reg.INJECT Bit.INJECT_PORT p with saf := { c.saf with inject := pending } }

/-- An injection by its class: LOCKSTEP happens at once, seven others wait for their event, and no other does anything. -/
theorem Chip.injectGo_unlocked (hl : c.flag Reg.SAF_CTRL Bit.SAF_CTRL_LOCK = false) (hc : cls < 16) (hp : p < 128) :
    c.injectGo ag (injectWord cls p) =
      if cls = 7 then (c.injecting cls p none).lockstep
      else if 1 ≤ cls ∧ cls ≤ 8 then (c.injecting cls p (some (cls, p))).log .injected [cls, p]
      else c.injecting cls p none := by
  simp only [Chip.injectGo, hl, Bool.false_eq_true, if_false, injectWord_class hc, injectWord_port hp]
  rfl

theorem Chip.injectGo_locked (w : Word) (hl : c.flag Reg.SAF_CTRL Bit.SAF_CTRL_LOCK = true) :
    c.injectGo ag w = c.log .rwlIgnored [Reg.INJECT, ag.num] [w.toNat] := if_pos hl

end Inject

/-! ## Later causes (R356) -/

section Later
variable {c : Chip}

theorem Chip.SameButLog.out {a b : Chip} (h : a.SameButLog b) : b.out = a.out := (congrArg Chip.out h.rest :)
theorem Chip.SameButLog.sw {a b : Chip} (h : a.SameButLog b) : b.sw = a.sw := (congrArg Chip.sw h.rest :)
theorem Chip.SameButLog.mor {a b : Chip} (h : a.SameButLog b) : b.mor = a.mor := (congrArg Chip.mor h.rest :)
theorem Chip.SameButLog.pci {a b : Chip} (h : a.SameButLog b) : b.pci = a.pci := (congrArg Chip.pci h.rest :)

/-- What is no register of the log is none of its three. -/
theorem not_isLogReg {o : Nat} (hseq : o ≠ Reg.LOG_SEQ) (hst : o ≠ Reg.LOG_STATUS) (hev : o ≠ Reg.LOG_EVENT) : ¬ isLogReg o := by
  rintro (h | h | h)
  · exact hseq h
  · exact hst h
  · exact hev h

theorem Chip.moduleFog_later (cause index : Nat) (h : c.inModFog = true) :
    c.moduleFog cause index = (c.holdBoot cause).log .fogLater [128] [cause] := if_pos h

theorem Chip.portFog_later {p : Nat} (cause : Nat) (h : c.inPortFog p = true) :
    c.portFog p cause = c.log .fogLater [p] [cause] := if_pos h

/-- A cause that holds the release of a boot stands in the state of Safe alone. -/
theorem Chip.holdBoot_cases (c : Chip) (cause : Nat) : ∃ x, c.holdBoot cause = { c with saf := x } := by
  unfold Chip.holdBoot
  split
  · exact ⟨_, rfl⟩
  · exact ⟨_, rfl⟩

end Later

/-- Settles O49: each command by its register or its answer; a later cause leaves its record alone. -/
theorem fogCommandsComplete : Obligations.FogCommandsComplete := by
  refine ⟨fun s ag p h => ⟨fun hp => exec_fogCmd_of_reaches rfl h (if_pos hp),
      fun hf => exec_fogCmd_of_reaches rfl h (Chip.fogClear_ends p hf),
      fun _ ht => exec_fogCmd_of_reaches rfl h (Chip.fogClear_refused p ht), exec_fogCmd_of_reaches rfl h rfl⟩,
    fun s hl hf hk hp => ?_, fun s hl hf => ?_, fun s hl => ⟨?_, ?_⟩, fun s ag cls p h hl h1 h8 h7 hp => ?_, fun s ag p h hl hp => ?_,
    fun s ag cls p h hl hc h16 hp => ?_, fun s ag cls p h hl => ?_, fun c p cause index => ⟨fun hm => ?_, fun hp => ?_⟩⟩
  · rw [exec_fogRelease, Chip.fogRelease_in_fog hl hf hk hp]
  · rw [exec_fogRelease, Chip.fogRelease_outside hl hf]
  · rw [exec_fogRelease, Chip.fogRelease_badCount hl]
  · rw [exec_fogRelease, Chip.fogRelease_badPec hl]
  · refine exec_injectGo_of_reaches ag h ((Chip.injectGo_unlocked ag hl (by omega) hp).trans ?_)
    rw [if_neg h7, if_pos ⟨h1, h8⟩]
    rfl
  · exact exec_injectGo_of_reaches ag h ((Chip.injectGo_unlocked ag hl (by omega) hp).trans (if_pos rfl))
  · refine exec_injectGo_of_reaches ag h ((Chip.injectGo_unlocked ag hl h16 hp).trans ?_)
    rw [if_neg (by omega), if_neg (by omega)]
    rfl
  · exact exec_injectGo_of_reaches ag h (Chip.injectGo_locked ag _ hl)
  · obtain ⟨x, hx⟩ := c.holdBoot_cases cause
    rw [Chip.moduleFog_later cause index hm, hx]
    have hsame := Chip.SameButLog.log { c with saf := x } .fogLater [128] [cause]
    exact ⟨hsame.regs _ (not_isLogReg (by decide) (by decide) (by decide)), (Chip.flag_log _ _ _ _ _ (not_isLogReg (by decide) (by decide) (by decide))).trans hm, hsame.out, hsame.sw, hsame.mor, hsame.pci,
      fun o hseq hst hev => hsame.regs o (not_isLogReg hseq hst hev)⟩
  · rw [Chip.portFog_later cause hp]
    have hsame := Chip.SameButLog.log c .fogLater [p] [cause]
    exact ⟨hsame.out, hsame.pci, fun o hseq hst hev => hsame.regs o (not_isLogReg hseq hst hev)⟩

end Sys2Proof.Machine
end

section
/-!
PROOFS. What the resets and the power states keep of power entry (R408, R422, R423, R439, R445), and the management connector
(R473 to R476, R480, R481, R488).
-/
namespace Sys2Proof.Machine

/-! ## What steps of the Lamp Room keep of power entry -/

section PowerFrame
variable (c : Chip)

/-- A sequence of steps leaves of power entry what each of them leaves. -/
theorem Chip.foldl_pwr {α : Type} {f : Chip → α → Chip} (h : ∀ c x, (f c x).pwr = c.pwr) (l : List α) (c : Chip) :
    (l.foldl f c).pwr = c.pwr :=
  List.foldlRecOn (motive := fun d : Chip => d.pwr = c.pwr) l f rfl fun d hd x _ => (h d x).trans hd

/-- The accesses that end change two registers, what waits, and what leaves the module. -/
theorem Chip.abortHeld_eq (sel : Nat → Bool) : ∃ r h o, c.abortHeld sel = { c with regs := r, heldAcc := h, out := o } := by
  unfold Chip.abortHeld
  dsimp only
  split
  · exact ⟨c.regs, c.heldAcc, c.out, rfl⟩
  · refine List.foldlRecOn (motive := fun d : Chip => ∃ r h o, d = { c with regs := r, heldAcc := h, out := o }) _ _
      ⟨_, _, _, rfl⟩ fun d hd h _ => ?_
    obtain ⟨r, h', o, rfl⟩ := hd
    split
    all_goals exact ⟨_, _, _, rfl⟩

theorem Chip.rd_abortHeld_other (sel : Nat → Bool) {o : Nat} (he : o ≠ Reg.CLK_EVENT) (hl : o ≠ Reg.GATE_LOG) :
    (c.abortHeld sel).rd o = c.rd o := by
  unfold Chip.abortHeld
  dsimp only
  split
  · rfl
  · refine List.foldlRecOn (motive := fun d : Chip => d.rd o = c.rd o) _ _ (Chip.rd_setBit_other _ _ he) fun d hd h _ => ?_
    split
    all_goals exact (Chip.rd_wr_other _ _ hl).trans hd

/-- What the Lamp Room and the power-entry controller hold while the islands behind the regulators are without power. -/
def Pwr.lampRoom (w : Pwr) : Pwr :=
  { standby := w.standby, present := w.present, pgood := w.pgood, resetLow := w.resetLow, ckg := w.ckg, pweNv := w.pweNv
    ovHold := w.ovHold, railLow := w.railLow, hourNs := w.hourNs, cal := w.cal, inlet := w.inlet, pole1 := w.pole1
    pole2 := w.pole2, lost := allIslands ++ w.lost.filter (· == 89), low := w.low, warnHold := w.warnHold, addrSel := w.addrSel
    dyn := w.dyn, lrStatus := w.lrStatus }

/-- The islands have lost their state: the registers but the Lamp Room's are at their reset words, and everything else the islands
held is gone. -/
structure Chip.IslandsLost (a b : Chip) : Prop where
  regs : b.regs = ((a.abortHeld fun _ => true).resetWhere fun o => !lampOff o).regs
  pwr : b.pwr = a.pwr.lampRoom
  watchTime : b.watchTime = a.watchTime
  tabA : b.tabA = []
  sw : b.sw = {}
  mor : b.mor = {}
  rly : b.rly = {}

theorem Chip.IslandsLost.emit {a b : Chip} (h : a.IslandsLost b) (o : Out) : a.IslandsLost (b.emit o) :=
  ⟨h.regs, h.pwr, h.watchTime, h.tabA, h.sw, h.mor, h.rly⟩

theorem Chip.islandsOff_lost : c.IslandsLost c.islandsOff := by
  obtain ⟨r, h, o, heq⟩ := c.abortHeld_eq fun _ => true
  unfold Chip.islandsOff
  extract_lets d down drove w tel n n'
  have hn : c.IslandsLost n := ⟨rfl, (congrArg (fun d : Chip => d.pwr.lampRoom) heq :), (congrArg Chip.watchTime heq :),
    rfl, rfl, rfl, rfl⟩
  have hn' : c.IslandsLost n' := by
    unfold n'
    split
    · exact hn
    · exact hn.emit _
  exact List.foldlRecOn (motive := fun e : Chip => c.IslandsLost e) _ _ hn' fun _ he _ _ => he.emit _

theorem Chip.reclock_dyn : c.reclock.pwr.dyn = c.pwr.dyn := by
  unfold Chip.reclock
  split <;> rfl

theorem Chip.startAgain_dyn : c.startAgain.pwr.dyn = c.pwr.dyn := by
  unfold Chip.startAgain
  extract_lets d src w e
  have hd : d.pwr.dyn = c.pwr.dyn := congrArg Pwr.dyn (Chip.satInc_pwr ..)
  have he : e.pwr.dyn = c.pwr.dyn := (Chip.reclock_dyn _).trans hd
  split
  · exact he
  · exact he

theorem Chip.resetFall_dyn : c.resetFall.pwr.dyn = c.pwr.dyn := by
  have hoff : ∀ d : Chip, d.islandsOff.pwr.dyn = d.pwr.dyn := fun d => (congrArg Pwr.dyn d.islandsOff_lost.pwr :)
  unfold Chip.resetFall
  split
  · rfl
  · dsimp only
    split
    · split
      · exact hoff _
      · exact hoff _
    · rfl

theorem Chip.resetRise_dyn : c.resetRise.pwr.dyn = c.pwr.dyn := by
  unfold Chip.resetRise
  split
  · dsimp only
    split
    · exact Chip.startAgain_dyn _
    · rfl
  · rfl

theorem Chip.emptyVbr_feeds (v i : Nat) : (c.emptyVbr v i).feeds = c.feeds :=
  Chip.foldl_feeds (fun d f => d.clrFld_feeds f (feedB_lt_at_at (by decide) _ _)) _ _

theorem Chip.removeHost_feeds (h : HostBind) : (c.removeHost h).feeds = c.feeds := by
  unfold Chip.removeHost
  extract_lets rid d e src f g k shown m
  have hd : d.feeds = c.feeds := Chip.foldl_feeds (fun d s => by split <;> simp) _ _
  have he : e.feeds = d.feeds := 
    Chip.foldl_feeds (f := fun (d : Chip) (b : BarSt) => d.invalidateWin b.win) (fun d b => Chip.invalidateWin_feeds d b.win) h.bars d
  have hg : g.feeds = f.feeds := by simp only [g, Chip.updFlrBusy_feeds, Chip.disarm_feeds]
  have hk : k.feeds = c.feeds := hg.trans (he.trans hd)
  split
  · exact hk
  · have hm : m.feeds = c.feeds := (Chip.emptyVbr_feeds _ _ _).trans hk
    split
    · exact (Chip.hotplug_feeds _ _ _ _ _).trans hm
    · exact hm

theorem Chip.keeperReset_pwr (cause : Nat) : (c.keeperReset cause).pwr = c.pwr := by
  unfold Chip.keeperReset
  extract_lets d e f src g
  have hg : g.pwr = c.pwr := Chip.satInc_pwr ..
  have hfold := Chip.pwr_of_feeds (Chip.foldl_feeds (fun d h => d.removeHost_feeds h) (g.vsi.hosts.filter fun h => h.probe.isSome) g)
  exact (Chip.pwr_of_feeds (Chip.syncFogN_feeds _)).trans (hfold.trans hg)

theorem Chip.listenMode_pwr : c.listenMode.pwr = c.pwr := by
  have hlose : ∀ (d : Chip) (r : Nat), (d.loseLock r).pwr = d.pwr := fun d r => Chip.satInc_pwr ..
  have hring : ∀ (d : Chip) (r : Nat) (x : Ring), (d.putRing r x).pwr = d.pwr := by
    intro d r x
    unfold Chip.putRing
    split <;> rfl
  refine (Chip.foldl_pwr (fun d r => ?_) _ _).trans (c.clrFld_pwr ..)
  dsimp only
  split
  · rw [hlose, hring]
  · rw [hring]

theorem Chip.startRestore_dyn : c.startRestore.pwr.dyn = c.pwr.dyn :=
  (congrArg Pwr.dyn (Chip.log_pwr ..) :)

theorem Chip.darkEnter_dyn : c.darkEnter.pwr.dyn = c.pwr.dyn := by
  unfold Chip.darkEnter
  extract_lets d l src e f g
  have hd : d.pwr.dyn = c.pwr.dyn :=
    congrArg Pwr.dyn ((Chip.listenMode_pwr _).trans ((Chip.setFld_pwr ..).trans (Chip.log_pwr ..)))
  have hf : f.pwr.dyn = c.pwr.dyn := (congrArg Pwr.dyn (Chip.foldl_pwr (fun d n => d.ctrInc_pwr kMc n 5) _ _)).trans hd
  split
  · exact hf
  · refine (Chip.startRestore_dyn _).trans ?_
    exact (congrArg Pwr.dyn (Chip.foldl_pwr (fun d i => d.wr_pwr _ _) _ _)).trans hf

/-- The end of a restore: no step of DARK is in progress, and no change of operating point. -/
theorem Chip.restored_pwr : ∃ g, c.restored.pwr =
    { c.pwr with darkStep := 0, restoreStep := 0, standbyQuads := [], opp := [], gated := g } := by
  unfold Chip.restored
  extract_lets t w d e f g k
  have hfold : k.pwr = g.pwr := Chip.foldl_pwr (fun d s => Chip.setFld_pwr ..) _ _
  exact ⟨_, (Chip.log_pwr ..).trans ((Chip.setFld_pwr ..).trans hfold)⟩

theorem Chip.restored_dyn : c.restored.pwr.dyn = c.pwr.dyn := by
  obtain ⟨g, hg⟩ := c.restored_pwr
  rw [hg]

/-- What survives without power, registers apart. -/
def Chip.bare (c : Chip) : Chip :=
  { out := c.out, freeCtr := c.freeCtr, kpr := c.kpr.fuses, tel := c.tel.inFlash
    pci := { prsnt := c.pci.prsnt, cableId := c.pci.cableId, perstIn := c.pci.perstIn }
    saf := { pinOutside := c.saf.pinOutside }
    pwr := { pweNv := c.pwr.pweNv, lost := allIslands } }

theorem Chip.unpowered_eq : ∃ r, c.unpowered = { c.bare with regs := r } := by
  have hwr : ∀ (o : Nat) (w : Word) (d : Chip), (∃ r, d = { c.bare with regs := r }) → ∃ r, d.wr o w = { c.bare with regs := r } := by
    rintro o w d ⟨r, rfl⟩
    exact ⟨_, rfl⟩
  unfold Chip.unpowered
  refine hwr _ _ _ (hwr _ _ _ (hwr _ _ _ (hwr _ _ _ ?_)))
  exact List.foldlRecOn (motive := fun d : Chip => ∃ r, d = { c.bare with regs := r }) pweOffs _ ⟨_, rfl⟩
    fun d hd o _ => hwr _ _ _ hd

theorem Chip.unpowered_pwr : c.unpowered.pwr = { pweNv := c.pwr.pweNv, lost := allIslands } := by
  obtain ⟨r, h⟩ := c.unpowered_eq
  rw [h]
  rfl

theorem Chip.setModel_pwr (t : Int) : ∃ a b, (c.setModel t).pwr = { c.pwr with pole1 := a, pole2 := b } := by
  unfold Chip.setModel
  dsimp only
  split
  · exact ⟨_, _, rfl⟩
  · exact ⟨_, _, rfl⟩

/-- The standby converter's start sets its own state and the model of the FET. -/
theorem Chip.standbyStart_pwr (diode inlet : Int) : ∃ a b, (c.standbyStart diode inlet).pwr =
    { c.pwr with standby := true, inlet := inlet, pole1 := a, pole2 := b } := by
  unfold Chip.standbyStart
  extract_lets w d e
  split
  · exact ⟨_, _, rfl⟩
  · obtain ⟨a, b, he⟩ : ∃ a b, e.pwr = { d.pwr with pole1 := a, pole2 := b } := Chip.setModel_pwr ..
    split
    · exact ⟨a, b, he⟩
    · exact ⟨a, b, he⟩

/-- One feed returns to a module: a power cycle is counted. -/
def Chip.fed (c : Chip) (feed : Nat) : Chip :=
  { c.wr Reg.POWER_CYCLES (c.rd Reg.POWER_CYCLES + 1) with pwr := { c.pwr with present := [feed] } }

theorem Chip.fed_frame (feed : Nat) : (c.fed feed).rd Reg.POWER_CYCLES = c.rd Reg.POWER_CYCLES + 1 ∧
    (c.fed feed).watchTime = c.watchTime ∧ (c.fed feed).mor = c.mor ∧ (c.fed feed).pwr = { c.pwr with present := [feed] } :=
  ⟨Chip.rd_wr_same .., rfl, rfl, rfl⟩

theorem Chip.powerOn_of_off {feed : Nat} (diode inlet : Int) (hs : c.pwr.standby = false) (hf : feed < 2) :
    c.powerOn feed diode inlet = ((((c.unpowered.fed feed).standbyStart diode inlet).emit (.pin .fogN false)).arm .crystal
      (10 * ms)).arm .bootHold (250 * ms) :=
  if_neg (by simp [hs, hf])

theorem Chip.powerOn_pwr {feed : Nat} (diode inlet : Int) (hs : c.pwr.standby = false) (hf : feed < 2) :
    ∃ a b, (c.powerOn feed diode inlet).pwr =
      { pweNv := c.pwr.pweNv, lost := allIslands, present := [feed], standby := true, inlet := inlet, pole1 := a, pole2 := b } := by
  obtain ⟨a, b, h⟩ := (c.unpowered.fed feed).standbyStart_pwr diode inlet
  obtain ⟨-, -, -, hfed⟩ := c.unpowered.fed_frame feed
  rw [hfed, c.unpowered_pwr] at h
  rw [c.powerOn_of_off diode inlet hs hf]
  exact ⟨a, b, h⟩

end PowerFrame

end Sys2Proof.Machine
end

section
/-!
PROOFS. The management connector (R473 to R476, R480, R481, R488).
-/
namespace Sys2Proof.Machine

/-! ## ADDR_SEL, MATE_N and the dynamic addresses (R474 to R476, R488) -/

section Addresses
variable {c : Chip}

theorem Chip.mateLatch_first (sel : Nat) (hs : c.pwr.standby = true) (hn : c.pwr.addrSel = none) :
    c.mateLatch sel = { c with pwr := { c.pwr with addrSel := some (sel % 8) } } := by
  simp only [Chip.mateLatch, hs, hn, Option.isNone_none, Bool.and_self, if_true]

theorem Chip.mateLatch_again (sel : Nat) {n : Nat} (hn : c.pwr.addrSel = some n) : c.mateLatch sel = c := by
  simp only [Chip.mateLatch, hn, Option.isNone_some, Bool.and_false, Bool.false_eq_true, if_false]

theorem State.mateLost_of_lit {s : State} (hb : s.chip.busRuns .keeper = true) (hp : s.chip.pwrState < 2) :
    s.mateLost = (s.withChip (s.chip.log .mateLost [])).keepWrite keepMate :=
  if_pos (by simp [hb, hp])

/-- The chip whose dynamic addresses are others. -/
def Chip.withDyn (c : Chip) (d : SMap Nat) : Chip := { c with pwr := { c.pwr with dyn := d } }

theorem Chip.setDyn_of_answers {port ep k : Nat} (addr : Nat) (hl : c.lampAnswers = true) (hk : dynKey port ep = some k)
    (hr : k = 1 ∨ c.busRuns (.mgmt port) = true) : c.setDyn port ep addr = c.withDyn (SMap.set c.pwr.dyn k (addr % 128) 0) := by
  have hcond : (!c.lampAnswers || (k != 1 && !c.busRuns (.mgmt port))) = false := by
    obtain h | h := hr <;> simp [hl, h]
  simp only [Chip.setDyn, hk, hcond, Bool.false_eq_true, if_false]
  rfl

theorem Chip.rstDaa_of_answers (port : Nat) (hl : c.lampAnswers = true) :
    c.rstDaa port = c.withDyn (if port = 0 then SMap.erase (SMap.erase c.pwr.dyn 0) 1 else SMap.erase c.pwr.dyn 2) := by
  simp only [Chip.rstDaa, hl, Bool.not_true, Bool.false_eq_true, if_false]
  rfl

end Addresses

/-! ## The commands of the Lamp Room endpoint (R480, R481) -/

section Lamp
variable {s : State} (hl : s.chip.lampAnswers = true)
include hl

theorem State.lampCommand_acts {count : Nat} {ps : List Nat} (act : State → State) (h : ps.length = count) :
    s.lampCommand count ps true act = act s := by
  simp only [State.lampCommand, hl, h, Bool.not_true, Bool.false_eq_true, if_false, ne_eq, not_true_eq_false]

theorem State.lampCommand_badPec (count : Nat) (ps : List Nat) (act : State → State) :
    s.lampCommand count ps false act = s.withChip (s.chip.lampStatus 4) := by
  simp only [State.lampCommand, hl, Bool.not_true, Bool.not_false, Bool.false_eq_true, if_false, if_true]
  rfl

theorem State.lampCommand_badCount {count : Nat} {ps : List Nat} (act : State → State) (h : ps.length ≠ count) :
    s.lampCommand count ps true act = s.withChip (s.chip.lampStatus 1) := by
  simp only [State.lampCommand, hl, h, Bool.not_true, Bool.false_eq_true, if_false, if_true, ne_eq, not_false_eq_true]
  rfl

theorem State.lampPowerCmd_acts (v : Nat) : s.lampPowerCmd [v] true = s.withChip (s.chip.lampPower v) :=
  State.lampCommand_acts hl _ rfl

end Lamp

theorem Chip.lampPower_of_lit {c : Chip} (v : Nat) (hp : c.pwrState < 2) (hd : c.pwr.darkStep = 0) (hr : c.pwr.restoreStep = 0)
    (hb : c.busRuns .keeper = true) : c.lampPower v = (c.setTarget v).lampStatus 0 := by
  have hlit : ¬ (c.pwrState = 2 ∨ 0 < c.pwr.darkStep ∨ 0 < c.pwr.restoreStep) := by omega
  rw [Chip.lampPower, if_neg hlit, hb, if_pos rfl]

theorem Chip.lampPower_of_dark {c : Chip} (v : Nat) (h : c.pwrState = 2 ∨ 0 < c.pwr.darkStep ∨ 0 < c.pwr.restoreStep) :
    c.lampPower v = c.lampStatus 3 := if_pos h

/-- Settles O42: the connector by its pins, its addresses, its commands, and what each reset keeps of the addresses. -/
theorem managementConnectorAnswers : Obligations.ManagementConnectorAnswers := by
  refine ⟨fun s sel hs hn => congrArg (fun c => Host.Outcome.next (s.withChip c)) (Chip.mateLatch_first sel hs hn),
    fun s sel n hn => congrArg (fun c => Host.Outcome.next (s.withChip c)) (Chip.mateLatch_again sel hn),
    fun s hb hp => congrArg Host.Outcome.next (State.mateLost_of_lit hb hp), fun s port ep addr k hl hk hr => ?_,
    fun s port hl => ?_, fun s hl => congrArg Host.Outcome.next (State.lampCommand_acts hl _ rfl),
    fun s n hl => congrArg Host.Outcome.next (State.lampCommand_acts hl _ rfl),
    fun s n a b d e hl => congrArg Host.Outcome.next (State.lampCommand_acts hl _ rfl), fun s v hl hp hd hr hb => ?_,
    fun s v hl h => ?_, fun s ps hl => ⟨?_, ?_, ?_, ?_, fun h => ?_, fun h => ⟨?_, ?_⟩, fun h => ?_⟩,
    fun s => ⟨fun t h => ?_, fun t h => ?_, fun cause => congrArg Pwr.dyn (Chip.keeperReset_pwr _ cause), Chip.darkEnter_dyn _,
      Chip.restored_dyn _, fun feed diode inlet t hs hf h k => ?_⟩⟩
  · refine ⟨s.withChip (s.chip.setDyn port ep addr), rfl, ?_⟩
    rw [Chip.setDyn_of_answers addr hl hk hr]
    exact ⟨SMap.get_set_same .., fun j hj => SMap.get_set_other _ _ _ _ hj, rfl, rfl, rfl⟩
  · refine ⟨s.withChip (s.chip.rstDaa port), rfl, ?_⟩
    rw [Chip.rstDaa_of_answers port hl]
    refine ⟨fun h => ?_, fun h => ?_, rfl, rfl⟩
    · rw [if_pos h]
      refine ⟨(SMap.get_erase_other _ _ (by decide)).trans (SMap.get_erase_same ..), SMap.get_erase_same .., ?_⟩
      exact (SMap.get_erase_other _ _ (by decide)).trans (SMap.get_erase_other _ _ (by decide))
    · rw [if_neg h]
      exact ⟨SMap.get_erase_same .., SMap.get_erase_other _ _ (by decide), SMap.get_erase_other _ _ (by decide)⟩
  · exact congrArg Host.Outcome.next ((State.lampPowerCmd_acts hl v).trans
      (congrArg s.withChip (Chip.lampPower_of_lit v hp hd hr hb)))
  · exact congrArg Host.Outcome.next ((State.lampPowerCmd_acts hl v).trans
      (congrArg s.withChip (Chip.lampPower_of_dark v h)))
  · exact congrArg Host.Outcome.next (State.lampCommand_badPec hl ..)
  · exact congrArg Host.Outcome.next (State.lampCommand_badPec hl ..)
  · exact congrArg Host.Outcome.next (State.lampCommand_badPec hl ..)
  · exact congrArg Host.Outcome.next (State.lampCommand_badPec hl ..)
  · exact congrArg Host.Outcome.next (State.lampCommand_badCount hl _ h)
  · exact congrArg Host.Outcome.next (State.lampCommand_badCount hl _ h)
  · exact congrArg Host.Outcome.next (State.lampCommand_badCount hl _ h)
  · exact congrArg Host.Outcome.next (State.lampCommand_badCount hl _ h)
  · cases h
    exact Chip.resetFall_dyn _
  · cases h
    exact Chip.resetRise_dyn _
  · cases h
    obtain ⟨a, b, hp⟩ := s.chip.powerOn_pwr diode inlet hs hf
    exact congrArg (fun w : Pwr => SMap.get w.dyn k 0) hp

end Sys2Proof.Machine
end

section
/-!
PROOFS. The hot-swap controller (R405, R451 to R460).
-/
namespace Sys2Proof.Machine

/-! ## The ramp (R451 to R453) -/

section Ramp
variable (c : Chip)

/-- Setting the model of the FET shows in FET_TEMP alone. -/
theorem Chip.raiseModel_frame (t : Int) : (c.raiseModel t).out = c.out ∧
    ∀ o, o ≠ Reg.FET_TEMP → (c.raiseModel t).rd o = c.rd o := by
  unfold Chip.raiseModel Chip.setModel
  dsimp only
  split
  · exact ⟨rfl, fun o ho => Chip.rd_setFld_other _ _ _ ho⟩
  · split
    · exact ⟨rfl, fun o ho => Chip.rd_setFld_other _ _ _ ho⟩
    · exact ⟨rfl, fun o ho => Chip.rd_setFld_other _ _ _ ho⟩

/-- The chip as the gate ramp has begun. -/
def Chip.ramping (c : Chip) : Chip :=
  (((c.setBit Reg.PWE_STATUS Bit.PWE_STATUS_FET_ON).setBit Reg.PWE_STATUS Bit.PWE_STATUS_RAMPING).emit
    (.pin .hotSwapFet true)).arm .ramp (20 * ms)

theorem Chip.rampStart_of_may (h : c.mayRamp = true) : c.rampStart = (c.raiseModel c.tGov).ramping := if_pos h

theorem Chip.ramping_status : c.ramping.pweOn = true ∧ c.ramping.flag Reg.PWE_STATUS Bit.PWE_STATUS_RAMPING = true :=
  ⟨(Chip.flag_setFld_otherField _ _ _ _ (by decide) (by decide)).trans (Chip.flag_setBit_same _ _ _ (by decide) (by decide)),
    Chip.flag_setBit_same _ _ _ (by decide) (by decide)⟩

theorem Chip.ramping_frame : c.ramping.armed .ramp = true ∧ c.ramping.out = .pin .hotSwapFet true :: c.out ∧
    ∀ o, o ≠ Reg.PWE_STATUS → c.ramping.rd o = c.rd o :=
  ⟨Chip.armed_arm .., rfl, fun o ho => (Chip.rd_setBit_other _ _ ho).trans (Chip.rd_setBit_other _ _ ho)⟩

theorem Chip.reclock_powered (hp : c.pwr.pgood = true) : c.reclock = { c with pwr := { c.pwr with
    lost := if c.pwr.resetLow then c.pwr.lost else c.pwr.lost.filter (fun i => i == islLamp || !c.sourceRuns i) } } := by
  unfold Chip.reclock
  cases hr : c.pwr.resetLow
  · rw [if_neg (by simp [hp]), if_neg Bool.false_ne_true]
  · rw [if_pos (by simp), if_pos rfl]

/-- The chip as its gate is fully enhanced, before PGOOD rises. -/
def Chip.enhanced (c : Chip) : Chip :=
  (((((c.clrFld Reg.PWE_STATUS Bit.PWE_STATUS_RAMPING).setBit Reg.PWE_STATUS Bit.PWE_STATUS_GATE_FULL).disarm .ramp).arm
    .tripDecay (60 * sec)).emit (.pin .regulators true))

/-- The chip with PGOOD released. -/
def Chip.powerGood (c : Chip) : Chip := ({ c with pwr := { c.pwr with pgood := true } } : Chip).reclock.emit (.pin .pgood true)

/-- The gate is fully enhanced; BOOT_HOLD starts where it was not running. -/
theorem Chip.gateFull_of_ramping (h : c.flag Reg.PWE_STATUS Bit.PWE_STATUS_RAMPING = true) :
    c.gateFull = c.enhanced.powerGood ∨ c.gateFull = (c.enhanced.arm .bootHold (250 * ms)).powerGood := by
  have heq : c.gateFull = (if (c.enhanced.mor.bootHold && !c.enhanced.armed .bootHold) = true then
      c.enhanced.arm .bootHold (250 * ms) else c.enhanced).powerGood := if_pos h
  rw [heq]
  split
  · exact .inr rfl
  · exact .inl rfl

theorem Chip.powerGood_frame : (∀ o, c.powerGood.rd o = c.rd o) ∧ c.powerGood.out = .pin .pgood true :: c.out ∧
    c.powerGood.pwr = { c.pwr with
      pgood := true
      lost := if c.pwr.resetLow then c.pwr.lost else c.pwr.lost.filter (fun i => i == islLamp || !c.sourceRuns i) } := by
  unfold Chip.powerGood
  rw [Chip.reclock_powered _ rfl]
  exact ⟨fun _ => rfl, rfl, rfl⟩

theorem Chip.enhanced_status : c.enhanced.flag Reg.PWE_STATUS Bit.PWE_STATUS_RAMPING = false ∧
    c.enhanced.flag Reg.PWE_STATUS Bit.PWE_STATUS_GATE_FULL = true :=
  ⟨(Chip.flag_setFld_otherField _ _ _ _ (by decide) (by decide)).trans (Chip.flag_clrFld_same _ _ _ (by decide)),
    Chip.flag_setBit_same _ _ _ (by decide) (by decide)⟩

theorem Chip.rd_enhanced {o : Nat} (h : o ≠ Reg.PWE_STATUS) : c.enhanced.rd o = c.rd o :=
  (Chip.rd_setBit_other _ _ h).trans (Chip.rd_clrFld_other _ _ h)

theorem Chip.sourceRuns_enhanced (i : Nat) : c.enhanced.sourceRuns i = c.sourceRuns i := by
  simp only [Chip.sourceRuns, Chip.flag, Chip.fld, c.rd_enhanced (show Reg.CLK_STATUS ≠ Reg.PWE_STATUS by decide)]
  rfl

/-- What the end of the ramp leaves, whether BOOT_HOLD starts with it or runs already. -/
theorem Chip.gateFull_frame (h : c.flag Reg.PWE_STATUS Bit.PWE_STATUS_RAMPING = true) :
    (∀ o, c.gateFull.rd o = c.enhanced.rd o) ∧ c.gateFull.out = .pin .pgood true :: .pin .regulators true :: c.out ∧
      c.gateFull.pwr = { c.pwr with
        pgood := true
        lost := if c.pwr.resetLow then c.pwr.lost
          else c.pwr.lost.filter (fun i => i == islLamp || !c.enhanced.sourceRuns i) } := by
  obtain h | h := c.gateFull_of_ramping h
  · rw [h]
    exact c.enhanced.powerGood_frame
  · rw [h]
    exact (c.enhanced.arm .bootHold (250 * ms)).powerGood_frame

end Ramp

/-! ## Trips (R454 to R458) -/

section Trips
variable {c : Chip}

theorem Chip.rampTimeout_of_due (hd : c.due .ramp = true) (h : c.flag Reg.PWE_STATUS Bit.PWE_STATUS_RAMPING = true) :
    c.rampTimeout = c.pweTrip tripRampTmo 0 c.railMa := if_pos (by rw [hd, h]; rfl)

theorem Chip.curveTrip_of_beyond {k ma t : Nat} (hk : k < 8) (hg : c.flag Reg.PWE_STATUS Bit.PWE_STATUS_GATE_FULL = true)
    (hi : c.pweF (Reg.CURVE_I k) Bit.CURVE_I_MA < ma) (ht : c.pweF (Reg.CURVE_T k) Bit.CURVE_T_US ≤ t) :
    c.curveTrip k ma t = c.pweTrip tripCurve k ma := if_pos ⟨hk, hg, hi, ht⟩

theorem Chip.shortTrip_of_beyond {ma : Nat} (hm : 40000 < ma) (hon : c.pweOn = true) :
    c.shortTrip ma = c.pweTrip tripShort 0 ma := if_pos ⟨hm, hon⟩

/-- The thermal limit as the model has taken a measurement. -/
def Chip.soaCheck (c : Chip) (ma : Nat) : Chip :=
  if c.pweOn = true ∧ (c.pweF Reg.THERM_CFG Bit.THERM_CFG_T_TRIP * 100 : Nat) ≤ c.tGov then c.pweTrip tripSoa 0 ma else c

theorem Chip.soaUpdate_of_standby (m : PweMeas) (hs : c.pwr.standby = true) :
    c.soaUpdate m = ((c.takeMeas m).modelStep m).soaCheck m.ids := by
  simp only [Chip.soaUpdate, hs, Bool.not_true, Bool.false_eq_true, if_false, Bool.and_eq_true, decide_eq_true_eq, Chip.soaCheck]

/-- The chip that an overvoltage of the rail holds from ramping. -/
def Chip.ovHeld (c : Chip) : Chip :=
  { c.setBit Reg.PWE_EVENT Bit.PWE_EVENT_OV with pwr := { c.pwr with ovHold := true } }

theorem Chip.ovTrip_of_beyond {mv : Nat} (ma : Nat) (hs : c.pwr.standby = true) (hv : 63000 < mv) :
    c.ovTrip mv ma = if c.pweOn then (c.ovHeld.tripLoad tripOv 0 ma).raiseIbi 1 [tripOv] else c.ovHeld := by
  have hon : c.ovHeld.pweOn = c.pweOn := Chip.flag_setFld_other _ _ _ 1 (by decide)
  have heq : c.ovTrip mv ma = if c.ovHeld.pweOn then (c.ovHeld.tripLoad tripOv 0 ma).raiseIbi 1 [tripOv] else c.ovHeld :=
    if_pos ⟨hs, hv⟩
  rw [heq, hon]

theorem exec_ovTrip {s : State} {mv : Nat} (ma : Nat) (hv : mv ≤ 75000) :
    exec (.ovTrip mv ma) s = .next (s.withChip (s.chip.ovTrip mv ma)) := if_neg (by omega)

end Trips

/-! ## Retries, the count and the latch (R458 to R460) -/

section Retries
variable {c : Chip}

theorem Chip.retryExpiry_of_due (h : c.due .retryDelay = true) : c.retryExpiry =
    (((c.clrFld Reg.PWE_STATUS Bit.PWE_STATUS_RETRY_WAIT).disarm .retryDelay).log .retry [c.tripCount]).rampStart :=
  if_pos h

theorem Chip.tripDecay_of_due (hd : c.due .tripDecay = true) (hg : c.flag Reg.PWE_STATUS Bit.PWE_STATUS_GATE_FULL = true) :
    c.tripDecay = (c.clrFld Reg.PWE_STATUS Bit.PWE_STATUS_TRIP_COUNT).disarm .tripDecay := if_pos (by rw [hd, hg]; rfl)

theorem exec_pweLatchClear_of_reaches {s : State} {ag : Agent} {v : Nat} {d : Chip} (h : s.chip.reaches ag Reg.PWE_LATCH = true)
    (hd : s.chip.latchClear v = d) : exec (.pweLatchClear ag v) s = .next (s.withChip (d.emit (.regDone ag Reg.PWE_LATCH))) :=
  exec_ungated_access_of_reaches rfl h (by decide) hd

end Retries

/-! ## The settings (R405) -/

section Settings
variable {c : Chip}

/-- The settings of a list of offsets as they stand in the registers, over those in force. -/
def Chip.stored (c : Chip) (m : SMap Word) (l : List Nat) : SMap Word :=
  l.foldl (fun m o => SMap.set m o (c.rd o) (resetWordAt o)) m

/-- A setting that has been stored is what its register held, whatever is stored after it. -/
theorem Chip.get_stored (c : Chip) {o : Nat} (l : List Nat) (m : SMap Word)
    (h : o ∈ l ∨ SMap.get m o (resetWordAt o) = c.rd o) : SMap.get (c.stored m l) o (resetWordAt o) = c.rd o := by
  induction l generalizing m with
  | nil => exact h.resolve_left (List.not_mem_nil)
  | cons a l ih =>
    refine ih _ ?_
    by_cases ha : o = a
    · exact .inr (by rw [← ha, SMap.get_set_same])
    · obtain h | h := h
      · exact .inl ((List.mem_cons.mp h).resolve_left ha)
      · exact .inr ((SMap.get_set_other _ _ _ _ ha).trans h)

/-- The chip with settings in force. -/
def Chip.withSettings (c : Chip) (m : SMap Word) : Chip := { c with pwr := { c.pwr with pweNv := m } }

theorem Chip.pweApply_legal {v : Nat} (hv : v % 256 = 0xA5) (h : c.applyOk = true) :
    c.pweApply v = c.withSettings (c.stored c.pwr.pweNv pweOffs) := by
  rw [Chip.pweApply, if_neg (not_not.mpr hv), if_pos h]
  rfl

theorem Chip.pweApply_illegal {v : Nat} (hv : v % 256 = 0xA5) (h : c.applyOk = false) :
    c.pweApply v = c.setBit Reg.PWE_EVENT Bit.PWE_EVENT_APPLY_REJECT := by
  rw [Chip.pweApply, if_neg (not_not.mpr hv), h, if_neg Bool.false_ne_true]

theorem exec_pweApply_of_reaches {s : State} {ag : Agent} {v : Nat} {d : Chip} (h : s.chip.reaches ag Reg.PWE_APPLY = true)
    (hd : s.chip.pweApply v = d) : exec (.pweApply ag v) s = .next (s.withChip (d.emit (.regDone ag Reg.PWE_APPLY))) :=
  exec_ungated_access_of_reaches rfl h (by decide) hd

end Settings

/-- Settles O53: each command of the controller by the lemma of what it does. -/
theorem hotSwapControllerActs : Obligations.HotSwapControllerActs := by
  refine ⟨fun s h => ?_, fun s h => ?_,
    fun s hd h => congrArg (fun c => Host.Outcome.next (s.withChip c)) (Chip.rampTimeout_of_due hd h),
    fun s k ma t hk hg hi ht => congrArg (fun c => Host.Outcome.next (s.withChip c)) (Chip.curveTrip_of_beyond hk hg hi ht),
    fun s ma hm hon => congrArg (fun c => Host.Outcome.next (s.withChip c)) (Chip.shortTrip_of_beyond hm hon),
    fun s m hs => congrArg (fun c => Host.Outcome.next (s.withChip c)) (Chip.soaUpdate_of_standby m hs),
    fun s mv ma hs hv hmax => ?_, fun s => ⟨_, rfl, rfl, rfl, rfl, rfl⟩,
    fun s hd => congrArg (fun c => Host.Outcome.next (s.withChip c)) (Chip.retryExpiry_of_due hd), fun s hd hg => ?_,
    fun s ag v h => ⟨fun hv => exec_pweLatchClear_of_reaches h (if_pos hv),
      fun hv => exec_pweLatchClear_of_reaches h (if_neg hv)⟩,
    fun s ag v h => ⟨fun hv hok => ?_, fun hv hbad => exec_pweApply_of_reaches h (Chip.pweApply_illegal hv hbad),
      fun hv => exec_pweApply_of_reaches h (if_pos hv)⟩⟩
  · refine ⟨s.withChip s.chip.rampStart, rfl, ?_⟩
    obtain ⟨hout, hregs⟩ := s.chip.raiseModel_frame s.chip.tGov
    rw [State.withChip_chip, s.chip.rampStart_of_may h]
    generalize s.chip.raiseModel s.chip.tGov = d at hout hregs ⊢
    obtain ⟨hon, hramp⟩ := d.ramping_status
    obtain ⟨harm, hout', hregs'⟩ := d.ramping_frame
    exact ⟨hon, hramp, harm, hout'.trans (by rw [hout]), fun o hs ht => (hregs' o hs).trans (hregs o ht), State.withChip_flash ..⟩
  · refine ⟨s.withChip s.chip.gateFull, rfl, ?_⟩
    obtain ⟨hregs, hout, hpwr⟩ := s.chip.gateFull_frame h
    obtain ⟨hramp, hfull⟩ := s.chip.enhanced_status
    simp only [Chip.sourceRuns_enhanced] at hpwr
    refine ⟨?_, ?_, hpwr, hout, fun o ho => (hregs o).trans (s.chip.rd_enhanced ho), State.withChip_flash ..⟩
    · exact (congrArg (fun w => getF w Bit.PWE_STATUS_RAMPING != 0) (hregs Reg.PWE_STATUS)).trans hramp
    · exact (congrArg (fun w => getF w Bit.PWE_STATUS_GATE_FULL != 0) (hregs Reg.PWE_STATUS)).trans hfull
  · rw [exec_ovTrip ma hmax, Chip.ovTrip_of_beyond ma hs hv]
    rfl
  · refine ⟨s.withChip s.chip.tripDecay, rfl, ?_⟩
    rw [State.withChip_chip, Chip.tripDecay_of_due hd hg]
    exact ⟨(Chip.fld_setFld_same _ _ _ 0 (by decide)).trans (Nat.zero_mod _), Chip.armed_disarm ..,
      fun o ho => Chip.rd_clrFld_other _ _ ho, rfl, State.withChip_flash ..⟩
  · refine ⟨_, exec_pweApply_of_reaches h (Chip.pweApply_legal hv hok), fun o ho => ?_, rfl, rfl, rfl⟩
    exact s.chip.get_stored pweOffs s.chip.pwr.pweNv (.inl ho)

end Sys2Proof.Machine
end

section
/-!
PROOFS. Feeds (R461 to R464), power-on, the end of standby power and RESET_N (R408, R416, R422, R449, R459).
-/
namespace Sys2Proof.Machine

/-! ## Registers put back (R416) -/

section PutBack
variable (sel : Nat → Bool)

/-- A table of registers after a reset of the selected ones. -/
def resetRegs (m : SMap Word) : SMap Word :=
  m.filterMap (fun e =>
    if sel e.1 then (if keptBits e.1 e.2 = resetWordAt e.1 then none else some (e.1, keptBits e.1 e.2)) else some e)

theorem get_resetRegs_kept {o : Nat} (d : Word) (h : sel o = false) (m : SMap Word) :
    SMap.get (resetRegs sel m) o d = SMap.get m o d := by
  induction m with
  | nil => rfl
  | cons e m ih =>
    obtain ⟨a, w⟩ := e
    rw [SMap.get_cons, ← ih]
    by_cases ha : a = o
    · have hcons : resetRegs sel ((a, w) :: m) = (a, w) :: resetRegs sel m := by
        simp [resetRegs, List.filterMap_cons, ha, h]
      rw [hcons, SMap.get_cons]
    · rw [if_neg ha]
      have hcons : resetRegs sel ((a, w) :: m) = resetRegs sel m ∨ ∃ w', resetRegs sel ((a, w) :: m) = (a, w') :: resetRegs sel m := by
        by_cases hs : sel a = true
        · by_cases hk : keptBits a w = resetWordAt a
          · exact .inl (by simp [resetRegs, List.filterMap_cons, hs, hk])
          · exact .inr ⟨keptBits a w, by simp [resetRegs, List.filterMap_cons, hs, hk]⟩
        · exact .inr ⟨w, by simp [resetRegs, List.filterMap_cons, hs]⟩
      obtain hcons | ⟨w', hcons⟩ := hcons
      · rw [hcons]
      · rw [hcons, SMap.get_cons, if_neg ha]

/-- A selected register without sticky bits is at its reset word. -/
theorem get_resetRegs_plain {o : Nat} (h : sel o = true) (hk : ∀ w, keptBits o w = resetWordAt o) (m : SMap Word) :
    SMap.get (resetRegs sel m) o (resetWordAt o) = resetWordAt o := by
  induction m with
  | nil => rfl
  | cons e m ih =>
    obtain ⟨a, w⟩ := e
    by_cases ha : a = o
    · have hcons : resetRegs sel ((a, w) :: m) = resetRegs sel m := by
        simp [resetRegs, List.filterMap_cons, ha, h, hk w]
      rw [hcons, ih]
    · have hcons : resetRegs sel ((a, w) :: m) = resetRegs sel m ∨ ∃ w', resetRegs sel ((a, w) :: m) = (a, w') :: resetRegs sel m := by
        by_cases hs : sel a = true
        · by_cases hk' : keptBits a w = resetWordAt a
          · exact .inl (by simp [resetRegs, List.filterMap_cons, hs, hk'])
          · exact .inr ⟨keptBits a w, by simp [resetRegs, List.filterMap_cons, hs, hk']⟩
        · exact .inr ⟨w, by simp [resetRegs, List.filterMap_cons, hs]⟩
      obtain hcons | ⟨w', hcons⟩ := hcons
      · rw [hcons, ih]
      · rw [hcons, SMap.get_cons, if_neg ha, ih]

/-- A register whose row names no sticky bit keeps none through a reset. -/
theorem keptBits_of_plain {o : Nat} (h : (regAt o).map (fun r => r.1.sticky) = some 0) (w : Word) : keptBits o w = resetWordAt o := by
  have hmask : ~~~ (BitVec.ofNat 32 0) = BitVec.allOnes 32 := by decide
  unfold keptBits resetWordAt
  generalize regAt o = r at h ⊢
  cases r with
  | none => rfl
  | some r =>
    obtain ⟨row, ix⟩ := r
    have hrow : row.sticky = 0 := Option.some.inj h
    simp only [hrow, hmask, BitVec.and_allOnes, BitVec.ofNat_eq_ofNat, BitVec.and_zero, BitVec.or_zero]

end PutBack

/-! ## What the loss of the islands keeps and clears (R408, R422) -/

section Lost
variable {a b : Chip} (h : a.IslandsLost b)
include h

theorem Chip.IslandsLost.rd_lamp {o : Nat} (ho : lampOff o = true) (he : o ≠ Reg.CLK_EVENT) (hl : o ≠ Reg.GATE_LOG) :
    b.rd o = a.rd o := by
  have hkept := get_resetRegs_kept (fun o => !lampOff o) (resetWordAt o) (o := o) (by simp [ho]) (a.abortHeld fun _ => true).regs
  exact (congrArg (fun m => SMap.get m o (resetWordAt o)) h.regs).trans (hkept.trans (a.rd_abortHeld_other _ he hl))

theorem Chip.IslandsLost.rd_plain {o : Nat} (ho : lampOff o = false) (hr : (regAt o).map (fun r => r.1.sticky) = some 0) :
    b.rd o = resetWordAt o := by
  have hplain := get_resetRegs_plain (fun o => !lampOff o) (o := o) (by simp [ho]) (keptBits_of_plain hr)
    (a.abortHeld fun _ => true).regs
  exact (congrArg (fun m => SMap.get m o (resetWordAt o)) h.regs).trans hplain

/-- The module is in Fog with cause BOOT. -/
theorem Chip.IslandsLost.bootFog : b.bootFog = true := by
  have hstatus : b.rd Reg.SAF_STATUS = resetWordAt Reg.SAF_STATUS := h.rd_plain (by decide) (by decide)
  have hcause : b.rd Reg.MOD_FOG_CAUSE = resetWordAt Reg.MOD_FOG_CAUSE := h.rd_plain (by decide) (by decide)
  simp only [Chip.bootFog, Chip.inModFog, Chip.flag, Chip.fld, hstatus, hcause]
  decide

theorem Chip.IslandsLost.tripCount : b.tripCount = a.tripCount :=
  congrArg (fun w => getF w Bit.PWE_STATUS_TRIP_COUNT) (h.rd_lamp (o := Reg.PWE_STATUS) (by decide) (by decide) (by decide))

end Lost

/-! ## RESET_N (R422) -/

section ResetN
variable {c : Chip}

/-- The chip with RESET_N low. -/
def Chip.withResetLow (c : Chip) (low : Bool) : Chip := { c with pwr := { c.pwr with resetLow := low } }

theorem Chip.resetFall_of_high (hl : c.pwr.resetLow = false) (hs : c.pwr.standby = true) : c.resetFall =
    if c.isDark then (c.withResetLow true).resetInDark else (c.withResetLow true).islandsOff := by
  rw [Chip.resetFall, if_neg (by rw [hl]; exact Bool.false_ne_true)]
  exact if_pos hs

/-- The chip as a restore by RESET_N begins. -/
def Chip.restoring (c : Chip) (step at_ : Nat) : Chip :=
  ((({ c with pwr := { c.pwr with darkStep := 6, restoreStep := step, restoreAt := at_, resetStart := true } } : Chip).setFld
    Reg.GLB_PWR_STATUS Bit.GLB_PWR_STATUS_STATE 2).setBit Reg.GLB_PWR_STATUS Bit.GLB_PWR_STATUS_BUSY).arm .restore
      (restoreLimit step)

theorem Chip.resetInDark_eq (c : Chip) : c.resetInDark = c.islandsOff.restoring (max 1 c.pwr.restoreStep) c.now := rfl

theorem Chip.rd_restoring (step at_ : Nat) {o : Nat} (h : o ≠ Reg.GLB_PWR_STATUS) : (c.restoring step at_).rd o = c.rd o :=
  (Chip.rd_setBit_other _ _ h).trans (Chip.rd_setFld_other _ _ _ h)

theorem Chip.restoring_frame (step at_ : Nat) : (c.restoring step at_).sw = c.sw ∧ (c.restoring step at_).mor = c.mor ∧
    (c.restoring step at_).tabA = c.tabA ∧ (c.restoring step at_).rly = c.rly ∧ (c.restoring step at_).watchTime = c.watchTime ∧
    (c.restoring step at_).bootFog = c.bootFog ∧ (c.restoring step at_).tripCount = c.tripCount := by
  have hstatus := c.rd_restoring step at_ (show Reg.SAF_STATUS ≠ Reg.GLB_PWR_STATUS by decide)
  have hcause := c.rd_restoring step at_ (show Reg.MOD_FOG_CAUSE ≠ Reg.GLB_PWR_STATUS by decide)
  have hcount := c.rd_restoring step at_ (show Reg.PWE_STATUS ≠ Reg.GLB_PWR_STATUS by decide)
  refine ⟨rfl, rfl, rfl, rfl, rfl, ?_, ?_⟩
  · simp only [Chip.bootFog, Chip.inModFog, Chip.flag, Chip.fld, hstatus, hcause]
  · simp only [Chip.tripCount, Chip.fld, hcount]

theorem Chip.pwrState_restoring (step at_ : Nat) : (c.restoring step at_).pwrState = 2 :=
  (Chip.fld_setFld_otherField _ _ _ _ _ (by decide) (by decide)).trans (Chip.fld_setFld_same _ _ _ 2 (by decide))

theorem Chip.reclock_frame (c : Chip) : c.reclock.regs = c.regs ∧ c.reclock.timers = c.timers ∧ c.reclock.out = c.out ∧
    c.reclock.pwr.resetLow = c.pwr.resetLow := by
  unfold Chip.reclock
  split
  · exact ⟨rfl, rfl, rfl, rfl⟩
  · exact ⟨rfl, rfl, rfl, rfl⟩

theorem Chip.fld_satInc_otherField (c : Chip) (o : Nat) (f g : Fld) (hg : g.hi < 32) (h : g.hi < f.lo ∨ f.hi < g.lo) :
    (c.satInc o f).fld o g = c.fld o g := by
  unfold Chip.satInc
  split
  · exact Chip.fld_setFld_otherField _ _ _ _ _ hg h
  · rfl

/-- The chip whose cause of the last reset is RESET_N. -/
def Chip.resetCounted (c : Chip) : Chip :=
  (c.setFld Reg.LAST_RESET Bit.LAST_RESET_CAUSE 1).satInc Reg.LAST_RESET Bit.LAST_RESET_COUNT

/-- A start as after RESET_N, up to the choice of the crystal. -/
def Chip.restarted (c : Chip) : Chip :=
  ({ c.resetCounted.watchRestart with
    pwr := { c.resetCounted.watchRestart.pwr with lost := allIslands } } : Chip).reclock.arm .bootHold (250 * ms)

theorem Chip.restarted_frame (c : Chip) : c.restarted.regs = c.resetCounted.regs ∧ c.restarted.armed .bootHold = true ∧
    c.restarted.pwr.resetLow = c.pwr.resetLow := by
  obtain ⟨hregs, -, -, hlow⟩ := Chip.reclock_frame { c.resetCounted.watchRestart with
    pwr := { c.resetCounted.watchRestart.pwr with lost := allIslands } }
  have hpwr : c.resetCounted.pwr = c.pwr := Chip.satInc_pwr ..
  exact ⟨hregs, Chip.armed_arm .., hlow.trans (congrArg Pwr.resetLow hpwr :)⟩

theorem Chip.startAgain_eq (c : Chip) : c.startAgain = if c.restarted.flag Reg.CLK_STATUS Bit.CLK_STATUS_XTAL_OK then
    c.restarted.clrFld Reg.CLK_STATUS Bit.CLK_STATUS_CKG_REF else c.restarted.arm .crystal (10 * ms) := rfl

theorem Chip.startAgain_frame (c : Chip) : c.startAgain.pwr.resetLow = c.pwr.resetLow ∧
    c.startAgain.fld Reg.LAST_RESET Bit.LAST_RESET_CAUSE = 1 ∧ c.startAgain.armed .bootHold = true := by
  obtain ⟨hregs, harm, hlow⟩ := c.restarted_frame
  have hcause : c.restarted.fld Reg.LAST_RESET Bit.LAST_RESET_CAUSE = 1 := by
    have hcounted : c.resetCounted.fld Reg.LAST_RESET Bit.LAST_RESET_CAUSE = 1 :=
      (Chip.fld_satInc_otherField _ _ _ _ (by decide) (by decide)).trans (Chip.fld_setFld_same _ _ _ 1 (by decide))
    exact (congrArg (fun m => getF (SMap.get m Reg.LAST_RESET (resetWordAt Reg.LAST_RESET)) Bit.LAST_RESET_CAUSE) hregs).trans hcounted
  rw [c.startAgain_eq]
  generalize c.restarted = d at harm hlow hcause ⊢
  split
  · exact ⟨hlow, (Chip.fld_setFld_other _ _ _ _ (by decide)).trans hcause, harm⟩
  · exact ⟨hlow, hcause, (Chip.armed_arm_other _ _ (by decide)).trans harm⟩

theorem Chip.resetRise_of_low (hl : c.pwr.resetLow = true) (hs : c.pwr.standby = true) :
    c.resetRise = (c.withResetLow false).startAgain := by
  rw [Chip.resetRise, if_pos hl]
  exact if_pos hs

end ResetN

/-! ## The beginning and the end of standby power (R408, R449, R459) -/

section Standby
variable (c : Chip)

/-- A field of a word into which the bits around it have been copied from another word. -/
theorem getF_setF_getF (w v : Word) (f g : Fld) (hf : f.hi < 32) (hlo : f.lo ≤ g.lo) (hhi : g.hi ≤ f.hi) :
    getF (setF w f (getF v f)) g = getF v g := by
  apply Nat.eq_of_testBit_eq
  intro i
  rw [getF_testBit, getF_testBit]
  by_cases hi : i < g.hi + 1 - g.lo
  · rw [setF_getLsbD w f _ _ (by omega), if_pos (by omega), getF_testBit]
    have h1 : g.lo + i - f.lo < f.hi + 1 - f.lo := by omega
    have h2 : f.lo + (g.lo + i - f.lo) = g.lo + i := by omega
    simp [h1, h2]
  · simp [hi]

/-- What a module without power keeps: its hours, its power cycles and the count of its trips. -/
theorem Chip.unpowered_kept : c.unpowered.rd Reg.POWER_CYCLES = c.rd Reg.POWER_CYCLES ∧
    c.unpowered.rd Reg.OP_HOURS = c.rd Reg.OP_HOURS ∧ c.unpowered.tripCount = c.tripCount := by
  unfold Chip.unpowered
  extract_lets n m k
  refine ⟨Chip.rd_wr_same .., (Chip.rd_wr_other _ _ (by decide)).trans (Chip.rd_wr_same ..), ?_⟩
  have hstatus : ((k.wr Reg.OP_HOURS (c.rd Reg.OP_HOURS)).wr Reg.POWER_CYCLES (c.rd Reg.POWER_CYCLES)).rd Reg.PWE_STATUS =
      setF (m.rd Reg.PWE_STATUS) ⟨11, 4⟩ (c.fld Reg.PWE_STATUS ⟨11, 4⟩) :=
    (Chip.rd_wr_other _ _ (by decide)).trans ((Chip.rd_wr_other _ _ (by decide)).trans
      ((Chip.rd_wr_other _ _ (by decide)).trans (Chip.rd_setFld_same ..)))
  exact (congrArg (fun w => getF w Bit.PWE_STATUS_TRIP_COUNT) hstatus).trans
    (getF_setF_getF _ _ _ _ (by decide) (by decide) (by decide))

/-- A module without power runs no timer, and its Watch and its Mooring are as made. -/
theorem Chip.unpowered_fresh : c.unpowered.timers = [] ∧ c.unpowered.watchTime = 0 ∧ c.unpowered.mor = {} := by
  obtain ⟨r, h⟩ := c.unpowered_eq
  rw [h]
  exact ⟨rfl, rfl, rfl⟩

/-- The start of the standby converter sets the FET's temperature and the retry alone. -/
theorem Chip.standbyStart_frame (diode inlet : Int) :
    (∀ o, o ≠ Reg.FET_TEMP → o ≠ Reg.PWE_STATUS → (c.standbyStart diode inlet).rd o = c.rd o) ∧
      (c.standbyStart diode inlet).watchTime = c.watchTime ∧ (c.standbyStart diode inlet).mor = c.mor := by
  unfold Chip.standbyStart
  extract_lets w d e
  have hd : (∀ o, o ≠ Reg.FET_TEMP → d.rd o = c.rd o) ∧ d.watchTime = c.watchTime ∧ d.mor = c.mor :=
    ⟨fun o ho => Chip.rd_setFld_other _ _ _ ho, rfl, rfl⟩
  obtain ⟨hrd, htime, hmor⟩ := hd
  have hshow : ∀ x : Chip, x.showTemp.watchTime = x.watchTime ∧ x.showTemp.mor = x.mor ∧
      ∀ o, o ≠ Reg.FET_TEMP → x.showTemp.rd o = x.rd o := fun x => ⟨rfl, rfl, fun o ho => Chip.rd_setFld_other _ _ _ ho⟩
  have hset : ∀ (x : Chip) (t : Int), (x.setModel t).watchTime = x.watchTime ∧ (x.setModel t).mor = x.mor ∧
      ∀ o, o ≠ Reg.FET_TEMP → (x.setModel t).rd o = x.rd o := by
    intro x t
    unfold Chip.setModel
    dsimp only
    split
    · exact hshow x
    · exact hshow _
  split
  · obtain ⟨h1, h2, h3⟩ := hshow d
    exact ⟨fun o ht _ => (h3 o ht).trans (hrd o ht), h1.trans htime, h2.trans hmor⟩
  · obtain ⟨h1, h2, h3⟩ : e.watchTime = d.watchTime ∧ e.mor = d.mor ∧ ∀ o, o ≠ Reg.FET_TEMP → e.rd o = d.rd o := hset d _
    split
    · exact ⟨fun o ht _ => (h3 o ht).trans (hrd o ht), h1.trans htime, h2.trans hmor⟩
    · exact ⟨fun o ht hs => (Chip.rd_setBit_other _ _ hs).trans ((h3 o ht).trans (hrd o ht)), h1.trans htime, h2.trans hmor⟩

theorem Chip.standbyStop_of_on (hs : c.pwr.standby = true) : ∃ o, c.standbyStop = { c.unpowered with out := o } := by
  rw [Chip.standbyStop, if_pos hs]
  generalize c.unpowered = n
  dsimp only
  split
  all_goals split
  all_goals exact ⟨_, rfl⟩

end Standby

/-! ## Feeds (R461 to R464) -/

section Feeds
variable {c : Chip} {f : Nat}

/-- The chip whose feeds present and low are others. -/
def Chip.withFeeds (c : Chip) (present low : List Nat) : Chip := { c with pwr := { c.pwr with present := present, low := low } }

theorem Chip.feedArm_of_present (hs : c.pwr.standby = true) (hf : f < 2) : c.feedArm f =
    if c.armed_ f then c.withFeeds (f :: c.pwr.present.erase f) (c.pwr.low.erase f)
    else ((c.withFeeds (f :: c.pwr.present.erase f) (c.pwr.low.erase f)).setBit Reg.PWE_STATUS (armedFld f)).log .feedArmed [f] := by
  have hcond : (c.pwr.standby && decide (f < 2)) = true := by simp [hs, hf]
  exact if_pos hcond

theorem Chip.feedBelow_of_disarmed (ha : c.armed_ f = false) :
    c.feedBelow f = c.withFeeds c.pwr.present (f :: c.pwr.low.erase f) :=
  if_neg (fun h => Bool.false_ne_true (ha.symm.trans h))

theorem exec_feedBelowWarning_of_disarmed {s : State} (hs : s.chip.pwr.standby = true) (hf : f < 2) (ha : s.chip.armed_ f = false) :
    exec (.feedBelowWarning f) s = .next (s.withChip (s.chip.feedBelow f)) :=
  congrArg Host.Outcome.next ((if_pos (by simp [hs, hf])).trans (if_neg (by simp [ha])))

theorem exec_feedBelowWarning_of_armed {s : State} (hs : s.chip.pwr.standby = true) (hf : f < 2) (ha : s.chip.armed_ f = true) :
    exec (.feedBelowWarning f) s = .next ((s.withChip (s.chip.feedBelow f)).warnFalls s.chip.warned) :=
  congrArg Host.Outcome.next ((if_pos (by simp [hs, hf])).trans (if_pos ha))

theorem exec_reverseCurrent_of_present {s : State} (hs : s.chip.pwr.standby = true) (hf : f < 2) :
    exec (.reverseCurrent f) s = .next ((s.withChip (s.chip.reverse f)).warnFalls s.chip.warned) :=
  congrArg Host.Outcome.next (if_pos (by simp [hs, hf]))

/-- A reverse-current event leaves the update's stage. -/
theorem Chip.kStage_reverse (c : Chip) (f kind : Nat) : (c.reverse f).kStage kind = c.kStage kind := by
  have hwarn : ∀ d : Chip, d.feedWarn.rd Reg.KPR_STATUS = d.rd Reg.KPR_STATUS := by
    intro d
    unfold Chip.feedWarn
    split
    · rfl
    · exact Chip.rd_setBit_other _ _ (by decide)
  have hrd : (c.reverse f).rd Reg.KPR_STATUS = c.rd Reg.KPR_STATUS :=
    (Chip.rd_log _ _ _ _ (not_isLogReg (by decide) (by decide) (by decide))).trans
      ((hwarn _).trans (Chip.rd_setBit_other _ _ (by decide)))
  simp only [Chip.kStage, Chip.fld, hrd]

theorem State.warnUpdate_of_idle {s : State} (trigger : Nat) (h0 : s.chip.kStage 0 = stIdle) (h1 : s.chip.kStage 1 = stIdle) :
    s.warnUpdate trigger = s := if_pos ⟨h0, h1⟩

theorem Chip.feedDisarm_of_low (hf : f < 2) (ha : c.armed_ f = true) (hl : c.pwr.low.contains f = true) : c.feedDisarm f =
    ((c.clrFld Reg.PWE_STATUS (armedFld f)).setBit Reg.PWE_EVENT Bit.PWE_EVENT_FEED_DISARMED).log .feedDisarmed [f] :=
  if_pos (by simp only [hf, ha, hl, decide_true, Bool.and_self])

/-- The chip with FEED_WARN_N released. -/
def Chip.warnReleased (c : Chip) : Chip :=
  ((c.withFeeds c.pwr.present (c.pwr.low.filter (fun f => !c.armed_ f))).clrFld Reg.PWE_STATUS Bit.PWE_STATUS_WARN).emit
    (.pin .feedWarnN true)

theorem Chip.warnRelease_of_due (hw : c.flag Reg.PWE_STATUS Bit.PWE_STATUS_WARN = true) (hh : c.pwr.warnHold ≤ c.now) :
    c.warnRelease = c.warnReleased := if_pos (by simp only [hw, hh, decide_true, Bool.and_self])

end Feeds

/-- Settles O55: the feeds by their rules; power-on, its end and RESET_N by what each keeps and clears. -/
theorem feedsPowerOnAndReset : Obligations.FeedsPowerOnAndReset := by
  refine ⟨fun s f hs hf => ⟨congrArg (fun c => Host.Outcome.next (s.withChip c)) (Chip.feedArm_of_present hs hf),
      fun ha => ?_, fun ha => exec_feedBelowWarning_of_armed hs hf ha, exec_reverseCurrent_of_present hs hf, fun h0 h1 => ?_,
      fun ha hl => congrArg (fun c => Host.Outcome.next (s.withChip c)) (Chip.feedDisarm_of_low hf ha hl)⟩,
    fun s hw hh => ?_, fun s feed diode inlet hs hf => ?_, fun s hs => ?_, fun s hl hs => ?_, fun s hl hs => ?_⟩
  · refine ⟨_, exec_feedBelowWarning_of_disarmed hs hf ha, ?_⟩
    rw [Chip.feedBelow_of_disarmed ha]
    exact ⟨rfl, rfl, rfl, rfl⟩
  · exact State.warnUpdate_of_idle _ ((s.chip.kStage_reverse f 0).trans h0) ((s.chip.kStage_reverse f 1).trans h1)
  · refine ⟨s.withChip s.chip.warnRelease, rfl, ?_⟩
    rw [Chip.warnRelease_of_due hw hh]
    exact ⟨Chip.flag_clrFld_same _ _ _ (by decide), rfl, fun o ho => Chip.rd_clrFld_other _ _ ho, rfl⟩
  · obtain ⟨a, b, hpwr⟩ := s.chip.powerOn_pwr diode inlet hs hf
    obtain ⟨hcycles, -, -⟩ := s.chip.unpowered_kept
    obtain ⟨-, htime, hmor⟩ := s.chip.unpowered_fresh
    obtain ⟨hfedCycles, hfedTime, hfedMor, -⟩ := s.chip.unpowered.fed_frame feed
    obtain ⟨hregs, hstartTime, hstartMor⟩ := (s.chip.unpowered.fed feed).standbyStart_frame diode inlet
    refine ⟨s.withChip (s.chip.powerOn feed diode inlet), rfl, ?_⟩
    rw [State.withChip_chip, hpwr, s.chip.powerOn_of_off diode inlet hs hf]
    have hboot : (s.chip.unpowered.fed feed).mor.bootHold = true := congrArg Mor.bootHold (hfedMor.trans hmor)
    rw [← hstartMor] at hboot
    have hcount := (hregs Reg.POWER_CYCLES (by decide) (by decide)).trans (hfedCycles.trans (congrArg (· + 1) hcycles))
    have hzero := hstartTime.trans (hfedTime.trans htime)
    generalize (s.chip.unpowered.fed feed).standbyStart diode inlet = d at hcount hzero hboot ⊢
    exact ⟨rfl, rfl, rfl, hcount, hzero, (Chip.armed_arm_other _ _ (by decide)).trans (Chip.armed_arm ..), Chip.armed_arm ..,
      hboot, State.withChip_flash ..⟩
  · obtain ⟨o, ho⟩ := s.chip.standbyStop_of_on hs
    obtain ⟨hcycles, hhours, hcount⟩ := s.chip.unpowered_kept
    obtain ⟨htimers, -, -⟩ := s.chip.unpowered_fresh
    have hpwr := s.chip.unpowered_pwr
    refine ⟨s.withChip s.chip.standbyStop, rfl, ?_⟩
    rw [State.withChip_chip, ho]
    generalize s.chip.unpowered = n at hcycles hhours hcount htimers hpwr ⊢
    exact ⟨(congrArg Pwr.standby hpwr :), htimers, hcycles, hhours, hcount, State.withChip_flash ..⟩
  · refine ⟨s.withChip s.chip.resetFall, rfl, ?_⟩
    have hlost := (s.chip.withResetLow true).islandsOff_lost
    rw [State.withChip_chip, Chip.resetFall_of_high hl hs, Chip.resetInDark_eq]
    have hcount : (s.chip.withResetLow true).tripCount = s.chip.tripCount := rfl
    generalize (s.chip.withResetLow true).islandsOff = d at hlost ⊢
    have hlow : d.pwr.resetLow = true := (congrArg Pwr.resetLow hlost.pwr :)
    have htime : d.watchTime = s.chip.watchTime := hlost.watchTime
    cases hdark : s.chip.isDark with
    | true =>
      rw [if_pos rfl]
      generalize hstep : max 1 (s.chip.withResetLow true).pwr.restoreStep = step
      obtain ⟨hsw, hmor, htab, hrly, htime', hfog, htrips⟩ := d.restoring_frame step (s.chip.withResetLow true).now
      exact ⟨hlow, (congrArg Sw.pkts (hsw.trans hlost.sw) :), (congrArg Mor.copies (hmor.trans hlost.mor) :), htab.trans hlost.tabA,
        (congrArg Rly.slices (hrly.trans hlost.rly) :), htime'.trans htime, hfog.trans hlost.bootFog,
        (congrArg Mor.bootHold (hmor.trans hlost.mor) :), htrips.trans (hlost.tripCount.trans hcount), State.withChip_flash ..,
        fun _ => ⟨Chip.pwrState_restoring .., hstep.symm, Chip.armed_arm ..⟩⟩
    | false =>
      rw [if_neg Bool.false_ne_true]
      exact ⟨hlow, (congrArg Sw.pkts hlost.sw :), (congrArg Mor.copies hlost.mor :), hlost.tabA, (congrArg Rly.slices hlost.rly :),
        htime, hlost.bootFog, (congrArg Mor.bootHold hlost.mor :), hlost.tripCount.trans hcount, State.withChip_flash ..,
        fun h => absurd h Bool.false_ne_true⟩
  · refine ⟨s.withChip s.chip.resetRise, rfl, ?_⟩
    rw [State.withChip_chip, Chip.resetRise_of_low hl hs]
    obtain ⟨hlow, hcause, harm⟩ := (s.chip.withResetLow false).startAgain_frame
    exact ⟨hlow, hcause, harm, State.withChip_flash ..⟩

end Sys2Proof.Machine
end

section
/-!
PROOFS. The Counter Collector (R493 to R496) and the Soundings FIFO (R503).
-/
namespace Sys2Proof.Machine

/-! ## The gate of the Relay island (R441, R494) -/

section Gate
variable (c : Chip)

/-- A field of one bit is clear once its bit has been cleared. -/
theorem Chip.flag_putBit_clear (o : Nat) (f : Fld) (h1 : f.hi = f.lo) (h2 : f.hi < 32) : (c.putBit o f 0 false).flag o f = false := by
  have hw : f.hi + 1 - f.lo = 1 := by omega
  have hlt : c.fld o f < 2 := by
    have h := getF_lt (c.rd o) f
    rwa [hw] at h
  have hzero : (if bitOf (c.fld o f) 0 then c.fld o f - 2 ^ 0 else c.fld o f) = 0 := by
    obtain h | h : c.fld o f = 0 ∨ c.fld o f = 1 := by omega
    · rw [h]
      rfl
    · rw [h]
      rfl
  have hput : c.putBit o f 0 false = c.setFld o f (if bitOf (c.fld o f) 0 then c.fld o f - 2 ^ 0 else c.fld o f) := rfl
  rw [hput, hzero]
  exact Chip.flag_clrFld_same _ _ _ h2

/-- A field of one bit that reads 0 in its bit is clear. -/
theorem Chip.flag_of_fldBit (o : Nat) (f : Fld) (h1 : f.hi = f.lo) (h : c.fldBit o f 0 = false) : c.flag o f = false := by
  have hw : f.hi + 1 - f.lo = 1 := by omega
  have hlt : c.fld o f < 2 := by
    have h := getF_lt (c.rd o) f
    rwa [hw] at h
  simp only [Chip.fldBit, Chip.flag] at h ⊢
  obtain h' | h' : c.fld o f = 0 ∨ c.fld o f = 1 := by omega
  · rw [h']
    rfl
  · rw [h'] at h
    exact absurd h (by decide)

/-- Opening a gate touches GATE_STATUS and the state of the gates. -/
theorem Chip.openGate_eq (off : Nat) : ∃ r p, c.openGate off = { c with regs := r, pwr := p } := by
  have key : ∀ (b : Bool) (d : Chip), (∃ r p, d = { c with regs := r, pwr := p }) →
      ∃ r p, (if b = true then d else c) = { c with regs := r, pwr := p } := by
    rintro b d ⟨r, p, rfl⟩
    cases b
    · exact ⟨c.regs, c.pwr, rfl⟩
    · exact ⟨r, p, rfl⟩
  unfold Chip.openGate
  split
  · exact key _ _ ⟨_, _, rfl⟩
  · exact ⟨c.regs, c.pwr, rfl⟩

theorem Chip.openGate_relay : (c.openGate Reg.RLY_CTRL).flag Reg.GATE_STATUS Bit.GATE_STATUS_RELAY = false := by
  have hi : islandAt Reg.RLY_CTRL = some 16 := by decide
  have hclear := c.flag_putBit_clear Reg.GATE_STATUS Bit.GATE_STATUS_RELAY rfl (by decide)
  simp only [Chip.openGate, hi, Nat.lt_irrefl, if_false]
  split
  · exact hclear
  · next h =>
    obtain ⟨hbit, -⟩ := Bool.or_eq_false_iff.mp (Bool.eq_false_iff.mpr h)
    exact c.flag_of_fldBit _ _ rfl hbit

end Gate

/-! ## EN and the instants of the snapshots (R493) -/

section Enable
variable (c : Chip)

/-- A timer armed for no time at all is due. -/
theorem Chip.due_arm_zero (t : TimerId) : (c.arm t 0).due t = true := by
  simp [Chip.due, Chip.arm]

/-- The chip whose snapshots are counted from the first. -/
def Chip.snapFirst (c : Chip) : Chip :=
  { c with tel := { c.tel with colSeq := 0, colMissed := 0, colBase := (c.rd Reg.DUMP_WR).toNat } }

theorem Chip.colEnable_of_off (hen : c.flag Reg.COL_CTRL Bit.COL_CTRL_EN = false) : c.colEnable true =
    ((c.snapFirst.openGate Reg.RLY_CTRL).setBit Reg.COL_CTRL Bit.COL_CTRL_EN).arm .collect 0 := by
  simp only [Chip.colEnable, hen, Bool.not_true, Bool.false_eq_true, if_false]
  rfl

/-- The chip whose Collector has EN set. -/
def Chip.collecting (c : Chip) : Chip := (c.setBit Reg.COL_CTRL Bit.COL_CTRL_EN).arm .collect 0

theorem Chip.collecting_frame : c.collecting.flag Reg.COL_CTRL Bit.COL_CTRL_EN = true ∧ c.collecting.due .collect = true ∧
    c.collecting.tel = c.tel ∧ c.collecting.counters = c.counters ∧ c.collecting.out = c.out ∧
    (∀ o, o ≠ Reg.COL_CTRL → c.collecting.rd o = c.rd o) :=
  ⟨Chip.flag_setBit_same _ _ _ (by decide) (by decide), Chip.due_arm_zero .., rfl, rfl, rfl, fun _ ho => Chip.rd_setBit_other _ _ ho⟩

theorem Chip.snapTick_of_due (hen : c.flag Reg.COL_CTRL Bit.COL_CTRL_EN = true) (hd : c.due .collect = true) :
    c.snapTick = c.nextSnap.snapshot := if_pos (by rw [hen, hd]; rfl)

theorem Chip.nextSnap_timers {t : Nat} (h : c.timers.find? (fun e => decide (e.1 = .collect)) = some (.collect, t)) :
    c.nextSnap.timers = (.collect, t + c.fld Reg.COL_PERIOD Bit.COL_PERIOD_US * us) ::
      c.timers.filter (fun e => decide (e.1 ≠ .collect)) := by
  simp only [Chip.nextSnap, h, Option.map_some, Option.getD_some]
  rfl

end Enable

/-! ## One snapshot (R496) -/

section Snapshot
variable (c : Chip)

/-- The chip that has numbered one more snapshot. -/
def Chip.snapNumbered (c : Chip) : Chip := { c with tel := { c.tel with colSeq := c.tel.colSeq + 1 } }

/-- The chip whose next entry reports no miss. -/
def Chip.snapTaken (c : Chip) : Chip := { c with tel := { c.tel with colMissed := 0 } }

theorem Chip.snapNumbered_frame : (∀ o, c.snapNumbered.rd o = c.rd o) ∧ c.snapNumbered.counters = c.counters :=
  ⟨fun _ => rfl, rfl⟩

theorem Chip.snapTaken_frame : (∀ o, c.snapTaken.rd o = c.rd o) ∧ c.snapTaken.counters = c.counters ∧ c.snapTaken.out = c.out ∧
    c.snapTaken.tel.colSeq = c.tel.colSeq ∧ c.snapTaken.tel.colMissed = 0 :=
  ⟨fun _ => rfl, rfl, rfl, rfl, rfl⟩

/-- The chip with one more entry in the staging ring. -/
def Chip.snapStaged (c : Chip) (d : DumpEnt) : Chip := { c with tel := { c.tel with staged := c.tel.staged ++ [d] } }

theorem Chip.snapshot_eq : c.snapshot =
    if !c.collectorRuns then c.snapNumbered.dumpMiss
    else if c.flag Reg.COL_CTRL Bit.COL_CTRL_LOC then
      if c.stagedBytes + ceilDiv c.dumpEntry.len 64 * 64 ≤ c.stageRoom then (c.snapNumbered.snapStaged c.dumpEntry).snapTaken
      else c.snapNumbered.dumpMiss
    else if !c.dumpFree then c.snapNumbered.dumpMiss
    else if !c.managerUp then c.snapNumbered.dumpMiss.dumpFail
    else (c.snapNumbered.dumpWrite c.dumpEntry).snapTaken := rfl

theorem Chip.snapshot_staged (hr : c.collectorRuns = true) (hl : c.flag Reg.COL_CTRL Bit.COL_CTRL_LOC = true)
    (hroom : c.stagedBytes + ceilDiv c.dumpEntry.len 64 * 64 ≤ c.stageRoom) :
    c.snapshot = (c.snapNumbered.snapStaged c.dumpEntry).snapTaken := by
  rw [c.snapshot_eq, hr, hl, if_neg (by decide), if_pos rfl, if_pos hroom]

theorem Chip.snapshot_unstaged (hr : c.collectorRuns = true) (hl : c.flag Reg.COL_CTRL Bit.COL_CTRL_LOC = true)
    (hroom : c.stageRoom < c.stagedBytes + ceilDiv c.dumpEntry.len 64 * 64) : c.snapshot = c.snapNumbered.dumpMiss := by
  rw [c.snapshot_eq, hr, hl, if_neg (by decide), if_pos rfl, if_neg (by omega)]

theorem Chip.snapshot_full (hl : c.flag Reg.COL_CTRL Bit.COL_CTRL_LOC = false) (hf : c.dumpFree = false) :
    c.snapshot = c.snapNumbered.dumpMiss := by
  rw [c.snapshot_eq, hl, hf]
  cases c.collectorRuns
  · rfl
  · rfl

theorem Chip.snapshot_written (hl : c.flag Reg.COL_CTRL Bit.COL_CTRL_LOC = false) (hf : c.dumpFree = true)
    (hu : c.managerUp = true) (hr : c.collectorRuns = true) :
    c.snapshot = (c.snapNumbered.dumpWrite c.dumpEntry).snapTaken := by
  rw [c.snapshot_eq, hl, hf, hu, hr]
  rfl

/-- A miss shows in COL_EVENT and in the count of the next entry. -/
theorem Chip.dumpMiss_frame : c.dumpMiss.tel = { c.tel with colMissed := c.tel.colMissed + 1 } ∧ c.dumpMiss.out = c.out ∧
    c.dumpMiss.rd Reg.DUMP_WR = c.rd Reg.DUMP_WR := by
  have htel : (c.satInc Reg.COL_EVENT Bit.COL_EVENT_MISSED).tel = c.tel := Chip.satInc_tel ..
  refine ⟨?_, Chip.satInc_out .., Chip.rd_satInc_other _ _ (by decide)⟩
  rw [← htel]
  rfl

/-- An entry's body goes 64 bytes behind its header, and DUMP_WR advances. -/
theorem Chip.dumpWrite_frame (d : DumpEnt) : (c.dumpWrite d).tel = c.tel ∧ (c.dumpWrite d).counters = c.counters ∧
    (c.dumpWrite d).rd Reg.DUMP_WR = c.rd Reg.DUMP_WR + 1 ∧
    ∃ a b, (c.dumpWrite d).out = .hostWrite c.manager a (d.header b) ::
      .hostWrite c.manager (a + 64) (d.values.flatMap (leBytes 8)) :: c.out :=
  ⟨rfl, rfl, Chip.rd_wr_same .., _, _, rfl⟩

theorem Chip.stagedMove_of_free {d : DumpEnt} {ds : List DumpEnt} (hs : c.tel.staged = d :: ds) (hf : c.dumpFree = true)
    (hr : c.collectorRuns = true) : c.stagedMove =
      if c.managerUp then ({ c with tel := { c.tel with staged := ds } } : Chip).dumpWrite d
      else ({ c with tel := { c.tel with staged := ds } } : Chip).dumpMiss.dumpFail := by
  simp only [Chip.stagedMove, hs, hf, hr, Bool.not_true, Bool.or_self, Bool.false_eq_true, if_false]
  rfl

end Snapshot

/-- Settles O58: EN, the instants, where a snapshot goes, and the ends of the two rings. -/
theorem collectorTakesSnapshots : Obligations.CollectorTakesSnapshots := by
  refine ⟨fun s ag h hen => ?_, fun s hen hd => congrArg (fun c => Host.Outcome.next (s.withChip c)) (s.chip.snapTick_of_due hen hd),
    fun c t h => ⟨c.nextSnap_timers h, rfl, rfl⟩, fun s ag h hen => exec_ungated_access_of_reaches rfl h (by decide) (if_pos hen),
    fun c hl hf hu hr => ?_, fun c hl hf => ?_, fun c hl hr => ?_, fun s ag n h => ?_,
    fun s d ds hs hf hr => congrArg (fun c => Host.Outcome.next (s.withChip c)) (s.chip.stagedMove_of_free hs hf hr), fun s ag h => ?_⟩
  · refine ⟨_, exec_ungated_access_of_reaches rfl h (by decide) (s.chip.colEnable_of_off hen), ?_⟩
    have hgate := s.chip.snapFirst.openGate_relay
    have hregs := fun o => s.chip.snapFirst.rd_openGate Reg.RLY_CTRL (o := o)
    obtain ⟨r, p, heq⟩ := s.chip.snapFirst.openGate_eq Reg.RLY_CTRL
    generalize s.chip.snapFirst.openGate Reg.RLY_CTRL = d at hgate hregs heq ⊢
    have htel : d.tel = s.chip.snapFirst.tel := (congrArg Chip.tel heq :)
    have hctr : d.counters = s.chip.counters := (congrArg Chip.counters heq :)
    have hout : d.out = s.chip.out := (congrArg Chip.out heq :)
    obtain ⟨hen', hdue, htel', hctr', hout', hregs'⟩ := d.collecting_frame
    have hgate' : d.collecting.flag Reg.GATE_STATUS Bit.GATE_STATUS_RELAY = false :=
      (Chip.flag_setFld_other _ _ _ _ (by decide)).trans hgate
    exact ⟨hen', hdue, congrArg Tel.colSeq (htel'.trans htel), congrArg Tel.colMissed (htel'.trans htel), hgate',
      fun o hc hg => (hregs' o hc).trans (hregs o hg), hctr'.trans hctr, congrArg (List.cons _) (hout'.trans hout),
      State.withChip_flash ..⟩
  · rw [c.snapshot_written hl hf hu hr]
    obtain ⟨htel, hctr, hwr, a, b, hout⟩ := c.snapNumbered.dumpWrite_frame c.dumpEntry
    obtain ⟨hregs, hctr'⟩ := c.snapNumbered_frame
    obtain ⟨hregs'', hctr'', hout'', hseq'', hmissed''⟩ := (c.snapNumbered.dumpWrite c.dumpEntry).snapTaken_frame
    exact ⟨hseq''.trans (congrArg Tel.colSeq htel), hmissed'', (hregs'' _).trans (hwr.trans (congrArg (· + 1) (hregs _))),
      hctr''.trans (hctr.trans hctr'), a, b, hout''.trans hout⟩
  · rw [c.snapshot_full hl hf]
    obtain ⟨htel, hout, hwr⟩ := c.snapNumbered.dumpMiss_frame
    exact ⟨(congrArg Tel.colSeq htel :), (congrArg Tel.colMissed htel :), hout, hwr⟩
  · obtain ⟨htel, hout, -⟩ := c.snapNumbered.dumpMiss_frame
    by_cases hroom : c.stagedBytes + ceilDiv c.dumpEntry.len 64 * 64 ≤ c.stageRoom
    · rw [c.snapshot_staged hr hl hroom]
      exact ⟨rfl, rfl, fun _ => ⟨rfl, rfl⟩, fun h => absurd hroom (by omega)⟩
    · rw [c.snapshot_unstaged hr hl (by omega)]
      exact ⟨(congrArg Tel.colSeq htel :), hout, fun h => absurd h hroom,
        fun _ => ⟨(congrArg Tel.staged htel :), (congrArg Tel.colMissed htel :)⟩⟩
  · refine ⟨_, exec_ungated_access_of_reaches rfl h (by decide) rfl, ?_⟩
    exact ⟨Chip.rd_wr_same .., fun o ho => Chip.rd_wr_other _ _ ho, (Chip.emit_tel ..).trans (Chip.wr_tel ..),
      congrArg (List.cons _) (Chip.wr_out ..), State.withChip_flash ..⟩
  · exact ⟨_, exec_ungated_access_of_reaches rfl h (by decide) rfl, rfl, rfl, rfl, State.withChip_flash ..⟩

end Sys2Proof.Machine
end

section
/-!
PROOFS. Power states, clock gates, wake events and the restore (R432, R437 to R447).
-/
namespace Sys2Proof.Machine

/-! ## Operating points (R437, R438) -/

section OperatingPoints
variable {c : Chip} {st : Nat} {x : OppSeq} (hx : c.oppOf st = some x)
include hx

/-- A change ends at its target where no other is asked for, and a fall always. -/
theorem Chip.oppReady_ends (h : x.rise = false ∨ x.newer = none ∨ x.newer = some x.target) : c.oppReady st = c.oppEnd x x.target := by
  unfold Chip.oppReady
  rw [hx]
  cases hn : x.newer with
  | none => simp only [hn]
  | some t =>
    have hstay : (x.rise && t != x.target) = false := by
      rw [hn] at h
      obtain h | h | h := h
      · simp [h]
      · cases h
      · simp [Option.some.inj h]
    simp only [hn, hstay, Bool.false_eq_true, if_false]

theorem Chip.oppReady_turns {t : Nat} (hr : x.rise = true) (hn : x.newer = some t) (ht : t ≠ x.target) :
    c.oppReady st = c.oppTurn x t := by
  have hturn : (x.rise && t != x.target) = true := by simp [hr, ht]
  simp only [Chip.oppReady, hx, hn, hturn, if_true]

theorem Chip.oppTimeout_of_due (hd : c.due (.opp st) = true) : c.oppTimeout st =
    ((c.putBit Reg.OPP_STATUS Bit.OPP_STATUS_OPP_FAIL st true).log .oppTimeout [st]).oppEnd x
      (if x.rise then c.oppNow st else x.target) := by
  simp only [Chip.oppTimeout, hx, hd, if_true]

end OperatingPoints

/-! ## Targets (R442 to R444) -/

section Targets
variable {c : Chip}

/-- The chip with a target written. -/
def Chip.targeted (c : Chip) (t : Nat) : Chip := c.setFld Reg.GLB_PWR_CTRL Bit.GLB_PWR_CTRL_TARGET t

theorem Chip.pwrState_targeted (c : Chip) (t : Nat) : (c.targeted t).pwrState = c.pwrState :=
  Chip.fld_setFld_other _ _ _ _ (by decide)

/-- The chip in LIT or DIM, with the lane quads that stand by. -/
def Chip.inState (c : Chip) (t : Nat) (quads : List Nat) : Chip :=
  { c.setFld Reg.GLB_PWR_STATUS Bit.GLB_PWR_STATUS_STATE t with pwr := { c.pwr with standbyQuads := quads } }

/-- The lane quads that stand by as a target takes effect. -/
def Chip.quadsFor (c : Chip) (t : Nat) : List Nat :=
  if t = 0 then [] else if c.pwrState = 0 then (List.range 64).filter c.quadIdle else c.pwr.standbyQuads

theorem Chip.setTarget_dark (c : Chip) : c.setTarget 2 = (c.targeted 2).darkRequest := by
  rw [Chip.setTarget, if_neg (by decide), if_pos rfl]
  rfl

theorem Chip.setTarget_taken {t : Nat} (ht : t < 2) (hp : c.pwrState ≤ 1) (hd : c.pwr.darkStep = 0) : c.setTarget t =
    (if t = 0 then (c.targeted t).inState t ((c.targeted t).quadsFor t)
      else ((c.targeted t).inState t ((c.targeted t).quadsFor t)).clrFld Reg.BCN_STATUS Bit.BCN_STATUS_MASTER).oppAll (t == 1) := by
  have hgo : ¬ (1 < (c.targeted t).pwrState ∨ 0 < (c.targeted t).pwr.darkStep) := by
    have hp' := c.pwrState_targeted t
    have hd' : (c.targeted t).pwr.darkStep = c.pwr.darkStep := rfl
    omega
  rw [Chip.setTarget, if_neg (by omega), if_neg (by omega)]
  exact if_neg hgo

/-- A target that arrives during the entry to DARK does not interrupt it. -/
theorem Chip.setTarget_during_entry {t : Nat} (ht : t < 2) (hd : 0 < c.pwr.darkStep) : c.setTarget t = c.targeted t := by
  rw [Chip.setTarget, if_neg (by omega), if_neg (by omega)]
  exact if_pos (.inr hd)

theorem exec_pwrTarget_of_reaches {s : State} {ag : Agent} {i : Instr} {t : Nat} {d : Chip}
    (hi : exec i s = .next (s.withChip (s.chip.busWrite ag Reg.GLB_PWR_CTRL (fun c => c.setTarget t))))
    (h : s.chip.reaches ag Reg.GLB_PWR_CTRL = true) (hd : s.chip.setTarget t = d) :
    exec i s = .next (s.withChip (d.emit (.regDone ag Reg.GLB_PWR_CTRL))) :=
  exec_ungated_access_of_reaches hi h (by decide) hd

end Targets

/-! ## Gates (R439 to R441) -/

section Gates
variable {c : Chip} {i : Nat}

/-- A bit of a field that has been set. -/
theorem Chip.fldBit_putBit_set (c : Chip) (o : Nat) (f : Fld) (i : Nat) (hf : f.hi < 32) (hi : i < f.hi + 1 - f.lo) :
    (c.putBit o f i true).fldBit o f i = true := by
  have hset : bitOf (if bitOf (c.fld o f) i then c.fld o f else c.fld o f + 2 ^ i) i = true := by
    have htest : ∀ m, bitOf m i = m.testBit i := fun _ => Nat.testBit_eq_decide_div_mod_eq.symm
    cases hb : bitOf (c.fld o f) i with
    | true => exact hb
    | false =>
      rw [htest] at hb
      simp [htest, Nat.add_comm _ (2 ^ i), Nat.testBit_two_pow_add_eq, hb]
  have hput : c.putBit o f i true = c.setFld o f (if bitOf (c.fld o f) i then c.fld o f else c.fld o f + 2 ^ i) := rfl
  rw [Chip.fldBit, hput, Chip.fld_setFld_same _ _ _ _ hf, bitOf_mod_two_pow _ hi, hset]

/-- The chip whose requested gates are others. -/
def Chip.withGateReq (c : Chip) (l : List Nat) : Chip := { c with pwr := { c.pwr with gateReq := l } }

/-- The chip with one more island gated. -/
def Chip.gating (c : Chip) (i : Nat) : Chip := { c with pwr := { c.pwr with gated := i :: c.pwr.gated } }

theorem Chip.gateRequest_of_may (h : c.mayGate i = true) : c.gateRequest i = c.withGateReq (i :: c.pwr.gateReq) := if_pos h

variable (hr : c.pwr.gateReq.contains i = true)
include hr

theorem Chip.gateAck_in_service (hd : c.pwr.darkStep = 0) : c.gateAck i =
    if i < 64 then (c.withGateReq (c.pwr.gateReq.erase i)).gating i
    else if i < 80 then (c.withGateReq (c.pwr.gateReq.erase i)).putBit Reg.GATE_STATUS Bit.GATE_STATUS_STATION (i - 64) true
    else (c.withGateReq (c.pwr.gateReq.erase i)).setBit Reg.GATE_STATUS Bit.GATE_STATUS_RELAY := by
  have hstep : (c.withGateReq (c.pwr.gateReq.erase i)).pwr.darkStep ≠ 3 := by
    have h : (c.withGateReq (c.pwr.gateReq.erase i)).pwr.darkStep = c.pwr.darkStep := rfl
    omega
  rw [Chip.gateAck, if_neg (by rw [hr]; decide)]
  exact if_neg hstep

theorem Chip.gateAck_in_entry (hd : c.pwr.darkStep = 3) : c.gateAck i =
    if (c.pwr.gateReq.erase i).isEmpty then ((c.withGateReq (c.pwr.gateReq.erase i)).gating i).darkEnter
    else (c.withGateReq (c.pwr.gateReq.erase i)).gating i := by
  rw [Chip.gateAck, if_neg (by rw [hr]; decide)]
  exact if_pos hd

/-- The chip that gives up the request for a gate: the island may be asked again after 1 ms. -/
def Chip.gateGivenUp (c : Chip) (i : Nat) (l : List Nat) : Chip :=
  { c with pwr := { c.pwr with gateReq := l, gateAfter := (i, c.now + ms) :: c.pwr.gateAfter.filter (fun e => e.1 != i) } }

/-- What an abandoned gate leaves as its record. -/
def Chip.gateReported (c : Chip) (i : Nat) : Chip :=
  ((c.setBit Reg.CLK_EVENT Bit.CLK_EVENT_GATE_ABANDON).gateLog i false).log .gateAbandon [i]

omit hr in
theorem Chip.gateReported_frame (c : Chip) (i : Nat) : (c.gateReported i).pwr = c.pwr ∧
    (c.gateReported i).flag Reg.CLK_EVENT Bit.CLK_EVENT_GATE_ABANDON = true ∧
    (c.gateReported i).rd Reg.GATE_STATUS = c.rd Reg.GATE_STATUS := by
  have hgate : ∀ d : Chip, (d.gateLog i false).rd Reg.CLK_EVENT = d.rd Reg.CLK_EVENT := fun d => Chip.rd_wr_other _ _ (by decide)
  refine ⟨(Chip.log_pwr ..).trans (Chip.wr_pwr ..), ?_, ?_⟩
  · refine (Chip.flag_log _ _ _ _ _ (not_isLogReg (by decide) (by decide) (by decide))).trans ?_
    exact (congrArg (fun w => getF w Bit.CLK_EVENT_GATE_ABANDON != 0) (hgate _)).trans
      (Chip.flag_setBit_same _ _ _ (by decide) (by decide))
  · exact (Chip.rd_log _ _ _ _ (not_isLogReg (by decide) (by decide) (by decide))).trans
      ((Chip.rd_wr_other _ _ (by decide)).trans (Chip.rd_setBit_other _ _ (by decide)))

theorem Chip.gateAbandon_of_asked : c.gateAbandon i =
    if c.pwr.darkStep = 3 then ((c.gateGivenUp i (c.pwr.gateReq.erase i)).gateReported i).darkAbort refuseGate
    else (c.gateGivenUp i (c.pwr.gateReq.erase i)).gateReported i := by
  obtain ⟨hpwr, -, -⟩ := (c.gateGivenUp i (c.pwr.gateReq.erase i)).gateReported_frame i
  have hstep : ((c.gateGivenUp i (c.pwr.gateReq.erase i)).gateReported i).pwr.darkStep = c.pwr.darkStep :=
    (congrArg Pwr.darkStep hpwr :)
  rw [← hstep, Chip.gateAbandon, if_neg (by rw [hr]; decide)]
  rfl

end Gates

/-! ## Wakes (R432, R445 to R448) -/

section Wakes
variable {c : Chip}

theorem Chip.watchAlarm_of_due (hs : c.pwr.standby = true) (ha : c.flag Reg.WAKE_CTRL Bit.WAKE_CTRL_ALARM_ARMED = true)
    (ht : c.pair Reg.WATCH_ALARM_LO Reg.WATCH_ALARM_HI ≤ c.watchTime) : c.watchAlarm =
      (if c.pwrState = 2 then c.clrFld Reg.WAKE_CTRL Bit.WAKE_CTRL_ALARM_ARMED
       else ((c.clrFld Reg.WAKE_CTRL Bit.WAKE_CTRL_ALARM_ARMED).setBit Reg.WAKE_CAUSE Bit.WAKE_CAUSE_ALARM).log .wake
        [wakeAlarm]).wakeEvent wakeAlarm := by
  have hstate : (c.clrFld Reg.WAKE_CTRL Bit.WAKE_CTRL_ALARM_ARMED).pwrState = c.pwrState := Chip.fld_setFld_other _ _ _ _ (by decide)
  rw [← hstate]
  exact if_pos (by simp only [hs, ha, ht, decide_true, Bool.and_self])

/-- A wake event shows in WAKE_CAUSE and the log alone. -/
theorem Chip.rd_wakeEvent_other (c : Chip) (src : Nat) {o : Nat} (h : o ≠ Reg.WAKE_CAUSE) (hl : ¬ isLogReg o) :
    (c.wakeEvent src).rd o = c.rd o := by
  have hrestore : ∀ d : Chip, d.startRestore.rd o = d.rd o := fun d => Chip.rd_log _ _ _ _ hl
  unfold Chip.wakeEvent
  split
  · rfl
  · dsimp only
    split
    · exact Chip.rd_wr_other _ _ h
    · split
      · exact (hrestore _).trans ((Chip.rd_wr_other _ _ h).trans (Chip.rd_wr_other _ _ h))
      · split
        · rfl
        · rfl

theorem Chip.railMa_wakeEvent (c : Chip) (src : Nat) : (c.wakeEvent src).railMa = c.railMa := by
  have ha := c.rd_wakeEvent_other src (o := Reg.FEED_A) (by decide) (not_isLogReg (by decide) (by decide) (by decide))
  have hb := c.rd_wakeEvent_other src (o := Reg.FEED_B) (by decide) (not_isLogReg (by decide) (by decide) (by decide))
  simp only [Chip.railMa, Chip.fld, ha, hb]

theorem Chip.pweOn_wakeEvent (c : Chip) (src : Nat) : (c.wakeEvent src).pweOn = c.pweOn := by
  have hs := c.rd_wakeEvent_other src (o := Reg.PWE_STATUS) (by decide) (not_isLogReg (by decide) (by decide) (by decide))
  simp only [Chip.pweOn, Chip.flag, Chip.fld, hs]

variable (hs : c.pwr.standby = true)
include hs

theorem Chip.comparatorTrip_feed {k : Nat} (hk : k < 2) : c.comparatorTrip k true = c.wakeEvent (wakeCmp k) := by
  have h4 : (decide (4 ≤ k)) = false := decide_eq_false (by omega)
  have h3 : k ≠ 3 := by omega
  have h2 : k ≠ 2 := by omega
  simp only [Chip.comparatorTrip, hs, h4, h3, h2, Bool.not_true, Bool.or_self, Bool.false_eq_true, if_false, decide_false,
    Bool.false_and, false_and]

theorem Chip.comparatorTrip_back {k : Nat} (hk : k < 3) : c.comparatorTrip k false = c := by
  have h4 : (decide (4 ≤ k)) = false := decide_eq_false (by omega)
  have h3 : k ≠ 3 := by omega
  simp only [Chip.comparatorTrip, hs, h4, h3, Bool.not_true, Bool.not_false, Bool.or_self, Bool.false_eq_true, if_false, if_true]

theorem Chip.comparatorTrip_inlet_back : c.comparatorTrip 3 false = c.setFld Reg.PWE_STATUS Bit.PWE_STATUS_INLET_HOLD 0 := by
  simp [Chip.comparatorTrip, hs, b2n]

theorem Chip.comparatorTrip_fet : c.comparatorTrip 2 true =
    if c.pweOn then (c.wakeEvent (wakeCmp 2)).pweTrip tripFetCmp 0 c.railMa else c.wakeEvent (wakeCmp 2) := by
  rw [← c.pweOn_wakeEvent (wakeCmp 2), ← c.railMa_wakeEvent (wakeCmp 2)]
  simp [Chip.comparatorTrip, hs]

theorem Chip.comparatorTrip_inlet : c.comparatorTrip 3 true =
    (if c.pwrState = 2 then c.setBit Reg.PWE_STATUS Bit.PWE_STATUS_INLET_HOLD
      else (c.setBit Reg.PWE_STATUS Bit.PWE_STATUS_INLET_HOLD).log .thermWarn [3]).wakeEvent (wakeCmp 3) := by
  have hstate : (c.setBit Reg.PWE_STATUS Bit.PWE_STATUS_INLET_HOLD).pwrState = c.pwrState := Chip.fld_setFld_other _ _ _ _ (by decide)
  have hset : c.setFld Reg.PWE_STATUS Bit.PWE_STATUS_INLET_HOLD (b2n true) = c.setBit Reg.PWE_STATUS Bit.PWE_STATUS_INLET_HOLD := rfl
  by_cases hp : c.pwrState = 2
  · simp [Chip.comparatorTrip, hs, hset, hstate, hp]
  · simp [Chip.comparatorTrip, hs, hset, hstate, hp]

end Wakes

/-! ## The restore (R446, R447) -/

section Restore
variable {c : Chip}

/-- The chip whose restore is in a step. -/
def Chip.atStep (c : Chip) (n : Nat) : Chip := { c with pwr := { c.pwr with restoreStep := n } }

theorem Chip.restoreReady_next (h1 : 1 ≤ c.pwr.restoreStep) (h4 : c.pwr.restoreStep < 4)
    (hr : c.pwr.resetStart = false ∨ c.pwr.restoreStep < 3) : c.restoreReady =
      (c.atStep (c.pwr.restoreStep + 1)).arm .restore (restoreLimit (c.pwr.restoreStep + 1)) := by
  have hback : ¬ (3 ≤ c.pwr.restoreStep ∧ c.pwr.resetStart = true) := by
    rintro ⟨h3, h⟩
    obtain h' | h' := hr
    · rw [h] at h'
      exact absurd h' (by decide)
    · omega
  rw [Chip.restoreReady, if_neg (by omega), if_neg hback, if_pos h4]
  rfl

theorem Chip.restoreReady_back (h3 : 3 ≤ c.pwr.restoreStep) (hr : c.pwr.resetStart = true) : c.restoreReady = c.powerBack := by
  rw [Chip.restoreReady, if_neg (by omega), if_pos ⟨h3, hr⟩]

theorem Chip.restoreReady_last (h4 : 4 ≤ c.pwr.restoreStep) (hr : c.pwr.resetStart = false) : c.restoreReady = c.restored := by
  have hback : ¬ (3 ≤ c.pwr.restoreStep ∧ c.pwr.resetStart = true) := fun h => absurd (hr.symm.trans h.2) (by decide)
  rw [Chip.restoreReady, if_neg (by omega), if_neg hback, if_neg (by omega)]

/-- BUSY moves in GLB_PWR_STATUS and nothing else does. -/
theorem Chip.syncBusy_frame (c : Chip) : c.syncBusy.pwrState = c.pwrState ∧ (∀ o, o ≠ Reg.GLB_PWR_STATUS → c.syncBusy.rd o = c.rd o) ∧
    c.syncBusy.pwr = c.pwr ∧ c.syncBusy.timers = c.timers ∧ c.syncBusy.out = c.out :=
  ⟨Chip.fld_setFld_otherField _ _ _ _ _ (by decide) (by decide), fun _ ho => Chip.rd_setFld_other _ _ _ ho, Chip.setFld_pwr ..,
    Chip.setFld_timers .., Chip.setFld_out ..⟩

/-- The chip as power is back, before BUSY follows. -/
def Chip.repowered (c : Chip) : Chip :=
  (({ c with pwr := { c.pwr with darkStep := 0, restoreStep := 0, resetStart := false } } : Chip).disarm .restore).setFld
    Reg.GLB_PWR_STATUS Bit.GLB_PWR_STATUS_STATE 0

theorem Chip.powerBack_frame (c : Chip) : c.powerBack.pwr =
      { c.pwr with darkStep := 0, restoreStep := 0, resetStart := false } ∧ c.powerBack.pwrState = 0 ∧
    c.powerBack.armed .restore = false ∧ c.powerBack.out = c.out := by
  have heq : c.powerBack = c.repowered.syncBusy := rfl
  obtain ⟨hstate, -, hpwr, htimers, hout⟩ := c.repowered.syncBusy_frame
  have harm : c.repowered.armed .restore = false := Chip.armed_disarm ..
  have hzero : c.repowered.pwrState = 0 := (Chip.fld_setFld_same _ _ _ 0 (by decide)).trans (Nat.zero_mod _)
  rw [heq]
  exact ⟨hpwr.trans (Chip.setFld_pwr ..), hstate.trans hzero,
    (congrArg (fun l : List (TimerId × Nat) => l.any fun e => decide (e.1 = .restore)) htimers).trans harm,
    hout.trans (Chip.setFld_out ..)⟩

/-- The module is LIT after the restore, and RESTORE_TIME holds how long it took. -/
theorem Chip.restored_regs (c : Chip) : c.restored.pwrState = 0 ∧
    c.restored.fld Reg.RESTORE_TIME Bit.RESTORE_TIME_US = min ((c.now - c.pwr.restoreAt) / us) 65535 := by
  have hstn : ∀ (s : Nat), Reg.GLB_PWR_STATUS ≠ Reg.STN_ID s ∧ Reg.RESTORE_TIME ≠ Reg.STN_ID s := fun s => by
    simp only [Reg.GLB_PWR_STATUS, Reg.RESTORE_TIME, Reg.STN_ID]
    omega
  unfold Chip.restored
  extract_lets t w d e f g k
  have hfold : k.rd Reg.GLB_PWR_STATUS = g.rd Reg.GLB_PWR_STATUS ∧ k.rd Reg.RESTORE_TIME = g.rd Reg.RESTORE_TIME :=
    List.foldlRecOn (motive := fun d : Chip => d.rd Reg.GLB_PWR_STATUS = g.rd Reg.GLB_PWR_STATUS ∧
      d.rd Reg.RESTORE_TIME = g.rd Reg.RESTORE_TIME) _ _ ⟨rfl, rfl⟩ fun d hd s _ =>
        ⟨(Chip.rd_setFld_other _ _ _ (hstn s).1).trans hd.1, (Chip.rd_setFld_other _ _ _ (hstn s).2).trans hd.2⟩
  obtain ⟨hstate, htime⟩ := hfold
  obtain ⟨hbusy, hregs, -⟩ := k.syncBusy_frame
  refine ⟨?_, ?_⟩
  · have hg : g.pwrState = 0 := (Chip.fld_setFld_same _ _ _ 0 (by decide)).trans (Nat.zero_mod _)
    have hk : k.pwrState = g.pwrState := congrArg (fun w => getF w Bit.GLB_PWR_STATUS_STATE) hstate
    have hlog := Chip.rd_log k.syncBusy .darkExit [t] [] (o := Reg.GLB_PWR_STATUS) (not_isLogReg (by decide) (by decide) (by decide))
    exact (congrArg (fun w => getF w Bit.GLB_PWR_STATUS_STATE) hlog).trans (hbusy.trans (hk.trans hg))
  · have hf : f.fld Reg.RESTORE_TIME Bit.RESTORE_TIME_US = t := by
      have hlt : t < 2 ^ 16 := Nat.lt_of_le_of_lt (Nat.min_le_right _ _) (by decide)
      exact (Chip.fld_setFld_same _ _ _ t (by decide)).trans (Nat.mod_eq_of_lt hlt)
    have hg : g.fld Reg.RESTORE_TIME Bit.RESTORE_TIME_US = t := (Chip.fld_setFld_other _ _ _ _ (by decide)).trans hf
    have hlog := Chip.rd_log k.syncBusy .darkExit [t] [] (o := Reg.RESTORE_TIME) (not_isLogReg (by decide) (by decide) (by decide))
    exact (congrArg (fun w => getF w Bit.RESTORE_TIME_US) (hlog.trans ((hregs _ (by decide)).trans htime))).trans hg

/-- A step that has passed its limit: the islands lose their state, and start again unless RESET_N is low. -/
theorem Chip.restoreTimeout_of_due (h1 : 1 ≤ c.pwr.restoreStep) (hd : c.due .restore = true) : c.restoreTimeout =
    if c.pwr.resetLow = true then
      ((c.setBit Reg.CLK_EVENT Bit.CLK_EVENT_WAKE_FAIL).log .wakeFail [c.pwr.restoreStep]).islandsOff
    else ((c.setBit Reg.CLK_EVENT Bit.CLK_EVENT_WAKE_FAIL).log .wakeFail [c.pwr.restoreStep]).islandsOff.startAgain := by
  have hlow : ((c.setBit Reg.CLK_EVENT Bit.CLK_EVENT_WAKE_FAIL).log .wakeFail [c.pwr.restoreStep]).islandsOff.pwr.resetLow =
      c.pwr.resetLow :=
    (congrArg Pwr.resetLow (Chip.islandsOff_lost _).pwr :).trans
      (congrArg Pwr.resetLow ((Chip.log_pwr _ .wakeFail [c.pwr.restoreStep] []).trans (Chip.setBit_pwr ..)) :)
  have hcond : (decide (0 < c.pwr.restoreStep) && c.due .restore) = true := by simp [hd]; omega
  rw [← hlow]
  exact if_pos hcond

end Restore

/-- Settles O57: operating points, targets, gates, wakes and the restore, each by the lemma of its case. -/
theorem powerStatesFollowTheirCommands : Obligations.PowerStatesFollowTheirCommands := by
  refine ⟨fun s st x hx => ⟨fun h => congrArg (fun c => Host.Outcome.next (s.withChip c)) (Chip.oppReady_ends hx h),
      fun t hr hn ht => congrArg (fun c => Host.Outcome.next (s.withChip c)) (Chip.oppReady_turns hx hr hn ht),
      fun hd => congrArg (fun c => Host.Outcome.next (s.withChip c)) (Chip.oppTimeout_of_due hx hd)⟩,
    fun s ag h => ⟨exec_pwrTarget_of_reaches rfl h (Chip.setTarget_dark _), fun hp hd => ⟨?_, fun h0 => ?_, fun h1 => ?_⟩,
      fun hd => ⟨exec_pwrTarget_of_reaches rfl h (Chip.setTarget_during_entry (by decide) hd),
        exec_pwrTarget_of_reaches rfl h (Chip.setTarget_during_entry (by decide) hd)⟩⟩,
    fun s i h => ?_, fun s i hr hd => ⟨fun h64 h80 => ?_, fun h82 => ?_, fun h64 => ?_, ?_⟩, fun s i hr hd => ?_,
    fun s hs ha ht => congrArg (fun c => Host.Outcome.next (s.withChip c)) (Chip.watchAlarm_of_due hs ha ht),
    fun s hw hr => ⟨fun hd => congrArg (fun c => Host.Outcome.next (s.withChip c)) (Chip.wakeEvent_dark _ hw hr hd),
      fun h1 h6 => ?_⟩,
    fun s k hs => ⟨fun hk => congrArg (fun c => Host.Outcome.next (s.withChip c)) (Chip.comparatorTrip_feed hs hk),
      fun hk => congrArg (fun c => Host.Outcome.next (s.withChip c)) (Chip.comparatorTrip_back hs hk),
      congrArg (fun c => Host.Outcome.next (s.withChip c)) (Chip.comparatorTrip_inlet_back hs),
      congrArg (fun c => Host.Outcome.next (s.withChip c)) (Chip.comparatorTrip_fet hs),
      congrArg (fun c => Host.Outcome.next (s.withChip c)) (Chip.comparatorTrip_inlet hs)⟩,
    fun s => ⟨fun h1 h4 hr => ?_, fun h3 hr => ?_, fun h4 hr => ?_,
      fun h1 hd => congrArg (fun c => Host.Outcome.next (s.withChip c)) (Chip.restoreTimeout_of_due h1 hd)⟩⟩
  · exact exec_pwrTarget_of_reaches rfl h ((Chip.setTarget_taken (by decide) hp hd).trans rfl)
  · refine exec_pwrTarget_of_reaches rfl h ((Chip.setTarget_taken (by decide) hp hd).trans ?_)
    rw [if_neg (by decide), Chip.quadsFor, if_neg (by decide), if_pos ((Chip.pwrState_targeted _ _).trans h0)]
    rfl
  · refine exec_pwrTarget_of_reaches rfl h ((Chip.setTarget_taken (by decide) hp hd).trans ?_)
    have hstate : (s.chip.targeted 1).pwrState ≠ 0 := by rw [Chip.pwrState_targeted, h1]; decide
    rw [if_neg (by decide), Chip.quadsFor, if_neg (by decide), if_neg hstate]
    rfl
  · refine ⟨s.withChip (s.chip.gateRequest i), rfl, ?_⟩
    rw [Chip.gateRequest_of_may h]
    exact ⟨rfl, rfl, rfl, State.withChip_flash ..⟩
  · refine ⟨s.withChip (s.chip.gateAck i), rfl, ?_⟩
    rw [State.withChip_chip, Chip.gateAck_in_service hr hd, if_neg (by omega), if_pos h80]
    exact ⟨congrArg Pwr.gateReq (Chip.putBit_pwr ..), Chip.fldBit_putBit_set _ _ _ _ (by decide) (by simp only [Bit.GATE_STATUS_STATION]; omega),
      fun o ho => Chip.rd_putBit_other _ _ _ _ ho, State.withChip_flash ..⟩
  · refine ⟨s.withChip (s.chip.gateAck i), rfl, ?_⟩
    rw [State.withChip_chip, Chip.gateAck_in_service hr hd, if_neg (by omega), if_neg (by omega)]
    exact ⟨congrArg Pwr.gateReq (Chip.setBit_pwr ..), Chip.flag_setBit_same _ _ _ (by decide) (by decide),
      fun o ho => Chip.rd_setBit_other _ _ ho, State.withChip_flash ..⟩
  · refine ⟨s.withChip (s.chip.gateAck i), rfl, ?_⟩
    rw [State.withChip_chip, Chip.gateAck_in_service hr hd, if_pos h64]
    exact ⟨rfl, rfl, rfl, State.withChip_flash ..⟩
  · refine ⟨s.withChip (s.chip.gateAbandon i), rfl, ?_⟩
    obtain ⟨hpwr, hflag, hgate⟩ := (s.chip.gateGivenUp i (s.chip.pwr.gateReq.erase i)).gateReported_frame i
    rw [State.withChip_chip, Chip.gateAbandon_of_asked hr, if_neg (by omega)]
    exact ⟨(congrArg Pwr.gateReq hpwr :), hflag, hgate, State.withChip_flash ..⟩
  · have hmem : s.chip.pwr.gateReq.contains i = true := by simp [hr]
    have hlast : s.chip.pwr.gateReq.erase i = [] := by simp [hr]
    refine ⟨congrArg (fun c => Host.Outcome.next (s.withChip c)) ((Chip.gateAck_in_entry hmem hd).trans ?_),
      congrArg (fun c => Host.Outcome.next (s.withChip c)) ((Chip.gateAbandon_of_asked hmem).trans ?_)⟩
    · rw [hlast]
      rfl
    · rw [hlast, if_pos hd]
      rfl
  · refine ⟨s.withChip (s.chip.wakeEvent wakeAddr), rfl, ?_⟩
    rw [Chip.wakeEvent_entry _ hw hr h1 (by omega)]
    exact ⟨rfl, rfl, rfl⟩
  · refine ⟨s.withChip s.chip.restoreReady, rfl, ?_⟩
    rw [State.withChip_chip, Chip.restoreReady_next h1 h4 hr]
    exact ⟨rfl, Chip.armed_arm .., rfl, rfl, State.withChip_flash ..⟩
  · refine ⟨s.withChip s.chip.restoreReady, rfl, ?_⟩
    obtain ⟨hpwr, hstate, harm, hout⟩ := s.chip.powerBack_frame
    rw [State.withChip_chip, Chip.restoreReady_back h3 hr, hpwr]
    exact ⟨rfl, rfl, hstate, rfl, harm, hout, State.withChip_flash ..⟩
  · refine ⟨s.withChip s.chip.restoreReady, rfl, ?_⟩
    obtain ⟨g, hpwr⟩ := s.chip.restored_pwr
    obtain ⟨hstate, htime⟩ := s.chip.restored_regs
    rw [State.withChip_chip, Chip.restoreReady_last h4 hr, hpwr]
    exact ⟨rfl, rfl, hstate, rfl, rfl, htime, State.withChip_flash ..⟩

end Sys2Proof.Machine
end

section
/-!
PROOFS. The boot of the Keeper and the start of the module (R358, R372 to R378, R409 to R411).
-/
namespace Sys2Proof.Machine

/-! ## What FOG_RELEASE asked of a boot (R358) -/

/-- `d` shows a boot the same request of FOG_RELEASE as `c`, and the same module Fog. -/
structure Chip.SameRelease (c d : Chip) : Prop where
  release : d.kpr.fogRelease = c.kpr.fogRelease
  fog : d.inModFog = c.inModFog

theorem Chip.SameRelease.trans {a b c : Chip} (h : a.SameRelease b) (h' : b.SameRelease c) : a.SameRelease c :=
  ⟨h'.release.trans h.release, h'.fog.trans h.fog⟩

theorem Chip.SameRelease.wr (c : Chip) {o : Nat} (w : Word) (h : Reg.SAF_STATUS ≠ o) : c.SameRelease (c.wr o w) :=
  ⟨congrArg Kpr.fogRelease (c.wr_kpr o w), congrArg (fun w => getF w Bit.SAF_STATUS_MODULE_FOG != 0) (c.rd_wr_other w h)⟩

theorem Chip.SameRelease.setFld (c : Chip) {o : Nat} (f : Fld) (v : Nat) (h : Reg.SAF_STATUS ≠ o) : c.SameRelease (c.setFld o f v) :=
  .wr c _ h

theorem Chip.SameRelease.syncFuses (c : Chip) : c.SameRelease c.syncFuses := by
  have hne : Reg.SAF_STATUS ≠ Reg.FUSE_STATUS := by decide
  exact (((Chip.SameRelease.setFld c _ _ hne).trans (.setFld _ _ _ hne)).trans (.setFld _ _ _ hne)).trans (.setFld _ _ _ hne)

theorem Chip.SameRelease.takeFw (c : Chip) (m : SMap Byte) (slot : Nat) (fell : Bool) : c.SameRelease (c.takeFw m slot fell) := by
  have hne : Reg.SAF_STATUS ≠ Reg.KPR_STATUS := by decide
  have himage : ∀ (d : Chip) (a b : Nat) (x : List Nat),
      d.SameRelease { d with kpr := { d.kpr with fwSvn := a, fwKey := b, fwDigest := x } } := fun _ _ _ _ => ⟨rfl, rfl⟩
  exact (((Chip.SameRelease.setFld c _ _ hne).trans (.setFld _ _ _ hne)).trans (.wr _ _ (by decide))).trans (himage _ _ _ _)

/-! ## KEEPER_BOOT (Table 13.5) -/

theorem exec_keeperBoot (o : BootOutcome) (s : State) : exec (.keeperBoot o) s = .next (s.keeperBoot o) := rfl

theorem Chip.lockTestFails_eq (c : Chip) : c.lockTestFails =
    (let d := (({ c with kpr := { c.kpr with fogRelease := false } } : Chip).setBit Reg.SAF_EVENT
       Bit.SAF_EVENT_LOCKSTEP).moduleFog fogLockstep 88
     if c.kpr.fogRelease = true ∧ c.inModFog = true ∧ c.bootFog = false then
       d.setFld Reg.MOD_FOG_CAUSE Bit.MOD_FOG_CAUSE_CAUSE fogLockstep
     else d) := by
  have hcond : (c.kpr.fogRelease && c.inModFog && !c.bootFog) = true ↔
      c.kpr.fogRelease = true ∧ c.inModFog = true ∧ c.bootFog = false := by
    rw [Bool.and_eq_true, Bool.and_eq_true, Bool.not_eq_true', and_assoc]
  unfold Chip.lockTestFails
  exact if_congr hcond rfl rfl

section Boot
variable {s : State} {o : BootOutcome} (hm : s.chip.mayBoot = true)
include hm

/-- A boot whose lockstep self-test fails. -/
theorem State.keeperBoot_of_lockFail (ho : o.lockOk = false) : s.keeperBoot o = s.withChip s.chip.lockTestFails := by
  unfold State.keeperBoot
  rw [if_neg (by rw [hm]; decide), if_pos (by rw [ho]; decide)]
  rfl

/-- A boot whose lockstep self-test passes takes the firmware, then the Light List, and recovers where one of them fails. -/
theorem State.keeperBoot_of_lockOk (ho : o.lockOk = true) {c : Chip}
    (hc : c = s.chip.syncFuses.setFld Reg.KPR_STATUS Bit.KPR_STATUS_NO_RECORD (b2n (commitNow s.flash).isNone)) :
    s.keeperBoot o = match s.bootSlot with
      | none => s.withChip
          (({ c with kpr := { c.kpr with fwKey := 2 } } : Chip).setBit Reg.KPR_STATUS Bit.KPR_STATUS_FALLBACK).recover
      | some (slot, fell) => match s.bootLl with
        | none => s.withChip ((c.takeFw s.flash slot fell).setBit Reg.KPR_STATUS Bit.KPR_STATUS_LL_FALLBACK).recover
        | some (ll, llFell) =>
          let d := ((c.takeFw s.flash slot fell).setFld Reg.KPR_STATUS Bit.KPR_STATUS_LL_SLOT ll).setFld Reg.KPR_STATUS
            Bit.KPR_STATUS_LL_FALLBACK (b2n llFell)
          let t := (s.withChip (d.bootRun (lightListOf s.flash ll) o)).keepRecover
          if d.kpr.fogRelease && d.inModFog then t.selftest o.cmpFail else t := by
  subst hc
  unfold State.keeperBoot
  rw [if_neg (by rw [hm]; decide), if_neg (by rw [ho]; decide)]
  generalize s.bootSlot = fw
  generalize s.bootLl = ll
  obtain _ | ⟨slot, fell⟩ := fw
  · rfl
  · obtain _ | ⟨ll, llFell⟩ := ll
    · rfl
    · rfl

end Boot

/-- The registers that name what runs leave what FOG_RELEASE asked for. -/
theorem Chip.SameRelease.named (c : Chip) (m : SMap Byte) (n slot ll : Nat) (fell llFell : Bool) :
    c.SameRelease ((((c.syncFuses.setFld Reg.KPR_STATUS Bit.KPR_STATUS_NO_RECORD n).takeFw m slot fell).setFld Reg.KPR_STATUS
      Bit.KPR_STATUS_LL_SLOT ll).setFld Reg.KPR_STATUS Bit.KPR_STATUS_LL_FALLBACK (b2n llFell)) := by
  have hne : Reg.SAF_STATUS ≠ Reg.KPR_STATUS := by decide
  exact ((((Chip.SameRelease.syncFuses c).trans (.setFld _ _ _ hne)).trans (.takeFw _ _ _ _)).trans (.setFld _ _ _ hne)).trans
    (.setFld _ _ _ hne)

/-! ## The islands, and the end of BOOT (R409, R411) -/

theorem exec_islandStartTimeout (s : State) : exec .islandStartTimeout s = .next (s.withChip s.chip.islandTimeout) := rfl

theorem exec_bootEnd (s : State) : exec .bootEnd s = .next (s.withChip s.chip.bootEnd) := rfl

section Islands
variable {c : Chip} (hd : c.due .islandStart = true)
include hd

theorem Chip.islandTimeout_allUp (h : islandsToStart.all c.islandUp = true) : c.islandTimeout = c.disarm .islandStart := by
  have hgone : islandsToStart.filter (fun i => !c.islandUp i) = [] :=
    List.filter_eq_nil_iff.mpr fun i hi => by rw [List.all_eq_true.mp h i hi]; decide
  unfold Chip.islandTimeout
  rw [if_neg (by rw [hd]; decide)]
  exact if_pos (congrArg List.isEmpty hgone)

theorem Chip.islandTimeout_missing (h : islandsToStart.all c.islandUp = false) : c.islandTimeout =
    (islandsToStart.filter (fun i => !c.islandUp i)).foldl (fun c i => c.log .startFail [i])
      { c.disarm .islandStart with pwr := { c.pwr with startFail := true } } := by
  obtain ⟨i, hi, hdown⟩ := List.all_eq_false.mp h
  have hmem : i ∈ islandsToStart.filter (fun i => !c.islandUp i) :=
    List.mem_filter.mpr ⟨hi, by rw [Bool.eq_false_of_not_eq_true hdown]; decide⟩
  have hgone : ¬ (islandsToStart.filter (fun i => !c.islandUp i)).isEmpty = true := fun he =>
    List.ne_nil_of_mem hmem (List.isEmpty_iff.mp he)
  unfold Chip.islandTimeout
  rw [if_neg (by rw [hd]; decide)]
  exact if_neg hgone

end Islands

theorem Chip.bootEnd_of_ends {c : Chip} (h : c.bootEnds = true) : c.bootEnd = (List.range 64).foldl (fun c v => c.sendDrs v)
    ((c.endModuleFog.setBit Reg.START_STATUS Bit.START_STATUS_BOOT_DONE).disarm .islandStart) := if_pos h

/-- Settles O51: the equations of the four commands, case by case of their conditions. -/
theorem bootStartsTheModule : Obligations.BootStartsTheModule := by
  unfold Obligations.BootStartsTheModule
  refine ⟨fun s o hm ho => ?_, fun s o c hm ho hc => ?_, fun s hd => ⟨fun hall => ?_, fun hmiss => ?_⟩, fun s hends => ?_⟩
  · rw [exec_keeperBoot, State.keeperBoot_of_lockFail hm ho, Chip.lockTestFails_eq]
  · rw [exec_keeperBoot, State.keeperBoot_of_lockOk hm ho hc]
    generalize s.bootSlot = fw
    generalize s.bootLl = ll
    obtain _ | ⟨slot, fell⟩ := fw
    · rfl
    · obtain _ | ⟨ll, llFell⟩ := ll
      · rfl
      · subst hc
        obtain ⟨hrel, hfog⟩ := Chip.SameRelease.named s.chip s.flash (b2n (commitNow s.flash).isNone) slot ll fell llFell
        refine congrArg Host.Outcome.next (if_congr ?_ rfl rfl)
        rw [hrel, hfog, Bool.and_eq_true]
  · rw [exec_islandStartTimeout, Chip.islandTimeout_allUp hd hall]
  · rw [exec_islandStartTimeout, Chip.islandTimeout_missing hd hmiss]
  · rw [exec_bootEnd, Chip.bootEnd_of_ends hends]

end Sys2Proof.Machine
end

section
/-!
PROOFS. SPDM and the debug port (R389 to R394, R483).
-/
namespace Sys2Proof.Machine

/-! ## Who is answered (R389, R390) -/

/-- An SPDM request reaches the Keeper: over an I3C port that has its addresses, or over an upstream port in DL_Active. -/
def Chip.spdmReach (c : Chip) (via : Nat) : Prop :=
  via < 2 ∧ c.pwr.addrSel.isSome = true ∨ 2 ≤ via ∧ (c.port (via - 2)).up = true ∧ c.dlUp (via - 2) = true

theorem exec_spdmRequest (via who : Nat) (r : SpdmReq) (s : State) :
    exec (.spdmRequest via who r) s = .next (s.spdmRequest via who r) := rfl

theorem State.spdmRequest_of_reach {s : State} {via : Nat} (who : Nat) (r : SpdmReq) (hserves : s.chip.keeperServes = true)
    (hreach : s.chip.spdmReach via) : s.spdmRequest via who r =
      if s.chip.spdmStage who = 0 ∧ 8 ≤ s.chip.kpr.spdm.length then s.withChip (s.chip.emit (.spdm via who .busy))
      else (s.spdmAnswer via who r).1.withChip
        ((s.spdmAnswer via who r).1.chip.emit (.spdm via who (s.spdmAnswer via who r).2)) := by
  have hr : (if via < 2 then s.chip.pwr.addrSel.isSome else (s.chip.port (via - 2)).up && s.chip.dlUp (via - 2)) = true := by
    obtain ⟨hi3c, hsel⟩ | ⟨hport, hup, hdl⟩ := hreach
    · rw [if_pos hi3c, hsel]
    · rw [if_neg (Nat.not_lt.mpr hport), hup, hdl, Bool.and_self]
  unfold State.spdmRequest
  dsimp only
  rw [if_neg (by rw [hr, hserves]; decide)]
  rfl

/-! ## What a requester is answered (R390, R391) -/

section Answers
variable (s : State) (via : Nat) {who : Nat}

theorem State.spdmAnswer_getVersion (who : Nat) :
    s.spdmAnswer via who .getVersion = (s.withChip (s.chip.setSpdm who 1), .version 1 3) := rfl

variable {s}

theorem State.spdmAnswer_getCapabilities (h : s.chip.spdmStage who = 1) :
    s.spdmAnswer via who .getCapabilities = (s.withChip (s.chip.setSpdm who 2), .capabilities (spdmCaps via)) := if_pos h

theorem State.spdmAnswer_negotiate (h : s.chip.spdmStage who = 2) :
    s.spdmAnswer via who (.negotiateAlgorithms true) = (s.withChip (s.chip.setSpdm who 3), .algorithms spdmAlgs) := if_pos ⟨h, rfl⟩

theorem State.spdmAnswer_negotiate_refused (who : Nat) :
    s.spdmAnswer via who (.negotiateAlgorithms false) = (s, .unexpected) := if_neg fun h => Bool.false_ne_true h.2

/-- A measurement of Table 13.11 is answered to a requester that has negotiated, and signed where the request asks for it. -/
theorem State.spdmAnswer_getMeasurements (who : Nat) {i : Nat} (sign : Bool) (h1 : 1 ≤ i) (h6 : i ≤ 6) :
    s.spdmAnswer via who (.getMeasurements i sign) =
      if s.chip.spdmStage who = 3 then
        if sign then (s.withChip s.chip.drew, .measurements [(i, s.chip.measurement i)] s.chip.sigField)
        else (s, .measurements [(i, s.chip.measurement i)] [])
      else (s, .unexpected) := by
  unfold State.spdmAnswer
  dsimp only
  rw [if_pos ⟨h1, h6⟩]
  cases sign with
  | false => rfl
  | true => rfl

theorem State.spdmAnswer_setCertificate (h : s.chip.spdmStage who = 3) (chain : List Byte) (h0 : 0 < chain.length)
    (hmax : chain.length ≤ 32768) : s.spdmAnswer 0 who (.setCertificate 1 chain) =
      if Config.leafKey chain = Config.identityKey s.chip.kpr.idSeed then (s.withCert s.chip chain, .setCertificate)
      else (s, .refused) := by
  have hput : s.putCert chain = if Config.leafKey chain = Config.identityKey s.chip.kpr.idSeed then (s.withCert s.chip chain, true)
      else (s, false) := if_neg (by omega)
  have hans : s.spdmAnswer 0 who (.setCertificate 1 chain) =
      if (s.putCert chain).2 then ((s.putCert chain).1, .setCertificate) else ((s.putCert chain).1, .refused) := by
    unfold State.spdmAnswer
    dsimp only
    rw [if_neg (by decide), if_neg (not_not_intro h), if_neg (by decide)]
  rw [hans, hput]
  split <;> rfl

theorem State.spdmAnswer_setCertificate_refused (h : s.chip.spdmStage who = 3) {slot : Nat} {chain : List Byte}
    (hbad : slot ≠ 1 ∨ chain.length = 0 ∨ 32768 < chain.length) :
    s.spdmAnswer 0 who (.setCertificate slot chain) = (s, .refused) := by
  unfold State.spdmAnswer
  dsimp only
  rw [if_neg (by decide), if_neg (not_not_intro h)]
  by_cases hslot : slot = 1
  · have hput : s.putCert chain = (s, false) := if_pos (hbad.resolve_left (not_not_intro hslot))
    rw [if_neg (not_not_intro hslot), hput]
    rfl
  · exact if_pos hslot

theorem State.spdmAnswer_setCertificate_elsewhere (who : Nat) (h : via ≠ 0) (slot : Nat) (chain : List Byte) :
    s.spdmAnswer via who (.setCertificate slot chain) = (s, .refused) := if_pos h

end Answers

/-- R390: SET_CERTIFICATE is offered on the primary I3C port alone. -/
theorem spdmCaps_setCert (via : Nat) : (spdmCaps via).setCert = true ↔ via = 0 := beq_iff_eq

/-- The signature field has the length of R391, whatever the signature's own is. -/
theorem Chip.sigField_length (c : Chip) : c.sigField.length = 1462 := by
  rw [Chip.sigField, List.length_take, List.length_append, List.length_replicate]
  exact Nat.min_eq_left (Nat.le_add_left _ _)

/-! ## The debug port (R392 to R394, R483) -/

theorem exec_dbgNonce (s : State) : exec .dbgNonce s = .next (s.withChip s.chip.dbgNonce) := rfl

theorem exec_dbgUnlock (tok : List Byte) (s : State) : exec (.dbgUnlock tok) s = .next (s.withChip (s.chip.dbgUnlock tok)) := rfl

theorem exec_keeperDebug (halt : Bool) (s : State) : exec (.keeperDebug halt) s = .next (s.withChip (s.chip.keeperDebug halt)) := rfl

theorem exec_extest (bits : List Nat) (s : State) : exec (.extest bits) s = .next (s.withChip
    (if s.chip.pwr.resetLow then s.chip.emit (.scan bits) else if s.chip.pwr.standby then s.chip.log .extest [] else s.chip)) := rfl

theorem Chip.dbgNonce_of_serves {c : Chip} (hs : c.keeperServes = true) (hn : c.kpr.nonceAfter ≤ c.now) : c.dbgNonce =
    (({ c with kpr := { c.kpr with nonce := some (c.freeVal % 2 ^ 256, c.now + 60 * sec) } } : Chip).drew).emit
      (.debugReply (leBytes 32 (c.freeVal % 2 ^ 256))) :=
  if_neg (by rw [hs, decide_eq_false (Nat.not_lt.mpr hn)]; decide)

/-- The attempt consumes the nonce and is logged. -/
def Chip.tokenTried (c : Chip) (ok : Bool) : Chip :=
  ({ c with kpr := { c.kpr with nonce := none } } : Chip).log .debugUnlock [] [b2n ok]

/-- The scopes of a token are open for its lifetime. -/
def Chip.unlockFor (c : Chip) (scopes key fin : Nat) : Chip :=
  let d := ({ c with kpr := { c.kpr with unlockEnd := c.now + fin } } : Chip).arm .unlock fin
  ((d.setFld Reg.DBG_STATUS Bit.DBG_STATUS_DEBUG_MASTER (scopes % 2)).setFld Reg.DBG_STATUS Bit.DBG_STATUS_KEEPER_DEBUG
    (scopes / 2 % 2)).setFld Reg.DBG_STATUS Bit.DBG_STATUS_KEY key

/-- A token is refused: no nonce within the next second. -/
def Chip.unlockRefused (c : Chip) : Chip :=
  ({ c with kpr := { c.kpr with nonceAfter := c.now + sec } } : Chip).setBit Reg.KPR_EVENT Bit.KPR_EVENT_UNLOCK_REFUSED

theorem Chip.dbgUnlock_of_serves {c : Chip} (hs : c.keeperServes = true) (tok : List Byte) : c.dbgUnlock tok =
    if c.tokenAccepted tok then (c.tokenTried (c.tokenAccepted tok)).unlockFor (leNat tok 100 1) (leNat tok 101 1)
      (leNat tok 102 2 * 60 * sec)
    else (c.tokenTried (c.tokenAccepted tok)).unlockRefused :=
  if_neg (by rw [hs]; decide)

section Tried
variable (c : Chip) (ok : Bool)

theorem Chip.tokenTried_kpr : (c.tokenTried ok).kpr = { c.kpr with nonce := none } :=
  (congrArg Chip.kpr (Chip.SameButLog.log { c with kpr := { c.kpr with nonce := none } } .debugUnlock [] [b2n ok]).rest :)

theorem Chip.tokenTried_now : (c.tokenTried ok).now = c.now :=
  (congrArg Chip.watchUp (Chip.SameButLog.log { c with kpr := { c.kpr with nonce := none } } .debugUnlock [] [b2n ok]).rest :)

theorem Chip.tokenTried_rd_dbgStatus : (c.tokenTried ok).rd Reg.DBG_STATUS = c.rd Reg.DBG_STATUS :=
  Chip.rd_log _ _ _ _ (not_isLogReg (by decide) (by decide) (by decide))

end Tried

section UnlockFor
variable (c : Chip) (scopes key fin : Nat)

theorem Chip.unlockFor_kpr : (c.unlockFor scopes key fin).kpr = { c.kpr with unlockEnd := c.now + fin } :=
  (Chip.setFld_kpr ..).trans ((Chip.setFld_kpr ..).trans ((Chip.setFld_kpr ..).trans (Chip.arm_kpr ..)))

theorem Chip.unlockFor_armed : (c.unlockFor scopes key fin).armed .unlock = true := by
  have htimers : (c.unlockFor scopes key fin).timers =
      (({ c with kpr := { c.kpr with unlockEnd := c.now + fin } } : Chip).arm .unlock fin).timers :=
    (Chip.setFld_timers ..).trans ((Chip.setFld_timers ..).trans (Chip.setFld_timers ..))
  exact (congrArg (fun l => l.any (fun e => decide (e.1 = TimerId.unlock))) htimers).trans (Chip.armed_arm _ _ _)

theorem Chip.unlockFor_debugMaster :
    (c.unlockFor scopes key fin).fld Reg.DBG_STATUS Bit.DBG_STATUS_DEBUG_MASTER = scopes % 2 := by
  unfold Chip.unlockFor
  rw [Chip.fld_setFld_otherField _ _ _ _ _ (by decide) (by decide), Chip.fld_setFld_otherField _ _ _ _ _ (by decide) (by decide),
    Chip.fld_setFld_same _ _ _ _ (by decide)]
  exact Nat.mod_mod _ 2

theorem Chip.unlockFor_keeperDebug :
    (c.unlockFor scopes key fin).fld Reg.DBG_STATUS Bit.DBG_STATUS_KEEPER_DEBUG = scopes / 2 % 2 := by
  unfold Chip.unlockFor
  rw [Chip.fld_setFld_otherField _ _ _ _ _ (by decide) (by decide), Chip.fld_setFld_same _ _ _ _ (by decide)]
  exact Nat.mod_mod _ 2

end UnlockFor

section Refused
variable (c : Chip)

theorem Chip.unlockRefused_kpr : c.unlockRefused.kpr = { c.kpr with nonceAfter := c.now + sec } := Chip.setBit_kpr ..

theorem Chip.unlockRefused_flag : c.unlockRefused.flag Reg.KPR_EVENT Bit.KPR_EVENT_UNLOCK_REFUSED = true :=
  Chip.flag_setBit_same _ _ _ (by decide) (by decide)

theorem Chip.unlockRefused_rd_dbgStatus : c.unlockRefused.rd Reg.DBG_STATUS = c.rd Reg.DBG_STATUS :=
  Chip.rd_setFld_other _ _ _ (by decide)

end Refused

/-! ## The end of an unlock (R394) -/

/-- The unlock has ended, and its end is logged. -/
def Chip.debugLocked (c : Chip) : Chip := c.unlockEnds.log .debugLock []

theorem exec_dbgLock_of_unlocked {s : State} (h : s.chip.unlocked = true) :
    exec .dbgLock s = .next (s.withChip s.chip.debugLocked) :=
  congrArg (fun c => Host.Outcome.next (s.withChip c)) (if_pos h)

theorem exec_unlockLifetimeExpiry_of_due {s : State} (h : s.chip.due .unlock = true) :
    exec .unlockLifetimeExpiry s = .next (s.withChip s.chip.debugLocked) :=
  congrArg (fun c => Host.Outcome.next (s.withChip c)) (if_pos h)

/-- An unlock that ended leaves no scope, no lifetime and no core halted. -/
theorem Chip.debugLocked_closed (c : Chip) : c.debugLocked.rd Reg.DBG_STATUS = 0 ∧ c.debugLocked.unlocked = false ∧
    c.debugLocked.kpr.halted = false := by
  have hrest := (Chip.SameButLog.log c.unlockEnds .debugLock [] []).rest
  have hkpr : c.unlockEnds.kpr = { c.kpr with unlockEnd := 0, halted := false } := (Chip.wr_kpr ..).trans (Chip.disarm_kpr ..)
  have harmed : c.unlockEnds.armed .unlock = false :=
    (congrArg (fun l => l.any (fun e => decide (e.1 = TimerId.unlock))) (Chip.wr_timers ..)).trans (Chip.armed_disarm _ _)
  exact ⟨(Chip.rd_log _ _ _ _ (not_isLogReg (by decide) (by decide) (by decide))).trans (Chip.rd_wr_same _ _ _),
    (Chip.armed_log _ _ _ _ (fun _ h => by cases h)).trans harmed,
    (congrArg Kpr.halted ((congrArg Chip.kpr hrest :) : c.debugLocked.kpr = c.unlockEnds.kpr)).trans (congrArg Kpr.halted hkpr)⟩

/-- Settles O52: SPDM by the stage of the requester, the debug port by the outcome of each attempt. -/
theorem spdmAndDebugComplete : Obligations.SpdmAndDebugComplete := by
  unfold Obligations.SpdmAndDebugComplete
  refine ⟨fun s via who r hserves hreach => ⟨fun hroom => ?_, fun hnew hfull => ?_⟩,
    fun s via who => ⟨s.spdmAnswer_getVersion via who, State.spdmAnswer_getCapabilities via, rfl, rfl, rfl, rfl, spdmCaps_setCert via,
      rfl, rfl, rfl, rfl, fun h => ⟨State.spdmAnswer_negotiate via h, State.spdmAnswer_negotiate_refused via who⟩,
      fun h => ⟨if_neg h, fun i sign h1 h6 => ?_⟩, fun h i h1 h6 => ⟨?_, ?_, s.chip.sigField_length⟩,
      State.spdmAnswer_setCertificate, fun h _ _ => State.spdmAnswer_setCertificate_refused h,
      State.spdmAnswer_setCertificate_elsewhere via who⟩,
    fun s hserves hn => ⟨_, exec_dbgNonce s, ?_⟩, fun s tok hserves => ⟨_, exec_dbgUnlock tok s, ?_⟩,
    fun s => ⟨fun h => ⟨_, exec_dbgLock_of_unlocked h, ?_⟩, fun h => ⟨_, exec_unlockLifetimeExpiry_of_due h, ?_⟩⟩,
    fun s halt hruns hscope => ?_, fun s bits => ⟨fun hlow => ?_, fun hhigh hstandby => ?_⟩⟩
  · rw [exec_spdmRequest, State.spdmRequest_of_reach who r hserves hreach, if_neg (by omega)]
  · rw [exec_spdmRequest, State.spdmRequest_of_reach who r hserves hreach, if_pos ⟨hnew, hfull⟩]
  · rw [State.spdmAnswer_getMeasurements via who sign h1 h6, if_neg h]
  · rw [State.spdmAnswer_getMeasurements via who false h1 h6, if_pos h]
    rfl
  · rw [State.spdmAnswer_getMeasurements via who true h1 h6, if_pos h]
    rfl
  · rw [State.withChip_chip, State.withChip_flash, Chip.dbgNonce_of_serves hserves hn]
    exact ⟨rfl, rfl, rfl, rfl, rfl⟩
  · rw [State.withChip_chip, State.withChip_flash, Chip.dbgUnlock_of_serves hserves tok]
    split
    next =>
      rw [Chip.unlockFor_kpr, Chip.tokenTried_kpr, Chip.tokenTried_now]
      exact ⟨rfl, rfl, Chip.unlockFor_armed _ _ _ _, Chip.unlockFor_debugMaster _ _ _ _, Chip.unlockFor_keeperDebug _ _ _ _, rfl⟩
    next =>
      rw [Chip.unlockRefused_kpr, Chip.unlockRefused_rd_dbgStatus, Chip.tokenTried_kpr, Chip.tokenTried_now,
        Chip.tokenTried_rd_dbgStatus]
      exact ⟨rfl, rfl, Chip.unlockRefused_flag _, rfl, rfl⟩
  · obtain ⟨hrd, hlocked, hrun⟩ := s.chip.debugLocked_closed
    exact ⟨hrd, hlocked, hrun, rfl⟩
  · obtain ⟨hrd, hlocked, hrun⟩ := s.chip.debugLocked_closed
    exact ⟨hrd, hlocked, hrun, rfl⟩
  · have hgate : (s.chip.busRuns .keeper && s.chip.flag Reg.DBG_STATUS Bit.DBG_STATUS_KEEPER_DEBUG) = true := by
      rw [hruns, hscope, Bool.and_self]
    exact congrArg (fun c => Host.Outcome.next (s.withChip c)) (if_pos hgate)
  · rw [exec_extest, if_pos hlow]
  · rw [exec_extest, if_neg (by rw [hhigh]; decide), if_pos hstandby]

end Sys2Proof.Machine
end
